-- ==== Sys2Proof/Word.lean ====
section
/-! DEFINITION. The word types of the node and nothing else: R10 makes every register 64 bits, R303 every guard-coded
data word 128 bits; bytes are the unit of memory (R7). -/
namespace Sys2Proof

/-- A byte of memory, of a descriptor or of a packet (R7). -/
abbrev Byte := BitVec 8
/-- A 64-bit register, descriptor or scalar value (R10). -/
abbrev W64 := BitVec 64
/-- A 128-bit data word, the unit the guard code protects (R303). -/
abbrev W128 := BitVec 128

end Sys2Proof
end

