-- ==== Sys2Proof/Machine/Bits.lean ====
section
/-! DEFINITION. Helpers every other file of the model is written over: bit fields of natural numbers, little-endian byte
strings (R7), and the sorted key-value lists that hold sparse state. -/
namespace Sys2Proof.Machine

/-- Bits `lo + w - 1 : lo` of `n` (R7 numbers bits from 0 at the least significant). -/
def bits (n lo w : Nat) : Nat := (n >>> lo) % 2 ^ w

/-- Bit `i` of `n` as a flag. -/
def bit (n i : Nat) : Bool := n.testBit i

/-- One as a number where the flag holds. -/
def b2n (b : Bool) : Nat := if b then 1 else 0

/-- `n` with bits `lo + w - 1 : lo` replaced by `v`. -/
def setBits (n lo w v : Nat) : Nat :=
  n - (bits n lo w <<< lo) + ((v % 2 ^ w) <<< lo)

/-- `n` with bit `i` set to `b`. -/
def setBit (n i : Nat) (b : Bool) : Nat := setBits n i 1 (b2n b)

/-- The signed value of the low `w` bits of `n`. -/
def sx (w n : Nat) : Int :=
  let m := n % 2 ^ w
  if m ≥ 2 ^ (w - 1) then (m : Int) - (2 ^ w : Nat) else (m : Int)

/-- The low `w` bits of a signed value, as an unsigned number. -/
def ux (w : Nat) (i : Int) : Nat := (i % ((2 ^ w : Nat) : Int)).toNat

/-- A count that stays at `2^w - 1` once it gets there. -/
def satTo (w n : Nat) : Nat := min n (2 ^ w - 1)

/-- The number of set bits of the low `w` bits of `n`. -/
def popcount (w n : Nat) : Nat := ((List.range w).filter (fun i => n.testBit i)).length

/-- The set bits of the low `w` bits of `n`, lowest first. -/
def setBitsOf (w n : Nat) : List Nat := (List.range w).filter (fun i => n.testBit i)

/-- The number whose set bits are those at which `p` holds, below `w`. -/
def maskOf (w : Nat) (p : Nat → Bool) : Nat :=
  (List.range w).foldl (fun a i => if p i then a + 2 ^ i else a) 0

/-- Ceiling division; zero divisor answers zero. -/
def ceilDiv (a b : Nat) : Nat := (a + (b - 1)) / b

/-- `n` rounded up to a multiple of `m`. -/
def roundUp (n m : Nat) : Nat := ceilDiv n m * m

/-- `⌊log2 n⌋`, 0 at 0. -/
def log2 (n : Nat) : Nat := n.log2

/-- The number of bits needed to write `n`. -/
def bitLen (n : Nat) : Nat := if n = 0 then 0 else n.log2 + 1

/-- Whether `n` is a power of two. -/
def isPow2 (n : Nat) : Bool := n != 0 && 2 ^ n.log2 == n

/-- The low `n` bytes of `v`, least significant first (R7). -/
def toBytes : (n : Nat) → (v : Nat) → List Byte
  | 0, _ => []
  | n + 1, v => BitVec.ofNat 8 v :: toBytes n (v / 256)

/-- The number a little-endian byte string writes (R7). -/
def ofBytes : List Byte → Nat
  | [] => 0
  | b :: bs => b.toNat + 256 * ofBytes bs

/-- The number in `n` bytes of `bs` at offset `off`; bytes beyond the end read 0. -/
def getLE (bs : List Byte) (off n : Nat) : Nat := ofBytes ((bs.drop off).take n)

/-- `bs` with the bytes from offset `off` replaced by `v`; the length never changes. -/
def putAt (bs : List Byte) (off : Nat) (v : List Byte) : List Byte :=
  (bs.take off ++ (v.take (bs.length - off))) ++ bs.drop (off + v.length)

/-- `bs` with an `n`-byte little-endian number put at offset `off`. -/
def putLE (bs : List Byte) (off n v : Nat) : List Byte := putAt bs off (toBytes n v)

/-- `n` zero bytes. -/
def zeros (n : Nat) : List Byte := List.replicate n 0

/-- `bs` cut or zero-extended to `n` bytes. -/
def fitBytes (n : Nat) (bs : List Byte) : List Byte := bs.take n ++ zeros (n - bs.length)

/-- Consecutive chunks of `n` elements (`fuel` bounds the count). -/
def chunksOf (n : Nat) : (fuel : Nat) → List α → List (List α)
  | 0, _ => []
  | _, [] => []
  | f + 1, l => l.take n :: chunksOf n f (l.drop n)

/-- `l` with element `i` replaced, unchanged where `i` is beyond its end. -/
def setAt (l : List α) (i : Nat) (v : α) : List α := l.set i v

/-- Element `i` of `l` updated by `f`. -/
def modAt (l : List α) (i : Nat) (f : α → α) : List α := l.modify i f

/-- Key-value pairs, keys strictly rising. -/
abbrev SMap (α : Type) := List (Nat × α)

/-- The value at key `k`. -/
def mget : SMap α → Nat → Option α
  | [], _ => none
  | (j, v) :: m, k => if j = k then some v else mget m k

/-- `m` with `v` at key `k`, in key order. -/
def mput : SMap α → Nat → α → SMap α
  | [], k, v => [(k, v)]
  | (j, w) :: m, k, v =>
    if k < j then (k, v) :: (j, w) :: m
    else if k = j then (k, v) :: m
    else (j, w) :: mput m k v

/-- `m` without key `k`. -/
def mdel : SMap α → Nat → SMap α
  | [], _ => []
  | (j, w) :: m, k => if j = k then mdel m k else (j, w) :: mdel m k

/-- `m` with the value at `k` put or removed. -/
def mset (m : SMap α) (k : Nat) : Option α → SMap α
  | none => mdel m k
  | some v => mput m k v

/-- The value at `k`, updated where there is one. -/
def mmod (m : SMap α) (k : Nat) (f : α → α) : SMap α :=
  match mget m k with
  | none => m
  | some v => mput m k (f v)

/-- Whether `k` has a value. -/
def mhas (m : SMap α) (k : Nat) : Bool := (mget m k).isSome

/-- The lowest number below `n` that is no key of `m`. -/
def mfree (m : SMap α) (n : Nat) : Option Nat := (List.range n).find? (fun k => !(mhas m k))

/-- A set of numbers as a strictly rising list: insertion. -/
def sinsert : List Nat → Nat → List Nat
  | [], k => [k]
  | j :: m, k => if k < j then k :: j :: m else if k = j then j :: m else j :: sinsert m k

/-- Stable insertion sort by a "goes before or ties" test. -/
def insertBy (le : α → α → Bool) (x : α) : List α → List α
  | [] => [x]
  | y :: ys => if le x y then x :: y :: ys else y :: insertBy le x ys

/-- Stable sort: elements the test ties keep their order. -/
def sortBy (le : α → α → Bool) : List α → List α
  | [] => []
  | x :: xs => insertBy le x (sortBy le xs)

/-- The first index at which `p` holds. -/
def findIdx (p : α → Bool) (l : List α) : Option Nat := l.findIdx? p

/-- The greatest element of a list, `d` where it is empty. -/
def maxD (d : Nat) (l : List Nat) : Nat := l.foldl max d

/-- The sum of a list. -/
def sumNat (l : List Nat) : Nat := l.foldl (· + ·) 0

end Sys2Proof.Machine
end

