-- ==== Sys2Proof/Machine/Guard.lean ====
section
/-! DEFINITION. The guard code RS(18,16) over GF(2^8) and the poison pattern (R302–R306). -/
namespace Sys2Proof.Machine

/-- Multiplication by α = 0x02 in GF(2^8) on 0x11D (R302). -/
def gfDouble (b : Nat) : Nat := let d := 2 * b; if d ≥ 256 then d ^^^ 0x11D else d

/-- Multiplication in GF(2^8), one bit of the second factor per step. -/
def gfMulAux : Nat → Nat → Nat → Nat → Nat
  | 0, _, _, r => r
  | k + 1, a, b, r => gfMulAux k (gfDouble a) (b / 2) (if b % 2 = 1 then r ^^^ a else r)

/-- Multiplication in GF(2^8) (R302). -/
def gfMul (a b : Nat) : Nat := gfMulAux 8 a b 0

/-- α^k. -/
def gfPow : Nat → Nat
  | 0 => 1
  | k + 1 => gfDouble (gfPow k)

/-- The bytes of a codeword by position 0–17 (R302): check bytes, then data bytes. -/
abbrev Codeword := List Nat

/-- S0 (R303). -/
def synd0 (w : Codeword) : Nat := w.foldl (· ^^^ ·) 0

/-- S1 by Horner's rule from the last position (R303). -/
def synd1 : Codeword → Nat
  | [] => 0
  | b :: bs => b ^^^ gfDouble (synd1 bs)

/-- The codeword of 16 data bytes (R303): c1 = (P + Q)·α^−25, c0 = P + c1. -/
def encodeWord (d : List Nat) : Codeword :=
  let p := d.foldl (· ^^^ ·) 0
  let q := gfDouble (gfDouble (synd1 d))
  let c1 := gfMul (p ^^^ q) (gfPow 230)
  (p ^^^ c1) :: c1 :: d

/-- The poisoned form of 16 data bytes (R305). -/
def poisonWord (d : List Nat) : Codeword :=
  match encodeWord d with
  | c0 :: c1 :: r => (c0 ^^^ 0x0A) :: (c1 ^^^ 0x0B) :: r
  | w => w

/-- The class of a stored word (R304), with the position corrected. -/
inductive WClass where
  | clean | poison | corrected (pos : Nat) | uncorrectable
  deriving DecidableEq, Repr

/-- The position j ≤ 17 with S1 = S0·α^j, if any (R304). -/
def errPos (s0 s1 : Nat) : Option Nat := (List.range 18).find? (fun j => gfMul s0 (gfPow j) = s1)

/-- Class a codeword (R304). -/
def classify (w : Codeword) : WClass :=
  let s0 := synd0 w
  let s1 := synd1 w
  if s0 = 0 && s1 = 0 then .clean
  else if s0 = 0x01 && s1 = 0x1C then .poison
  else if s0 ≠ 0 && s1 ≠ 0 then
    match errPos s0 s1 with
    | some j => .corrected j
    | none => .uncorrectable
  else .uncorrectable

/-- The codeword after the correction of R304. -/
def correctWord (w : Codeword) : Codeword :=
  match classify w with
  | .corrected j => modAt w j (· ^^^ synd0 w)
  | _ => w

/-- The data bytes of a codeword, corrected where it can be. -/
def wordData (w : Codeword) : List Byte := ((correctWord w).drop 2).map (BitVec.ofNat 8)

/-- Whether a consumer meets the word as poison: POISON and UNCORRECTABLE act alike (R304). -/
def isBad : WClass → Bool
  | .poison => true
  | .uncorrectable => true
  | _ => false

/-- A word as a consumer or a move sees it. -/
def storedOf (bad : Bool) (d : List Byte) : Codeword :=
  if bad then poisonWord (d.map (·.toNat)) else encodeWord (d.map (·.toNat))

end Sys2Proof.Machine
end

