-- ==== Sys2Proof/Config.lean ====
section
/-! DEFINITION. The values the spec leaves open. Each constant here has no body: nothing in Lean can evaluate it or prove a
value of it, so every statement holds whatever the value is. A fresh use is told apart by the counter `State.fresh`. -/
namespace Sys2Proof.Config

/-- A value the spec leaves undefined, for use number `n` (log entry 6). -/
opaque freeNat : Nat → Nat
/-- Signature check, ECDSA over brainpoolP384r1 with SHA-384 (R489): key, message, signature. The root and token keys are
not in the spec, so the answer is left open (log entry 7). -/
opaque verifies : List Byte → List Byte → List Byte → Bool
/-- The unique device secret of the Crown's fuses (R494), which nothing reads. -/
opaque deviceSecret : BitVec 256
/-- The signature the Crown makes with a private scalar (R497, R500) over a message, ECDSA over brainpoolP384r1 (log entry 7). -/
opaque ecdsaSign : Nat → List Byte → List Byte
/-- The certificate chain in DER, root first (R495), of the device key, the alias key and the measurements (log entry 7). -/
opaque certChain : Nat → Nat → List Byte → List Byte
/-- The SPDM answer (R495), of the SPDM key, the device key that certifies it, the measurements and the request (log entry 7). -/
opaque spdmAnswer : Nat → Nat → List Byte → List Byte → List Byte
/-- Saunduf root public key `i` held in the Crown ROM (R490). -/
opaque rootKey : Nat → List Byte
/-- Saunduf's public key for the tokens of SET_SETTING and VENDOR_UNLOCK (R486, R501). -/
opaque tokenKey : List Byte
/-- Whether a quantity `n` is shown rounded up in units of `d`, where it is no whole number of them and the spec does not say
(log entry 6). -/
opaque roundsUp : Nat → Nat → Bool
/-- The part's serial number (R497), 16 bytes. -/
opaque serial : List Byte
/-- The CXL payload a standard defines and this spec does not lay out (R411), of the opcode and the request. -/
opaque cxlPayload : Nat → List Byte → List Byte
/-- The version of a traversal-engine microprogram that the running firmware carries (R255, R258): none where it has none. -/
opaque traversalVersion : Nat → Option Nat
/-- Built-in kettle program `n` of the signed firmware, 0–7 (R283): its micro-ops. -/
opaque builtinProgram : Nat → List Nat

end Sys2Proof.Config
end

