-- ==== Sys2Proof/Machine/Regs.lean ====
section
/-! DEFINITION. Every register field the spec gives the node (R10, R521): its offset, its bits, its type and its reset
value, one name per field, and the table of the registers by offset. Taken from the field tables of the chapters. A reset
value the spec leaves to the part, a strap, a fuse, flash or the Crown stands as 0 here and is set by `State.reset` or
computed by the read view. Function pages (R525) stand at `pageBase + 0x10000 * t` for tenant `t`. -/
namespace Sys2Proof.Machine

/-- The type of a register field (R10). -/
inductive FTy where
  | ro | rw | w1c | wo | rwl
  deriving DecidableEq, Repr

/-- A register field: offset of its register, lowest bit, width, type, reset value, and the stride to the next register of
its run (R521). -/
structure Fld where
  off : Nat
  lo : Nat
  wid : Nat
  ty : FTy
  rst : Nat
  stride : Nat := 8
  deriving DecidableEq, Repr

/-- The same field of register `i` of the run (R521). -/
def Fld.ix (f : Fld) (i : Nat) : Fld := { f with off := f.off + i * f.stride }

/-- Where the model places the function page of tenant 0 (R525). -/
def pageBase : Nat := 0x10000000

/-- The same field of the function page of tenant `t` (R525). -/
def Fld.pg (f : Fld) (t : Nat) : Fld := { f with off := f.off + t * 0x10000 }

/-- A run of registers of one layout: first offset, number, stride, fields. -/
structure RegRun where
  off : Nat
  count : Nat
  stride : Nat
  flds : List Fld
  deriving DecidableEq, Repr

namespace Reg

/-! ID_PART, R2 -/
def idPartPart : Fld := ⟨0x0, 0, 16, .ro, 0, 8⟩
def idPartVariant : Fld := ⟨0x0, 16, 8, .ro, 0, 8⟩
def idPartBlocks : Fld := ⟨0x0, 24, 8, .ro, 0, 8⟩
def idPartKsites : Fld := ⟨0x0, 32, 8, .ro, 0, 8⟩

/-! ID_RSVDWR, R11 -/
def idRsvdwrRsvdWr : Fld := ⟨0x40, 0, 24, .w1c, 0, 8⟩
def idRsvdwrLockedWr : Fld := ⟨0x40, 24, 24, .w1c, 0, 8⟩
def idRsvdwrNarrowWr : Fld := ⟨0x40, 48, 16, .w1c, 0, 8⟩

/-! ID_NUMSIG, R52 -/
def idNumsigNative : Fld := ⟨0x50, 0, 16, .ro, 0, 8⟩
def idNumsigPortable : Fld := ⟨0x50, 16, 16, .ro, 0x138, 8⟩
def idNumsigLast : Fld := ⟨0x50, 32, 16, .ro, 0, 8⟩

/-! TCK_CTRL, R61 -/
def tckCtrlSyncEn : Fld := ⟨0x20000, 0, 1, .rwl, 0, 8⟩
def tckCtrlCheckMiss : Fld := ⟨0x20000, 4, 4, .rwl, 3, 8⟩
def tckCtrlLock : Fld := ⟨0x20000, 63, 1, .rwl, 0, 8⟩

/-! TCK_COUNT, R61 -/
def tckCountCount : Fld := ⟨0x20008, 0, 64, .ro, 0, 8⟩

/-! TCK_STATUS, R61 -/
def tckStatusState : Fld := ⟨0x20010, 0, 3, .ro, 0, 8⟩
def tckStatusLostWhy : Fld := ⟨0x20010, 4, 4, .ro, 0, 8⟩
def tckStatusStateChg : Fld := ⟨0x20010, 8, 1, .w1c, 0, 8⟩
def tckStatusJumped : Fld := ⟨0x20010, 9, 1, .w1c, 0, 8⟩
def tckStatusBadFrames : Fld := ⟨0x20010, 16, 16, .w1c, 0, 8⟩
def tckStatusPhase : Fld := ⟨0x20010, 32, 16, .ro, 0, 8⟩
def tckStatusMissedRun : Fld := ⟨0x20010, 48, 16, .w1c, 0, 8⟩

/-! TCK_JUMP, R61 -/
def tckJumpDiff : Fld := ⟨0x20018, 0, 64, .ro, 0, 8⟩

/-! TCK_SCHED, R61 -/
def tckSchedUsed : Fld := ⟨0x20020, 0, 11, .ro, 0, 8⟩
def tckSchedHigh : Fld := ⟨0x20020, 16, 11, .w1c, 0, 8⟩
def tckSchedRefused : Fld := ⟨0x20020, 32, 32, .w1c, 0, 8⟩

/-! TCK_XALIGN, R61 -/
def tckXalignCount : Fld := ⟨0x20028, 0, 64, .ro, 0, 8⟩

/-! TCK_TWIN_CTRL, R61 -/
def tckTwinCtrlEn : Fld := ⟨0x20040, 0, 1, .rw, 0, 8⟩
def tckTwinCtrlAction : Fld := ⟨0x20040, 1, 1, .rw, 0, 8⟩
def tckTwinCtrlHold : Fld := ⟨0x20040, 2, 1, .rw, 0, 8⟩
def tckTwinCtrlTenant : Fld := ⟨0x20040, 8, 9, .rw, 0, 8⟩
def tckTwinCtrlLag : Fld := ⟨0x20040, 24, 9, .rw, 0x40, 8⟩

/-! TCK_TWIN_STATUS, R61 -/
def tckTwinStatusState : Fld := ⟨0x20048, 0, 3, .ro, 0, 8⟩
def tckTwinStatusRole : Fld := ⟨0x20048, 3, 1, .ro, 0, 8⟩
def tckTwinStatusDiverged : Fld := ⟨0x20048, 4, 1, .w1c, 0, 8⟩
def tckTwinStatusLinkLost : Fld := ⟨0x20048, 5, 1, .w1c, 0, 8⟩
def tckTwinStatusMismatches : Fld := ⟨0x20048, 32, 32, .w1c, 0, 8⟩

/-! TCK_TWIN_TICK, R61 -/
def tckTwinTickTick : Fld := ⟨0x20050, 0, 64, .ro, 0, 8⟩

/-! TCK_TWIN_WHERE, R61 -/
def tckTwinWhereKind : Fld := ⟨0x20058, 0, 2, .ro, 0, 8⟩
def tckTwinWhereBlock : Fld := ⟨0x20058, 2, 6, .ro, 0, 8⟩
def tckTwinWhereQueue : Fld := ⟨0x20058, 8, 12, .ro, 0, 8⟩
def tckTwinWhereSeg : Fld := ⟨0x20058, 20, 24, .ro, 0, 8⟩
def tckTwinWhereWord : Fld := ⟨0x20058, 44, 9, .ro, 0, 8⟩

/-! TCK_TWIN_SEQ, R61 -/
def tckTwinSeqSeq : Fld := ⟨0x20068, 0, 32, .ro, 0, 8⟩

/-! SRC_CTRL, R132 -/
def srcCtrlAdmit : Fld := ⟨0x300000, 0, 16, .rwl, 0x3e8, 8⟩
def srcCtrlLock : Fld := ⟨0x300000, 63, 1, .rwl, 0, 8⟩

/-! SRC_CAP, R132 -/
def srcCapEngines : Fld := ⟨0x300008, 0, 8, .ro, 0x40, 8⟩
def srcCapSlots : Fld := ⟨0x300008, 16, 16, .ro, 0x100, 8⟩
def srcCapLutKib : Fld := ⟨0x300008, 32, 16, .ro, 0x400, 8⟩
def srcCapHosted : Fld := ⟨0x300008, 48, 16, .ro, 0x1000, 8⟩

/-! SRC_CAP2, R132 -/
def srcCap2Entries : Fld := ⟨0x300010, 0, 32, .ro, 0x10000, 8⟩
def srcCap2Indexes : Fld := ⟨0x300010, 32, 16, .ro, 0x100, 8⟩
def srcCap2Waitq : Fld := ⟨0x300010, 48, 16, .ro, 0x4000, 8⟩

/-! SRC_STATUS, R132 -/
def srcStatusActive : Fld := ⟨0x300018, 0, 15, .ro, 0, 8⟩
def srcStatusWaiting : Fld := ⟨0x300018, 16, 15, .ro, 0, 8⟩
def srcStatusShards : Fld := ⟨0x300018, 32, 13, .ro, 0, 8⟩
def srcStatusIndexes : Fld := ⟨0x300018, 48, 9, .ro, 0, 8⟩

/-! SRC_REFUSE, R132 -/
def srcRefuseBusy : Fld := ⟨0x300020, 0, 32, .w1c, 0, 8⟩
def srcRefuseTableFull : Fld := ⟨0x300020, 32, 16, .w1c, 0, 8⟩

/-! SRC_POISON, R132 -/
def srcPoisonItems : Fld := ⟨0x300028, 0, 32, .w1c, 0, 8⟩
def srcPoisonShardWide : Fld := ⟨0x300028, 32, 32, .w1c, 0, 8⟩

/-! SRC_PATH, R132 -/
def srcPathPrescan : Fld := ⟨0x300030, 0, 32, .w1c, 0, 8⟩
def srcPathExhaustive : Fld := ⟨0x300030, 32, 16, .w1c, 0, 8⟩
def srcPathEngineScan : Fld := ⟨0x300030, 48, 16, .w1c, 0, 8⟩

/-! SRC_CAP3, R168 -/
def srcCap3Versions : Fld := ⟨0x300038, 0, 32, .ro, 0x400000, 8⟩

/-! SRC_UPD_CTRL, R168 -/
def srcUpdCtrlRetireWait : Fld := ⟨0x300040, 0, 16, .rwl, 0x7d0, 8⟩
def srcUpdCtrlVerLow : Fld := ⟨0x300040, 16, 24, .rwl, 0x10000, 8⟩

/-! SRC_VER, R168 -/
def srcVerUsed : Fld := ⟨0x300048, 0, 23, .ro, 0, 8⟩
def srcVerHigh : Fld := ⟨0x300048, 24, 23, .w1c, 0, 8⟩

/-! SRC_UPD, R168 -/
def srcUpdForced : Fld := ⟨0x300050, 0, 32, .w1c, 0, 8⟩
def srcUpdWaits : Fld := ⟨0x300050, 32, 16, .w1c, 0, 8⟩
def srcUpdTableFull : Fld := ⟨0x300050, 48, 16, .w1c, 0, 8⟩

/-! SEL_CTRL, R169 -/
def selCtrlAllStable : Fld := ⟨0x400000, 0, 1, .rwl, 0, 8⟩
def selCtrlLock : Fld := ⟨0x400000, 63, 1, .rwl, 0, 8⟩

/-! SEL_STATUS, R169 -/
def selStatusBusy : Fld := ⟨0x400008, 0, 32, .ro, 0, 8⟩
def selStatusWaiting : Fld := ⟨0x400008, 32, 15, .ro, 0, 8⟩

/-! SEL_MERGE, R169 -/
def selMergeMerges : Fld := ⟨0x400010, 0, 32, .w1c, 0, 8⟩
def selMergeTwoPass : Fld := ⟨0x400010, 32, 32, .w1c, 0, 8⟩

/-! SEL_DUP, R169 -/
def selDupDups : Fld := ⟨0x400018, 0, 32, .w1c, 0, 8⟩
def selDupMismatch : Fld := ⟨0x400018, 32, 32, .w1c, 0, 8⟩

/-! SEL_SHORT, R169 -/
def selShortNonfinite : Fld := ⟨0x400020, 0, 32, .w1c, 0, 8⟩
def selShortShort : Fld := ⟨0x400020, 32, 32, .w1c, 0, 8⟩

/-! CRD_CTRL, R196 -/
def crdCtrlWindow : Fld := ⟨0x500000, 0, 16, .rwl, 0x3e8, 8⟩
def crdCtrlSkewEn : Fld := ⟨0x500000, 16, 1, .rwl, 0, 8⟩
def crdCtrlSkewX : Fld := ⟨0x500000, 20, 4, .rwl, 4, 8⟩
def crdCtrlLock : Fld := ⟨0x500000, 63, 1, .rwl, 0, 8⟩

/-! CRD_CAP, R196 -/
def crdCapCarders : Fld := ⟨0x500008, 0, 8, .ro, 8, 8⟩
def crdCapOutstanding : Fld := ⟨0x500008, 8, 16, .ro, 0x1000, 8⟩
def crdCapWindowEnt : Fld := ⟨0x500008, 24, 16, .ro, 0x1000, 8⟩
def crdCapHotSlots : Fld := ⟨0x500008, 40, 8, .ro, 0xff, 8⟩
def crdCapPins : Fld := ⟨0x500008, 48, 8, .ro, 0xff, 8⟩

/-! CRD_STATUS, R196 -/
def crdStatusActive : Fld := ⟨0x500010, 0, 8, .ro, 0, 8⟩
def crdStatusWaiting : Fld := ⟨0x500010, 8, 16, .ro, 0, 8⟩
def crdStatusTables : Fld := ⟨0x500010, 24, 11, .ro, 0, 8⟩
def crdStatusPins : Fld := ⟨0x500010, 35, 9, .ro, 0, 8⟩

/-! CRD_READS, R196 -/
def crdReadsReads : Fld := ⟨0x500018, 0, 32, .w1c, 0, 8⟩
def crdReadsHotHits : Fld := ⟨0x500018, 32, 32, .w1c, 0, 8⟩

/-! CRD_SCATTER, R196 -/
def crdScatterSwaps : Fld := ⟨0x500020, 0, 32, .w1c, 0, 8⟩
def crdScatterWaits : Fld := ⟨0x500020, 32, 16, .w1c, 0, 8⟩
def crdScatterKept : Fld := ⟨0x500020, 48, 16, .w1c, 0, 8⟩

/-! CRD_REFUSE, R196 -/
def crdRefuseTableFull : Fld := ⟨0x500028, 0, 16, .w1c, 0, 8⟩
def crdRefusePoisoned : Fld := ⟨0x500028, 16, 16, .w1c, 0, 8⟩

/-! FLT_CTRL, R221 -/
def fltCtrlWdogStall : Fld := ⟨0x600000, 0, 16, .rwl, 0xea60, 8⟩
def fltCtrlLock : Fld := ⟨0x600000, 63, 1, .rwl, 0, 8⟩

/-! FLT_CAP, R221 -/
def fltCapPhys : Fld := ⟨0x600008, 0, 8, .ro, 0x48, 8⟩
def fltCapEnabled : Fld := ⟨0x600008, 8, 8, .ro, 0, 8⟩
def fltCapRows : Fld := ⟨0x600008, 16, 4, .ro, 0, 8⟩
def fltCapWindows : Fld := ⟨0x600008, 20, 4, .ro, 4, 8⟩
def fltCapSramKib : Fld := ⟨0x600008, 24, 16, .ro, 0x200, 8⟩
def fltCapBundles : Fld := ⟨0x600008, 40, 16, .ro, 0x1000, 8⟩

/-! FLT_DEFECT, R221 -/
def fltDefectDefect : Fld := ⟨0x600010, 0, 64, .ro, 0, 8⟩

/-! FLT_FENCE, R221 -/
def fltFenceFence : Fld := ⟨0x600018, 0, 64, .rw, 0, 8⟩

/-! FLT_BLK_HI, R221 -/
def fltBlkHiDefectHi : Fld := ⟨0x600020, 0, 8, .ro, 0, 8⟩
def fltBlkHiFenceHi : Fld := ⟨0x600020, 8, 8, .rw, 0, 8⟩
def fltBlkHiPending : Fld := ⟨0x600020, 16, 8, .ro, 0, 8⟩
def fltBlkHiSpares : Fld := ⟨0x600020, 24, 16, .ro, 0, 8⟩
def fltBlkHiShort : Fld := ⟨0x600020, 40, 8, .ro, 0, 8⟩

/-! FLT_BUSY, R221 -/
def fltBusyHeld : Fld := ⟨0x600028, 0, 64, .ro, 0, 8⟩

/-! FLT_MAP (run of 8), R221 -/
def fltMapBlock0 : Fld := ⟨0x600040, 0, 8, .ro, 0, 8⟩
def fltMapBlock1 : Fld := ⟨0x600040, 8, 8, .ro, 0, 8⟩
def fltMapBlock2 : Fld := ⟨0x600040, 16, 8, .ro, 0, 8⟩
def fltMapBlock3 : Fld := ⟨0x600040, 24, 8, .ro, 0, 8⟩
def fltMapBlock4 : Fld := ⟨0x600040, 32, 8, .ro, 0, 8⟩
def fltMapBlock5 : Fld := ⟨0x600040, 40, 8, .ro, 0, 8⟩
def fltMapBlock6 : Fld := ⟨0x600040, 48, 8, .ro, 0, 8⟩
def fltMapBlock7 : Fld := ⟨0x600040, 56, 8, .ro, 0, 8⟩

/-! FLT_LATE, R221 -/
def fltLateReleases : Fld := ⟨0x600080, 0, 32, .w1c, 0, 8⟩

/-! FLT_STALL, R221 -/
def fltStallCycles : Fld := ⟨0x600088, 0, 64, .w1c, 0, 8⟩

/-! FLT_FAULT, R221 -/
def fltFaultClass : Fld := ⟨0x600090, 0, 3, .ro, 0, 8⟩
def fltFaultLblock : Fld := ⟨0x600090, 8, 6, .ro, 0, 8⟩
def fltFaultPos : Fld := ⟨0x600090, 16, 4, .ro, 0, 8⟩
def fltFaultPblock : Fld := ⟨0x600090, 24, 7, .ro, 0, 8⟩
def fltFaultPc : Fld := ⟨0x600090, 32, 12, .ro, 0, 8⟩
def fltFaultSlots : Fld := ⟨0x600090, 44, 4, .ro, 0, 8⟩
def fltFaultValid : Fld := ⟨0x600090, 63, 1, .w1c, 0, 8⟩

/-! FLT_FAULT_CYC, R221 -/
def fltFaultCycIssue : Fld := ⟨0x600098, 0, 64, .ro, 0, 8⟩

/-! FLT_FAULT_TICK, R221 -/
def fltFaultTickTick : Fld := ⟨0x6000a0, 0, 64, .ro, 0, 8⟩

/-! FLT_FAULTS, R221 -/
def fltFaultsIllegal : Fld := ⟨0x6000a8, 0, 16, .w1c, 0, 8⟩
def fltFaultsSchedule : Fld := ⟨0x6000a8, 16, 16, .w1c, 0, 8⟩
def fltFaultsPoison : Fld := ⟨0x6000a8, 32, 16, .w1c, 0, 8⟩
def fltFaultsWatchdog : Fld := ⟨0x6000a8, 48, 16, .w1c, 0, 8⟩

/-! FLT_ECC, R221 -/
def fltEccCorrected : Fld := ⟨0x6000b0, 0, 32, .w1c, 0, 8⟩
def fltEccUncorrected : Fld := ⟨0x6000b0, 32, 32, .w1c, 0, 8⟩

/-! FLT_IMAGES, R274 -/
def fltImagesLoaded : Fld := ⟨0x6000c0, 0, 16, .ro, 0, 8⟩
def fltImagesRunning : Fld := ⟨0x6000c0, 16, 16, .ro, 0, 8⟩
def fltImagesRefused : Fld := ⟨0x6000c0, 32, 16, .w1c, 0, 8⟩
def fltImagesOverruns : Fld := ⟨0x6000c0, 48, 16, .w1c, 0, 8⟩

/-! FLT_ROLE, R274 -/
def fltRoleProfile : Fld := ⟨0x6000c8, 0, 2, .ro, 0, 8⟩
def fltRolePending : Fld := ⟨0x6000c8, 2, 1, .ro, 0, 8⟩
def fltRoleNext : Fld := ⟨0x6000c8, 3, 2, .ro, 0, 8⟩
def fltRoleStageMib : Fld := ⟨0x6000c8, 8, 7, .ro, 0x40, 8⟩

/-! FLT_ROLE_TICK, R274 -/
def fltRoleTickTick : Fld := ⟨0x6000d0, 0, 64, .ro, 0, 8⟩

/-! MC_CTRL (run of 8), R300 -/
def mcCtrlHotC : Fld := ⟨0x800000, 0, 8, .rwl, 0x55, 0x10000⟩
def mcCtrlLock : Fld := ⟨0x800000, 63, 1, .rwl, 0, 0x10000⟩

/-! MC_CAP (run of 8), R300 -/
def mcCapFrames : Fld := ⟨0x800008, 0, 24, .ro, 0, 0x10000⟩
def mcCapPcs : Fld := ⟨0x800008, 24, 8, .ro, 0x20, 0x10000⟩
def mcCapBgs : Fld := ⟨0x800008, 32, 4, .ro, 4, 0x10000⟩
def mcCapKettles : Fld := ⟨0x800008, 36, 1, .ro, 0, 0x10000⟩

/-! MC_STATUS (run of 8), R300 -/
def mcStatusQueued : Fld := ⟨0x800010, 0, 11, .ro, 0, 0x10000⟩
def mcStatusHot : Fld := ⟨0x800010, 16, 1, .ro, 0, 0x10000⟩
def mcStatusWindow : Fld := ⟨0x800010, 17, 1, .ro, 0, 0x10000⟩
def mcStatusFenced : Fld := ⟨0x800010, 18, 1, .ro, 0, 0x10000⟩

/-! MC_READS (run of 8), R300 -/
def mcReadsLines : Fld := ⟨0x800018, 0, 64, .w1c, 0, 0x10000⟩

/-! MC_WRITES (run of 8), R300 -/
def mcWritesLines : Fld := ⟨0x800020, 0, 64, .w1c, 0, 0x10000⟩

/-! MC_RMW (run of 8), R300 -/
def mcRmwRmw : Fld := ⟨0x800028, 0, 32, .w1c, 0, 0x10000⟩
def mcRmwWaits : Fld := ⟨0x800028, 32, 32, .w1c, 0, 0x10000⟩

/-! KTL_CTRL (run of 4), R301 -/
def ktlCtrlMode : Fld := ⟨0x900000, 0, 2, .rwl, 1, 0x10000⟩
def ktlCtrlDirect : Fld := ⟨0x900000, 2, 1, .rwl, 0, 0x10000⟩
def ktlCtrlSharedPcs : Fld := ⟨0x900000, 4, 4, .rwl, 8, 0x10000⟩
def ktlCtrlPoll : Fld := ⟨0x900000, 8, 16, .rwl, 0x100, 0x10000⟩
def ktlCtrlFullGap : Fld := ⟨0x900000, 24, 16, .rwl, 0x1000, 0x10000⟩
def ktlCtrlLock : Fld := ⟨0x900000, 63, 1, .rwl, 0, 0x10000⟩

/-! KTL_FENCE0 (run of 4), R301 -/
def ktlFence0Fence : Fld := ⟨0x900008, 0, 64, .rw, 0, 0x10000⟩

/-! KTL_FENCE1 (run of 4), R301 -/
def ktlFence1Fence : Fld := ⟨0x900010, 0, 64, .rw, 0, 0x10000⟩

/-! KTL_PCDIR (run of 4), R301 -/
def ktlPcdirDirect : Fld := ⟨0x900018, 0, 32, .ro, 0, 0x10000⟩

/-! KTL_STATUS (run of 4), R301 -/
def ktlStatusQueued : Fld := ⟨0x900020, 0, 7, .ro, 0, 0x10000⟩
def ktlStatusWindow : Fld := ⟨0x900020, 8, 1, .ro, 0, 0x10000⟩
def ktlStatusRunning : Fld := ⟨0x900020, 16, 6, .ro, 0, 0x10000⟩

/-! KTL_JOBS (run of 4), R301 -/
def ktlJobsDone : Fld := ⟨0x900028, 0, 32, .w1c, 0, 0x10000⟩
def ktlJobsRefused : Fld := ⟨0x900028, 32, 16, .w1c, 0, 0x10000⟩
def ktlJobsTimeout : Fld := ⟨0x900028, 48, 16, .w1c, 0, 0x10000⟩

/-! KTL_WORDS (run of 4), R301 -/
def ktlWordsStreamed : Fld := ⟨0x900030, 0, 32, .w1c, 0, 0x10000⟩
def ktlWordsPoisoned : Fld := ⟨0x900030, 32, 32, .w1c, 0, 0x10000⟩

/-! KTL_SHARED (run of 4), R301 -/
def ktlSharedDemoted : Fld := ⟨0x900038, 0, 32, .w1c, 0, 0x10000⟩
def ktlSharedSibling : Fld := ⟨0x900038, 32, 32, .w1c, 0, 0x10000⟩

/-! INT_CTRL, R323 -/
def intCtrlLogCe : Fld := ⟨0xa00000, 0, 1, .rwl, 0, 8⟩
def intCtrlCeThresh : Fld := ⟨0xa00000, 8, 24, .rwl, 0x1000, 8⟩
def intCtrlLock : Fld := ⟨0xa00000, 63, 1, .rwl, 0, 8⟩

/-! INT_DRAM, R323 -/
def intDramCorrected : Fld := ⟨0xa00008, 0, 32, .w1c, 0, 8⟩
def intDramUncorrected : Fld := ⟨0xa00008, 32, 32, .w1c, 0, 8⟩

/-! INT_BATT, R323 -/
def intBattCorrected : Fld := ⟨0xa00010, 0, 32, .w1c, 0, 8⟩
def intBattUncorrected : Fld := ⟨0xa00010, 32, 32, .w1c, 0, 8⟩

/-! INT_PATH, R323 -/
def intPathCorrected : Fld := ⟨0xa00018, 0, 32, .w1c, 0, 8⟩
def intPathUncorrected : Fld := ⟨0xa00018, 32, 32, .w1c, 0, 8⟩

/-! INT_MAP, R323 -/
def intMapZeroReads : Fld := ⟨0xa00020, 0, 32, .w1c, 0, 8⟩
def intMapMapFail : Fld := ⟨0xa00020, 32, 16, .w1c, 0, 8⟩

/-! INT_POISON, R323 -/
def intPoisonWritten : Fld := ⟨0xa00028, 0, 24, .w1c, 0, 8⟩
def intPoisonCarried : Fld := ⟨0xa00028, 24, 24, .w1c, 0, 8⟩
def intPoisonConsumed : Fld := ⟨0xa00028, 48, 16, .w1c, 0, 8⟩

/-! INT_SCRUB (run of 4), R323 -/
def intScrubRate : Fld := ⟨0xa00040, 0, 16, .rwl, 0x100, 8⟩
def intScrubEn : Fld := ⟨0xa00040, 16, 1, .rwl, 1, 8⟩
def intScrubPasses : Fld := ⟨0xa00040, 32, 16, .w1c, 0, 8⟩

/-! INT_SCRUBPOS (run of 4), R323 -/
def intScrubposLine : Fld := ⟨0xa00060, 0, 40, .ro, 0, 8⟩

/-! INT_LOG_STATUS, R323 -/
def intLogStatusCount : Fld := ⟨0xa00080, 0, 9, .ro, 0, 8⟩
def intLogStatusPop : Fld := ⟨0xa00080, 16, 1, .wo, 0, 8⟩
def intLogStatusDropped : Fld := ⟨0xa00080, 32, 16, .w1c, 0, 8⟩

/-! INT_LOG_TICK, R323 -/
def intLogTickTick : Fld := ⟨0xa00088, 0, 64, .ro, 0, 8⟩

/-! INT_LOG_ENTRY, R323 -/
def intLogEntryKind : Fld := ⟨0xa00090, 0, 4, .ro, 0, 8⟩
def intLogEntryPlace : Fld := ⟨0xa00090, 4, 4, .ro, 0, 8⟩
def intLogEntryPos : Fld := ⟨0xa00090, 8, 5, .ro, 0, 8⟩
def intLogEntryUnit : Fld := ⟨0xa00090, 16, 8, .ro, 0, 8⟩
def intLogEntryAddr : Fld := ⟨0xa00090, 24, 40, .ro, 0, 8⟩

/-! TIR_CTRL, R350 -/
def tirCtrlMoveWait : Fld := ⟨0xb00000, 0, 16, .rwl, 0x1f4, 8⟩
def tirCtrlPromote : Fld := ⟨0xb00000, 16, 4, .rwl, 4, 8⟩
def tirCtrlAgeLog2 : Fld := ⟨0xb00000, 24, 5, .rwl, 0x10, 8⟩
def tirCtrlLock : Fld := ⟨0xb00000, 63, 1, .rwl, 0, 8⟩

/-! TIR_RANGE, R350 -/
def tirRangePages : Fld := ⟨0xb00008, 0, 29, .rwl, 0x10000000, 8⟩
def tirRangeReserved : Fld := ⟨0xb00008, 32, 17, .ro, 0x10000, 8⟩

/-! TIR_WATER, R350 -/
def tirWaterLow : Fld := ⟨0xb00010, 0, 24, .rwl, 0x4000, 8⟩
def tirWaterHigh : Fld := ⟨0xb00010, 24, 24, .rwl, 0x8000, 8⟩

/-! TIR_POOL, R350 -/
def tirPoolPool : Fld := ⟨0xb00018, 0, 24, .ro, 0, 8⟩
def tirPoolFree : Fld := ⟨0xb00018, 24, 24, .ro, 0, 8⟩
def tirPoolMoves : Fld := ⟨0xb00018, 48, 11, .ro, 0, 8⟩

/-! TIR_SITE (run of 8), R350 -/
def tirSiteFree : Fld := ⟨0xb00040, 0, 21, .ro, 0, 8⟩
def tirSitePages : Fld := ⟨0xb00040, 21, 21, .ro, 0, 8⟩
def tirSiteLent : Fld := ⟨0xb00040, 42, 21, .ro, 0, 8⟩

/-! TIR_MOVES, R350 -/
def tirMovesDone : Fld := ⟨0xb00080, 0, 32, .w1c, 0, 8⟩
def tirMovesAbandoned : Fld := ⟨0xb00080, 32, 16, .w1c, 0, 8⟩

/-! TIR_DEMOTE, R350 -/
def tirDemoteToT3 : Fld := ⟨0xb00088, 0, 32, .w1c, 0, 8⟩
def tirDemoteToT4 : Fld := ⟨0xb00088, 32, 32, .w1c, 0, 8⟩

/-! TIR_PROMOTE, R350 -/
def tirPromotePromoted : Fld := ⟨0xb00090, 0, 32, .w1c, 0, 8⟩
def tirPromoteWaits : Fld := ⟨0xb00090, 32, 32, .w1c, 0, 8⟩

/-! TIR_REFUSE, R350 -/
def tirRefuseNoSpace : Fld := ⟨0xb00098, 0, 16, .w1c, 0, 8⟩
def tirRefuseFloor : Fld := ⟨0xb00098, 16, 16, .w1c, 0, 8⟩
def tirRefuseRange : Fld := ⟨0xb00098, 32, 16, .w1c, 0, 8⟩
def tirRefuseLost : Fld := ⟨0xb00098, 48, 16, .w1c, 0, 8⟩

/-! TIR_LEND, R350 -/
def tirLendFrames : Fld := ⟨0xb000a0, 0, 21, .rw, 0, 8⟩
def tirLendSites : Fld := ⟨0xb000a0, 24, 8, .rw, 0, 8⟩
def tirLendLent : Fld := ⟨0xb000a0, 32, 21, .ro, 0, 8⟩

/-! TIR_LENDERS, R350 -/
def tirLendersNodes : Fld := ⟨0xb000a8, 0, 64, .rw, 0, 8⟩

/-! TIR_BORROW, R350 -/
def tirBorrowPages : Fld := ⟨0xb000b0, 0, 29, .ro, 0, 8⟩

/-! TIR_TEN_CFG (run of 512), R350 -/
def tirTenCfgFloor : Fld := ⟨0xb01000, 0, 28, .rw, 0, 8⟩
def tirTenCfgSites : Fld := ⟨0xb01000, 32, 8, .rw, 0xff, 8⟩
def tirTenCfgLend : Fld := ⟨0xb01000, 40, 1, .rw, 0, 8⟩

/-! TIR_TEN_USE (run of 512), R350 -/
def tirTenUseT2 : Fld := ⟨0xb02000, 0, 28, .ro, 0, 8⟩
def tirTenUseAll : Fld := ⟨0xb02000, 28, 29, .ro, 0, 8⟩

/-! FSH_CTRL, R377 -/
def fshCtrlRateMax : Fld := ⟨0xc00000, 0, 2, .rwl, 1, 8⟩
def fshCtrlRetries : Fld := ⟨0xc00000, 2, 2, .rwl, 2, 8⟩
def fshCtrlPatrolRate : Fld := ⟨0xc00000, 8, 16, .rwl, 8, 8⟩
def fshCtrlRefreshPct : Fld := ⟨0xc00000, 24, 7, .rwl, 0x46, 8⟩
def fshCtrlLock : Fld := ⟨0xc00000, 63, 1, .rwl, 0, 8⟩

/-! FSH_CAP, R377 -/
def fshCapChannels : Fld := ⟨0xc00008, 0, 8, .ro, 0x20, 8⟩
def fshCapTargets : Fld := ⟨0xc00008, 8, 8, .ro, 0x10, 8⟩
def fshCapLuns : Fld := ⟨0xc00008, 16, 8, .ro, 4, 8⟩
def fshCapAreas : Fld := ⟨0xc00008, 24, 16, .ro, 0x2000, 8⟩
def fshCapCacheMib : Fld := ⟨0xc00008, 40, 12, .ro, 0x100, 8⟩
def fshCapDeltaMib : Fld := ⟨0xc00008, 52, 12, .ro, 0x100, 8⟩

/-! FSH_GEOM, R377 -/
def fshGeomDies : Fld := ⟨0xc00010, 0, 12, .ro, 0, 8⟩
def fshGeomPlanes : Fld := ⟨0xc00010, 12, 3, .ro, 0, 8⟩
def fshGeomBits : Fld := ⟨0xc00010, 16, 8, .ro, 0, 8⟩
def fshGeomBlockPages : Fld := ⟨0xc00010, 24, 16, .ro, 0, 8⟩
def fshGeomQual : Fld := ⟨0xc00010, 40, 16, .ro, 0, 8⟩

/-! FSH_STATUS, R377 -/
def fshStatusState : Fld := ⟨0xc00018, 0, 3, .ro, 0, 8⟩
def fshStatusRebuild : Fld := ⟨0xc00018, 4, 1, .ro, 0, 8⟩
def fshStatusNospace : Fld := ⟨0xc00018, 5, 1, .ro, 0, 8⟩
def fshStatusWidth : Fld := ⟨0xc00018, 8, 8, .ro, 0, 8⟩
def fshStatusPlossGlitch : Fld := ⟨0xc00018, 32, 16, .w1c, 0, 8⟩

/-! FSH_SPACE, R377 -/
def fshSpaceLogical : Fld := ⟨0xc00020, 0, 32, .ro, 0, 8⟩
def fshSpaceMapped : Fld := ⟨0xc00020, 32, 32, .ro, 0, 8⟩

/-! FSH_SLC, R377 -/
def fshSlcTargetGib : Fld := ⟨0xc00028, 0, 16, .ro, 0, 8⟩
def fshSlcUsedGib : Fld := ⟨0xc00028, 16, 16, .ro, 0, 8⟩
def fshSlcReserveMib : Fld := ⟨0xc00028, 32, 16, .ro, 0, 8⟩

/-! FSH_MAP, R377 -/
def fshMapDeltaKib : Fld := ⟨0xc00030, 0, 19, .ro, 0, 8⟩
def fshMapCacheKib : Fld := ⟨0xc00030, 20, 19, .ro, 0, 8⟩
def fshMapFrames : Fld := ⟨0xc00030, 40, 24, .ro, 0, 8⟩

/-! FSH_FLUSH, R377 -/
def fshFlushKind : Fld := ⟨0xc00038, 0, 2, .ro, 0, 8⟩
def fshFlushDone : Fld := ⟨0xc00038, 2, 1, .ro, 0, 8⟩
def fshFlushTicks : Fld := ⟨0xc00038, 8, 16, .ro, 0, 8⟩
def fshFlushMib : Fld := ⟨0xc00038, 24, 10, .ro, 0, 8⟩

/-! FSH_PATROL, R377 -/
def fshPatrolPosition : Fld := ⟨0xc00040, 0, 32, .ro, 0, 8⟩
def fshPatrolPasses : Fld := ⟨0xc00040, 32, 16, .w1c, 0, 8⟩

/-! FSH_READS, R377 -/
def fshReadsRetried : Fld := ⟨0xc00048, 0, 32, .w1c, 0, 8⟩
def fshReadsSoft : Fld := ⟨0xc00048, 32, 32, .w1c, 0, 8⟩

/-! FSH_RECOVER, R377 -/
def fshRecoverRebuilt : Fld := ⟨0xc00050, 0, 32, .w1c, 0, 8⟩
def fshRecoverPoisoned : Fld := ⟨0xc00050, 32, 32, .w1c, 0, 8⟩

/-! FSH_RELOC, R377 -/
def fshRelocGc : Fld := ⟨0xc00058, 0, 32, .w1c, 0, 8⟩
def fshRelocRefreshed : Fld := ⟨0xc00058, 32, 32, .w1c, 0, 8⟩

/-! FSH_REBUILD, R377 -/
def fshRebuildPending : Fld := ⟨0xc00060, 0, 32, .ro, 0, 8⟩
def fshRebuildDone : Fld := ⟨0xc00060, 32, 32, .w1c, 0, 8⟩

/-! FSH_REFUSE, R377 -/
def fshRefuseTableFull : Fld := ⟨0xc00068, 0, 16, .w1c, 0, 8⟩
def fshRefuseBusy : Fld := ⟨0xc00068, 16, 16, .w1c, 0, 8⟩
def fshRefuseRetired : Fld := ⟨0xc00068, 32, 32, .ro, 0, 8⟩

/-! FSH_CH (run of 32), R377 -/
def fshChPresent : Fld := ⟨0xc00100, 0, 16, .ro, 0, 8⟩
def fshChRate : Fld := ⟨0xc00100, 16, 2, .ro, 0, 8⟩
def fshChFence : Fld := ⟨0xc00100, 18, 1, .rw, 0, 8⟩
def fshChTimeouts : Fld := ⟨0xc00100, 32, 16, .w1c, 0, 8⟩

/-! FSH_DFENCE (run of 32), R377 -/
def fshDfenceFence : Fld := ⟨0xc00200, 0, 64, .rw, 0, 8⟩

/-! FSH_DSUSP (run of 32), R377 -/
def fshDsuspSuspect : Fld := ⟨0xc00300, 0, 64, .ro, 0, 8⟩

/-! BRM_CTRL, R406 -/
def brmCtrlNode : Fld := ⟨0xd00000, 0, 6, .rwl, 0, 8⟩
def brmCtrlNodeSet : Fld := ⟨0xd00000, 6, 1, .rwl, 0, 8⟩
def brmCtrlViolBudget : Fld := ⟨0xd00000, 8, 8, .rwl, 0x40, 8⟩
def brmCtrlQuarTicks : Fld := ⟨0xd00000, 16, 24, .rwl, 0x186a0, 8⟩
def brmCtrlDirectWt : Fld := ⟨0xd00000, 40, 3, .rwl, 0, 8⟩
def brmCtrlLock : Fld := ⟨0xd00000, 63, 1, .rwl, 0, 8⟩

/-! BRM_CAP, R406 -/
def brmCapPorts : Fld := ⟨0xd00008, 0, 8, .ro, 0x10, 8⟩
def brmCapLanes : Fld := ⟨0xd00008, 8, 8, .ro, 8, 8⟩
def brmCapClasses : Fld := ⟨0xd00008, 16, 8, .ro, 8, 8⟩
def brmCapReplay : Fld := ⟨0xd00008, 24, 16, .ro, 0x1000, 8⟩

/-! BRM_UP, R406 -/
def brmUpUp : Fld := ⟨0xd00010, 0, 16, .ro, 0, 8⟩
def brmUpQuar : Fld := ⟨0xd00010, 16, 16, .ro, 0, 8⟩
def brmUpFenced : Fld := ⟨0xd00010, 32, 16, .ro, 0, 8⟩

/-! BRM_PORT (run of 16), R406 -/
def brmPortEn : Fld := ⟨0xd00100, 0, 1, .rw, 0, 8⟩
def brmPortFence : Fld := ⟨0xd00100, 1, 1, .rw, 0, 8⟩
def brmPortRole : Fld := ⟨0xd00100, 2, 2, .rwl, 0, 8⟩
def brmPortState : Fld := ⟨0xd00100, 8, 3, .ro, 0, 8⟩
def brmPortPartner : Fld := ⟨0xd00100, 16, 8, .ro, 0xff, 8⟩
def brmPortTrains : Fld := ⟨0xd00100, 32, 16, .w1c, 0, 8⟩
def brmPortMismatch : Fld := ⟨0xd00100, 48, 16, .w1c, 0, 8⟩

/-! BRM_PERR (run of 16), R406 -/
def brmPerrFecCorr : Fld := ⟨0xd00200, 0, 32, .w1c, 0, 8⟩
def brmPerrReplays : Fld := ⟨0xd00200, 32, 16, .w1c, 0, 8⟩
def brmPerrViol : Fld := ⟨0xd00200, 48, 16, .w1c, 0, 8⟩

/-! BRM_PFWD (run of 16), R406 -/
def brmPfwdFwd : Fld := ⟨0xd00300, 0, 48, .w1c, 0, 8⟩
def brmPfwdDropped : Fld := ⟨0xd00300, 48, 16, .w1c, 0, 8⟩

/-! RMA_CTRL, R407 -/
def rmaCtrlSysClass : Fld := ⟨0xe00000, 0, 3, .rwl, 6, 8⟩
def rmaCtrlLock : Fld := ⟨0xe00000, 63, 1, .rwl, 0, 8⟩

/-! RMA_CAP, R407 -/
def rmaCapRegions : Fld := ⟨0xe00008, 0, 20, .ro, 0x10000, 8⟩
def rmaCapOutstanding : Fld := ⟨0xe00008, 20, 16, .ro, 0x4000, 8⟩
def rmaCapReasm : Fld := ⟨0xe00008, 36, 16, .ro, 0x1000, 8⟩
def rmaCapAtomics : Fld := ⟨0xe00008, 52, 12, .ro, 0xfff, 8⟩

/-! RMA_STATUS, R407 -/
def rmaStatusRegions : Fld := ⟨0xe00010, 0, 17, .ro, 0, 8⟩
def rmaStatusOutstanding : Fld := ⟨0xe00010, 17, 15, .ro, 0, 8⟩
def rmaStatusReasm : Fld := ⟨0xe00010, 32, 13, .ro, 0, 8⟩
def rmaStatusAtomics : Fld := ⟨0xe00010, 45, 13, .ro, 0, 8⟩

/-! RMA_REFUSE, R407 -/
def rmaRefuseTableFull : Fld := ⟨0xe00018, 0, 32, .w1c, 0, 8⟩
def rmaRefuseBusy : Fld := ⟨0xe00018, 32, 32, .w1c, 0, 8⟩

/-! RMA_NAK, R407 -/
def rmaNakSent : Fld := ⟨0xe00020, 0, 32, .w1c, 0, 8⟩
def rmaNakReceived : Fld := ⟨0xe00020, 32, 32, .w1c, 0, 8⟩

/-! RMA_REASM, R407 -/
def rmaReasmFailed : Fld := ⟨0xe00028, 0, 32, .w1c, 0, 8⟩
def rmaReasmDups : Fld := ⟨0xe00028, 32, 32, .w1c, 0, 8⟩

/-! RMA_ATOMIC, R407 -/
def rmaAtomicDone : Fld := ⟨0xe00030, 0, 32, .w1c, 0, 8⟩
def rmaAtomicReplayed : Fld := ⟨0xe00030, 32, 16, .w1c, 0, 8⟩
def rmaAtomicPoisoned : Fld := ⟨0xe00030, 48, 16, .w1c, 0, 8⟩

/-! QE_FSTAT, R439 -/
def qeFstatTenant : Fld := ⟨0x10000000, 0, 9, .ro, 0, 8⟩
def qeFstatOpen : Fld := ⟨0x10000000, 9, 1, .ro, 0, 8⟩
def qeFstatQueues : Fld := ⟨0x10000000, 16, 8, .ro, 0, 8⟩

/-! QE_QCMD, R439 -/
def qeQcmdOp : Fld := ⟨0x10000008, 0, 2, .wo, 0, 8⟩
def qeQcmdSlot : Fld := ⟨0x10000008, 2, 3, .rw, 0, 8⟩
def qeQcmdBusy : Fld := ⟨0x10000008, 8, 1, .ro, 0, 8⟩
def qeQcmdStatus : Fld := ⟨0x10000008, 16, 8, .ro, 0, 8⟩
def qeQcmdRslot : Fld := ⟨0x10000008, 24, 3, .ro, 0, 8⟩

/-! QE_QNEW_SQ, R439 -/
def qeQnewSqBase : Fld := ⟨0x10000010, 0, 44, .rw, 0, 8⟩
def qeQnewSqLog2 : Fld := ⟨0x10000010, 48, 5, .rw, 0, 8⟩

/-! QE_QNEW_CQ, R439 -/
def qeQnewCqBase : Fld := ⟨0x10000018, 0, 44, .rw, 0, 8⟩
def qeQnewCqLog2 : Fld := ⟨0x10000018, 48, 5, .rw, 0, 8⟩

/-! QE_QNEW_WATCH, R439 -/
def qeQnewWatchAddr : Fld := ⟨0x10000020, 0, 44, .rw, 0, 8⟩

/-! QE_QNEW_HEAD, R439 -/
def qeQnewHeadAddr : Fld := ⟨0x10000028, 0, 44, .rw, 0, 8⟩

/-! QE_QNEW_IRQ, R439 -/
def qeQnewIrqIrqEn : Fld := ⟨0x10000030, 0, 1, .rw, 0, 8⟩
def qeQnewIrqSample : Fld := ⟨0x10000030, 1, 1, .rw, 0, 8⟩
def qeQnewIrqCount : Fld := ⟨0x10000030, 8, 8, .rw, 0, 8⟩
def qeQnewIrqTicks : Fld := ⟨0x10000030, 16, 16, .rw, 0, 8⟩

/-! QE_QSTAT (run of 8), R439 -/
def qeQstatHead : Fld := ⟨0x10000128, 0, 32, .ro, 0, 0x40⟩
def qeQstatDone : Fld := ⟨0x10000128, 32, 32, .ro, 0, 0x40⟩

/-! QE_QTAIL (run of 8), R439 -/
def qeQtailTail : Fld := ⟨0x10000130, 0, 32, .ro, 0, 0x40⟩
def qeQtailDefer : Fld := ⟨0x10000130, 32, 1, .ro, 0, 0x40⟩
def qeQtailCqfull : Fld := ⟨0x10000130, 33, 1, .ro, 0, 0x40⟩

/-! QE_CTRL, R440 -/
def qeCtrlBurst : Fld := ⟨0x110000, 0, 8, .rwl, 8, 8⟩
def qeCtrlLock : Fld := ⟨0x110000, 63, 1, .rwl, 0, 8⟩

/-! QE_CAP, R440 -/
def qeCapTenants : Fld := ⟨0x110008, 0, 16, .ro, 0x200, 8⟩
def qeCapQueues : Fld := ⟨0x110008, 16, 16, .ro, 0x1000, 8⟩
def qeCapPerTenant : Fld := ⟨0x110008, 32, 8, .ro, 8, 8⟩
def qeCapVectors : Fld := ⟨0x110008, 40, 8, .ro, 9, 8⟩

/-! QE_STATUS, R440 -/
def qeStatusContexts : Fld := ⟨0x110010, 0, 10, .ro, 1, 8⟩
def qeStatusQueues : Fld := ⟨0x110010, 16, 13, .ro, 0, 8⟩

/-! QE_REFUSE, R440 -/
def qeRefuseNoContext : Fld := ⟨0x110018, 0, 16, .w1c, 0, 8⟩
def qeRefuseTableFull : Fld := ⟨0x110018, 16, 16, .w1c, 0, 8⟩
def qeRefuseMalformed : Fld := ⟨0x110018, 32, 32, .w1c, 0, 8⟩

/-! QE_HOSTERR, R440 -/
def qeHosterrTail : Fld := ⟨0x110020, 0, 16, .w1c, 0, 8⟩
def qeHosterrCmd : Fld := ⟨0x110020, 16, 16, .w1c, 0, 8⟩
def qeHosterrCqDrop : Fld := ⟨0x110020, 32, 16, .w1c, 0, 8⟩

/-! QE_WIN (run of 512), R440 -/
def qeWinBase : Fld := ⟨0x111000, 0, 28, .ro, 0, 8⟩
def qeWinPages : Fld := ⟨0x111000, 28, 29, .ro, 0, 8⟩
def qeWinOpen : Fld := ⟨0x111000, 57, 1, .ro, 0, 8⟩

/-! TS_CTRL, R441 -/
def tsCtrlPeriod : Fld := ⟨0x200000, 0, 16, .rwl, 0x3e8, 8⟩
def tsCtrlSampleEn : Fld := ⟨0x200000, 16, 1, .rwl, 0, 8⟩
def tsCtrlDropped : Fld := ⟨0x200000, 32, 16, .w1c, 0, 8⟩
def tsCtrlLock : Fld := ⟨0x200000, 63, 1, .rwl, 0, 8⟩

/-! TS_SAMPLE, R441 -/
def tsSampleBase : Fld := ⟨0x200008, 0, 44, .rwl, 0, 8⟩
def tsSampleLog2 : Fld := ⟨0x200008, 48, 5, .rwl, 0xc, 8⟩

/-! TS_SAMPLE_PTR, R441 -/
def tsSamplePtrWr : Fld := ⟨0x200010, 0, 32, .ro, 0, 8⟩
def tsSamplePtrRd : Fld := ⟨0x200010, 32, 32, .rw, 0, 8⟩

/-! TS_HSTAT, R441 -/
def tsHstatYellow : Fld := ⟨0x200018, 0, 32, .w1c, 0, 8⟩
def tsHstatRed : Fld := ⟨0x200018, 32, 32, .w1c, 0, 8⟩

/-! TS_FSTAT, R441 -/
def tsFstatYellow : Fld := ⟨0x200020, 0, 32, .w1c, 0, 8⟩
def tsFstatRed : Fld := ⟨0x200020, 32, 32, .w1c, 0, 8⟩

/-! TS_PGATE (run of 16), R441 -/
def tsPgateMask : Fld := ⟨0x200100, 0, 8, .ro, 0xff, 8⟩
def tsPgateEntry : Fld := ⟨0x200100, 8, 6, .ro, 0, 8⟩
def tsPgateList : Fld := ⟨0x200100, 14, 1, .ro, 0, 8⟩
def tsPgateCycle : Fld := ⟨0x200100, 16, 32, .ro, 0, 8⟩
def tsPgateWaits : Fld := ⟨0x200100, 48, 16, .w1c, 0, 8⟩

/-! TS_HPOL (run of 512), R441 -/
def tsHpolCir : Fld := ⟨0x201000, 0, 16, .rw, 0, 8⟩
def tsHpolCbs : Fld := ⟨0x201000, 16, 16, .rw, 0, 8⟩
def tsHpolPir : Fld := ⟨0x201000, 32, 16, .rw, 0, 8⟩
def tsHpolPbs : Fld := ⟨0x201000, 48, 16, .rw, 0, 8⟩

/-! TS_FPOL (run of 512), R441 -/
def tsFpolCir : Fld := ⟨0x202000, 0, 16, .rw, 0, 8⟩
def tsFpolCbs : Fld := ⟨0x202000, 16, 16, .rw, 0, 8⟩
def tsFpolPir : Fld := ⟨0x202000, 32, 16, .rw, 0, 8⟩
def tsFpolPbs : Fld := ⟨0x202000, 48, 16, .rw, 0, 8⟩

/-! FW_CTRL, R461 -/
def fwCtrlAutoKettle : Fld := ⟨0xf00000, 0, 1, .rwl, 0, 8⟩
def fwCtrlAutoPort : Fld := ⟨0xf00000, 1, 1, .rwl, 0, 8⟩
def fwCtrlAutoBlock : Fld := ⟨0xf00000, 2, 1, .rwl, 0, 8⟩
def fwCtrlCrownWdog : Fld := ⟨0xf00000, 8, 7, .rwl, 0x14, 8⟩
def fwCtrlLock : Fld := ⟨0xf00000, 63, 1, .rwl, 0, 8⟩

/-! FW_STATUS, R461 -/
def fwStatusSlot : Fld := ⟨0xf00008, 0, 1, .ro, 0, 8⟩
def fwStatusCores : Fld := ⟨0xf00008, 8, 16, .ro, 0xffff, 8⟩
def fwStatusVersion : Fld := ⟨0xf00008, 32, 32, .ro, 0, 8⟩

/-! FW_TO_DESC, R461 -/
def fwToDescDesc : Fld := ⟨0xf00010, 0, 24, .rwl, 0x186a0, 8⟩
def fwToDescRma : Fld := ⟨0xf00010, 24, 24, .rwl, 0x2710, 8⟩
def fwToDescReasm : Fld := ⟨0xf00010, 48, 16, .rwl, 0xc8, 8⟩

/-! FW_TO_MEDIA, R461 -/
def fwToMediaFlash : Fld := ⟨0xf00018, 0, 24, .rwl, 0xc350, 8⟩
def fwToMediaKettle : Fld := ⟨0xf00018, 24, 16, .rwl, 0x7d0, 8⟩
def fwToMediaCoreWdog : Fld := ⟨0xf00018, 40, 24, .rwl, 0x7a120, 8⟩

/-! FW_AUTO, R461 -/
def fwAutoWindow : Fld := ⟨0xf00020, 0, 32, .rwl, 0xf4240, 8⟩
def fwAutoKTh : Fld := ⟨0xf00020, 32, 8, .rwl, 3, 8⟩
def fwAutoPTh : Fld := ⟨0xf00020, 40, 8, .rwl, 4, 8⟩
def fwAutoBTh : Fld := ⟨0xf00020, 48, 8, .rwl, 2, 8⟩

/-! FW_RECOVER, R461 -/
def fwRecoverEngineResets : Fld := ⟨0xf00028, 0, 16, .w1c, 0, 8⟩
def fwRecoverCoreRestarts : Fld := ⟨0xf00028, 16, 16, .w1c, 0, 8⟩
def fwRecoverLateDropped : Fld := ⟨0xf00028, 32, 16, .w1c, 0, 8⟩
def fwRecoverAutoFences : Fld := ⟨0xf00028, 48, 16, .w1c, 0, 8⟩

/-! FW_STACK, R461 -/
def fwStackSite : Fld := ⟨0xf00030, 0, 3, .rw, 0, 8⟩
def fwStackOp : Fld := ⟨0xf00030, 4, 2, .wo, 0, 8⟩
def fwStackState : Fld := ⟨0xf00030, 8, 3, .ro, 0, 8⟩
def fwStackFenced : Fld := ⟨0xf00030, 16, 8, .ro, 0, 8⟩
def fwStackUnfencePending : Fld := ⟨0xf00030, 24, 8, .ro, 0, 8⟩
def fwStackPages : Fld := ⟨0xf00030, 32, 24, .ro, 0, 8⟩
def fwStackPinned : Fld := ⟨0xf00030, 56, 8, .ro, 0, 8⟩

/-! FW_TEST, R461 -/
def fwTestKind : Fld := ⟨0xf00038, 0, 3, .rw, 0, 8⟩
def fwTestStart : Fld := ⟨0xf00038, 3, 1, .wo, 0, 8⟩
def fwTestUnit : Fld := ⟨0xf00038, 16, 11, .rw, 0, 8⟩
def fwTestResult : Fld := ⟨0xf00038, 32, 2, .ro, 0, 8⟩
def fwTestReason : Fld := ⟨0xf00038, 40, 8, .ro, 0, 8⟩
def fwTestDetail : Fld := ⟨0xf00038, 48, 16, .ro, 0, 8⟩

/-! FW_JOB_CMD, R461 -/
def fwJobCmdOp : Fld := ⟨0xf00040, 0, 2, .wo, 0, 8⟩
def fwJobCmdGen : Fld := ⟨0xf00040, 16, 16, .wo, 0, 8⟩
def fwJobCmdId : Fld := ⟨0xf00040, 32, 32, .wo, 0, 8⟩

/-! FW_JOB, R461 -/
def fwJobAttached : Fld := ⟨0xf00048, 0, 1, .ro, 0, 8⟩
def fwJobBusy : Fld := ⟨0xf00048, 1, 1, .ro, 0, 8⟩
def fwJobStatus : Fld := ⟨0xf00048, 8, 8, .ro, 0, 8⟩
def fwJobGen : Fld := ⟨0xf00048, 16, 16, .ro, 0, 8⟩
def fwJobId : Fld := ⟨0xf00048, 32, 32, .ro, 0, 8⟩

/-! FW_CLOSED, R461 -/
def fwClosedValid : Fld := ⟨0xf00050, 0, 1, .ro, 0, 8⟩
def fwClosedCause : Fld := ⟨0xf00050, 8, 8, .ro, 0, 8⟩
def fwClosedGen : Fld := ⟨0xf00050, 16, 16, .ro, 0, 8⟩
def fwClosedId : Fld := ⟨0xf00050, 32, 32, .ro, 0, 8⟩

/-! RST_CTRL, R478 -/
def rstCtrlReq : Fld := ⟨0x10000, 0, 2, .wo, 0, 8⟩
def rstCtrlPrepMs : Fld := ⟨0x10000, 8, 8, .rwl, 0xc8, 8⟩
def rstCtrlPinCold : Fld := ⟨0x10000, 16, 1, .ro, 0, 8⟩
def rstCtrlLock : Fld := ⟨0x10000, 63, 1, .rwl, 0, 8⟩

/-! RST_CAUSE, R478 -/
def rstCauseCause : Fld := ⟨0x10008, 0, 8, .w1c, 1, 8⟩

/-! RST_STATUS, R478 -/
def rstStatusLastReach : Fld := ⟨0x10010, 0, 2, .ro, 1, 8⟩
def rstStatusStep : Fld := ⟨0x10010, 8, 4, .ro, 1, 8⟩
def rstStatusFail : Fld := ⟨0x10010, 16, 4, .ro, 0, 8⟩
def rstStatusStartMs : Fld := ⟨0x10010, 32, 16, .ro, 0, 8⟩

/-! RST_STRAP, R478 -/
def rstStrapCode : Fld := ⟨0x10018, 0, 12, .ro, 0, 8⟩
def rstStrapBand : Fld := ⟨0x10018, 12, 4, .ro, 0, 8⟩
def rstStrapValid : Fld := ⟨0x10018, 16, 1, .ro, 0, 8⟩
def rstStrapBoot : Fld := ⟨0x10018, 17, 1, .ro, 0, 8⟩
def rstStrapAddr : Fld := ⟨0x10018, 18, 1, .ro, 0, 8⟩
def rstStrapTwin : Fld := ⟨0x10018, 19, 2, .ro, 0, 8⟩

/-! RST_RAIL, R478 -/
def rstRailOk : Fld := ⟨0x10020, 0, 16, .ro, 0, 8⟩
def rstRailBrown : Fld := ⟨0x10020, 16, 16, .w1c, 0, 8⟩

/-! RST_PCAP, R478 -/
def rstPcapLimit : Fld := ⟨0x10028, 0, 16, .rw, 0x4b0, 8⟩
def rstPcapEn : Fld := ⟨0x10028, 16, 1, .rw, 0, 8⟩
def rstPcapTempC : Fld := ⟨0x10028, 24, 8, .rw, 0x64, 8⟩
def rstPcapWindow : Fld := ⟨0x10028, 32, 16, .rw, 0x3e8, 8⟩

/-! RST_POWER, R478 -/
def rstPowerAvg : Fld := ⟨0x10030, 0, 16, .ro, 0, 8⟩
def rstPowerCapped : Fld := ⟨0x10030, 16, 1, .ro, 0, 8⟩
def rstPowerCapTicks : Fld := ⟨0x10030, 32, 32, .w1c, 0, 8⟩

/-! CRN_CTRL, R502 -/
def crnCtrlWarnC : Fld := ⟨0x38000, 0, 8, .rwl, 0x5f, 8⟩
def crnCtrlLock : Fld := ⟨0x38000, 63, 1, .rwl, 0, 8⟩

/-! CRN_STATUS, R502 -/
def crnStatusState : Fld := ⟨0x38008, 0, 2, .ro, 0, 8⟩
def crnStatusSlot : Fld := ⟨0x38008, 2, 1, .ro, 0, 8⟩
def crnStatusPending : Fld := ⟨0x38008, 3, 1, .ro, 0, 8⟩
def crnStatusFallback : Fld := ⟨0x38008, 4, 1, .w1c, 0, 8⟩
def crnStatusTestUnlocked : Fld := ⟨0x38008, 5, 1, .ro, 0, 8⟩
def crnStatusRoot : Fld := ⟨0x38008, 6, 1, .ro, 0, 8⟩
def crnStatusRootRevoked : Fld := ⟨0x38008, 7, 1, .ro, 0, 8⟩
def crnStatusOwners : Fld := ⟨0x38008, 8, 4, .ro, 0, 8⟩

/-! CRN_FWVER, R502 -/
def crnFwverSlotA : Fld := ⟨0x38010, 0, 32, .ro, 0, 8⟩
def crnFwverSlotB : Fld := ⟨0x38010, 32, 32, .ro, 0, 8⟩

/-! CRN_TMAX, R502 -/
def crnTmaxDie : Fld := ⟨0x38018, 0, 16, .ro, 0, 8⟩
def crnTmaxDiePt : Fld := ⟨0x38018, 16, 6, .ro, 0, 8⟩
def crnTmaxSite : Fld := ⟨0x38018, 32, 16, .ro, 0, 8⟩
def crnTmaxSiteNo : Fld := ⟨0x38018, 48, 3, .ro, 0, 8⟩

/-! CRN_LOG, R502 -/
def crnLogNextSeq : Fld := ⟨0x38020, 0, 32, .ro, 0, 8⟩
def crnLogCount : Fld := ⟨0x38020, 32, 15, .ro, 0, 8⟩
def crnLogDropped : Fld := ⟨0x38020, 48, 8, .w1c, 0, 8⟩

/-! CRN_FREC, R502 -/
def crnFrecValid : Fld := ⟨0x38028, 0, 8, .ro, 0, 8⟩
def crnFrecHeld : Fld := ⟨0x38028, 8, 8, .ro, 0, 8⟩
def crnFrecCapture : Fld := ⟨0x38028, 16, 1, .wo, 0, 8⟩
def crnFrecBusy : Fld := ⟨0x38028, 17, 1, .ro, 0, 8⟩
def crnFrecMissed : Fld := ⟨0x38028, 24, 8, .w1c, 0, 8⟩
def crnFrecNewest : Fld := ⟨0x38028, 32, 3, .ro, 0, 8⟩

/-! CRN_SVN (run of 8), R502 -/
def crnSvnFused0 : Fld := ⟨0x38040, 0, 8, .ro, 0, 8⟩
def crnSvnFused1 : Fld := ⟨0x38040, 8, 8, .ro, 0, 8⟩
def crnSvnFused2 : Fld := ⟨0x38040, 16, 8, .ro, 0, 8⟩
def crnSvnFused3 : Fld := ⟨0x38040, 24, 8, .ro, 0, 8⟩
def crnSvnFused4 : Fld := ⟨0x38040, 32, 8, .ro, 0, 8⟩
def crnSvnFused5 : Fld := ⟨0x38040, 40, 8, .ro, 0, 8⟩
def crnSvnFused6 : Fld := ⟨0x38040, 48, 8, .ro, 0, 8⟩
def crnSvnFused7 : Fld := ⟨0x38040, 56, 8, .ro, 0, 8⟩

/-! CRN_TEMP (run of 18), R502 -/
def crnTempT0 : Fld := ⟨0x38100, 0, 16, .ro, 0, 8⟩
def crnTempT1 : Fld := ⟨0x38100, 16, 16, .ro, 0, 8⟩
def crnTempT2 : Fld := ⟨0x38100, 32, 16, .ro, 0, 8⟩
def crnTempT3 : Fld := ⟨0x38100, 48, 16, .ro, 0, 8⟩

/-! CRN_RAIL (run of 16), R502 -/
def crnRailMv : Fld := ⟨0x38200, 0, 16, .ro, 0, 8⟩
def crnRailAmp : Fld := ⟨0x38200, 16, 16, .ro, 0, 8⟩
def crnRailWatt : Fld := ⟨0x38200, 32, 16, .ro, 0, 8⟩

/-! QE_QSQ (run of 8), R439 -/
def qeQsqBase : Fld := ⟨0x10000100, 0, 44, .ro, 0, 0x40⟩
def qeQsqLog2 : Fld := ⟨0x10000100, 48, 5, .ro, 0, 0x40⟩

/-! QE_QCQ (run of 8), R439 -/
def qeQcqBase : Fld := ⟨0x10000108, 0, 44, .ro, 0, 0x40⟩
def qeQcqLog2 : Fld := ⟨0x10000108, 48, 5, .ro, 0, 0x40⟩

/-! QE_QWATCH (run of 8), R439 -/
def qeQwatchAddr : Fld := ⟨0x10000110, 0, 44, .ro, 0, 0x40⟩

/-! QE_QHEAD (run of 8), R439 -/
def qeQheadAddr : Fld := ⟨0x10000118, 0, 44, .ro, 0, 0x40⟩

/-! QE_QIRQ (run of 8), R439 -/
def qeQirqIrqEn : Fld := ⟨0x10000120, 0, 1, .rw, 0, 0x40⟩
def qeQirqSample : Fld := ⟨0x10000120, 1, 1, .rw, 0, 0x40⟩
def qeQirqCount : Fld := ⟨0x10000120, 8, 8, .rw, 0, 0x40⟩
def qeQirqTicks : Fld := ⟨0x10000120, 16, 16, .rw, 0, 0x40⟩

/-! QE_FWIN, R440 -/
def qeFwinBase : Fld := ⟨0x10000038, 0, 28, .ro, 0, 8⟩
def qeFwinPages : Fld := ⟨0x10000038, 28, 29, .ro, 0, 8⟩
def qeFwinOpen : Fld := ⟨0x10000038, 57, 1, .ro, 0, 8⟩

/-- The ID_ registers (chapter 00, 02). -/
def idTable : List RegRun :=
  [⟨0x0, 1, 0x8, [idPartPart, idPartVariant, idPartBlocks, idPartKsites]⟩,
   ⟨0x40, 1, 0x8, [idRsvdwrRsvdWr, idRsvdwrLockedWr, idRsvdwrNarrowWr]⟩,
   ⟨0x50, 1, 0x8, [idNumsigNative, idNumsigPortable, idNumsigLast]⟩]

/-- The TCK_ registers (chapter 02). -/
def tckTable : List RegRun :=
  [⟨0x20000, 1, 0x8, [tckCtrlSyncEn, tckCtrlCheckMiss, tckCtrlLock]⟩,
   ⟨0x20008, 1, 0x8, [tckCountCount]⟩,
   ⟨0x20010, 1, 0x8, [tckStatusState, tckStatusLostWhy, tckStatusStateChg, tckStatusJumped, tckStatusBadFrames, tckStatusPhase, tckStatusMissedRun]⟩,
   ⟨0x20018, 1, 0x8, [tckJumpDiff]⟩,
   ⟨0x20020, 1, 0x8, [tckSchedUsed, tckSchedHigh, tckSchedRefused]⟩,
   ⟨0x20028, 1, 0x8, [tckXalignCount]⟩,
   ⟨0x20040, 1, 0x8, [tckTwinCtrlEn, tckTwinCtrlAction, tckTwinCtrlHold, tckTwinCtrlTenant, tckTwinCtrlLag]⟩,
   ⟨0x20048, 1, 0x8, [tckTwinStatusState, tckTwinStatusRole, tckTwinStatusDiverged, tckTwinStatusLinkLost, tckTwinStatusMismatches]⟩,
   ⟨0x20050, 1, 0x8, [tckTwinTickTick]⟩,
   ⟨0x20058, 1, 0x8, [tckTwinWhereKind, tckTwinWhereBlock, tckTwinWhereQueue, tckTwinWhereSeg, tckTwinWhereWord]⟩,
   ⟨0x20068, 1, 0x8, [tckTwinSeqSeq]⟩]

/-- The SRC_ registers (chapter 04, 05). -/
def srcTable : List RegRun :=
  [⟨0x300000, 1, 0x8, [srcCtrlAdmit, srcCtrlLock]⟩,
   ⟨0x300008, 1, 0x8, [srcCapEngines, srcCapSlots, srcCapLutKib, srcCapHosted]⟩,
   ⟨0x300010, 1, 0x8, [srcCap2Entries, srcCap2Indexes, srcCap2Waitq]⟩,
   ⟨0x300018, 1, 0x8, [srcStatusActive, srcStatusWaiting, srcStatusShards, srcStatusIndexes]⟩,
   ⟨0x300020, 1, 0x8, [srcRefuseBusy, srcRefuseTableFull]⟩,
   ⟨0x300028, 1, 0x8, [srcPoisonItems, srcPoisonShardWide]⟩,
   ⟨0x300030, 1, 0x8, [srcPathPrescan, srcPathExhaustive, srcPathEngineScan]⟩,
   ⟨0x300038, 1, 0x8, [srcCap3Versions]⟩,
   ⟨0x300040, 1, 0x8, [srcUpdCtrlRetireWait, srcUpdCtrlVerLow]⟩,
   ⟨0x300048, 1, 0x8, [srcVerUsed, srcVerHigh]⟩,
   ⟨0x300050, 1, 0x8, [srcUpdForced, srcUpdWaits, srcUpdTableFull]⟩]

/-- The SEL_ registers (chapter 05). -/
def selTable : List RegRun :=
  [⟨0x400000, 1, 0x8, [selCtrlAllStable, selCtrlLock]⟩,
   ⟨0x400008, 1, 0x8, [selStatusBusy, selStatusWaiting]⟩,
   ⟨0x400010, 1, 0x8, [selMergeMerges, selMergeTwoPass]⟩,
   ⟨0x400018, 1, 0x8, [selDupDups, selDupMismatch]⟩,
   ⟨0x400020, 1, 0x8, [selShortNonfinite, selShortShort]⟩]

/-- The CRD_ registers (chapter 06). -/
def crdTable : List RegRun :=
  [⟨0x500000, 1, 0x8, [crdCtrlWindow, crdCtrlSkewEn, crdCtrlSkewX, crdCtrlLock]⟩,
   ⟨0x500008, 1, 0x8, [crdCapCarders, crdCapOutstanding, crdCapWindowEnt, crdCapHotSlots, crdCapPins]⟩,
   ⟨0x500010, 1, 0x8, [crdStatusActive, crdStatusWaiting, crdStatusTables, crdStatusPins]⟩,
   ⟨0x500018, 1, 0x8, [crdReadsReads, crdReadsHotHits]⟩,
   ⟨0x500020, 1, 0x8, [crdScatterSwaps, crdScatterWaits, crdScatterKept]⟩,
   ⟨0x500028, 1, 0x8, [crdRefuseTableFull, crdRefusePoisoned]⟩]

/-- The FLT_ registers (chapter 07, 09). -/
def fltTable : List RegRun :=
  [⟨0x600000, 1, 0x8, [fltCtrlWdogStall, fltCtrlLock]⟩,
   ⟨0x600008, 1, 0x8, [fltCapPhys, fltCapEnabled, fltCapRows, fltCapWindows, fltCapSramKib, fltCapBundles]⟩,
   ⟨0x600010, 1, 0x8, [fltDefectDefect]⟩,
   ⟨0x600018, 1, 0x8, [fltFenceFence]⟩,
   ⟨0x600020, 1, 0x8, [fltBlkHiDefectHi, fltBlkHiFenceHi, fltBlkHiPending, fltBlkHiSpares, fltBlkHiShort]⟩,
   ⟨0x600028, 1, 0x8, [fltBusyHeld]⟩,
   ⟨0x600040, 8, 0x8, [fltMapBlock0, fltMapBlock1, fltMapBlock2, fltMapBlock3, fltMapBlock4, fltMapBlock5, fltMapBlock6, fltMapBlock7]⟩,
   ⟨0x600080, 1, 0x8, [fltLateReleases]⟩,
   ⟨0x600088, 1, 0x8, [fltStallCycles]⟩,
   ⟨0x600090, 1, 0x8, [fltFaultClass, fltFaultLblock, fltFaultPos, fltFaultPblock, fltFaultPc, fltFaultSlots, fltFaultValid]⟩,
   ⟨0x600098, 1, 0x8, [fltFaultCycIssue]⟩,
   ⟨0x6000a0, 1, 0x8, [fltFaultTickTick]⟩,
   ⟨0x6000a8, 1, 0x8, [fltFaultsIllegal, fltFaultsSchedule, fltFaultsPoison, fltFaultsWatchdog]⟩,
   ⟨0x6000b0, 1, 0x8, [fltEccCorrected, fltEccUncorrected]⟩,
   ⟨0x6000c0, 1, 0x8, [fltImagesLoaded, fltImagesRunning, fltImagesRefused, fltImagesOverruns]⟩,
   ⟨0x6000c8, 1, 0x8, [fltRoleProfile, fltRolePending, fltRoleNext, fltRoleStageMib]⟩,
   ⟨0x6000d0, 1, 0x8, [fltRoleTickTick]⟩]

/-- The MC_ registers (chapter 10). -/
def mcTable : List RegRun :=
  [⟨0x800000, 8, 0x10000, [mcCtrlHotC, mcCtrlLock]⟩,
   ⟨0x800008, 8, 0x10000, [mcCapFrames, mcCapPcs, mcCapBgs, mcCapKettles]⟩,
   ⟨0x800010, 8, 0x10000, [mcStatusQueued, mcStatusHot, mcStatusWindow, mcStatusFenced]⟩,
   ⟨0x800018, 8, 0x10000, [mcReadsLines]⟩,
   ⟨0x800020, 8, 0x10000, [mcWritesLines]⟩,
   ⟨0x800028, 8, 0x10000, [mcRmwRmw, mcRmwWaits]⟩]

/-- The KTL_ registers (chapter 10). -/
def ktlTable : List RegRun :=
  [⟨0x900000, 4, 0x10000, [ktlCtrlMode, ktlCtrlDirect, ktlCtrlSharedPcs, ktlCtrlPoll, ktlCtrlFullGap, ktlCtrlLock]⟩,
   ⟨0x900008, 4, 0x10000, [ktlFence0Fence]⟩,
   ⟨0x900010, 4, 0x10000, [ktlFence1Fence]⟩,
   ⟨0x900018, 4, 0x10000, [ktlPcdirDirect]⟩,
   ⟨0x900020, 4, 0x10000, [ktlStatusQueued, ktlStatusWindow, ktlStatusRunning]⟩,
   ⟨0x900028, 4, 0x10000, [ktlJobsDone, ktlJobsRefused, ktlJobsTimeout]⟩,
   ⟨0x900030, 4, 0x10000, [ktlWordsStreamed, ktlWordsPoisoned]⟩,
   ⟨0x900038, 4, 0x10000, [ktlSharedDemoted, ktlSharedSibling]⟩]

/-- The INT_ registers (chapter 11). -/
def intTable : List RegRun :=
  [⟨0xa00000, 1, 0x8, [intCtrlLogCe, intCtrlCeThresh, intCtrlLock]⟩,
   ⟨0xa00008, 1, 0x8, [intDramCorrected, intDramUncorrected]⟩,
   ⟨0xa00010, 1, 0x8, [intBattCorrected, intBattUncorrected]⟩,
   ⟨0xa00018, 1, 0x8, [intPathCorrected, intPathUncorrected]⟩,
   ⟨0xa00020, 1, 0x8, [intMapZeroReads, intMapMapFail]⟩,
   ⟨0xa00028, 1, 0x8, [intPoisonWritten, intPoisonCarried, intPoisonConsumed]⟩,
   ⟨0xa00040, 4, 0x8, [intScrubRate, intScrubEn, intScrubPasses]⟩,
   ⟨0xa00060, 4, 0x8, [intScrubposLine]⟩,
   ⟨0xa00080, 1, 0x8, [intLogStatusCount, intLogStatusPop, intLogStatusDropped]⟩,
   ⟨0xa00088, 1, 0x8, [intLogTickTick]⟩,
   ⟨0xa00090, 1, 0x8, [intLogEntryKind, intLogEntryPlace, intLogEntryPos, intLogEntryUnit, intLogEntryAddr]⟩]

/-- The TIR_ registers (chapter 12). -/
def tirTable : List RegRun :=
  [⟨0xb00000, 1, 0x8, [tirCtrlMoveWait, tirCtrlPromote, tirCtrlAgeLog2, tirCtrlLock]⟩,
   ⟨0xb00008, 1, 0x8, [tirRangePages, tirRangeReserved]⟩,
   ⟨0xb00010, 1, 0x8, [tirWaterLow, tirWaterHigh]⟩,
   ⟨0xb00018, 1, 0x8, [tirPoolPool, tirPoolFree, tirPoolMoves]⟩,
   ⟨0xb00040, 8, 0x8, [tirSiteFree, tirSitePages, tirSiteLent]⟩,
   ⟨0xb00080, 1, 0x8, [tirMovesDone, tirMovesAbandoned]⟩,
   ⟨0xb00088, 1, 0x8, [tirDemoteToT3, tirDemoteToT4]⟩,
   ⟨0xb00090, 1, 0x8, [tirPromotePromoted, tirPromoteWaits]⟩,
   ⟨0xb00098, 1, 0x8, [tirRefuseNoSpace, tirRefuseFloor, tirRefuseRange, tirRefuseLost]⟩,
   ⟨0xb000a0, 1, 0x8, [tirLendFrames, tirLendSites, tirLendLent]⟩,
   ⟨0xb000a8, 1, 0x8, [tirLendersNodes]⟩,
   ⟨0xb000b0, 1, 0x8, [tirBorrowPages]⟩,
   ⟨0xb01000, 512, 0x8, [tirTenCfgFloor, tirTenCfgSites, tirTenCfgLend]⟩,
   ⟨0xb02000, 512, 0x8, [tirTenUseT2, tirTenUseAll]⟩]

/-- The FSH_ registers (chapter 13). -/
def fshTable : List RegRun :=
  [⟨0xc00000, 1, 0x8, [fshCtrlRateMax, fshCtrlRetries, fshCtrlPatrolRate, fshCtrlRefreshPct, fshCtrlLock]⟩,
   ⟨0xc00008, 1, 0x8, [fshCapChannels, fshCapTargets, fshCapLuns, fshCapAreas, fshCapCacheMib, fshCapDeltaMib]⟩,
   ⟨0xc00010, 1, 0x8, [fshGeomDies, fshGeomPlanes, fshGeomBits, fshGeomBlockPages, fshGeomQual]⟩,
   ⟨0xc00018, 1, 0x8, [fshStatusState, fshStatusRebuild, fshStatusNospace, fshStatusWidth, fshStatusPlossGlitch]⟩,
   ⟨0xc00020, 1, 0x8, [fshSpaceLogical, fshSpaceMapped]⟩,
   ⟨0xc00028, 1, 0x8, [fshSlcTargetGib, fshSlcUsedGib, fshSlcReserveMib]⟩,
   ⟨0xc00030, 1, 0x8, [fshMapDeltaKib, fshMapCacheKib, fshMapFrames]⟩,
   ⟨0xc00038, 1, 0x8, [fshFlushKind, fshFlushDone, fshFlushTicks, fshFlushMib]⟩,
   ⟨0xc00040, 1, 0x8, [fshPatrolPosition, fshPatrolPasses]⟩,
   ⟨0xc00048, 1, 0x8, [fshReadsRetried, fshReadsSoft]⟩,
   ⟨0xc00050, 1, 0x8, [fshRecoverRebuilt, fshRecoverPoisoned]⟩,
   ⟨0xc00058, 1, 0x8, [fshRelocGc, fshRelocRefreshed]⟩,
   ⟨0xc00060, 1, 0x8, [fshRebuildPending, fshRebuildDone]⟩,
   ⟨0xc00068, 1, 0x8, [fshRefuseTableFull, fshRefuseBusy, fshRefuseRetired]⟩,
   ⟨0xc00100, 32, 0x8, [fshChPresent, fshChRate, fshChFence, fshChTimeouts]⟩,
   ⟨0xc00200, 32, 0x8, [fshDfenceFence]⟩,
   ⟨0xc00300, 32, 0x8, [fshDsuspSuspect]⟩]

/-- The BRM_ registers (chapter 14). -/
def brmTable : List RegRun :=
  [⟨0xd00000, 1, 0x8, [brmCtrlNode, brmCtrlNodeSet, brmCtrlViolBudget, brmCtrlQuarTicks, brmCtrlDirectWt, brmCtrlLock]⟩,
   ⟨0xd00008, 1, 0x8, [brmCapPorts, brmCapLanes, brmCapClasses, brmCapReplay]⟩,
   ⟨0xd00010, 1, 0x8, [brmUpUp, brmUpQuar, brmUpFenced]⟩,
   ⟨0xd00100, 16, 0x8, [brmPortEn, brmPortFence, brmPortRole, brmPortState, brmPortPartner, brmPortTrains, brmPortMismatch]⟩,
   ⟨0xd00200, 16, 0x8, [brmPerrFecCorr, brmPerrReplays, brmPerrViol]⟩,
   ⟨0xd00300, 16, 0x8, [brmPfwdFwd, brmPfwdDropped]⟩]

/-- The RMA_ registers (chapter 14). -/
def rmaTable : List RegRun :=
  [⟨0xe00000, 1, 0x8, [rmaCtrlSysClass, rmaCtrlLock]⟩,
   ⟨0xe00008, 1, 0x8, [rmaCapRegions, rmaCapOutstanding, rmaCapReasm, rmaCapAtomics]⟩,
   ⟨0xe00010, 1, 0x8, [rmaStatusRegions, rmaStatusOutstanding, rmaStatusReasm, rmaStatusAtomics]⟩,
   ⟨0xe00018, 1, 0x8, [rmaRefuseTableFull, rmaRefuseBusy]⟩,
   ⟨0xe00020, 1, 0x8, [rmaNakSent, rmaNakReceived]⟩,
   ⟨0xe00028, 1, 0x8, [rmaReasmFailed, rmaReasmDups]⟩,
   ⟨0xe00030, 1, 0x8, [rmaAtomicDone, rmaAtomicReplayed, rmaAtomicPoisoned]⟩]

/-- The QE_ registers (chapter 15). -/
def qeTable : List RegRun :=
  [⟨0x10000000, 1, 0x8, [qeFstatTenant, qeFstatOpen, qeFstatQueues]⟩,
   ⟨0x10000008, 1, 0x8, [qeQcmdOp, qeQcmdSlot, qeQcmdBusy, qeQcmdStatus, qeQcmdRslot]⟩,
   ⟨0x10000010, 1, 0x8, [qeQnewSqBase, qeQnewSqLog2]⟩,
   ⟨0x10000018, 1, 0x8, [qeQnewCqBase, qeQnewCqLog2]⟩,
   ⟨0x10000020, 1, 0x8, [qeQnewWatchAddr]⟩,
   ⟨0x10000028, 1, 0x8, [qeQnewHeadAddr]⟩,
   ⟨0x10000030, 1, 0x8, [qeQnewIrqIrqEn, qeQnewIrqSample, qeQnewIrqCount, qeQnewIrqTicks]⟩,
   ⟨0x10000128, 8, 0x40, [qeQstatHead, qeQstatDone]⟩,
   ⟨0x10000130, 8, 0x40, [qeQtailTail, qeQtailDefer, qeQtailCqfull]⟩,
   ⟨0x110000, 1, 0x8, [qeCtrlBurst, qeCtrlLock]⟩,
   ⟨0x110008, 1, 0x8, [qeCapTenants, qeCapQueues, qeCapPerTenant, qeCapVectors]⟩,
   ⟨0x110010, 1, 0x8, [qeStatusContexts, qeStatusQueues]⟩,
   ⟨0x110018, 1, 0x8, [qeRefuseNoContext, qeRefuseTableFull, qeRefuseMalformed]⟩,
   ⟨0x110020, 1, 0x8, [qeHosterrTail, qeHosterrCmd, qeHosterrCqDrop]⟩,
   ⟨0x111000, 512, 0x8, [qeWinBase, qeWinPages, qeWinOpen]⟩,
   ⟨0x10000100, 8, 0x40, [qeQsqBase, qeQsqLog2]⟩,
   ⟨0x10000108, 8, 0x40, [qeQcqBase, qeQcqLog2]⟩,
   ⟨0x10000110, 8, 0x40, [qeQwatchAddr]⟩,
   ⟨0x10000118, 8, 0x40, [qeQheadAddr]⟩,
   ⟨0x10000120, 8, 0x40, [qeQirqIrqEn, qeQirqSample, qeQirqCount, qeQirqTicks]⟩,
   ⟨0x10000038, 1, 0x8, [qeFwinBase, qeFwinPages, qeFwinOpen]⟩]

/-- The TS_ registers (chapter 15). -/
def tsTable : List RegRun :=
  [⟨0x200000, 1, 0x8, [tsCtrlPeriod, tsCtrlSampleEn, tsCtrlDropped, tsCtrlLock]⟩,
   ⟨0x200008, 1, 0x8, [tsSampleBase, tsSampleLog2]⟩,
   ⟨0x200010, 1, 0x8, [tsSamplePtrWr, tsSamplePtrRd]⟩,
   ⟨0x200018, 1, 0x8, [tsHstatYellow, tsHstatRed]⟩,
   ⟨0x200020, 1, 0x8, [tsFstatYellow, tsFstatRed]⟩,
   ⟨0x200100, 16, 0x8, [tsPgateMask, tsPgateEntry, tsPgateList, tsPgateCycle, tsPgateWaits]⟩,
   ⟨0x201000, 512, 0x8, [tsHpolCir, tsHpolCbs, tsHpolPir, tsHpolPbs]⟩,
   ⟨0x202000, 512, 0x8, [tsFpolCir, tsFpolCbs, tsFpolPir, tsFpolPbs]⟩]

/-- The FW_ registers (chapter 16). -/
def fwTable : List RegRun :=
  [⟨0xf00000, 1, 0x8, [fwCtrlAutoKettle, fwCtrlAutoPort, fwCtrlAutoBlock, fwCtrlCrownWdog, fwCtrlLock]⟩,
   ⟨0xf00008, 1, 0x8, [fwStatusSlot, fwStatusCores, fwStatusVersion]⟩,
   ⟨0xf00010, 1, 0x8, [fwToDescDesc, fwToDescRma, fwToDescReasm]⟩,
   ⟨0xf00018, 1, 0x8, [fwToMediaFlash, fwToMediaKettle, fwToMediaCoreWdog]⟩,
   ⟨0xf00020, 1, 0x8, [fwAutoWindow, fwAutoKTh, fwAutoPTh, fwAutoBTh]⟩,
   ⟨0xf00028, 1, 0x8, [fwRecoverEngineResets, fwRecoverCoreRestarts, fwRecoverLateDropped, fwRecoverAutoFences]⟩,
   ⟨0xf00030, 1, 0x8, [fwStackSite, fwStackOp, fwStackState, fwStackFenced, fwStackUnfencePending, fwStackPages, fwStackPinned]⟩,
   ⟨0xf00038, 1, 0x8, [fwTestKind, fwTestStart, fwTestUnit, fwTestResult, fwTestReason, fwTestDetail]⟩,
   ⟨0xf00040, 1, 0x8, [fwJobCmdOp, fwJobCmdGen, fwJobCmdId]⟩,
   ⟨0xf00048, 1, 0x8, [fwJobAttached, fwJobBusy, fwJobStatus, fwJobGen, fwJobId]⟩,
   ⟨0xf00050, 1, 0x8, [fwClosedValid, fwClosedCause, fwClosedGen, fwClosedId]⟩]

/-- The RST_ registers (chapter 17). -/
def rstTable : List RegRun :=
  [⟨0x10000, 1, 0x8, [rstCtrlReq, rstCtrlPrepMs, rstCtrlPinCold, rstCtrlLock]⟩,
   ⟨0x10008, 1, 0x8, [rstCauseCause]⟩,
   ⟨0x10010, 1, 0x8, [rstStatusLastReach, rstStatusStep, rstStatusFail, rstStatusStartMs]⟩,
   ⟨0x10018, 1, 0x8, [rstStrapCode, rstStrapBand, rstStrapValid, rstStrapBoot, rstStrapAddr, rstStrapTwin]⟩,
   ⟨0x10020, 1, 0x8, [rstRailOk, rstRailBrown]⟩,
   ⟨0x10028, 1, 0x8, [rstPcapLimit, rstPcapEn, rstPcapTempC, rstPcapWindow]⟩,
   ⟨0x10030, 1, 0x8, [rstPowerAvg, rstPowerCapped, rstPowerCapTicks]⟩]

/-- The CRN_ registers (chapter 18). -/
def crnTable : List RegRun :=
  [⟨0x38000, 1, 0x8, [crnCtrlWarnC, crnCtrlLock]⟩,
   ⟨0x38008, 1, 0x8, [crnStatusState, crnStatusSlot, crnStatusPending, crnStatusFallback, crnStatusTestUnlocked, crnStatusRoot, crnStatusRootRevoked, crnStatusOwners]⟩,
   ⟨0x38010, 1, 0x8, [crnFwverSlotA, crnFwverSlotB]⟩,
   ⟨0x38018, 1, 0x8, [crnTmaxDie, crnTmaxDiePt, crnTmaxSite, crnTmaxSiteNo]⟩,
   ⟨0x38020, 1, 0x8, [crnLogNextSeq, crnLogCount, crnLogDropped]⟩,
   ⟨0x38028, 1, 0x8, [crnFrecValid, crnFrecHeld, crnFrecCapture, crnFrecBusy, crnFrecMissed, crnFrecNewest]⟩,
   ⟨0x38040, 8, 0x8, [crnSvnFused0, crnSvnFused1, crnSvnFused2, crnSvnFused3, crnSvnFused4, crnSvnFused5, crnSvnFused6, crnSvnFused7]⟩,
   ⟨0x38100, 18, 0x8, [crnTempT0, crnTempT1, crnTempT2, crnTempT3]⟩,
   ⟨0x38200, 16, 0x8, [crnRailMv, crnRailAmp, crnRailWatt]⟩]

end Reg

/-- Every register run of the node by its block (R521, R525). -/
def regTable : List RegRun :=
  Reg.idTable ++ Reg.tckTable ++ Reg.srcTable ++ Reg.selTable ++ Reg.crdTable ++ Reg.fltTable ++ Reg.mcTable ++ Reg.ktlTable ++ Reg.intTable ++ Reg.tirTable ++ Reg.fshTable ++ Reg.brmTable ++ Reg.rmaTable ++ Reg.qeTable ++ Reg.tsTable ++ Reg.fwTable ++ Reg.rstTable ++ Reg.crnTable

end Sys2Proof.Machine
end

