-- ==== Sys2Proof/Syntax.lean ====
section
/-! DEFINITION. The commands of the node: one constructor per row of the table of operations and events, each whole and
indivisible, with what the sender or the outside world supplies as its operands. The mnemonic of each is its constructor
name in capitals (LAWS.json holds the map). -/
namespace Sys2Proof
open Sys2Proof.Machine

/-- A word that a transfer found damaged on its way (R307, R323): the place (3 Ring datapath, 4 die-to-die link, 5 brim buffer, 6 CXL
buffer), the word, numbered from the first word of the transfer, and what was found: 1–18 an error corrected at that codeword position
plus one, 19 an error beyond correction. -/
structure PathUps where
  place : Nat
  word : Nat
  code : Nat
  deriving DecidableEq, Repr

/-- What an access through the node range meets: home-table copies gone bad (R329), each a page with its copies as bits, and words damaged on
their way (R307). -/
structure Met where
  homeBad : List (Nat × Nat)
  path : List PathUps
  deriving DecidableEq, Repr

/-- A run of node-range bytes: its address and length. -/
structure Span where
  addr : Nat
  len : Nat
  deriving DecidableEq, Repr

/-- Bytes that a CXL.mem write brings, with the words of them that carry poison (R410). -/
structure HostData where
  bytes : List Byte
  pois : List Nat
  deriving DecidableEq, Repr

/-- A read unit by its FLU and number (R364). -/
structure RuAt where
  flu : Nat
  ru : Nat
  deriving DecidableEq, Repr

/-- What the twin sends (R54, R55): a frame of digests, and the check bytes of each entry's segment. -/
structure TwinMsg where
  frame : List Byte
  checks : List (List Nat)
  deriving DecidableEq, Repr

/-- A packet of the fabric (R385): the fields of its header, whether any reserved byte is not zero, its payload, the
payload words that carry poison, and the words the receiving buffer found damaged. KIND is the command that delivers it, or the number of
the kind it was sent with. -/
structure Packet where
  kind : Nat
  cls : Nat
  lent : Bool
  src : Nat
  dest : Nat
  tenant : Nat
  queue : Nat
  key : Nat
  msgid : Nat
  offset : Nat
  total : Nat
  addr : Nat
  plen : Nat
  reason : Nat
  reqid : Nat
  rsv : Bool
  payload : List Byte
  pois : List Nat
  path : List PathUps
  deriving DecidableEq, Repr

/-- The parameters of a shard search (R109, R121), as its SEARCH descriptor gives them. -/
structure SearchPar where
  k : Nat
  l : Nat
  lw : Nat
  w : Nat
  p : Nat
  rounds : Nat
  budget : Nat
  deadline : Nat
  hint : Nat
  thresh : Nat
  brute : Nat
  deriving DecidableEq, Repr

/-- What a SYS message says (R127); its bytes are firmware's own. A request names the coordinating node's reference, the shard,
the parameters, the filter, the query with its format and poison, and the expiry tick; a partial list carries the bytes of
R156. -/
inductive SysMsg where
  | request (ref index shard : Nat) (par : SearchPar) (filter query : List Byte) (qfmt : Nat) (qpois : Bool) (expiry : Nat)
  | partialList (ref : Nat) (bytes : List Byte)
  deriving DecidableEq, Repr

/-- Where a move goes (R332): T2, T2 on a named site, a lender's frame, T4. -/
inductive MoveDst where
  | t2
  | site (n : Nat)
  | t3 (lender handle : Nat)
  | t4
  deriving DecidableEq, Repr

/-- A message about lent frames (R341, R342): a borrower asks this node, or gives a handle back to it; a lender recalls a handle
from this node, answers that it does not know one, or answers reads of one with these stored words (numbered through its read units)
poisoned. -/
inductive LentMsg where
  | ask (node : Nat)
  | back (node handle : Nat)
  | recall (lender handle : Nat)
  | unknown (lender handle : Nat)
  | spoiled (lender handle : Nat) (words : List Nat)
  deriving DecidableEq, Repr

/-- The identity of a compared segment (R55): KIND 1 block or 2 descriptor result, block, queue, SEQ and SEG. -/
structure SegId where
  kind : Nat
  block : Nat
  queue : Nat
  seq : Nat
  seg : Nat
  deriving DecidableEq, Repr

/-- What a mount finds (R352–R354): the target mask of each channel that the qualified-flash table matches, targets that match no
entry, the highest rate each channel trains at (0 none, 3 a lower NV-DDR3 mode, 1 3,600 MT/s, 2 4,800 MT/s), LUNs per target,
the entry in use (planes, bits per cell, pages per block in native and SLC mode, blocks per die, retention limit in ticks, rated
cycles, whether it allows 4,800 MT/s, its number), and whether a map word kept in DRAM read UNCORRECTABLE. -/
structure MountPar where
  present : List Nat
  unmatched : Nat
  trained : List Nat
  luns : Nat
  planes : Nat
  bits : Nat
  pages : Nat
  slcPages : Nat
  blocks : Nat
  retention : Nat
  rated : Nat
  fast : Bool
  qual : Nat
  mapErr : Bool
  deriving DecidableEq, Repr

/-- An engine that a reset can be asked of (R447). -/
inductive Engine where
  | traversal (n : Nat)
  | tree (n : Nat)
  | carder (n : Nat)
  deriving DecidableEq, Repr

/-- What a start-up step found (R469, R470): whether its limit has passed, the converter code of CFG_STRAP, PLL lock, the sites that
trained, whether the control cores report running, whether the CXL link came up, the defective blocks of the fuses, and whether both copies of the
settings, and both of the job records, are unreadable (R488). -/
structure StartPar where
  late : Bool
  code : Nat
  pll : Bool
  sites : Nat
  cores : Bool
  link : Bool
  defect : Nat
  settingsBad : Bool
  jobsBad : Bool
  deriving DecidableEq, Repr

/-- A command of the node. Who sends it: the host, another node, the board, or the passage of time; the table's summary
stands in each docstring. -/
inductive Instr where
  /-- REGISTER_WRITE (R11): A BAR0 register write with no behaviour of its own is applied, or ignored and counted, under the access rules. -/
  | registerWrite (fn : Nat) (off : Nat) (size : Nat) (val : Nat)
  /-- SYNC_EN_WRITE (R35): A write of TCK_CTRL.SYNC_EN sets whether the Bow uses TICK_REF; a write of 0 takes the Bow to FREE. -/
  | syncEnWrite (value : Nat)
  /-- LOG_POP (R323): A write of INT_LOG_STATUS.POP removes the oldest integrity-log entry. -/
  | logPop
  /-- QUEUE_CREATE (R417): A QE_QCMD CREATE takes the lowest free slot, pins and homes the watch-word page, and reports status and slot. -/
  | queueCreate (fn : Nat)
  /-- QUEUE_DESTROY (R423): A QE_QCMD DESTROY stops a queue fetching and sets BUSY until its fetched descriptors complete. -/
  | queueDestroy (fn : Nat) (slot : Nat)
  /-- QUEUE_DESTROY_DONE (R423): Once every fetched descriptor has completed, the watch word is released, the slot is freed and STATUS reads OK. -/
  | queueDestroyDone (fn : Nat)
  /-- WARM_RESET_REQUEST (R463): A write of RST_CTRL.REQ = 1 requests a warm reset with cause software request. -/
  | warmResetRequest
  /-- FELT_RESET_REQUEST (R463): A write of RST_CTRL.REQ = 2 requests a Felt-only reset. -/
  | feltResetRequest
  /-- DRAIN (R456): FW_STACK OP DRAIN starts draining a DRAM site, or refuses the drain. -/
  | drain (site : Nat)
  /-- CANCEL (R456): FW_STACK OP CANCEL returns a draining site to service. -/
  | cancel
  /-- UNFENCE (R457): FW_STACK OP UNFENCE marks a fenced site to be trained at the next warm reset. -/
  | unfence (site : Nat)
  /-- TEST_START (R454): A write of FW_TEST.START begins the built-in test of a fenced unit, or ends it at once with FAIL. -/
  | testStart (kind : Nat) (unit : Nat)
  /-- TEST_COMPLETE (R454): A running unit test ends and posts RESULT and DETAIL. -/
  | testComplete (errors : Nat)
  /-- ATTACH (R459): FW_JOB_CMD ATTACH asks the Crown to record the node's attachment to a job. -/
  | attach (id : Nat) (gen : Nat)
  /-- DETACH (R459): FW_JOB_CMD DETACH ends the job attachment and removes the Crown's record. -/
  | detach
  /-- CLEAR (R459): FW_JOB_CMD CLEAR removes a closed job record while the node is not attached. -/
  | clear
  /-- JOB_RECORD_WRITTEN (R459): The Crown finishes writing a job record to boot flash, clears FW_JOB.BUSY and posts the command status. -/
  | jobRecordWritten
  /-- CAPTURE (R499): A write of CRN_FREC.CAPTURE triggers a failure-record capture. -/
  | capture
  /-- FAILURE_RECORD_WRITTEN (R500): A capture completes into a failure-record slot, or is missed when all slots are held. -/
  | failureRecordWritten
  /-- FLT_FENCE_WRITE (R216): A write of FLT_FENCE or FENCE_HI marks blocks fenced and sets PENDING until an idle load remaps their columns. -/
  | fltFenceWrite (hi : Bool) (value : Nat)
  /-- KETTLE_FENCE_WRITE (R299): A write of KTL_FENCE0 or KTL_FENCE1 fences or unfences kettles for parts started from that Ring cycle. -/
  | kettleFenceWrite (site : Nat) (hi : Bool) (value : Nat)
  /-- KETTLE_MODE_WRITE (R294): A write of KTL_CTRL.MODE changes how later kettle jobs run. -/
  | kettleModeWrite (site : Nat) (mode : Nat)
  /-- FLASH_FENCE_WRITE (R369): A write of FSH_DFENCE or FSH_CH.FENCE fences dies or a channel, or clears a fence and starts the return test. -/
  | flashFenceWrite (ch : Nat) (dies : Bool) (value : Nat)
  /-- DIE_RETURN_TEST_DONE (R369): The erase, program and read test of an unfenced die finishes, returning the die to service or leaving it suspect. -/
  | dieReturnTestDone (ch : Nat) (die : Nat) (ok : Bool)
  /-- PORT_ENABLE_WRITE (R382): A write of BRM_PORTp.EN starts or stops training of a brim port; EN is not taken before NODE_SET. -/
  | portEnableWrite (port : Nat) (value : Nat)
  /-- PORT_FENCE_WRITE (R389): A write of BRM_PORTp.FENCE fences a port and reassigns its packets not yet started to other paths. -/
  | portFenceWrite (port : Nat) (value : Nat)
  /-- RANGE_PAGES_WRITE (R327): A write of TIR_RANGE.PAGES sets the node-range size, or is ignored and counted while any page is not ZERO. -/
  | rangePagesWrite (pages : Nat)
  /-- FLOOR_WRITE (R337): A write of a tenant FLOOR is applied, or refused and counted when the floors would exceed the pool. -/
  | floorWrite (tenant : Nat) (floor : Nat)
  /-- LEND_WRITE (R341): A write of TIR_LEND sets the frames offered to lend; a lowered count recalls the excess. -/
  | lendWrite (frames : Nat) (sites : Nat)
  /-- TWIN_EN_WRITE (R53): A write of TCK_TWIN_CTRL.EN enables or disables twin mode and changes the batt-store shares. -/
  | twinEnWrite (value : Nat)
  /-- METER_WRITE (R433): A write of a TS_HPOL or TS_FPOL meter sets its rates and fills both buckets to capacity. -/
  | meterWrite (fabric : Bool) (tenant : Nat) (value : Nat)
  /-- MSIX_UNMASK (R431): Clearing an MSI-X mask sends a pending queue message. -/
  | msixUnmask (fn : Nat) (entry : Option Nat)
  /-- HOST_MEM_READ (R410): A host CXL.mem read is served as requester 1 under the tier rules. -/
  | hostMemRead (span : Span) (met : Met)
  /-- HOST_MEM_WRITE (R410): A host CXL.mem write is served as requester 1 under the tier rules. -/
  | hostMemWrite (addr : Nat) (data : HostData) (met : Met)
  /-- WATCH_WORD_WAKE (R419): In the Ring cycle after a write to a registered watch word, the queue engine reads it and accepts or ignores the new tail. -/
  | watchWordWake (queue : Nat)
  /-- QUEUE_VISIT (R420): The queue engine visits a queue with work in rotation, meters and fetches up to BURST descriptors. -/
  | queueVisit
  /-- CQ_HEAD_READ (R421): At each tick edge while completions wait for ring space, the CQ head word is read and checked. -/
  | cqHeadRead (queue : Nat)
  /-- IRQ_COALESCE_TIMEOUT (R431): At a tick edge, TICKS ticks since the first uncounted completion raise the queue's interrupt. -/
  | irqCoalesceTimeout (queue : Nat)
  /-- FUNCTION_LEVEL_RESET (R416): A function-level reset destroys the function's queues, resets its page and MSI-X table, and discards its completions. -/
  | functionLevelReset (fn : Nat)
  /-- VF_DISABLE (R416): Clearing VF Enable or lowering NumVFs acts as a function-level reset of each function removed. -/
  | vfDisable (numVfs : Nat)
  /-- PERST_ASSERT (R511): CXL_PERST_N low puts the CXL transmitters in electrical idle with the link down. -/
  | perstAssert
  /-- PERST_RELEASE (R511): A rise of CXL_PERST_N resets every function as by FLR and lets the port train. -/
  | perstRelease
  /-- IDENTIFY_MEMORY_DEVICE (R411): Mailbox command Identify Memory Device. -/
  | identifyMemoryDevice (path : Nat)
  /-- GET_SUPPORTED_LOGS (R411): Mailbox command Get Supported Logs. -/
  | getSupportedLogs (path : Nat)
  /-- GET_LOG (R411): Mailbox command Get Log. -/
  | getLog (path : Nat) (uuid : List Byte) (offset : Nat) (len : Nat)
  /-- GET_EVENT_RECORDS (R412): Mailbox command Get Event Records returns records of the CXL event logs. -/
  | getEventRecords (path : Nat) (sev : Nat)
  /-- CLEAR_EVENT_RECORDS (R412): Mailbox command Clear Event Records. -/
  | clearEventRecords (path : Nat) (sev : Nat) (all : Bool) (handles : List Nat)
  /-- GET_EVENT_INTERRUPT_POLICY (R411): Mailbox command Get Event Interrupt Policy. -/
  | getEventInterruptPolicy (path : Nat)
  /-- SET_EVENT_INTERRUPT_POLICY (R411): Mailbox command Set Event Interrupt Policy. -/
  | setEventInterruptPolicy (path : Nat) (modes : List Nat)
  /-- GET_TIMESTAMP (R411): Mailbox command Get Timestamp. -/
  | getTimestamp (path : Nat)
  /-- SET_TIMESTAMP (R482): Mailbox command Set Timestamp sets the time that event-log entries carry. -/
  | setTimestamp (path : Nat) (value : Nat)
  /-- GET_HEALTH_INFO (R486): Mailbox command Get Health Info reports temperature, life used and health status. -/
  | getHealthInfo (path : Nat)
  /-- GET_FW_INFO (R411): Mailbox command Get FW Info. -/
  | getFwInfo (path : Nat)
  /-- TRANSFER_FW (R491): Transfer FW writes a part of a package into the slot not running, and verifies the package at its last part. -/
  | transferFw (path : Nat) (slot : Nat) (offset : Nat) (bytes : List Byte) (last : Bool)
  /-- ACTIVATE_FW (R491): Activate FW sets PENDING for the next cold reset, or is refused. -/
  | activateFw (path : Nat) (slot : Nat) (online : Bool)
  /-- UNSUPPORTED_OPCODE (R486): A mailbox or MCTP command with an unknown opcode returns Unsupported. -/
  | unsupportedOpcode (path : Nat)
  /-- GET_SENSORS (R486): Returns the 72 temperatures and 16 rail readings. -/
  | getSensors (path : Nat)
  /-- GET_EVENT_LOG (R486): Returns event-log entries from a given SEQ. -/
  | getEventLog (path : Nat) (first : Nat) (count : Nat)
  /-- GET_CERT (R495): Returns the certificate chain in DER, root first. -/
  | getCert (path : Nat)
  /-- GET_REPORT (R497): Returns a signed attestation report bound to a nonce. -/
  | getReport (path : Nat) (nonce : List Byte)
  /-- COMMIT_SVN (R492): Blows anti-rollback fuses up to the running package's SVNs, or is refused after a fallback. -/
  | commitSvn (path : Nat)
  /-- FREC_LIST (R486): Returns SEQ, trigger, tick and HELD of each failure record. -/
  | frecList (path : Nat)
  /-- FREC_READ (R486): Returns bytes of one failure record. -/
  | frecRead (path : Nat) (record : Nat) (offset : Nat) (len : Nat)
  /-- FREC_HOLD (R486): Sets or clears HELD of a failure record. -/
  | frecHold (path : Nat) (record : Nat) (hold : Bool)
  /-- GET_CHALLENGE (R486): Returns a fresh single-use nonce valid for 10 s. -/
  | getChallenge (path : Nat)
  /-- OWNER_ENROLL (R498): Writes an owner public key into the lowest empty slot. -/
  | ownerEnroll (path : Nat) (key : List Byte)
  /-- OWNER_REVOKE (R498): Empties an owner-key slot on a valid signature over a challenge. -/
  | ownerRevoke (path : Nat) (slot : Nat) (nonce : List Byte) (sig : List Byte)
  /-- DEBUG_RESET (R498): A valid owner-signed command causes a warm reset with cause debug request. -/
  | debugReset (path : Nat) (nonce : List Byte) (sig : List Byte)
  /-- SET_SETTING (R486): With a Saunduf-signed token, changes PIN_COLD and other Crown settings. -/
  | setSetting (path : Nat) (nonce : List Byte) (sig : List Byte) (pinCold : Bool)
  /-- VENDOR_UNLOCK (R501): With a Saunduf-signed token, opens the private test modes and sets TEST_UNLOCKED. -/
  | vendorUnlock (path : Nat) (nonce : List Byte) (sig : List Byte)
  /-- SPDM_GET_MEASUREMENTS (R496): SPDM GET_MEASUREMENTS returns the 16 measurement slots. -/
  | spdmGetMeasurements (path : Nat)
  /-- SEARCH (R127): A SEARCH descriptor is checked, split into shard searches over the shard map, then merged and written. -/
  | search (work : Nat)
  /-- INSERT (R146): An INSERT chooses a local index and writes the new row and backlinks as pending versions. -/
  | insert (work : Nat)
  /-- DELETE (R153): A DELETE writes a pending record version with DEATH = current epoch + 1. -/
  | delete (work : Nat)
  /-- UPDATE_PREPARE_COMPLETE (R137): A waiting update writes all its pending versions in one Ring cycle once every row can take one, and completes. -/
  | updatePrepareComplete (work : Nat)
  /-- COMMIT (R143): A COMMIT descriptor takes a schedule entry for an epoch commit at its tick, or is refused. -/
  | commit (work : Nat)
  /-- GATHER (R176): A GATHER descriptor waits to be admitted onto a Carder. -/
  | gather (work : Nat)
  /-- GATHER_ADMIT (R178): A Carder admits a GATHER, binds its version, checks it, reads and pools the rows and writes the output and record. -/
  | gatherAdmit
  /-- SCATTER (R185): A SCATTER descriptor is checked and waits its turn on its table. -/
  | scatter (work : Nat)
  /-- SCATTER_START (R187): A SCATTER begins on its table, writes new row versions and swaps directory pointers. -/
  | scatterStart (work : Nat)
  /-- SCATTER_ROW_RESUME (R190): A row write waiting for a retained PREV proceeds once no reader needs it. -/
  | scatterRowResume (work : Nat)
  /-- RUN (R262): A RUN descriptor is checked and takes a schedule entry for its launch tick, or is refused. -/
  | run (work : Nat)
  /-- MOVE (R349): A MOVE descriptor moves, releases or skips each page in ascending order and writes its move record. -/
  | move (work : Nat) (grants : List (Nat × Nat))
  /-- RMA_WRITE (R398): An RMA WRITE sends a message sprayed over its paths; it completes when its last flit is acknowledged. -/
  | rmaWrite (work : Nat)
  /-- RMA_READ (R398): An RMA READ sends a READ_REQ and completes when the READ_DATA message is placed. -/
  | rmaRead (work : Nat)
  /-- RMA_FETCH_ADD (R399): An RMA FETCH_ADD asks a remote home word to add and return its old value. -/
  | rmaFetchAdd (work : Nat)
  /-- RMA_COMPARE_SWAP (R399): An RMA COMPARE_SWAP asks a remote home word to compare, swap and return its old value. -/
  | rmaCompareSwap (work : Nat)
  /-- RMA_FLUSH (R398): An RMA FLUSH holds its queue until earlier WRITEs to DEST are placed or have failed. -/
  | rmaFlush (work : Nat)
  /-- RMA_WAIT (R400): An RMA WAIT holds its queue until another queue's completion count reaches COUNT. -/
  | rmaWait (work : Nat)
  /-- WAIT_RELEASE (R400): In the Ring cycle after the count reaches COUNT, the WAIT completes and its queue moves on. -/
  | waitRelease (work : Nat)
  /-- TENANT_OPEN (R414): Opens a tenant context with its window. -/
  | tenantOpen (work : Nat)
  /-- TENANT_CLOSE (R415): Closes a tenant context, releasing its pages and window. -/
  | tenantClose (work : Nat)
  /-- INDEX_REGISTER (R93): Registers an index in the index table. -/
  | indexRegister (work : Nat)
  /-- INDEX_DEREGISTER (R428): Removes an index registration when no shard of it is hosted. -/
  | indexDeregister (work : Nat)
  /-- SHARD_ATTACH (R95): Attaches a shard descriptor with its starting epoch to the hosted-shard table. -/
  | shardAttach (work : Nat)
  /-- SHARD_DETACH (R97): Ends admissions and updates of a shard, discarding pending versions and fencing waiting updates and commits. -/
  | shardDetach (work : Nat)
  /-- SHARD_DETACH_COMPLETE (R97): After its last admitted shard search completes, the detach completes with the shard's last epoch. -/
  | shardDetachComplete (index : Nat) (shard : Nat)
  /-- TABLE_REGISTER (R170): Registers an embedding table. -/
  | tableRegister (work : Nat)
  /-- TABLE_DEREGISTER (R428): Removes an embedding-table registration when nothing holds it. -/
  | tableDeregister (work : Nat)
  /-- PIN (R193): Pins a table's current TVER and returns a handle. -/
  | pin (work : Nat)
  /-- UNPIN (R193): Frees a pin handle. -/
  | unpin (work : Nat)
  /-- LOAD (R258): Checks an image, then takes a slot, clears and writes the held cells and writes the load record. -/
  | load (work : Nat)
  /-- UNLOAD (R260): Frees an image slot, clearing its cells, after stopping any run. -/
  | unload (work : Nat)
  /-- STOP_RUN (R269): Asks a run to end at the next boundary that closes a step. -/
  | stopRun (work : Nat)
  /-- WITHDRAW (R262): Removes a scheduled RUN, COMMIT or gate list before its preparation tick, or is refused BUSY. -/
  | withdraw (work : Nat)
  /-- ROLE (R273): Sets a role profile to take effect at a tick. -/
  | role (work : Nat)
  /-- AREA_CREATE (R356): Allocates a flash area extent. -/
  | areaCreate (work : Nat)
  /-- AREA_DELETE (R356): Unmaps an area's FLUs and frees its extent. -/
  | areaDelete (work : Nat)
  /-- AREA_WRITE (R357): Writes pages from the node range into an area. -/
  | areaWrite (work : Nat)
  /-- AREA_READ (R357): Reads an area's pages into the node range. -/
  | areaRead (work : Nat)
  /-- REGION_REGISTER (R393): Registers an RMA region, pinning its pages, and returns its key. -/
  | regionRegister (work : Nat)
  /-- REGION_DEREGISTER (R395): Begins removing an RMA region. -/
  | regionDeregister (work : Nat)
  /-- REGION_DEREGISTER_DONE (R395): After the last operation admitted under the key, pins are dropped and the slot's generation advances. -/
  | regionDeregisterDone (slot : Nat)
  /-- GATE_LIST (R436): Schedules a new gate list for a brim port. -/
  | gateList (work : Nat)
  /-- LOAD_FRAME (R36): A valid TICK_SYNC LOAD frame adopts the count, re-adopts it, or is ignored, by Bow state. -/
  | loadFrame (frame : Nat) (ago : Nat) (offset : Int)
  /-- CHECK_FRAME (R35): A valid TICK_SYNC CHECK frame adopts, confirms or contradicts the Bow's count. -/
  | checkFrame (frame : Nat) (ago : Nat) (offset : Int)
  /-- TICK_REF_LOST (R35): No TICK_REF rising edge within 300 ns takes the Bow to LOST with REF_MISSING. -/
  | tickRefLost
  /-- PHASE_LOST (R35): A phase error beyond 1.0 ns on 16 consecutive ticks takes the Bow to LOST. -/
  | phaseLost (phase : Int)
  /-- CHECK_MISSING (R35): CHECK_MISS consecutive missing CHECK frames take the Bow to LOST. -/
  | checkMissing
  /-- CROSSING_ALIGNMENT (R45): At the chosen tick edge every crossing buffer is emptied and released, and TCK_XALIGN is set. -/
  | crossingAlignment
  /-- EVENT_PREPARE (R42): Four ticks before a scheduled event, the Bow prepares it, fixing a commit's updates or starting a launch's fills. -/
  | eventPrepare
  /-- COMPARISON_POINT (R56): At a tick edge in COMPARING, held twin digests are compared and the first divergence or late segment is recorded. -/
  | comparisonPoint
  /-- STEP_BOUNDARY (R263): At a run's boundary tick, the running step closes and the next starts, or the boundary is skipped. -/
  | stepBoundary (img : Nat)
  /-- EPOCH_COMMIT (R142): At the commit tick, the shard's epoch advances, prepared versions become committed and the commit record is written. -/
  | epochCommit (index : Nat) (shard : Nat)
  /-- GATE_LIST_TAKEOVER (R436): At its tick a gate list takes over its port, superseding one submitted earlier. -/
  | gateListTakeover (port : Nat)
  /-- GATE_ENTRY_CHANGE (R436): When an entry's duration ends, the next entry of the gate list comes into force. -/
  | gateEntryChange (port : Nat)
  /-- IMAGE_LAUNCH (R43): At its launch tick an image's first bundle issues at Felt cycle 120, or the RUN completes NOT_SYNCHRONISED. -/
  | imageLaunch (img : Nat)
  /-- SCRUB_PACING (R318): At each tick edge each scrubber's line budget is refilled to RATE. -/
  | scrubPacing
  /-- ROLE_APPLY (R273): After class 6 of its tick, a ROLE changes the profile, staging share and open engines, and completes. -/
  | roleApply
  /-- METER_REFILL (R433): At each tick edge every policing meter's buckets are refilled. -/
  | meterRefill
  /-- TWIN_FRAME_SEND (R55): In every tick a twin sends a frame of the digests of the segments completed in that tick. -/
  | twinFrameSend
  /-- TWIN_LINK_LOST (R59): Loss of the twin on port 15 sets LINK_LOST and acts as the configured ACTION. -/
  | twinLinkLost
  /-- SHARD_SEARCH_ADMIT (R129): The head waiting shard search is admitted onto a traversal engine, binds its epoch and starts. -/
  | shardSearchAdmit
  /-- ADMIT_TIMEOUT (R129): A shard search still waiting after ADMIT ticks completes BUSY. -/
  | admitTimeout (id : Nat)
  /-- TRAVERSAL_ROUND (R110): Once every record of a round's batch is fetched, the batch is merged in list order and the next batch chosen. -/
  | traversalRound (id : Nat)
  /-- SEARCH_DEADLINE (R115): At the deadline edge an incomplete round is discarded and the search stops with DEADLINE. -/
  | searchDeadline (id : Nat)
  /-- SHARD_SEARCH_EXPIRY (R127): At the expiry tick its message carries, a hosted shard search completes TIMEOUT and sends its partial list. -/
  | shardSearchExpiry (id : Nat)
  /-- MERGE (R157): A merge takes a free selection tree, merges the partial lists, de-duplicates and writes the result. -/
  | merge
  /-- ROW_FOLD (R136): A newer row version is copied over the base and its version entry freed once no reader needs the base. -/
  | rowFold (index : Nat) (shard : Nat) (loc : Nat)
  /-- FORCED_RETIREMENT (R138): An update that waited RETIRE_WAIT ticks for a fold ends the readers that block it. -/
  | forcedRetirement (work : Nat)
  /-- VERSION_PRESSURE_RETIRE (R139): While free version entries are below VER_LOW, the earliest blocking shard search and its older readers are retired. -/
  | versionPressureRetire
  /-- LOAD_WINDOW_END (R194): At the end of a load-counter window the Carders' counts are written to LOAD_PAGE and reset. -/
  | loadWindowEnd
  /-- TRANSFER_READY (R207): A staging transfer's last word lands, or is placed, and the transfer becomes ready. -/
  | transferReady (img : Nat) (cell : Nat) (win : Nat) (felt : Nat)
  /-- LATE_RELEASE_RESUME (R212): Eight Felt cycles after the awaited transfer is ready, a frozen image resumes issuing. -/
  | lateReleaseResume (img : Nat)
  /-- FELT_WATCHDOG (R220): A freeze longer than WDOG_STALL ticks raises WATCHDOG. -/
  | feltWatchdog (img : Nat)
  /-- STOP (R225): A bundle with STOP set ends the cell's issue for the current step. -/
  | stop (img : Nat) (cell : Nat) (ecc : Nat)
  /-- CNOP (R232): C-slot no-operation. -/
  | cnop (img : Nat) (cell : Nat) (ecc : Nat)
  /-- ADD (R232): Scalar add. -/
  | add (img : Nat) (cell : Nat) (ecc : Nat)
  /-- SUB (R232): Scalar subtract. -/
  | sub (img : Nat) (cell : Nat) (ecc : Nat)
  /-- AND (R232): Scalar bitwise and. -/
  | and (img : Nat) (cell : Nat) (ecc : Nat)
  /-- OR (R232): Scalar bitwise or. -/
  | or (img : Nat) (cell : Nat) (ecc : Nat)
  /-- XOR (R232): Scalar bitwise exclusive or. -/
  | xor (img : Nat) (cell : Nat) (ecc : Nat)
  /-- SHL (R232): Scalar shift left. -/
  | shl (img : Nat) (cell : Nat) (ecc : Nat)
  /-- SHR (R232): Scalar logical shift right. -/
  | shr (img : Nat) (cell : Nat) (ecc : Nat)
  /-- SAR (R232): Scalar arithmetic shift right. -/
  | sar (img : Nat) (cell : Nat) (ecc : Nat)
  /-- MUL (R232): Scalar multiply, low 64 bits. -/
  | mul (img : Nat) (cell : Nat) (ecc : Nat)
  /-- MINS (R232): Scalar signed minimum. -/
  | mins (img : Nat) (cell : Nat) (ecc : Nat)
  /-- MAXS (R232): Scalar signed maximum. -/
  | maxs (img : Nat) (cell : Nat) (ecc : Nat)
  /-- ADDI (R232): Scalar add of a sign-extended immediate. -/
  | addi (img : Nat) (cell : Nat) (ecc : Nat)
  /-- ANDI (R232): Scalar and with a zero-extended immediate. -/
  | andi (img : Nat) (cell : Nat) (ecc : Nat)
  /-- ORI (R232): Scalar or with a zero-extended immediate. -/
  | ori (img : Nat) (cell : Nat) (ecc : Nat)
  /-- LDI0 (R232): Loads bits 15:0 of a scalar register from an immediate. -/
  | ldi0 (img : Nat) (cell : Nat) (ecc : Nat)
  /-- LDI1 (R232): Loads bits 31:16 of a scalar register from an immediate. -/
  | ldi1 (img : Nat) (cell : Nat) (ecc : Nat)
  /-- LDI2 (R232): Loads bits 47:32 of a scalar register from an immediate. -/
  | ldi2 (img : Nat) (cell : Nat) (ecc : Nat)
  /-- LDI3 (R232): Loads bits 63:48 of a scalar register from an immediate. -/
  | ldi3 (img : Nat) (cell : Nat) (ecc : Nat)
  /-- LOOP (R233): Starts a counted loop of LEN bundles run COUNT times. -/
  | loop (img : Nat) (cell : Nat) (ecc : Nat)
  /-- JUMP (R234): Jumps to TARGET after one delay bundle. -/
  | jump (img : Nat) (cell : Nat) (ecc : Nat)
  /-- STSEL (R235): Selects the statistics set that receives counts. -/
  | stsel (img : Nat) (cell : Nat) (ecc : Nat)
  /-- MNOP (R236): M-slot no-operation. -/
  | mnop (img : Nat) (cell : Nat) (ecc : Nat)
  /-- MMA (R237): Accumulates outer products of two register segments into an accumulator. -/
  | mma (img : Nat) (cell : Nat) (ecc : Nat)
  /-- MCLR (R236): Clears an accumulator and its KIND. -/
  | mclr (img : Nat) (cell : Nat) (ecc : Nat)
  /-- MRD (R236): Reads two accumulator rows into a vector register. -/
  | mrd (img : Nat) (cell : Nat) (ecc : Nat)
  /-- MWR (R236): Writes two accumulator rows from a vector register and sets KIND. -/
  | mwr (img : Nat) (cell : Nat) (ecc : Nat)
  /-- VNOP (R238): V-slot no-operation. -/
  | vnop (img : Nat) (cell : Nat) (ecc : Nat)
  /-- VADD (R238): FP32 lane add. -/
  | vadd (img : Nat) (cell : Nat) (ecc : Nat)
  /-- VSUB (R238): FP32 lane subtract. -/
  | vsub (img : Nat) (cell : Nat) (ecc : Nat)
  /-- VMUL (R238): FP32 lane multiply. -/
  | vmul (img : Nat) (cell : Nat) (ecc : Nat)
  /-- VFMA (R238): FP32 fused multiply-add. -/
  | vfma (img : Nat) (cell : Nat) (ecc : Nat)
  /-- VFNMA (R238): FP32 negated fused multiply-add. -/
  | vfnma (img : Nat) (cell : Nat) (ecc : Nat)
  /-- VMIN (R238): FP32 lane minimum in the special-value order. -/
  | vmin (img : Nat) (cell : Nat) (ecc : Nat)
  /-- VMAX (R238): FP32 lane maximum in the special-value order. -/
  | vmax (img : Nat) (cell : Nat) (ecc : Nat)
  /-- VCMP (R238): FP32 lane comparison into a predicate register. -/
  | vcmp (img : Nat) (cell : Nat) (ecc : Nat)
  /-- VIADD (R238): 32-bit integer lane add. -/
  | viadd (img : Nat) (cell : Nat) (ecc : Nat)
  /-- VISUB (R238): 32-bit integer lane subtract. -/
  | visub (img : Nat) (cell : Nat) (ecc : Nat)
  /-- VIMUL (R238): 32-bit integer lane multiply, low bits. -/
  | vimul (img : Nat) (cell : Nat) (ecc : Nat)
  /-- VAND (R238): Vector bitwise and. -/
  | vand (img : Nat) (cell : Nat) (ecc : Nat)
  /-- VOR (R238): Vector bitwise or. -/
  | vor (img : Nat) (cell : Nat) (ecc : Nat)
  /-- VXOR (R238): Vector bitwise exclusive or. -/
  | vxor (img : Nat) (cell : Nat) (ecc : Nat)
  /-- VSHL (R238): Vector lane shift left. -/
  | vshl (img : Nat) (cell : Nat) (ecc : Nat)
  /-- VSHR (R238): Vector lane shift right, logical or arithmetic. -/
  | vshr (img : Nat) (cell : Nat) (ecc : Nat)
  /-- VSEL (R238): Selects lanes of two registers by predicate. -/
  | vsel (img : Nat) (cell : Nat) (ecc : Nat)
  /-- VBC (R238): Broadcasts a scalar into every lane. -/
  | vbc (img : Nat) (cell : Nat) (ecc : Nat)
  /-- VGET (R238): Copies one lane into a scalar register. -/
  | vget (img : Nat) (cell : Nat) (ecc : Nat)
  /-- VPUT (R238): Copies a scalar into one lane. -/
  | vput (img : Nat) (cell : Nat) (ecc : Nat)
  /-- VROT (R238): Rotates vector lanes. -/
  | vrot (img : Nat) (cell : Nat) (ecc : Nat)
  /-- PSET (R238): Sets a predicate register from a scalar. -/
  | pset (img : Nat) (cell : Nat) (ecc : Nat)
  /-- PGET (R238): Copies a predicate register into a scalar. -/
  | pget (img : Nat) (cell : Nat) (ecc : Nat)
  /-- VCVT (R239): Converts 64 elements between formats. -/
  | vcvt (img : Nat) (cell : Nat) (ecc : Nat)
  /-- VRSC (R240): Rescales 32-bit accumulator lanes to narrow integers. -/
  | vrsc (img : Nat) (cell : Nat) (ecc : Nat)
  /-- VAMAX (R244): Folds lanes into the AMAX, NAN and INF statistics. -/
  | vamax (img : Nat) (cell : Nat) (ecc : Nat)
  /-- VQENC (R242): Encodes 64 FP32 lanes into a part of a QI code register. -/
  | vqenc (img : Nat) (cell : Nat) (ecc : Nat)
  /-- VQDEC (R243): Decodes a part of a QI code register into FP32 lanes. -/
  | vqdec (img : Nat) (cell : Nat) (ecc : Nat)
  /-- XCLR (R246): Clears an exact accumulator and fixes its form. -/
  | xclr (img : Nat) (cell : Nat) (ecc : Nat)
  /-- XDOT (R246): Accumulates exact elementwise products. -/
  | xdot (img : Nat) (cell : Nat) (ecc : Nat)
  /-- XSUM (R246): Accumulates exact element values. -/
  | xsum (img : Nat) (cell : Nat) (ecc : Nat)
  /-- XSQD (R246): Accumulates exact squared differences. -/
  | xsqd (img : Nat) (cell : Nat) (ecc : Nat)
  /-- XDOTQ_QI8 (R246): Accumulates exact products of decoded QI8 codes with a vector. -/
  | xdotqQi8 (img : Nat) (cell : Nat) (ecc : Nat)
  /-- XDOTQ_QI4 (R246): Accumulates exact products of decoded QI4 codes with a vector. -/
  | xdotqQi4 (img : Nat) (cell : Nat) (ecc : Nat)
  /-- XRND (R248): Rounds an exact accumulator once into a scalar. -/
  | xrnd (img : Nat) (cell : Nat) (ecc : Nat)
  /-- XGET (R249): Copies an exact accumulator and its state into a vector register. -/
  | xget (img : Nat) (cell : Nat) (ecc : Nat)
  /-- XADD (R249): Adds a copied exact accumulator into a lane. -/
  | xadd (img : Nat) (cell : Nat) (ecc : Nat)
  /-- XNOP (R250): X-slot no-operation. -/
  | xnop (img : Nat) (cell : Nat) (ecc : Nat)
  /-- WREL (R207): Takes a staging window for the cell, or freezes the image in a late release. -/
  | wrel (img : Nat) (cell : Nat) (ecc : Nat)
  /-- WGIVE (R207): Hands a staging window back to the Ring, starting its next transfer. -/
  | wgive (img : Nat) (cell : Nat) (ecc : Nat)
  /-- VLDA (R250): Loads a vector register from a fixed SRAM line. -/
  | vlda (img : Nat) (cell : Nat) (ecc : Nat) (ups : List (Nat × Nat))
  /-- VSTA (R250): Stores a vector register to a fixed SRAM line. -/
  | vsta (img : Nat) (cell : Nat) (ecc : Nat)
  /-- VLD (R251): Loads a vector register from a register-based SRAM line address. -/
  | vld (img : Nat) (cell : Nat) (ecc : Nat) (ups : List (Nat × Nat))
  /-- VST (R251): Stores a vector register to a register-based SRAM line address. -/
  | vst (img : Nat) (cell : Nat) (ecc : Nat)
  /-- SLD (R250): Loads 8 bytes of SRAM into a scalar register. -/
  | sld (img : Nat) (cell : Nat) (ecc : Nat) (ups : List (Nat × Nat))
  /-- SST (R250): Stores a scalar register to 8 bytes of SRAM. -/
  | sst (img : Nat) (cell : Nat) (ecc : Nat)
  /-- SEND (R252): Sends a quarter of a vector register as a flit on mesh links. -/
  | send (img : Nat) (cell : Nat) (ecc : Nat)
  /-- RECV (R252): Takes an arriving flit into a quarter of a vector register. -/
  | recv (img : Nat) (cell : Nat) (ecc : Nat)
  /-- DRAM_READ (R279): A DRAM controller serves a read, answering never-written lines with zeros and writing back uncorrectable words poisoned. -/
  | dramRead (req : Nat) (site : Nat) (addr : Nat) (len : Nat) (ups : List (Nat × Nat × Nat)) (mapErr : List (Nat × Nat)) (waiting : Nat)
  /-- DRAM_WRITE (R279): A DRAM controller serves a write, as a first whole-line write or a read-modify-write where needed. -/
  | dramWrite (req : Nat) (site : Nat) (addr : Nat) (bytes : List Byte) (pois : List Nat) (ups : List (Nat × Nat × Nat)) (mapErr : List (Nat × Nat)) (waiting : Nat)
  /-- REFRESH (R280): A controller issues refresh to a pseudo-channel at its interval. -/
  | refresh (site : Nat) (pc : Nat)
  /-- KETTLE_JOB (R282): A kettle job is issued to a site's controller and queued, or refused or fenced at once. -/
  | kettleJob (site : Nat) (req : Option (Nat × Nat)) (prog : Nat) (lists : List (List Nat)) (lut : List Nat) (lutM : Nat) (params : List Nat) (outUnits : Nat) (pmapUnits : Nat)
  /-- KETTLE_JOB_START (R283): A queued kettle job starts its parts on the site's kettles in the mode in force. -/
  | kettleJobStart (site : Nat)
  /-- KETTLE_POLL (R295): Every POLL Ring cycles the controller reads CW1 of running kettles in shared mode. -/
  | kettlePoll (site : Nat)
  /-- FULL_WINDOW_END (R296): At the end of a full-mode window the controller reads every CW1 and serves waiting traffic. -/
  | fullWindowEnd (site : Nat)
  /-- KETTLE_JOB_COMPLETE (R284): When its parts have ended, a kettle job completes with its status and its output is collected. -/
  | kettleJobComplete (site : Nat)
  /-- KETTLE_PARITY_ERROR (R298): A command-path parity error puts a pseudo-channel into direct mode until reset. -/
  | kettleParityError (site : Nat) (pc : Nat)
  /-- KNOP (R289): Kettle no-operation. -/
  | knop (site : Nat) (kettle : Nat)
  /-- LDS (R289): Loads the next word of a stream into a kettle register. -/
  | lds (site : Nat) (kettle : Nat)
  /-- STO (R289): Appends a kettle register to OUTPUT. -/
  | sto (site : Nat) (kettle : Nat)
  /-- LDI (R289): Loads an immediate into every lane of a kettle register. -/
  | ldi (site : Nat) (kettle : Nat)
  /-- LDC (R289): Loads a parameter into every lane of a kettle register. -/
  | ldc (site : Nat) (kettle : Nat)
  /-- ALD (R289): Loads a parameter into an address register. -/
  | ald (site : Nat) (kettle : Nat)
  /-- AADD (R289): Adds an immediate to an address register. -/
  | aadd (site : Nat) (kettle : Nat)
  /-- CMP (R289): Compares kettle lanes into a mask. -/
  | cmp (site : Nat) (kettle : Nat)
  /-- TST (R289): Tests kettle lane bits into a mask. -/
  | tst (site : Nat) (kettle : Nat)
  /-- MAND (R289): Mask and. -/
  | mand (site : Nat) (kettle : Nat)
  /-- MOR (R289): Mask or. -/
  | mor (site : Nat) (kettle : Nat)
  /-- MNOT (R289): Mask not. -/
  | mnot (site : Nat) (kettle : Nat)
  /-- IADD (R289): Wrapping kettle lane add. -/
  | iadd (site : Nat) (kettle : Nat)
  /-- IADDS (R289): Saturating signed kettle lane add. -/
  | iadds (site : Nat) (kettle : Nat)
  /-- WIDEN (R289): Widens half of a kettle register's lanes. -/
  | widen (site : Nat) (kettle : Nat)
  /-- TLU (R289): Looks up 16 code bytes in the lookup table. -/
  | tlu (site : Nat) (kettle : Nat)
  /-- GSUM (R289): Sums groups of 16-bit lanes into 32-bit lanes. -/
  | gsum (site : Nat) (kettle : Nat)
  /-- BITS (R289): Appends a mask's lane bits to OUTPUT and poison bits to PMAP. -/
  | bits (site : Nat) (kettle : Nat)
  /-- FILT (R289): Reads a stream word, compares it and appends the result bits. -/
  | filt (site : Nat) (kettle : Nat)
  /-- EMIT (R289): Appends 8-byte entries for selected lanes to OUTPUT. -/
  | emit (site : Nat) (kettle : Nat)
  /-- KETTLE_LOOP (R289): Repeats the next LEN kettle micro-ops COUNT times. -/
  | kettleLoop (site : Nat) (kettle : Nat)
  /-- END (R289): Sets DONE and ends the kettle part. -/
  | kettleEnd (site : Nat) (kettle : Nat)
  /-- SCRUB_LINE_VISIT (R319): A scrubber visits a line within its budget, writing back corrected or poisoned words. -/
  | scrubLineVisit (n : Nat) (ups : List (Nat × Nat × Nat))
  /-- NODE_RANGE_ACCESS (R330): A requester's node-range access is served by the page's state: zero, in DRAM, in place, after a move, or waiting. -/
  | nodeRangeAccess (req : Nat) (addr : Nat) (len : Nat) (write : Option (List Byte × List Nat)) (met : Met)
  /-- FRAME_ALLOCATE (R335): A page leaving ZERO takes a frame when one is free, or falls to T4 or is refused after MOVE_WAIT. -/
  | frameAllocate
  /-- MOVE_START (R332): The tier manager takes a move-table entry, sets the page MOVING and begins copying once earlier accesses end. -/
  | moveStart (page : Nat) (dst : MoveDst)
  /-- MOVE_COMMIT (R332): After the copy, the page's entry takes the destination, waiting accesses resume and the source is released. -/
  | moveCommit (slot : Nat)
  /-- MOVE_ABANDON (R333): An access that waited MOVE_WAIT ticks abandons the move and is served at the source. -/
  | moveAbandon (slot : Nat)
  /-- DEMOTION_ROUND (R338): Below the low-water mark, the oldest eligible T2 pages are demoted until HIGH is reached. -/
  | demotionRound (grants : List (Nat × Nat))
  /-- AGER_SWEEP (R339): Every 2^AGE_LOG2 ticks the ager raises the AGE codes of T2 and LENT pages. -/
  | agerSweep
  /-- LENT_FRAME_REQUEST (R342): A lender answers a borrower's request for a lent frame with a HANDLE. -/
  | lentFrameRequest (msg : LentMsg)
  /-- FLASH_WRITE (R360): A write to the flash store completes once in the write cache with its map delta, or waits for room. -/
  | flashWrite (req : Nat) (flu : Nat) (ru : Nat) (bytes : List Byte) (pois : Nat)
  /-- FLASH_WRITE_RESUME (R360): A write that waited for cache or delta room is taken once room exists. -/
  | flashWriteResume
  /-- BAND_ROW_PROGRAM (R361): A log row whose data units are present is programmed with its parity. -/
  | bandRowProgram (band : Nat) (row : Nat)
  /-- FLASH_PROGRAM_COMPLETE (R361): A program or erase completes; a failed block is retired and its units relocated. -/
  | flashProgramComplete (band : Nat) (row : Option Nat) (failed : List Nat)
  /-- FLASH_READ (R359): A read of an FLU is served from the cache or flash, or waits on a fenced or suspect die. -/
  | flashRead (req : Nat) (unit : RuAt) (weak : List (Nat × Nat × Nat))
  /-- FLASH_READ_COMPLETE (R365): A read unit's decode completes, with retry, soft decode, rebuild or poison where needed. -/
  | flashReadComplete (id : Nat) (step : Nat)
  /-- GARBAGE_COLLECTION (R362): When free blocks run low, the band with fewest valid units is copied forward and erased. -/
  | garbageCollection
  /-- SLC_FOLD (R363): Background folding copies SLC-band data into native-mode bands. -/
  | slcFold (band : Nat)
  /-- PATROL_READ (R367): At PATROL_RATE the patrol reads the next mapped unit and relocates it when needed. -/
  | patrolRead (steps : List Nat) (pct : Nat)
  /-- CHECKPOINT_WRITE (R371): Firmware writes dirty map segments to checkpoint bands. -/
  | checkpointWrite (segment : Nat)
  /-- ROW_REBUILD (R370): A row of a lost die or channel is reconstructed from parity and rewritten. -/
  | rowRebuild
  /-- FLASH_MOUNT (R372): The store mounts, keeping state after warm reset or replaying checkpoints and deltas after cold. -/
  | flashMount (p : MountPar)
  /-- MOUNT_COMPLETE (R372): The mount finishes, STATE leaves MOUNTING and waiting requests are served. -/
  | mountComplete
  /-- PLOSS_RECOGNISED (R373): PLOSS_N low for 2 ticks is recognised and the power-loss flush begins. -/
  | plossRecognised
  /-- PLOSS_GLITCH (R373): PLOSS_N rising before 2 ticks is ignored and counted. -/
  | plossGlitch
  /-- FLUSH_MARKER_WRITTEN (R374): The flush marker is programmed, STATE reads FLUSHED and the node stays halted. -/
  | flushMarkerWritten
  /-- FLASH_OP_TIMEOUT (R368): A flash operation past its timeout resets the target, retrains and reissues, then marks the die suspect. -/
  | flashOpTimeout (ch : Nat) (die : Nat) (op : Nat) (rate : Option Nat)
  /-- PORT_TRAINING (R382): A port trains through equalisation, seed exchange, FEC lock, TRAIN flits and the wiring check. -/
  | portTraining (port : Nat) (node : Nat) (role : Nat) (strap : Nat)
  /-- TRAINING_RETRY (R382): A port that has not passed training within 10,000 ticks starts training again. -/
  | trainingRetry (port : Nat)
  /-- PORT_DOWN (R389): A port leaving UP has its packets reassigned and resent, and its forwards dropped with NAK. -/
  | portDown (port : Nat)
  /-- FLIT_RECEIVE (R381): A flit is accepted in sequence, or discarded with NAK; ACK and credit are taken. Its 5,140 bits in runs (R380):
  words 4607:0, head 4652:4608, ctl 4701:4653, rest 5107:4702, crc 5139:5108. -/
  | flitReceive (port : Nat) (decoded : Bool) (corrected : Bool) (words : Nat) (head : Nat) (ctl : Nat) (rest : Nat) (crc : Nat)
  /-- QUARANTINE_END (R391): After QUAR_TICKS ticks a quarantined port returns to UP. -/
  | quarantineEnd (port : Nat)
  /-- PACKET_FORWARD (R388): A via node forwards a packet to a node it reaches directly, or drops it with NAK NO_ROUTE. -/
  | packetForward (port : Nat) (p : Packet)
  /-- WRITE (R402): A WRITE packet is checked and placed by offset; a whole message returns PLACED. -/
  | write (port : Nat) (p : Packet)
  /-- READ_REQ (R398): A READ_REQ packet is checked and answered with a READ_DATA message. -/
  | readReq (port : Nat) (p : Packet)
  /-- READ_DATA (R403): A READ_DATA packet is placed; a whole message completes its READ. -/
  | readData (port : Nat) (p : Packet)
  /-- FETCH_ADD (R399): A FETCH_ADD packet adds to the home word once and returns the old value. -/
  | fetchAdd (port : Nat) (p : Packet)
  /-- COMPARE_SWAP (R399): A COMPARE_SWAP packet swaps the home word on equality once and returns the old value. -/
  | compareSwap (port : Nat) (p : Packet)
  /-- ATOMIC_RESP (R398): An ATOMIC_RESP places the old value and completes its atomic, or is dropped when late. -/
  | atomicResp (port : Nat) (p : Packet)
  /-- PLACED (R398): A PLACED acknowledges a whole WRITE message and may complete a FLUSH. -/
  | placed (port : Nat) (p : Packet)
  /-- NAK (R398): A NAK fails its operation by reason or, for NO_ROUTE, resends the packet on another path. -/
  | nak (port : Nat) (p : Packet)
  /-- SYS (R127): A whole SYS message is handed to firmware: a shard search request or a partial list. -/
  | sys (port : Nat) (p : Packet) (m : SysMsg)
  /-- PORTMAP (R387): A PORTMAP updates a via node's port availability for two-hop paths. -/
  | portmap (port : Nat) (p : Packet)
  /-- PORTMAP_SEND (R387): A node sends PORTMAP on every UP rack port when its ports change and at least every 1,000 ticks. -/
  | portmapSend
  /-- TWIN (R55): A twin frame of digests is received from the twin over port 15. -/
  | twin (msg : TwinMsg)
  /-- QUEUE_SAMPLE (R438): At each PERIOD tick, a depth and delay sample is written for every sampled queue. -/
  | queueSample
  /-- DESCRIPTOR_TIMEOUT (R445): At the descriptor timeout the work is aborted and the descriptor completes TIMEOUT. -/
  | descriptorTimeout (work : Nat) (wedged : Option Engine)
  /-- RMA_TIMEOUT (R444): An RMA operation with no response in time completes TIMEOUT and frees its entry. -/
  | rmaTimeout (msgid : Nat)
  /-- REASSEMBLY_TIMEOUT (R404): A message not whole in time fails, its entry is freed and its bytes left undefined. -/
  | reassemblyTimeout (src : Nat) (msgid : Nat) (m : Option SysMsg)
  /-- KETTLE_OP_TIMEOUT (R295): A kettle part past its timeout is abandoned and its kettle reset. -/
  | kettleOpTimeout (site : Nat) (kettle : Nat)
  /-- ENGINE_RESET (R447): An engine that does not release aborted work within 1,000 ticks is reset alone. -/
  | engineReset (engine : Engine)
  /-- CORE_WATCHDOG_EXPIRY (R448): A control core's watchdog expires and the core is restarted, or left stopped. -/
  | coreWatchdogExpiry (core : Nat) (works : List Nat) (moves : List Nat)
  /-- CROWN_WATCHDOG_EXPIRY (R449): Without a kick for CROWN_WDOG × 100 ms the Crown performs a warm reset with cause watchdog. -/
  | crownWatchdogExpiry
  /-- POWER_ON (R463): VDD_MGMT entering regulation causes a cold reset and a Crown ROM boot. -/
  | powerOn
  /-- BROWN_OUT (R475): A rail below its brown-out threshold for 1 µs causes a cold reset. -/
  | brownOut (rail : Nat)
  /-- RESET_N_ASSERT (R463): RESET_N low for 1 µs causes a warm reset, or cold with PIN_COLD, and holds the node in reset. -/
  | resetNAssert
  /-- RESET_N_RELEASE (R463): RESET_N rising lets start-up leave step 1. -/
  | resetNRelease
  /-- CORE_REF_LOST (R24): Loss of CORE_REF fails PLLs over, flushes the map and warm-resets. -/
  | coreRefLost
  /-- PORT_REF_LOST (R24): Loss of PORT_REF flushes the map and warm-resets. -/
  | portRefLost
  /-- DRAM_PLL_UNLOCK (R24): A DRAM site's PLL unlocking causes a cold reset. -/
  | dramPllUnlock
  /-- CORE_DOUBLE_FAULT (R464): A control-core double fault causes a warm reset with cause lock-up. -/
  | coreDoubleFault
  /-- RING_DEADLOCK (R464): A Ring crossbar request ungranted for 2^20 cycles causes a warm reset with cause lock-up. -/
  | ringDeadlock
  /-- WARM_RESET_PREPARATION (R466): Before a warm reset, work stops, versions fold, moves are abandoned and the flash map is flushed. -/
  | warmResetPreparation (flushTicks : Nat)
  /-- WARM_RESET (R462): A warm reset takes effect after its preparation or PREP_MS, and start-up begins at step 2. -/
  | warmReset
  /-- COLD_RESET (R462): A cold reset takes effect and start-up runs from step 1. -/
  | coldReset
  /-- FELT_ONLY_RESET (R468): A Felt-only reset ends runs and loads, empties slots, clears cell SRAM and realigns the Felt–Ring crossings. -/
  | feltOnlyReset
  /-- STARTUP_STEP_COMPLETE (R469): A start-up step finishes or fails, and the next step begins. -/
  | startupStepComplete (par : StartPar)
  /-- POWER_MEASURE (R476): Every tick the Crown measures input power and sets whether the node is over its cap. -/
  | powerMeasure (rails : List (Nat × Nat))
  /-- SENSOR_REFRESH (R480): Every 1,000 ticks the Crown refreshes temperatures and may log a thermal warning. -/
  | sensorRefresh (temps : List Int)
  /-- THERMAL_TRIP (R477): A junction at 115 °C stops the clocks, logs the trip, drives THERMTRIP_N and holds the node in reset. -/
  | thermalTrip (temps : List Int)
  /-- EVENT_LOG_WRITE (R483): Buffered Crown event-log entries are written to boot flash within 10 ms. -/
  | eventLogWrite
  /-- VF_ENABLE (R416): Setting VF Enable or raising NumVFs enables virtual functions, each finding its tenant context as it was left, with no queues. -/
  | vfEnable (numVfs : Nat)
  /-- VDD_MGMT_REMOVED (R474): Removing VDD_MGMT ends everything, the Crown included, until the next power-on. -/
  | vddMgmtRemoved
  /-- ATOMIC_REPLAY_EXPIRY (R399): An atomic-replay entry kept for the RMA timeout expires and is freed, so a later repeat would be applied again. -/
  | atomicReplayExpiry (src : Nat) (req : Nat)
  /-- WHOLE_KEY_EXPIRY (R402): The key of a message made whole leaves the table of recently whole messages when its reassembly timeout runs out. -/
  | wholeKeyExpiry (src : Nat) (msgid : Nat)
  /-- ENGINE_RESET_COMPLETE (R447): A reset engine finishes its reset within 100 ticks and admits the requests held for it. -/
  | engineResetComplete (engine : Engine)
  /-- CORE_RESTART_COMPLETE (R448): A restarted control core runs its resident firmware again, its FW_STATUS.CORES bit is set, and it takes back work. -/
  | coreRestartComplete (core : Nat)
  /-- SPDM_KEY_EXCHANGE (R495): An SPDM session request, such as one for IDE_KM, is answered with the Crown's P-384 key certified by the device key. -/
  | spdmKeyExchange (path : Nat) (request : List Byte)
  deriving DecidableEq, Repr

end Sys2Proof
end

