-- ==== Sys2Proof/Machine/State.lean ====
section
/-! DEFINITION. The state of the node as plain data: everything the spec gives it, grouped by part, the queue of commands that
wait, and what the node has sent. -/
namespace Sys2Proof.Machine
open Sys2Proof

/-! ### Values the numeric units hold -/

/-- The exact accumulator (R81, R82): its form, the two's-complement value in units of 2^−48 (narrow) or 2^−272 (wide), and
its state. -/
structure Exact where
  wide : Bool
  a : Int
  terms : Nat
  infPos : Bool
  infNeg : Bool
  nan : Nat
  ovf : Bool
  poison : Bool
  deriving DecidableEq, Repr

/-- The statistics of a tensor or of a statistics set (R80, R235). -/
structure TStat where
  amax : Nat
  nan : Nat
  inf : Nat
  sat : Nat
  outl : Nat
  esc : Nat
  deriving DecidableEq, Repr


/-! ### The part, its clock and what it has sent -/

/-- The orderable part (R1). -/
inductive Part where
  | c7200K | c7200M | c7100K
  deriving DecidableEq, Repr

/-- The Bow's states (R34). -/
inductive BowSt where
  | free | adopted | synced | lost
  deriving DecidableEq, Repr

/-- Why the Bow left SYNCED (R35), the codes of TCK_STATUS.LOST_WHY. -/
inductive LostWhy where
  | none | refMissing | phase | mismatch | checkMissing
  deriving DecidableEq, Repr

/-- An entry of a gate list (R436): duration in ticks and the mask of open classes. -/
structure GateEnt where
  dur : Nat
  mask : Nat
  deriving DecidableEq, Repr

/-- What a scheduled event does at its tick (R40): an image launch, an epoch commit, a gate-list change. -/
inductive EvtKind where
  | launch (slot : Nat)
  | commit (index shard : Nat)
  | gate (port : Nat) (list : List GateEnt)
  deriving DecidableEq, Repr

/-- One entry of the schedule table (R40): the descriptor that asked for it and whether the Bow has prepared it (R42). -/
structure SchedEvt where
  kind : EvtKind
  tick : Nat
  work : Nat
  queue : Nat
  seq : Nat
  prepared : Bool
  deriving DecidableEq, Repr

/-- The Bow (R29–R45): its state, the count, why it was lost, whether TICK_REF is present, the phase error in 1/16 ns, the
CHECK frames missed in a row, the schedule table, a crossing alignment that waits for its edge (R45) with whether it is
the Felt–Ring crossings alone, and whether firmware work of a step boundary waits for the end of class 6 (R43). -/
structure Bow where
  st : BowSt
  count : Nat
  why : LostWhy
  refPresent : Bool
  phase : Int
  missed : Nat
  sched : List SchedEvt
  align : Option Nat
  alignFelt : Bool
  edgeWork : Bool
  deriving DecidableEq, Repr

/-- A held digest (R54–R56): the segment, its CRC-64, the tick it was completed or arrived in, and the CRC-8 check bytes. -/
structure Digest where
  id : SegId
  crc : Nat
  tick : Nat
  chk : List Nat
  deriving DecidableEq, Repr

/-- A completion that has been decided (R427), without its ring slot and PHASE. -/
structure Comp where
  tag : Nat
  seq : Nat
  status : Nat
  cls : Nat
  superseded : Bool
  reason : Nat
  value : Nat
  signal : Bool
  deriving DecidableEq, Repr

/-- Lock-step twin state (R53–R60): own and peer digests held for comparison, the words of the running segment of each
block with its number, compared completions held until matched (R58) with the segments each waits for, the digests not yet sent, the
first tick whose comparison point is still to come (R41), and whether the twin was on port 15 when last seen (R59). -/
structure Twin where
  st : Nat
  own : List Digest
  peer : List Digest
  blockWords : SMap (List Nat)
  blockSeg : SMap Nat
  held : List (Nat × Comp × List SegId)
  unsent : List Digest
  judged : Nat
  linked : Bool
  deriving DecidableEq, Repr

/-! ### DRAM and integrity -/

/-- An entry of the integrity log (R321, R323). -/
structure IntEnt where
  kind : Nat
  place : Nat
  pos : Nat
  unit : Nat
  addr : Nat
  tick : Nat
  deriving DecidableEq, Repr

/-- The Fuller (R317–R320) and the integrity log: visit position, line budget and corrections of the running pass per
scrubber, the 256-entry log, and the zero-line reads not yet counted (INT_MAP counts them in units of 2^16). -/
structure Integrity where
  log : List IntEnt
  pos : SMap Nat
  budget : SMap Nat
  passCorr : SMap Nat
  zeroFrac : Nat
  deriving DecidableEq, Repr

/-- The DRAM sites (R275–R281, R310–R314): codeword bytes, the written-map (set lines), the map words that read
UNCORRECTABLE, and the outstanding requests of each controller. Cell key: ((site·2^33 + word)·18 + position). -/
structure Dram where
  cells : List Host.Cell
  written : List Nat
  badMap : List Nat
  queued : SMap Nat
  deriving DecidableEq, Repr

/-- A kettle register or any 256-bit value with one poison tag per 128-bit half (R287). -/
structure KReg where
  val : Nat
  t0 : Bool
  t1 : Bool
  deriving DecidableEq, Repr

/-- A running LOOP of a kettle part (R289): first and last micro-op of the body and the passes left. -/
structure KLoop where
  first : Nat
  last : Nat
  left : Nat
  deriving DecidableEq, Repr

/-- One kettle (R285–R289): registers k, a and m; its command area, CW0, CW1 and `cws` CW2–CW31; micro-op index, LOOP stack, position of
each stream, the position of the last stream-0 read and the poison bits of the last word read, how many bits it has appended to OUTPUT
and to PMAP, and whether a part runs on it; `owner` is the kettle whose part it is (itself, or a fenced sibling), `expiry` the edge at
which it times out, `direct` whether the part was started in direct mode (R298). -/
structure Kettle where
  k : SMap KReg
  a : SMap Nat
  m : SMap Nat
  cw0 : Nat
  cw1 : Nat
  cws : List Nat
  pc : Nat
  loops : List KLoop
  pos : SMap Nat
  lastP : Nat
  lastT : List Bool
  outBits : Nat
  mapBits : Nat
  running : Bool
  owner : Nat
  expiry : Nat
  direct : Bool
  deriving DecidableEq, Repr

/-- What a part gave (R284, R292): its kettle, CW1, the bits of OUTPUT with its poisoned words, the bits of PMAP. -/
structure KOut where
  owner : Nat
  cw1 : Nat
  out : List Bool
  pois : List Nat
  pmap : List Bool
  deriving DecidableEq, Repr

/-- A kettle job (R282): who issued it (a shard search by number, for the comparison at a place of its filter, or a control core), its program, frame lists, lookup table,
parameters and output capacities, and how far it is: whether it has started and in full mode, parts not yet started, parts
running (kettle, owner), the results of its ended parts (0 OK, 1 POISON, 2 FAULT, 3 OVERFLOW, 4 timed out, 5 fenced), and their
outputs. -/
structure KJob where
  id : Nat
  req : Option (Nat × Nat)
  prog : Nat
  lists : List (List Nat)
  lut : List Nat
  lutM : Nat
  params : List Nat
  outUnits : Nat
  pmapUnits : Nat
  started : Bool
  full : Bool
  todo : List Nat
  active : List (Nat × Nat)
  codes : List Nat
  outs : List KOut
  deriving DecidableEq, Repr

/-- A kettle site (R282–R301): its queue of jobs, its kettles, the program table, the program resident in each kettle with its number,
the scratch units written in the job that runs, by kettle × 16,384 + unit (R277: any other unit is undefined), pseudo-channels the
controller put into direct mode, whether a full-mode window is open, streamed words below 2^16 not yet
counted, and the next job number. -/
structure KSite where
  jobs : List KJob
  kettles : SMap Kettle
  progs : SMap (List Nat)
  resident : SMap (Nat × List Nat)
  scratch : SMap KReg
  pcdir : Nat
  window : Bool
  frac : Nat
  nextJob : Nat
  deriving DecidableEq, Repr

/-! ### Tiers -/

/-- Where a page lives (R328). -/
inductive Home where
  | zero
  | t2 (site frame : Nat)
  | lent (units lender handle : Nat)
  | t4 (units : Nat)
  | moving (slot : Nat)
  deriving DecidableEq, Repr

/-- A home-table entry (R328). -/
structure PageEnt where
  home : Home
  pins : Nat
  age : Nat
  acc : Nat
  tenant : Nat
  deriving DecidableEq, Repr

/-- An entry of the move table (R332): page, source, destination, and the MOVE descriptor it serves (if any). -/
structure MoveEnt where
  page : Nat
  src : Home
  dst : Home
  start : Nat
  work : Option Nat
  deriving DecidableEq, Repr

/-- An entry of the lent-frame table (R341): a frame offered to lend, the node that borrows it where one does, the generation. -/
structure LentFrame where
  site : Nat
  frame : Nat
  borrower : Option Nat
  gen : Nat
  recalled : Bool
  deriving DecidableEq, Repr

/-- A node-range access that waits on a MOVING page or on a frame (R330, R332, R335), and the edge at which it has waited
MOVE_WAIT ticks. -/
structure WaitAcc where
  req : Nat
  host : Bool
  write : Bool
  addr : Nat
  len : Nat
  bytes : List Byte
  pois : List Nat
  expiry : Nat
  deriving DecidableEq, Repr

/-- One 128-bit word as bytes with its poison mark, the unit SBC form and lent pages carry (R307, R345). -/
structure PWord where
  data : List Byte
  pois : Bool
  deriving DecidableEq, Repr

/-- A read unit (R364): its data bytes (zeros beyond the listed ones) and its poison bitmap. -/
structure RUnit where
  data : List Byte
  pois : Nat
  deriving DecidableEq, Repr

/-- The tier manager (R324–R350). `lentHeld` is what the lenders hold of this node's LENT pages: the stored read units of each;
`homeBad` the pages whose home-table copies have gone bad and that no access has read since: bit `i` for copy `i` (R329). -/
structure Tiers where
  home : SMap PageEnt
  moves : SMap MoveEnt
  lentOut : SMap LentFrame
  waiting : List WaitAcc
  lentHeld : SMap (List RUnit)
  homeBad : SMap Nat
  sweep : Nat
  noRetry : List Nat
  deriving DecidableEq, Repr

/-! ### Host, queues and tenants -/

/-- A depth-and-delay mark (R438). -/
structure Mark where
  tail : Nat
  tick : Nat
  deriving DecidableEq, Repr

/-- A queue (R417–R423): the settings in force, head, tail, completion ring counts, waiting completions, coalescing state,
the descriptor that holds it (R429), sampling marks. -/
structure Queue where
  sqBase : Nat
  sqLog2 : Nat
  cqBase : Nat
  cqLog2 : Nat
  watch : Nat
  headw : Nat
  head : Nat
  tail : Nat
  defer : Bool
  done : Nat
  cqHead : Nat
  waitc : List Comp
  irqN : Nat
  irqFirst : Nat
  held : Option Nat
  marks : List Mark
  destroying : Bool
  deriving DecidableEq, Repr

/-- A fetched descriptor whose completion is not yet decided (R420, R444), the tick of its fetch
and the edge at which it times out. `orphan` marks one whose queue is gone (R416). -/
structure Work where
  id : Nat
  tenant : Nat
  queue : Nat
  seq : Nat
  cls : Nat
  tag : Nat
  signal : Bool
  desc : List Byte
  fetched : Nat
  expiry : Nat
  begun : Bool
  orphan : Bool
  deriving DecidableEq, Repr

/-- A tenant context (R413): first page and pages of its window. -/
structure Ctx where
  base : Nat
  pages : Nat
  deriving DecidableEq, Repr

/-- One MSI-X table entry (R430): message address and data, mask bit, pending bit. -/
structure MsixEnt where
  addr : Nat
  data : Nat
  masked : Bool
  pending : Bool
  deriving DecidableEq, Repr

/-- The MSI-X state of a function (R430): its 9 entries by number, the enable and the function mask. -/
structure Msix where
  ents : SMap MsixEnt
  enabled : Bool
  fmask : Bool
  deriving DecidableEq, Repr

/-- The two buckets of a meter (R433). -/
structure Meter where
  tc : Nat
  tp : Nat
  deriving DecidableEq, Repr

/-- The gate list in force on a port (R436): takeover tick, entries, entry in force. -/
structure GateList where
  tick : Nat
  ents : List GateEnt
  cur : Nat
  deriving DecidableEq, Repr

/-- A CXL event record (R412). -/
structure CxlRec where
  handle : Nat
  general : Bool
  code : Nat
  data : Nat
  time : Nat
  deriving DecidableEq, Repr

/-- One CXL event log (R412): up to 256 records, its overflow count and the times of the first and last overflow. -/
structure CxlLog where
  recs : List CxlRec
  overflow : Nat
  firstOv : Nat
  lastOv : Nat
  nextHandle : Nat
  deriving DecidableEq, Repr

/-- The host side (R408–R441). -/
structure HostIf where
  linkUp : Bool
  perstLow : Bool
  vfEnable : Bool
  numVfs : Nat
  ctxs : SMap Ctx
  queues : SMap Queue
  work : List Work
  nextId : Nat
  wakes : List Nat
  msix : SMap Msix
  meters : SMap Meter
  gates : SMap GateList
  cxlLogs : SMap CxlLog
  evtPolicy : List Nat
  qcmdBusy : SMap Nat
  lastVisit : Nat
  deriving DecidableEq, Repr

/-! ### Firmware services -/

/-- The firmware's own state (R442–R461): engines asked to release work (engine, tick, descriptor), engines in reset with the tick of
each, the ticks of the recent expiries of each control core, the cores left stopped, automatic-fence counts by unit with the
window's first tick, fenced sites, sites to be trained at the next warm reset, the draining site, and the job command in progress
(OP, ID, GEN). -/
structure Fw where
  aborting : List (Engine × Nat × Nat)
  inReset : List (Engine × Nat)
  expiries : SMap (List Nat)
  stopped : List Nat
  autoCnt : SMap Nat
  autoStart : Nat
  fencedSites : Nat
  unfencePend : Nat
  draining : Option Nat
  jobCmd : Option (Nat × Nat × Nat)
  deriving DecidableEq, Repr

/-! ### Reset, power and the Crown -/

/-- Reset and power state outside the registers (R462–R478): whether VDD_MGMT is present, whether a thermal trip stopped the
clocks, RESET_N, a requested warm reset with the Crown's time it was requested at and whether its preparation is done, a requested
cold or Felt-only reset, the sources of the requests (bits of R463), whether the power-loss flush runs or the node stays halted after
it, the PLL failures in a row, whether this start-up fell back to the other firmware slot, the time the start-up began and the step
it began at, and the power samples of the averaging window. -/
structure Power where
  vddMgmt : Bool
  tripped : Bool
  resetNLow : Bool
  warmPend : Bool
  prepStart : Nat
  prepDone : Bool
  coldPend : Bool
  feltPend : Bool
  causes : Nat
  flushing : Bool
  halted : Bool
  pllTries : Nat
  fellBack : Bool
  startTick : Nat
  fromStep : Nat
  samples : List Nat
  deriving DecidableEq, Repr

/-- A Crown event-log entry (R482). -/
structure CrownEvt where
  tick : Nat
  bow : Nat
  sev : Nat
  code : Nat
  seq : Nat
  time : Nat
  data : Nat
  raised : Nat
  deriving DecidableEq, Repr

/-- A firmware slot of the boot flash (R487, R489): its bytes and whether R490 found it valid. -/
structure FwSlot where
  bytes : List Byte
  valid : Bool
  deriving DecidableEq, Repr

/-- A transfer in progress (R491): the path (0 CXL, 1 MCTP), the slot, the next expected offset. -/
structure Transfer where
  path : Nat
  slot : Nat
  next : Nat
  deriving DecidableEq, Repr

/-- A failure record (R500): sequence number, triggers, tick, HELD, bytes. -/
structure Frec where
  seq : Nat
  triggers : Nat
  tick : Nat
  held : Bool
  bytes : List Byte
  deriving DecidableEq, Repr

/-- A nonce handed out by GET_CHALLENGE (R486): its bytes and the tick it was made in. -/
structure Nonce where
  val : List Byte
  made : Nat
  deriving DecidableEq, Repr

/-- The Crown (R479–R502). -/
structure Crown where
  temps : List Int
  rails : List (Nat × Nat)
  buffer : List CrownEvt
  log : List CrownEvt
  nextSeq : Nat
  timeSet : Option (Nat × Nat)
  warned : SMap Nat
  active : Nat
  pend : Option Nat
  running : Nat
  pinCold : Bool
  rootRevoked : Bool
  owners : SMap (List Byte)
  slots : SMap FwSlot
  fuses : SMap Nat
  transfer : Option Transfer
  nonces : List Nonce
  frecs : SMap Frec
  frecSeq : Nat
  capture : Option Nat
  snapshot : List Byte
  attach : Option (Nat × Nat)
  closed : Option (Nat × Nat × Nat)
  meas : List (List Byte)
  recovery : Bool
  recovered : Bool
  deviceKey : Nat
  aliasKey : Nat
  spdmKey : Nat
  deriving DecidableEq, Repr

/-! ### The flash store -/

/-- A mapping unit with its metadata (R364): up to four read units, FLU, sequence number, KIND, area name. -/
structure MUnit where
  rus : List RUnit
  flu : Nat
  seq : Nat
  kind : Nat
  name : Nat
  deriving DecidableEq, Repr

/-- A member block of a band (R361): channel, die, block. -/
structure Blk where
  ch : Nat
  die : Nat
  blk : Nat
  deriving DecidableEq, Repr

/-- A band (R361): its members, whether it is in SLC mode, the data units placed in it so far, the rows programmed, the rows
whose program is under way, the tick of its first program, and whether it is being erased. -/
structure Band where
  members : List Blk
  slc : Bool
  next : Nat
  done : List Nat
  busy : List Nat
  first : Nat
  erasing : Bool
  deriving DecidableEq, Repr

/-- An area of the area table (R356): name, kind, tenant, first FLU, pages. -/
structure Area where
  name : Nat
  kind : Nat
  tenant : Nat
  first : Nat
  pages : Nat
  deriving DecidableEq, Repr

/-- A flash request that waits or is being served (R359, R360, R366): requester (2^32 + the descriptor for a page of an area), FLU,
read unit, the data to write or, for a read, the stored data at its issue with its physical unit (none before its turn), the edge at which
it times out, and whether a read was issued to a die in service. -/
structure FReq where
  id : Nat
  req : Nat
  flu : Nat
  ru : Nat
  data : RUnit
  pu : Option Nat
  expiry : Nat
  issued : Bool
  deriving DecidableEq, Repr

/-- The geometry and state found at mount (R352–R354): usable LUN mask of each channel, pages per block in native and SLC
mode, blocks per die, the retention limit in ticks, the part's rated cycles. -/
structure FGeom where
  dies : List Nat
  pages : Nat
  slcPages : Nat
  blocks : Nat
  retention : Nat
  rated : Nat
  deriving DecidableEq, Repr

/-- The flash store (R351–R377). `st` is FSH_STATUS.STATE. `map` and `ckpt` give the physical unit of each mapped FLU, in
force and as the newest checkpoints hold it; `kept` are the deltas on flash that the checkpoints do not cover, `deltas` those
in the delta log only. `cache` holds the written units not yet programmed and `units` the programmed ones, by physical unit.
`lost` are units that read as poisoned. `rebuild` are rows waiting (band, row, member lost), `wanted` the units on them that a search or a
node-range access waits for. `weak` gives, by 4 times the physical unit plus the read unit, the step of R365 at which the next read of a
unit gone weak ends. `metas` are the units of KIND 4, 5 and 6 in the log; what they say is `ckpt`, `kept` and `marker`. `slcB` is B of R363. -/
structure Flash where
  st : Nat
  geom : FGeom
  logical : Nat
  map : SMap Nat
  ckpt : SMap Nat
  kept : List (Nat × Nat)
  deltas : List (Nat × Nat)
  cache : SMap MUnit
  units : SMap MUnit
  lost : List Nat
  bands : SMap Band
  nextBand : Nat
  openBand : Option Nat
  openNative : Option Nat
  erases : SMap Nat
  retired : List Nat
  rot : SMap Nat
  areas : SMap Area
  waitw : List FReq
  reads : List FReq
  nextReq : Nat
  rebuild : List (Nat × Nat × Nat)
  noSpace : Bool
  testing : List (Nat × Nat)
  tries : SMap Nat
  seq : Nat
  patrolPos : Nat
  patrolWin : Nat
  patrolCnt : Nat
  cold : Bool
  marker : Option (Nat × Nat × Nat)
  flushStart : Nat
  wanted : List Nat
  weak : SMap Nat
  metas : List MUnit
  slcB : Nat
  deriving DecidableEq, Repr

/-! ### Search -/

/-- A hosted shard (R95–R98): its 192-byte descriptor, its epoch (R141), the SHARD_DETACH descriptor that ends it, updates that
prepared and no commit has taken yet, and those that a prepared commit applies, by tick: inserts and deletes (R142, R143). -/
structure Shard where
  desc : List Byte
  epoch : Nat
  detaching : Option Nat
  ins : Nat
  dels : Nat
  fixed : List (Nat × Nat × Nat)
  deriving DecidableEq, Repr

/-- The parts of a row beside its record (R133): item ID, code, norm and one 8-byte value per column. -/
structure RowData where
  id : Nat
  code : List Byte
  norm : Nat
  attrs : List Nat
  deriving DecidableEq, Repr

/-- A newer version of a row (R133, R137): VFROM, the record, the other parts where the update wrote them, the tick of the
prepared commit that applies it, and whether BIRTH or DEATH was written as current epoch + 1 (R142). -/
structure RowVer where
  vfrom : Nat
  record : List Byte
  data : Option RowData
  fixed : Option Nat
  birth : Bool
  death : Bool
  deriving DecidableEq, Repr

/-- An entry of the candidate list (R110). -/
structure Cand where
  key : Nat
  id : Nat
  loc : Nat
  done : Bool
  deriving DecidableEq, Repr

/-- An item offered to the results (R114). -/
structure Offer where
  loc : Nat
  key : Nat
  id : Nat
  score : Nat
  deriving DecidableEq, Repr

/-- Where a shard search stands. -/
inductive SPhase where
  | waiting | scanning | running
  deriving DecidableEq, Repr

/-- A record staged in the batt store (R118, R325): its local index and the version it holds (VFROM, 0 for the base row), its first line of
256 bytes, the node-range bytes it copies (none where they are flash records), and its words. -/
structure Staged where
  loc : Nat
  tag : Nat
  line : Nat
  home : Option (Nat × Nat)
  words : List PWord
  deriving DecidableEq, Repr

/-- A shard search (R127–R130): the coordinator's reference and, when another node coordinates, that node; what it was asked; when
it arrived and expires; where it was admitted; its epoch; its lookup table, query norm and traversal (R110); the staged records
(R118); what kettles gave of its pre-scan, by place in the filter × 2^32 + local index (0 false, 1 true, 2 in a poisoned word, R291); its
pre-scan slot. -/
structure SSearch where
  ref : Nat
  node : Option Nat
  index : Nat
  shard : Nat
  par : SearchPar
  filter : List Byte
  query : List Byte
  qfmt : Nat
  qpois : Option (Option Nat)
  arrived : Nat
  expiry : Nat
  phase : SPhase
  engine : Nat
  slot : Nat
  order : Nat
  epoch : Nat
  admitted : Nat
  lut : List Nat
  nq : Nat
  list : List Cand
  expanded : List Nat
  offers : List Offer
  rounds : Nat
  expansions : Nat
  len : Nat
  poison : Nat
  staged : List Staged
  got : SMap Nat
  scan : Option Nat
  exhaustive : Bool
  deriving DecidableEq, Repr

/-- A partial list (R156): header fields and entries (item ID, score). -/
structure Partial where
  status : Nat
  stop : Nat
  shard : Nat
  epoch : Nat
  tail : Nat
  poison : Nat
  nonfinite : Nat
  sum : Int
  ents : List (Nat × Nat)
  deriving DecidableEq, Repr

/-- A SEARCH that this node coordinates (R127): its descriptor, index, k, mode, shards, where the result goes, the partial lists
by place in SHARDS, and the places in order of arrival. -/
structure Coord where
  work : Nat
  index : Nat
  k : Nat
  canon : Bool
  shards : List Nat
  result : Nat
  resultLen : Nat
  parts : SMap Partial
  arrival : List Nat
  deriving DecidableEq, Repr

/-- An INSERT or DELETE that waits (R137): the tick it began to wait in, whether it waits for a fold, whether it has been counted as one
that waited for a fold (R168), the forward neighbours its build search found, and the epoch that a build search under way holds (R145). -/
structure Upd where
  since : Nat
  fold : Bool
  counted : Bool
  forward : Option (List Nat)
  build : Option Nat
  deriving DecidableEq, Repr

/-- The search block (R93–R168): index table, hosted shards by INDEX × 65,536 + SHARD, version table by that number × 2^32 + local
index, coordinated searches, shard searches in order of arrival, merges waiting, updates waiting by descriptor, pre-scan slots by
INDEX × 1,024 + slot. -/
structure Srch where
  indexes : SMap (List Byte)
  shards : SMap Shard
  versions : SMap RowVer
  coords : SMap Coord
  nextCoord : Nat
  searches : SMap SSearch
  nextSearch : Nat
  nextOrder : Nat
  merges : List Nat
  updates : SMap Upd
  slots : SMap Nat
  deriving DecidableEq, Repr

/-! ### Brim ports and remote memory access -/

/-- A flit that was sent and not yet acknowledged (R380, R381): its SEQ, its class, its words with the poisoned ones among them, and when
it ends a packet, that packet's message and place. -/
structure TxFlit where
  seq : Nat
  cls : Nat
  words : List Nat
  pois : List Nat
  msg : Option (Nat × Nat)
  deriving DecidableEq, Repr

/-- A brim port beside its registers (R381, R382, R391): the tick its training began, the next SEQ to send, the last SEQ accepted,
whether the next flit carries NAK, the replay buffer, packets that wait for room in it, the words of credit left by class, the window and count of violations, and the tick its quarantine ends. -/
structure Port where
  since : Nat
  txSeq : Nat
  rxSeq : Nat
  nak : Bool
  replay : List TxFlit
  waiting : List (Packet × Option (Nat × Nat))
  credit : SMap Nat
  window : Nat
  viol : Nat
  quarEnd : Nat
  deriving DecidableEq, Repr

/-- A registered region (R392, R393): its tenant, range, peer, rights, and the REGION_DEREGISTER descriptor that closes it. -/
structure Region where
  tenant : Nat
  base : Nat
  length : Nat
  peer : Nat
  rights : Nat
  closing : Option Nat
  deriving DecidableEq, Repr

/-- An operation of the outstanding table (R397), by REQID: its descriptor, class, destination, queue, local address and
length, its own message, and the MSGID a READ is bound to (R403). -/
structure RmaOp where
  work : Nat
  cls : Nat
  dest : Nat
  tenant : Nat
  queue : Nat
  laddr : Nat
  len : Nat
  msgid : Nat
  bound : Option Nat
  deriving DecidableEq, Repr

/-- A message this node sends (R386–R389, R397): its packets, its destination, the edge at which it times out, the paths each
packet has been put on (by place: first-hop ports), whether its last packet is acknowledged, and for a SYS message what it says. -/
structure OutMsg where
  kind : Nat
  dest : Nat
  queue : Nat
  work : Option Nat
  reqid : Nat
  expiry : Nat
  packets : List Packet
  tried : SMap (List Nat)
  acked : Bool
  sys : Option SysMsg
  deriving DecidableEq, Repr

/-- A WRITE whose PLACED is awaited or whose failure a FLUSH has yet to report (R398): queue, destination, message, and the
failure's status. -/
structure WriteRec where
  queue : Nat
  dest : Nat
  msgid : Nat
  failed : Option Nat
  deriving DecidableEq, Repr

/-- A reassembly entry (R402): kind, where message byte 0 is placed (an address of the node range, or of the DRAM of `site` for a lent
frame), the edge at which it fails, TOTAL, places received, REQID. -/
structure Reasm where
  kind : Nat
  site : Option Nat
  addr : Nat
  expiry : Nat
  total : Nat
  got : List Nat
  reqid : Nat
  deriving DecidableEq, Repr

/-- An entry of the atomic-replay table (R399): old value, status, the edge at which it goes. -/
structure Replay where
  old : Nat
  status : Nat
  expiry : Nat
  deriving DecidableEq, Repr

/-- A forward under way (R388, R389): ports of arrival and departure, and the packet. -/
structure Forward where
  inPort : Nat
  outPort : Nat
  pkt : Packet
  deriving DecidableEq, Repr

/-- The brim ports and the RMA engine (R378–R407). Reassembly, whole and failed messages and the replay table are keyed by
SRC × 2^32 + MSGID or REQID. `gens` holds the generations of slots that are no longer at 1, `cut` the SYS
messages that are left with no path. -/
structure Brim where
  ports : SMap Port
  portmaps : SMap Nat
  regions : SMap Region
  gens : SMap Nat
  ops : SMap RmaOp
  nextReq : Nat
  msgs : SMap OutMsg
  nextMsg : Nat
  writes : List WriteRec
  reasm : SMap Reasm
  whole : List (Nat × Nat)
  failed : List Nat
  atomics : SMap Replay
  forwards : List Forward
  mapSent : Nat
  mapTick : Nat
  cut : List Nat
  deriving DecidableEq, Repr

/-! ### Embedding tables -/

/-- A registered table (R170): its 32-byte registration, TVER, the SCATTERs that run on it in order (R189), and the row reads of
the window per load shard (R194). -/
structure Table where
  reg : List Byte
  tver : Nat
  queue : List Nat
  load : SMap Nat
  deriving DecidableEq, Repr

/-- A SCATTER that has been checked (R186–R190): its table (1,024 for RAW), its list, whether it has begun, the rows not yet written,
and what it has counted; `counted` says that the row it waits for is counted in WAITS. -/
structure Scat where
  table : Nat
  idx : List Nat
  begun : Bool
  todo : List Nat
  done : Nat
  kept : Nat
  waits : Nat
  counted : Bool
  deriving DecidableEq, Repr

/-- A pin (R193): table and version. -/
structure PinEnt where
  table : Nat
  tver : Nat
  deriving DecidableEq, Repr

/-- The Carders (R170–R196): tables, pins, GATHERs that wait for a Carder in order, SCATTERs under way by descriptor, the tick the
load window began, and the lines each site had served when it began and in the window before (R194). -/
structure Card where
  tables : SMap Table
  pins : SMap PinEnt
  waiting : List Nat
  scatters : SMap Scat
  window : Nat
  mark : List Nat
  traffic : List Nat
  deriving DecidableEq, Repr

/-! ### The Felt -/

/-- A 128-bit word of a cell's SRAM (R198, R200): data, poison, and whether an upset makes it read corrected (1) or
uncorrectable (2). -/
structure SWord where
  data : List Byte
  pois : Bool
  err : Nat
  deriving DecidableEq, Repr

/-- A register with its poison tag (R226). -/
structure Tagged where
  val : Nat
  tag : Bool
  deriving DecidableEq, Repr

/-- An accumulator (R226, R236): KIND (none unset, false integer, true FP32), the 1,024 elements of 32 bits by row and column, an
absent one zero, and the poison tag. -/
structure Acc where
  kind : Option Bool
  el : List Nat
  tag : Bool
  deriving DecidableEq, Repr

/-- What a write that is in flight changes (R228): the bits of a scalar, vector or predicate register that a mask names; an accumulator
or an exact lane as its readers see it; the selected statistics set. -/
inductive WTarget where
  | s (r mask : Nat)
  | v (r mask : Nat)
  | p (r mask : Nat)
  | acc (a : Nat)
  | lane (e : Nat)
  | set
  deriving DecidableEq, Repr

/-- A write in flight: the issue cycle at whose end it lands, the cycle it was issued in, the precedence of its slot (R229: M 0, V 1,
X 2, C 3), where it goes, its value and tag, and for an accumulator or lane its whole content. -/
structure PWrite where
  land : Nat
  issued : Nat
  prec : Nat
  tgt : WTarget
  val : Nat
  tag : Bool
  acc : Acc
  lane : Exact
  deriving DecidableEq, Repr

/-- A running LOOP (R233): first and last bundle of the body, passes left after this one. -/
structure CLoop where
  first : Nat
  last : Nat
  left : Nat
  deriving DecidableEq, Repr

/-- Where a cell stands in its code (R224, R233, R234): bundle, repetition, loop stack innermost first, the target of a JUMP whose delay
bundle is next, whether it has stopped. -/
structure Seq where
  pc : Nat
  rep : Nat
  loops : List CLoop
  jump : Option Nat
  stopped : Bool
  deriving DecidableEq, Repr

/-- A staging window (R206, R207): first line, lines, direction, whether the cell owns it, the number of the current transfer, and
the Felt cycle in which that transfer became ready. -/
structure Win where
  base : Nat
  lines : Nat
  dir : Nat
  own : Bool
  xfer : Nat
  ready : Option Nat
  deriving DecidableEq, Repr

/-- What a cell sends in its issue cycle (R252): links, 512 bits, tag. -/
structure SendOut where
  dirs : Nat
  val : Nat
  tag : Bool
  deriving DecidableEq, Repr

/-- The state of a cell (R197, R226, R233, R235): its place in its code, registers, accumulators and exact accumulators as chained and
as their readers see them (R230), the form fixed for each exact lane (2 × ELANE + W, R245), statistics, SRAM, windows, writes in
flight, windows handed back in this cycle, what it sends. -/
structure Core where
  seq : Seq
  s : SMap Tagged
  v : SMap Tagged
  p : SMap Tagged
  acc : SMap Acc
  accSeen : SMap Acc
  lanes : SMap Exact
  lanesSeen : SMap Exact
  form : SMap Nat
  sets : SMap TStat
  sel : Nat
  sram : SMap SWord
  wins : List Win
  pend : List PWrite
  gave : List Nat
  send : Option SendOut
  deriving DecidableEq, Repr

/-- A cell of an image: its ENTRY, its instruction store with the bundles that an upset makes read corrected (1) or uncorrectable
(2), its state at the start of the issue cycle, its state with what the current bundle has done, the slots that have acted, and
whether the bundle has faulted. -/
structure Cell where
  entry : Nat
  code : List Nat
  codeErr : SMap Nat
  base : Core
  cur : Core
  acted : List Nat
  faulted : Bool
  deriving DecidableEq, Repr

/-- A router entry (R204, R255). -/
structure Router where
  cell : Nat
  out : Nat
  src : Nat
  first : Nat
  period : Nat
  reps : Nat
  deriving DecidableEq, Repr

/-- A staging entry (R208). -/
structure StageEnt where
  cell : Nat
  win : Nat
  count : Nat
  addr : Nat
  rowlen : Nat
  rows : Nat
  stride : Nat
  astep : Int
  deriving DecidableEq, Repr

/-- A flit in flight (R204): the issue cycle it arrives in, the cell, the link it arrives on, its bits and tag. -/
structure Flit where
  at_ : Nat
  cell : Nat
  dir : Nat
  val : Nat
  tag : Bool
  deriving DecidableEq, Repr

/-- A staging transfer that has started (R209): cell, window, number, and whether its bytes have been moved. -/
structure Xfer where
  cell : Nat
  win : Nat
  num : Nat
  moved : Bool
  deriving DecidableEq, Repr

/-- A late release (R212): the Felt cycle the image froze in, the tick, and the WRELs that wait. -/
structure Freeze where
  felt : Nat
  tick : Nat
  waits : List (Nat × Nat)
  deriving DecidableEq, Repr

/-- A RUN on an image (R261–R269): its descriptor and fields with its step words (source, cell, SRAM address), the running step, the
tick it started in, its late releases, frozen cycles and skipped boundaries, the last boundary dealt with, whether the cap
withheld it, whether a stop was asked for, the tick of the last STOP, the AMAX history and scale of each tensor, and the fault
that ends it (class, cell) with the issue cycle at which the other cells stop. -/
structure Run where
  work : Nat
  launch : Nat
  period : Nat
  steps : Nat
  base : Nat
  records : Nat
  ring : Nat
  words : List (Nat × Nat × Nat)
  launched : Bool
  step : Nat
  start : Nat
  inStep : Bool
  late : Nat
  stall : Nat
  skipped : Nat
  overrun : Bool
  bound : Nat
  capped : Bool
  stopReq : Bool
  lastStop : Nat
  hist : SMap (List Nat)
  scale : SMap Nat
  fault : Option (Nat × Nat × Nat)
  deriving DecidableEq, Repr

/-- A loaded image (R254–R260): tenant, held blocks, signature, BUDGET, its cells, routers, window tables are in the cells; staging
schedule, TENSORS entries and kettle programs; the issue cycle of the step and the issue cycles before the step, flits and
transfers under way, a freeze, the run, and the UNLOAD that waits for the run's end. -/
structure Image where
  tenant : Nat
  blocks : Nat
  numsig : Nat
  budget : Nat
  cells : SMap Cell
  links : List Router
  staging : List StageEnt
  tensors : List (List Byte)
  kettle : List (List Nat)
  cyc : Nat
  before : Nat
  flits : List Flit
  xfers : List Xfer
  freeze : Option Freeze
  run : Option Run
  unload : Option Nat
  deriving DecidableEq, Repr

/-- The Felt (R197–R274): loaded images by slot, defective blocks from fuses, the fences in force on the map, the image and issue
cycle of the recorded fault, a pending ROLE (profile, tick, descriptor). Cells of blocks that no
image holds are clear (R201). -/
structure Felt where
  images : SMap Image
  defect : Nat
  fenced : Nat
  faultImg : Nat
  faultCyc : Nat
  role : Option (Nat × Nat × Nat)
  deriving DecidableEq, Repr

/-! ### The whole state -/

/-- What the node has sent or driven, oldest first: the model's own record of its outputs. -/
inductive Sent where
  /-- An MSI-X message of entry `ent` of function `fn` (R430). -/
  | msix (fn ent : Nat)
  /-- The data of a read served for requester `req`, with the indices of its poisoned words (R307, R330). -/
  | data (req addr : Nat) (bytes : List Byte) (pois : List Nat)
  /-- A write of requester `req` was placed. -/
  | placed (req addr : Nat)
  /-- An access of requester `req` ended with a status other than OK. -/
  | failed (req addr status : Nat)
  /-- The data of a DRAM controller's read of byte `addr` of a site's frames (R279). -/
  | dramData (req site addr : Nat) (bytes : List Byte) (pois : List Nat)
  /-- A DRAM controller's write was served (R279). -/
  | dramPlaced (req site addr : Nat)
  /-- A mailbox (path 0) or MCTP (path 1) response: return code and payload (R485). -/
  | reply (path code : Nat) (payload : List Byte)
  /-- A packet sent out of a brim port. -/
  | packet (port : Nat) (p : Packet)
  /-- A SYS message handed to the ports for a node (R127, R386). -/
  | sysMsg (node msgid : Nat) (m : SysMsg)
  /-- An ACK, NAK or replay of the flit layer (R381). -/
  | flit (port : Nat) (kind seq : Nat)
  /-- A PORTMAP broadcast (R387). -/
  | portmap (port mask : Nat)
  /-- A twin frame of the digests completed in a tick (R55). -/
  | twinFrame (frame : List Byte) (checks : List (List Nat))
  /-- A refresh command on a pseudo-channel (R280). -/
  | refresh (site pc : Nat) (halved : Bool)
  /-- The result of a kettle job to its requester, with the outputs of its parts (R284, R292). -/
  | kettleDone (req : Option (Nat × Nat)) (job status : Nat) (outs : List KOut)
  /-- A lender's answer to a borrower's request for a lent frame: its HANDLE, or none (R342). -/
  | lentAnswer (node : Nat) (handle : Option Nat)
  /-- A borrower asks a node for a lent frame (R342). -/
  | lentAsk (node : Nat)
  /-- The READ and WRITE operations in which a LENT page's stored form travels (R342). -/
  | lentRead (node handle : Nat)
  | lentWrite (node handle : Nat) (units : List RUnit)
  /-- A borrower gives a lent frame back (R332, R342). -/
  | lentBack (node handle : Nat)
  /-- A lender recalls a lent frame (R342). -/
  | lentRecall (node handle : Nat)
  /-- A signal pin driven by the node (R477, R512). -/
  | pin (name : String) (high : Bool)
  deriving DecidableEq, Repr

/-- Why a step stops with a fault. Every access outside a range that the spec names is answered by a status, a NAK or a counter; the one stop
is for a word of a stack that does not exist. -/
inductive Fault where
  /-- Raised by DRAM_READ and DRAM_WRITE of a word beyond their stack's frames, which no engine asks for (R275, R276, log entry 40); safe: the
  machine stops. -/
  | noSuchWord (site word : Nat)
  deriving DecidableEq, Repr

/-- Why a command could have no meaning. -/
inductive Refusal where
  /-- The command is not modelled; raised by an arm of `exec`; safe: the machine stops. -/
  | notModelled (mnemonic : String)
  deriving DecidableEq, Repr

/-- The state of the node. `pending` is the queue of commands, first in first out; `now` counts the ticks since power-on on
the Crown's time; `fresh` numbers the uses of free values (a field of the model, not of the spec); `flds` holds the register
fields that are stored, by key, an absent one reading its reset value; `sent` is the model's record of outputs. -/
structure State where
  pending : List Instr
  part : Part
  now : Nat
  fresh : Nat
  flds : SMap Nat
  sent : List Sent
  bow : Bow
  twin : Twin
  dram : Dram
  integ : Integrity
  kettle : SMap KSite
  tiers : Tiers
  host : HostIf
  fw : Fw
  power : Power
  crown : Crown
  srch : Srch
  card : Card
  felt : Felt
  flash : Flash
  brim : Brim
  deriving DecidableEq, Repr

/-! ### Reset -/

/-- The flash geometry before a mount. -/
def geomNone : FGeom := ⟨[], 0, 0, 0, 0, 0⟩

/-- The parts of a node that was just powered on, each empty or at the value the spec gives for reset; values the spec leaves open
are named in log entry 1. -/
def bowReset : Bow := ⟨.free, 0, .none, false, 0, 0, [], none, false, false⟩
/-- Twin mode after reset (R53): off, nothing held. -/
def twinReset : Twin := ⟨0, [], [], [], [], [], [], 0, false⟩
/-- The DRAM after reset: no byte listed, no line written (R310). -/
def dramReset : Dram := ⟨[], [], [], []⟩
/-- Integrity after reset. -/
def integReset : Integrity := ⟨[], [], [], [], 0⟩
/-- The tier manager after reset: every page ZERO (R328). -/
def tiersReset : Tiers := ⟨[], [], [], [], [], [], 0, []⟩
/-- The host side after reset: link down, no virtual function, only tenant 0's context (R413). -/
def hostReset : HostIf := ⟨false, false, false, 0, [], [], [], 0, [], [], [], [], [], [0, 0, 0, 0], [], 0⟩
/-- The firmware after reset. -/
def fwReset : Fw := ⟨[], [], [], [], [], 0, 0, 0, none, none⟩
/-- Reset and power state after power-on (R462, R469): start-up at step 1. -/
def powerReset : Power := ⟨true, false, false, false, 0, false, false, false, 0, false, false, 0, false, 0, 1, []⟩
/-- The Crown after a ROM boot on an empty boot flash. -/
def crownReset : Crown :=
  { temps := List.replicate 72 0, rails := List.replicate 16 (0, 0), buffer := [], log := [], nextSeq := 0, timeSet := none,
    warned := [], active := 0, pend := none, running := 0, pinCold := false, rootRevoked := false, owners := [], slots := [],
    fuses := [], transfer := none, nonces := [], frecs := [], frecSeq := 0, capture := none, snapshot := [], attach := none, closed := none,
    meas := [], recovery := false, recovered := false, deviceKey := 0, aliasKey := 0, spdmKey := 0 }
/-- The search block after reset. -/
def srchReset : Srch := ⟨[], [], [], [], 0, [], 0, 0, [], [], []⟩
/-- The Carders after reset. -/
def cardReset : Card := ⟨[], [], [], [], 0, [], []⟩
/-- The Felt after reset: no image, no defective block. -/
def feltReset : Felt := ⟨[], 0, 0, 0, 0, none⟩
/-- The flash store before its mount (R352): OFF. -/
def flashReset : Flash :=
  { st := 0, geom := geomNone, logical := 0, map := [], ckpt := [], kept := [], deltas := [], cache := [], units := [], lost := [],
    bands := [], nextBand := 0, openBand := none, openNative := none, erases := [], retired := [], rot := [], areas := [],
    waitw := [], reads := [], nextReq := 0, rebuild := [], noSpace := false, testing := [], tries := [], seq := 0, patrolPos := 0,
    patrolWin := 0, patrolCnt := 0, cold := true, marker := none, flushStart := 0, wanted := [],
    weak := [], metas := [], slcB := 2 ^ 36 }
/-- The ports and the RMA engine after reset: every port DISABLED, no region. -/
def brimReset : Brim := ⟨[], [], [], [], [], 0, [], 0, [], [], [], [], [], [], 0, 0, []⟩

/-- Register fields whose reset value the register table leaves to the text: INT_SCRUB3.RATE (R323) and RST_CAUSE at power-on
(R478). -/
def fldsReset : SMap Nat :=
  [(Reg.rstCauseCause.off * 64 + Reg.rstCauseCause.lo, 1),
   ((Reg.intScrubRate.ix 3).off * 64 + (Reg.intScrubRate.ix 3).lo, 0x80)]

/-- The node right after the cold reset of power-on (R462, R463): every register at its reset value, start-up at step 1, the queue of
commands empty. The part is a VNS-C7200-K (log entry 1). -/
def State.reset : State :=
  { pending := [], part := .c7200K, now := 0, fresh := 0, flds := fldsReset, sent := [], bow := bowReset, twin := twinReset,
    dram := dramReset, integ := integReset, kettle := [], tiers := tiersReset, host := hostReset, fw := fwReset,
    power := powerReset, crown := crownReset, srch := srchReset, card := cardReset, felt := feltReset, flash := flashReset,
    brim := brimReset }


end Sys2Proof.Machine
end

