-- ==== Sys2Proof/Machine/Numerics.lean ====
section
/-! DEFINITION. Numbers (chapter 03): the formats and their conversions, the exact accumulator, FP32 arithmetic, the order of
special values, scores, norms and rank keys. Every value is an exact dyadic or rational number until one rounding. -/
namespace Sys2Proof.Machine

/-- A decoded floating-point value: ±num·2^exp, an infinity, or NaN. A zero keeps its sign. -/
inductive FVal where
  | fin (neg : Bool) (num : Nat) (exp : Int)
  | inf (neg : Bool)
  | nan
  deriving DecidableEq, Repr

/-- A floating-point format (R62): exponent and mantissa bits, bias, whether it has infinities, its canonical NaN, and
whether the top exponent holds numbers (E4M3, E2M1). -/
structure Fmt where
  eb : Nat
  mb : Nat
  bias : Nat
  hasInf : Bool
  nanBits : Nat
  topNum : Bool
  hasNan : Bool
  deriving DecidableEq, Repr

/-- FP32 (R62). -/
def fp32 : Fmt := ⟨8, 23, 127, true, 0x7FC00000, false, true⟩
/-- BF16 (R62). -/
def bf16 : Fmt := ⟨8, 7, 127, true, 0x7FC0, false, true⟩
/-- FP16 (R62). -/
def fp16 : Fmt := ⟨5, 10, 15, true, 0x7E00, false, true⟩
/-- FP8 E4M3 (R62). -/
def e4m3 : Fmt := ⟨4, 3, 7, false, 0x7F, true, true⟩
/-- FP8 E5M2 (R62). -/
def e5m2 : Fmt := ⟨5, 2, 15, true, 0x7E, false, true⟩
/-- FP4 E2M1 (R62). -/
def e2m1 : Fmt := ⟨2, 1, 1, false, 0, true, false⟩
/-- FP64, a target of the exact accumulator only (R86). -/
def fp64 : Fmt := ⟨11, 52, 1023, true, 0x7FF8000000000000, false, true⟩

/-- The floating-point format of a code of R62. -/
def fmtOf : Nat → Option Fmt
  | 1 => some fp32 | 2 => some bf16 | 3 => some fp16 | 4 => some e4m3 | 5 => some e5m2 | 6 => some e2m1 | _ => none

/-- The bits of one element of a format code (R62). -/
def fmtBits : Nat → Nat
  | 1 => 32 | 2 => 16 | 3 => 16 | 4 => 8 | 5 => 8 | 6 => 4 | 7 => 8 | 8 => 4 | 9 => 8 | 10 => 4 | _ => 0

/-- The sign bit's place of a format. -/
def Fmt.width (f : Fmt) : Nat := f.eb + f.mb + 1

/-- The value an element's bits stand for (R62); subnormals are kept (R64). -/
def decodeF (f : Fmt) (b : Nat) : FVal :=
  let m := bits b 0 f.mb
  let e := bits b f.mb f.eb
  let s := b.testBit (f.eb + f.mb)
  let top := 2 ^ f.eb - 1
  if e = top && !f.topNum then (if m = 0 then .inf s else .nan)
  else if e = top && f.hasNan && m = 2 ^ f.mb - 1 then .nan
  else if e = 0 then .fin s m (1 - (f.bias : Int) - f.mb)
  else .fin s (m + 2 ^ f.mb) ((e : Int) - f.bias - f.mb)

/-- The numerator of ±n·2^e as a fraction over a power of two. -/
def fracNum (n : Nat) (e : Int) : Nat := if e ≥ 0 then n * 2 ^ e.toNat else n
/-- The denominator of ±n·2^e. -/
def fracDen (e : Int) : Nat := if e ≥ 0 then 1 else 2 ^ (-e).toNat

/-- `n / d` to the nearest integer, ties to even. -/
def divEven (n d : Nat) : Nat :=
  let q := n / d
  let r := 2 * (n % d)
  if r > d || (r = d && q % 2 = 1) then q + 1 else q

/-- `n / d` to the nearest integer, ties away from zero (R66). -/
def divAway (n d : Nat) : Nat := (2 * n + d) / (2 * d)

/-- The exponent of the leading bit of `n / d`, both positive. -/
def lead (n d : Nat) : Int :=
  let e : Int := (n.log2 : Int) - d.log2
  if (if e ≥ 0 then n < d * 2 ^ e.toNat else n * 2 ^ (-e).toNat < d) then e - 1 else e

/-- The largest finite code of a format, without sign. -/
def Fmt.maxCode (f : Fmt) : Nat :=
  if f.topNum then (if f.hasNan then 2 ^ (f.eb + f.mb) - 2 else 2 ^ (f.eb + f.mb) - 1)
  else (2 ^ f.eb - 1) * 2 ^ f.mb - 1

/-- The sign bit of a code. -/
def Fmt.sgn (f : Fmt) (neg : Bool) : Nat := if neg then 2 ^ (f.eb + f.mb) else 0

/-- The code of an infinity (R62); formats without one never reach it. -/
def Fmt.infCode (f : Fmt) : Nat := (2 ^ f.eb - 1) * 2 ^ f.mb

/-- The unsigned code of the positive fraction `n / d` rounded to nearest, ties to even, without the range check: codes
beyond `maxCode` are overflow. -/
def roundCode (f : Fmt) (n d : Nat) : Nat :=
  if n = 0 then 0 else
  let emin : Int := 1 - (f.bias : Int)
  let e := max (lead n d) emin
  let u := e - f.mb
  let q := divEven (if u ≥ 0 then n else n * 2 ^ (-u).toNat) (if u ≥ 0 then d * 2 ^ u.toNat else d)
  (e - emin).toNat * 2 ^ f.mb + q

/-- What a conversion gives: the code, and what it adds to the tensor statistics (R65, R66, R80). -/
structure Conv where
  code : Nat
  sat : Nat := 0
  inf : Nat := 0
  nan : Nat := 0
  deriving DecidableEq, Repr

/-- The canonical NaN of a format as a conversion writes it: FP4 has none and takes +0 (R65). -/
def convNan (f : Fmt) : Conv := { code := f.nanBits, nan := 1 }

/-- A signed fraction rounded into a format under SAT (R65). -/
def roundFrac (f : Fmt) (sat : Bool) (neg : Bool) (n d : Nat) : Conv :=
  let c := roundCode f n d
  if c ≤ f.maxCode then { code := f.sgn neg + c }
  else if f.hasInf && !sat then { code := f.sgn neg + f.infCode, inf := 1 }
  else { code := f.sgn neg + f.maxCode, sat := 1 }

/-- A conversion into a floating-point format (R65). -/
def convF (f : Fmt) (sat : Bool) : FVal → Conv
  | .nan => convNan f
  | .inf s => if f.hasInf && !sat then { code := f.sgn s + f.infCode, inf := 1 } else { code := f.sgn s + f.maxCode, sat := 1 }
  | .fin s n e => roundFrac f sat s (fracNum n e) (fracDen e)

/-- The code range of an integer format (R66): INT8, INT4, QI8, QI4. -/
def intRange : Nat → Int × Int
  | 7 => (-128, 127) | 8 => (-8, 7) | 9 => (-127, 127) | 10 => (-7, 7) | _ => (0, 0)

/-- Whether a zero point lies within the limits of its format (R75), which are those of the format's codes; an instruction that meets
another raises ILLEGAL (log entry 75). -/
def zeroOk (code : Nat) (z : Int) : Bool := decide ((intRange code).1 ≤ z) && decide (z ≤ (intRange code).2)

/-- An integer saturated to a range, with whether it was. -/
def clampI (r : Int × Int) (v : Int) : Int × Nat :=
  if v < r.1 then (r.1, 1) else if v > r.2 then (r.2, 1) else (v, 0)

/-- A conversion of a real value to an integer format: nearest, ties away from zero, then saturated (R66). -/
def convI (code : Nat) : FVal → Int × Conv
  | .nan => (0, { code := 0, nan := 1 })
  | .inf s =>
    let v := if s then (intRange code).1 else (intRange code).2
    (v, { code := ux (fmtBits code) v, sat := 1 })
  | .fin s n e =>
    let m := divAway (fracNum n e) (fracDen e)
    let (v, k) := clampI (intRange code) (if s then -(m : Int) else m)
    (v, { code := ux (fmtBits code) v, sat := k })

/-- An integer as a value. -/
def intVal (i : Int) : FVal := .fin (i < 0) i.natAbs 0

/-- The value of an element of any format code; QI codes here are plain integers (R62, R67). -/
def elemVal (code b : Nat) : FVal :=
  match fmtOf code with
  | some f => decodeF f b
  | none => intVal (sx (fmtBits code) b)

/-- Element `i` of a byte string held in a format (R63, R7). -/
def elemAt (code : Nat) (bs : List Byte) (i : Nat) : Nat :=
  let w := fmtBits code
  if w = 4 then bits (getLE bs (i / 2) 1) (4 * (i % 2)) 4 else getLE bs (i * (w / 8)) (w / 8)

/-- The sign of a value as an integer factor. -/
def sgnI (neg : Bool) (n : Nat) : Int := if neg then -(n : Int) else n

/-- Exact product (R83, R84). -/
def mulV : FVal → FVal → FVal
  | .nan, _ => .nan
  | _, .nan => .nan
  | .inf s, .inf t => .inf (s != t)
  | .inf s, .fin t n _ => if n = 0 then .nan else .inf (s != t)
  | .fin t n _, .inf s => if n = 0 then .nan else .inf (s != t)
  | .fin s n e, .fin t m g => .fin (s != t) (n * m) (e + g)

/-- Negation, exact. -/
def negV : FVal → FVal
  | .nan => .nan
  | .inf s => .inf (!s)
  | .fin s n e => .fin (!s) n e

/-- Exact sum of two values under IEEE 754: opposite infinities give NaN, an exact zero is +0 unless both addends are −0. -/
def addV : FVal → FVal → FVal
  | .nan, _ => .nan
  | _, .nan => .nan
  | .inf s, .inf t => if s = t then .inf s else .nan
  | .inf s, .fin .. => .inf s
  | .fin .., .inf s => .inf s
  | .fin s n e, .fin t m g =>
    let b := min e g
    let x := sgnI s (n * 2 ^ (e - b).toNat) + sgnI t (m * 2 ^ (g - b).toNat)
    if x = 0 then .fin (s && t) 0 b else .fin (x < 0) x.natAbs b

/-- Whether a finite value is zero. -/
def isZeroV : FVal → Bool
  | .fin _ n _ => n = 0
  | _ => false

/-- A finite value as an integer count of 2^`u`: exact for every multiple of 2^`u`, which every accepted term is (R83). -/
def scaled (u : Int) : FVal → Int
  | .fin s n e => sgnI s (n * 2 ^ (e - u).toNat / 2 ^ (u - e).toNat)
  | _ => 0

/-- Compare in the order of R88: `lt`, with both zeros equal, NaN above +∞. -/
def ltV : FVal → FVal → Bool
  | .nan, _ => false
  | _, .nan => true
  | .inf s, .inf t => s && !t
  | .inf s, .fin .. => s
  | .fin .., .inf s => !s
  | .fin s n e, .fin t m g =>
    let b := min e g
    decide (sgnI s (n * 2 ^ (e - b).toNat) < sgnI t (m * 2 ^ (g - b).toNat))

/-- Equal in the order of R88. -/
def eqV (a b : FVal) : Bool := !(ltV a b) && !(ltV b a)

/-! ### The exact accumulator -/

/-- A cleared accumulator (R82). -/
def exactZero (wide : Bool) : Exact := ⟨wide, 0, 0, false, false, 0, false, false⟩

/-- The exponent of the unit of an accumulator (R81). -/
def Exact.unit (x : Exact) : Int := if x.wide then -272 else -48

/-- The width of an accumulator's storage (R81). -/
def Exact.width (x : Exact) : Nat := if x.wide then 640 else 128

/-- One term presented to an accumulator (R84). -/
def exactAdd (x : Exact) (v : FVal) (pois : Bool) : Exact :=
  let x := { x with poison := x.poison || pois }
  if x.terms ≥ 2 ^ 40 then { x with ovf := true, terms := min (x.terms + 1) (2 ^ 41 - 1) }
  else
    let x := { x with terms := x.terms + 1 }
    match v with
    | .nan => { x with nan := min (x.nan + 1) (2 ^ 32 - 1) }
    | .inf s => if s then { x with infNeg := true } else { x with infPos := true }
    | .fin .. => { x with a := sx x.width (ux x.width (x.a + scaled x.unit v)) }

/-- The sum of two accumulators' values and states (R247 XADD, R85). -/
def exactJoin (x y : Exact) : Exact :=
  let t := x.terms + y.terms
  { x with
    a := sx x.width (ux x.width (x.a + y.a)), terms := min t (2 ^ 41 - 1), infPos := x.infPos || y.infPos,
    infNeg := x.infNeg || y.infNeg, nan := min (x.nan + y.nan) (2 ^ 32 - 1), ovf := x.ovf || y.ovf || decide (t > 2 ^ 40),
    poison := x.poison || y.poison }

/-- The special result of an accumulator where one of the first lines of R86 applies. -/
def exactSpecial (x : Exact) (f : Fmt) : Option Conv :=
  if x.nan > 0 || x.ovf || (x.infPos && x.infNeg) then some { code := f.nanBits, nan := 1 }
  else if x.infPos then some { code := f.infCode, inf := 1 }
  else if x.infNeg then some { code := f.sgn true + f.infCode, inf := 1 }
  else none

/-- A value beyond the target's range leaves as infinity and is counted in SAT (R86). -/
def roundOut (f : Fmt) (neg : Bool) (n d : Nat) : Conv :=
  if n = 0 then { code := 0 } else
  let c := roundFrac f false neg n d
  { c with sat := c.inf }

/-- ROUND (R86). -/
def exactRound (x : Exact) (f : Fmt) : Conv :=
  (exactSpecial x f).getD (roundOut f (x.a < 0) (fracNum x.a.natAbs x.unit) (fracDen x.unit))

/-- ROUND_DIV n (R86). -/
def exactRoundDiv (x : Exact) (n : Nat) (f : Fmt) : Conv :=
  (exactSpecial x f).getD (roundOut f (x.a < 0) (fracNum x.a.natAbs x.unit) (fracDen x.unit * n))

/-- ROUND_SCALE s for an FP32 scale (R86); a non-finite scale passes through the product's own rules. -/
def exactRoundScale (x : Exact) (s : FVal) (f : Fmt) : Conv :=
  (exactSpecial x f).getD
    (match mulV (.fin (x.a < 0) x.a.natAbs x.unit) s with
     | .fin g n e => roundOut f g (fracNum n e) (fracDen e)
     | v => convF f false v)

/-! ### FP32 vector arithmetic (R87) -/

/-- The value of FP32 bits. -/
def f32 (b : Nat) : FVal := decodeF fp32 b

/-- A value rounded to FP32 bits: NaN is canonical, a zero keeps its sign. -/
def toF32 (v : FVal) : Nat := (convF fp32 false v).code

/-- FP32 add. -/
def f32Add (a b : Nat) : Nat := toF32 (addV (f32 a) (f32 b))
/-- FP32 subtract. -/
def f32Sub (a b : Nat) : Nat := toF32 (addV (f32 a) (negV (f32 b)))
/-- FP32 multiply. -/
def f32Mul (a b : Nat) : Nat := toF32 (mulV (f32 a) (f32 b))
/-- FP32 fused multiply-add, one rounding. -/
def f32Fma (a b c : Nat) : Nat := toF32 (addV (mulV (f32 a) (f32 b)) (f32 c))
/-- FP32 negated fused multiply-add: c − a·b. -/
def f32Fnma (a b c : Nat) : Nat := toF32 (addV (negV (mulV (f32 a) (f32 b))) (f32 c))
/-- The lesser in the order of R88, NaN never chosen over a number; the first operand on a tie. A NaN result is canonical. -/
def f32Min (a b : Nat) : Nat := if ltV (f32 b) (f32 a) then toF32 (f32 b) else toF32 (f32 a)
/-- The greater in the order of R88 with NaN never chosen over a number; the first operand on a tie. -/
def f32Max (a b : Nat) : Nat :=
  match f32 a, f32 b with
  | .nan, v => toF32 v
  | v, .nan => toF32 v
  | v, w => if ltV v w then toF32 w else toF32 v

/-! ### Square root, norms, scores and rank keys -/

/-- The integer square root, one bit of the result per step of the fuel. -/
def isqrtAux : Nat → Nat → Nat → Nat
  | 0, _, r => r
  | k + 1, n, r =>
    let t := r + 2 ^ k
    if t * t ≤ n then isqrtAux k n t else isqrtAux k n r

/-- The integer square root. -/
def isqrt (n : Nat) : Nat := isqrtAux (n.log2 / 2 + 1) n 0

/-- The square root of a non-negative value, correctly rounded to FP32 (R92): 64 extra bits and a sticky bit decide it. -/
def f32Sqrt : FVal → Nat
  | .nan => fp32.nanBits
  | .inf s => if s then fp32.nanBits else fp32.infCode
  | .fin s n e =>
    if n = 0 then fp32.sgn s
    else if s then fp32.nanBits
    else
      let up : Nat := if e % 2 = 0 then 0 else 1
      let m := n * 2 ^ (up + 128)
      let r := isqrt m
      let g : Int := (e - up - 128) / 2
      let v := 2 * r + (if r * r = m then 0 else 1)
      (roundFrac fp32 false false (fracNum v (g - 1)) (fracDen (g - 1))).code

/-- The accumulator form that the terms of two formats need (R83): wide where BF16 or FP32 takes part. -/
def needsWide (a b : Nat) : Bool := a = 1 || a = 2 || b = 1 || b = 2

/-- The exact sum of products of two vectors of values. -/
def exactDot (wide : Bool) (xs ys : List FVal) : Exact :=
  (xs.zip ys).foldl (fun x p => exactAdd x (mulV p.1 p.2) false) (exactZero wide)

/-- The exact squared difference as one term (R92). -/
def sqDiff (a b : FVal) : FVal := let d := addV a (negV b); mulV d d

/-- The exact sum of squared differences (R92). -/
def exactSqd (wide : Bool) (xs ys : List FVal) : Exact :=
  (xs.zip ys).foldl (fun x p => exactAdd x (sqDiff p.1 p.2) false) (exactZero wide)

/-- The FP32 norm of a vector (R92). -/
def norm32 (wide : Bool) (xs : List FVal) : Nat := f32Sqrt (f32 (exactRound (exactDot wide xs xs) fp32).code)

/-- The cosine from the exact dot product and the two FP32 norms (R92). -/
def cosine32 (d : Exact) (nq nx : Nat) : Nat :=
  match exactSpecial d fp32, f32 nq, f32 nx with
  | none, .fin _ n e, .fin _ m g =>
    if n = 0 || m = 0 then fp32.nanBits
    else
      let u := d.unit - e - g
      (roundFrac fp32 false (d.a < 0) (fracNum d.a.natAbs u) (fracDen u * (n * m))).code
  | _, _, _ => fp32.nanBits

/-- The distance of an index: 0 squared Euclidean, 1 inner product, 2 cosine. -/
def scoreOf (dist : Nat) (wide : Bool) (q x : List FVal) (nq nx : Nat) : Nat :=
  if dist = 0 then (exactRound (exactSqd wide q x) fp32).code
  else if dist = 1 then (exactRound (exactDot wide q x) fp32).code
  else cosine32 (exactDot wide q x) nq nx

/-- The value for which smaller is better (R90), as FP32 bits: negation flips the sign of a number and leaves NaN. -/
def betterSmall (dist b : Nat) : Nat :=
  if dist = 0 then b else match f32 b with
    | .nan => fp32.nanBits
    | _ => b ^^^ 0x80000000

/-- The rank key of an FP32 value (R90). -/
def rankOf (b : Nat) : Nat :=
  match f32 b with
  | .nan => 0xFFFFFFFF
  | _ =>
    if b % 0x80000000 = 0 then 0x80000000
    else if b < 0x80000000 then b + 0x80000000
    else 0xFFFFFFFF - b

/-- The rank key of a score under a distance (R90). -/
def rankKey (dist score : Nat) : Nat := rankOf (betterSmall dist score)

/-- The order of results (R91). -/
def keyLe (a b : Nat × Nat) : Bool := decide (a.1 < b.1) || (a.1 = b.1 && decide (a.2 ≤ b.2))

/-! ### QI codes, rescaling and statistics -/

/-- The escape code of QI8 or QI4 (R62). -/
def qiEscape (code : Nat) : Nat := if code = 9 then 0x80 else 0x8

/-- The values of a QI block's codes (R69): scale, zero point, side-list values; with the escapes beyond the eighth. -/
def qiDecode (code : Nat) (scale : FVal) (zero : Int) (side : List FVal) : List Nat → Nat → List FVal × Nat
  | [], _ => ([], 0)
  | c :: cs, j =>
    if c = qiEscape code then
      let r := qiDecode code scale zero side cs (j + 1)
      if j < 8 then (side.getD j (.fin false 0 0) :: r.1, r.2) else (.fin false 0 0 :: r.1, r.2 + 1)
    else
      let r := qiDecode code scale zero side cs j
      (mulV scale (intVal (sx (fmtBits code) c - zero)) :: r.1, r.2)

/-- One element of the encoder (R70): the exact quotient by the scale rounded half away; none where it is infinite, or no number. A zero
element of a block of scale zero has the code 0 (R79), and a number over an infinite scale is zero. -/
def qiQuot (x s : FVal) : Option Int :=
  match x, s with
  | .fin a n e, .fin b m g =>
    if n = 0 then some 0
    else if m = 0 then none
    else
      let u := e - g
      let q := divAway (fracNum n u) (fracDen u * m)
      some (if a != b then -(q : Int) else q)
  | .fin .., .inf _ => some 0
  | _, _ => none

/-- The code of an outlier beyond the eighth of its block (R70): 0 for a NaN, else the end of the range on its side; in a block of scale
zero an infinity has the code 0 (R79). A quotient that is no number has no stated side: `fv` is a free value (log entry 6). -/
def qiClip (code : Nat) (s : FVal) (zero : Int) (x : FVal) (fv : Nat) : Int :=
  let r := intRange code
  match qiQuot x s with
  | some q => (clampI r (q + zero)).1
  | none => match x, s with
    | .nan, _ => 0
    | .inf g, .fin b m _ => if m = 0 then 0 else if g != b then r.1 else r.2
    | .fin a .., .fin b .. => if a != b then r.1 else r.2
    | _, _ => r.1 + ((fv % (r.2 - r.1 + 1).toNat : Nat) : Int)

/-- The code of an element that is no outlier (R70). -/
def qiInside (code : Nat) (s : FVal) (zero : Int) (x : FVal) : Option Nat :=
  let r := intRange code
  match (qiQuot x s).map (· + zero) with
  | some q => if r.1 ≤ q && q ≤ r.2 then some (ux (fmtBits code) q) else none
  | none => none

/-- Encode elements into QI codes (R70): codes, side list and the outliers saturated. -/
def qiEncode (code : Nat) (side : Fmt) (s : FVal) (zero : Int) (fv : Nat) : List FVal → Nat → List Nat × List Nat × Nat
  | [], _ => ([], [], 0)
  | x :: xs, used =>
    match qiInside code s zero x with
    | some c => let rest := qiEncode code side s zero fv xs used; (c :: rest.1, rest.2)
    | none =>
      if used < 8 then
        let rest := qiEncode code side s zero fv xs (used + 1)
        (qiEscape code :: rest.1, (convF side false x).code :: rest.2.1, rest.2.2)
      else
        let rest := qiEncode code side s zero fv xs used
        (ux (fmtBits code) (qiClip code s zero x fv) :: rest.1, rest.2.1, rest.2.2 + 1)

/-- Rescaling of a 32-bit accumulator (R77): the saturated output and whether it saturated. -/
def rescale (code : Nat) (a m : Int) (n : Nat) (zero : Int) : Int × Nat :=
  let p := a * m
  let r := divAway p.natAbs (2 ^ n)
  clampI (intRange code) ((if p < 0 then -(r : Int) else r) + zero)

/-- Statistics with nothing counted (R80). -/
def tstatZero : TStat := ⟨0, 0, 0, 0, 0, 0⟩

/-- A finite value offered to AMAX (R80): the larger magnitude stays. -/
def amaxWith (m b : Nat) : Nat :=
  match f32 b with
  | .fin .. => max m (b % 0x80000000)
  | _ => m

/-- Add what a conversion counted to statistics; every counter saturates (R80). -/
def TStat.conv (t : TStat) (c : Conv) : TStat :=
  { t with nan := satTo 32 (t.nan + c.nan), inf := satTo 32 (t.inf + c.inf), sat := satTo 32 (t.sat + c.sat) }

/-- The counts of two statistics added, the larger AMAX kept (R80). -/
def TStat.join (t u : TStat) : TStat :=
  ⟨max t.amax u.amax, satTo 32 (t.nan + u.nan), satTo 32 (t.inf + u.inf), satTo 32 (t.sat + u.sat),
   satTo 32 (t.outl + u.outl), satTo 32 (t.esc + u.esc)⟩

/-- The 32-byte statistics record (R80). -/
def TStat.bytes (t : TStat) (step : Nat) : List Byte :=
  toBytes 4 t.amax ++ toBytes 4 t.nan ++ toBytes 4 t.inf ++ toBytes 4 t.sat ++ toBytes 4 t.outl ++ toBytes 4 t.esc
    ++ toBytes 4 step ++ toBytes 4 0

/-- The largest code value Q of a target format (R74), as an integer. -/
def derivedQ : Nat → Nat
  | 7 => 127 | 9 => 127 | 8 => 7 | 10 => 7 | 4 => 448 | 5 => 57344 | 6 => 6 | _ => 1

/-- The derived scale of a step (R74): largest AMAX of the history, margin, format; the scale in force stays where nothing
finite was seen. Answers the FP32 scale and whether it was clamped (counted in SAT). -/
def derivedScale (hist : List Nat) (margin code prev : Nat) : Nat × Nat :=
  let a := maxD 0 hist
  if a = 0 then (prev, 0) else
  match f32 a with
  | .fin _ n e =>
    let c := roundCode fp32 (fracNum (n * 2 ^ margin) e) (fracDen e * derivedQ code)
    if c = 0 then (0x00800000, 1) else if c > fp32.maxCode then (fp32.maxCode, 1) else (c, 0)
  | _ => (prev, 0)

end Sys2Proof.Machine
end

