-- ==== Sys2Proof/Machine/Ops.lean ====
section
/-! DEFINITION. The named operations over the state that every family uses: register fields, counters, free values, what the
node sends, interrupts, the Crown's event log, the CXL event logs and the integrity log. -/
namespace Sys2Proof.Machine

/-- The key under which a field is stored. -/
def Fld.key (f : Fld) : Nat := f.off * 64 + f.lo

/-- The value of a register field (R10), cut to its width; one never written reads its reset value. -/
def getF (s : State) (f : Fld) : Nat := (mget s.flds f.key).getD f.rst % 2 ^ f.wid

/-- Store a register field, cut to its width. -/
def setF (s : State) (f : Fld) (v : Nat) : State := { s with flds := mput s.flds f.key (v % 2 ^ f.wid) }

/-- A one-bit field as a flag. -/
def flagF (s : State) (f : Fld) : Bool := getF s f != 0

/-- Count `n` events in a counter, which stays at all-ones (R10, R524). -/
def bumpBy (s : State) (f : Fld) (n : Nat) : State := setF s f (satTo f.wid (getF s f + n))

/-- Count one event. -/
def bump (s : State) (f : Fld) : State := bumpBy s f 1

/-- A field whose 0 acts as 1. -/
def atLeast1 (s : State) (f : Fld) : Nat := max 1 (getF s f)

/-- Raise a high-water field to `v` (TCK_SCHED.HIGH, SRC_VER.HIGH). -/
def raiseHigh (s : State) (f : Fld) (v : Nat) : State := if v > getF s f then setF s f v else s

/-- A value the spec leaves undefined (log entry 6). -/
def freeVal (s : State) : State × Nat := ({ s with fresh := s.fresh + 1 }, Config.freeNat s.fresh)

/-- The node sends something. -/
def emit (s : State) (x : Sent) : State := { s with sent := s.sent ++ [x] }

/-- The tick count in force (R34). -/
def tickOf (s : State) : Nat := s.bow.count

/-- The tick edge at which a timeout started now expires (R445): the value the field holds now counts. -/
def expiryOf (s : State) (f : Fld) : Nat := tickOf s + atLeast1 s f

/-- The code of a Bow state (R34). -/
def BowSt.code : BowSt → Nat
  | .free => 0 | .adopted => 1 | .synced => 2 | .lost => 3

/-- The code of TCK_STATUS.LOST_WHY (R61). -/
def LostWhy.code : LostWhy → Nat
  | .none => 0 | .refMissing => 1 | .phase => 2 | .mismatch => 3 | .checkMissing => 4

/-! ### The part (R1, R275) -/

/-- Whether sites 4–7 carry kettles. -/
def hasKettles (p : Part) : Bool := match p with | .c7200M => false | _ => true

/-- Enabled logical blocks (R1). -/
def partBlocks (p : Part) : Nat := match p with | .c7100K => 56 | _ => 64

/-- ID_PART (R2). -/
def partId (p : Part) : Nat :=
  match p with
  | .c7200K => 0xF0404B7200 | .c7200M => 0x404D7200 | .c7100K => 0xF0384B7100

/-- The native numeric signature (R52). -/
def nativeSig (p : Part) : Nat := 0x100 + partBlocks p

/-- Whether a site carries kettles. -/
def isKettleSite (p : Part) (site : Nat) : Bool := hasKettles p && decide (4 ≤ site) && decide (site < 8)

/-- Frames of a site (R275). -/
def siteFrames (p : Part) (site : Nat) : Nat := if isKettleSite p site then 0x100000 else 0x180000

/-! ### Interrupts (R430, R431) -/

/-- The MSI-X state of a function after reset: every entry masked (PCIe), MSI-X not enabled. -/
def msixReset : Msix := ⟨[], false, false⟩

/-- An MSI-X entry after reset. -/
def msixEntReset : MsixEnt := ⟨0, 0, true, false⟩

/-- The MSI-X state of a function. -/
def msixOf (s : State) (fn : Nat) : Msix := (mget s.host.msix fn).getD msixReset

/-- An MSI-X entry of a function. -/
def Msix.ent (m : Msix) (e : Nat) : MsixEnt := (mget m.ents e).getD msixEntReset

/-- Store a function's MSI-X state. -/
def setMsix (s : State) (fn : Nat) (m : Msix) : State := { s with host := { s.host with msix := mput s.host.msix fn m } }

/-- Raise entry `e` of function `fn` (R431): sent, held pending behind a mask, or discarded while MSI-X is not enabled. -/
def msixRaise (s : State) (fn e : Nat) : State :=
  let m := msixOf s fn
  if !m.enabled then s
  else if m.fmask || (m.ent e).masked then setMsix s fn { m with ents := mput m.ents e { m.ent e with pending := true } }
  else emit s (.msix fn e)

/-- Send what a pending bit held once both masks are clear (R431, PCIe). -/
def msixFlush (s : State) (fn e : Nat) : State :=
  let m := msixOf s fn
  if m.enabled && !m.fmask && !(m.ent e).masked && (m.ent e).pending then
    emit (setMsix s fn { m with ents := mput m.ents e { m.ent e with pending := false } }) (.msix fn e)
  else s

/-! ### Logs -/

/-- The time that an event-log entry carries (R482): the CXL timestamp, or the Crown's time with bit 63 set. -/
def crownTime (s : State) : Nat :=
  match s.crown.timeSet with
  | some (v, t) => (v + (s.now - t) * 1000) % 2 ^ 64
  | none => 2 ^ 63 + (s.now * 1000) % 2 ^ 63

/-- The Crown raises an event (R482–R484): it is buffered, or counted in CRN_LOG.DROPPED when the buffer of 256 is full. -/
def crownEvent (s : State) (code sev data : Nat) : State :=
  if s.crown.buffer.length ≥ 256 then bump s Reg.crnLogDropped
  else
    let e : CrownEvt := ⟨tickOf s, s.bow.st.code, sev, code, s.crown.nextSeq, crownTime s, data, s.now⟩
    { s with crown := { s.crown with buffer := s.crown.buffer ++ [e], nextSeq := (s.crown.nextSeq + 1) % 2 ^ 32 } }

/-- An event whose DATA names several values: how they share the eight bytes the spec does not say, so DATA is open (log entry 6). -/
def crownEventOpen (s : State) (code sev : Nat) : State :=
  let r := freeVal s
  crownEvent r.1 code sev (r.2 % 2 ^ 64)

/-- The stored value of a register, from its fields. -/
def rawReg (s : State) (fs : List Fld) : Nat := fs.foldl (fun a f => a + getF s f * 2 ^ f.lo) 0

/-- A CXL event log with nothing in it. -/
def cxlLogReset : CxlLog := ⟨[], 0, 0, 0, 1⟩

/-- A CXL event log by severity (R412). -/
def cxlLogOf (s : State) (sev : Nat) : CxlLog := (mget s.host.cxlLogs sev).getD cxlLogReset

/-- A CXL event record is written (R412): at a full log of 256 it is counted as an overflow; otherwise it is entered and, where
the interrupt policy of that log says so, entry 8 of the physical function is raised. -/
def cxlEvent (s : State) (sev : Nat) (general : Bool) (code data : Nat) : State :=
  let l := cxlLogOf s sev
  if l.recs.length ≥ 256 then
    let l' := { l with overflow := satTo 16 (l.overflow + 1), firstOv := if l.overflow = 0 then crownTime s else l.firstOv,
                       lastOv := crownTime s }
    { s with host := { s.host with cxlLogs := mput s.host.cxlLogs sev l' } }
  else
    let l' := { l with recs := l.recs ++ [⟨l.nextHandle, general, code, data, crownTime s⟩],
                       nextHandle := (l.nextHandle + 1) % 2 ^ 16 }
    let s := { s with host := { s.host with cxlLogs := mput s.host.cxlLogs sev l' } }
    if (s.host.evtPolicy.getD sev 0) % 4 = 1 then msixRaise s 0 8 else s

/-- INT_LOG_ENTRY of an entry (R323). -/
def IntEnt.word (e : IntEnt) : Nat :=
  e.kind % 16 + (e.place % 16) * 2 ^ 4 + (e.pos % 32) * 2 ^ 8 + (e.unit % 256) * 2 ^ 16 + (e.addr % 2 ^ 40) * 2 ^ 24

/-- An integrity event is entered in the log, or counted as dropped when the log of 256 is full (R321); an uncorrectable DRAM
word is also reported to the Crown's log and as a General Media record (R322). -/
def intLog (s : State) (kind place pos unit addr : Nat) : State :=
  let e : IntEnt := ⟨kind, place, pos, unit, addr, tickOf s⟩
  let s := if s.integ.log.length ≥ 256 then bump s Reg.intLogStatusDropped
           else { s with integ := { s.integ with log := s.integ.log ++ [e] } }
  if kind = 2 && place = 0 then cxlEvent (crownEvent s 0x0401 2 e.word) 2 true 0x0401 e.word else s

/-- A poisoned word is consumed (R309): counted and logged. -/
def consume (s : State) (place unit addr : Nat) : State :=
  intLog (bump s Reg.intPoisonConsumed) 4 place 0x1F unit addr

/-- A corrected word (R321): logged only when LOG_CE is 1. -/
def logCorrected (s : State) (place pos unit addr : Nat) : State :=
  if flagF s Reg.intCtrlLogCe then intLog s 1 place pos unit addr else s

/-- The error that stands in a stored word: 0 none, 1–18 in the byte at the position one below, 19 in more than the code corrects (R304). -/
def beyond : Nat := 19

/-- A word that a datapath, link or buffer damaged (R307, R323) is counted and logged. The word's address within such a unit is not the
spec's to tell (log entry 6). -/
def pathHit (s : State) (unit : Nat) (u : PathUps) : State :=
  let r := freeVal s
  if u.code < beyond then logCorrected (bump r.1 Reg.intPathCorrected) u.place (u.code - 1) unit r.2
  else intLog (bump r.1 Reg.intPathUncorrected) 2 u.place 0x1F unit r.2

/-- The words of a transfer that it found damaged, at a unit: the brim port for a brim buffer, 0 elsewhere (R323). -/
def pathHits (s : State) (port : Nat) (us : List PathUps) : State :=
  us.foldl (fun t u => pathHit t (if u.place = 5 then port else 0) u) s

/-- The words that arrive poisoned because they were damaged beyond correction on the way (R307). -/
def pathLost (us : List PathUps) : List Nat := (us.filter (fun u => decide (u.code ≥ beyond))).map (·.word)

/-! ### Locks (R10, R11) -/

/-- The LOCK field of the block that holds an offset, where the block has one (R10, R521). -/
def lockOf (off : Nat) : Option Fld :=
  let m := off / 0x100000
  if off / 0x10000 = 1 then some Reg.rstCtrlLock
  else if off / 0x10000 = 2 then some Reg.tckCtrlLock
  else if 0x38000 ≤ off && off < 0x40000 then some Reg.crnCtrlLock
  else if m = 1 && off ≥ 0x110000 then some Reg.qeCtrlLock
  else if m = 2 then some Reg.tsCtrlLock
  else if m = 3 then some Reg.srcCtrlLock
  else if m = 4 then some Reg.selCtrlLock
  else if m = 5 then some Reg.crdCtrlLock
  else if m = 6 || m = 7 then some Reg.fltCtrlLock
  else if m = 8 then some (Reg.mcCtrlLock.ix ((off - 0x800000) / 0x10000))
  else if m = 9 then some (Reg.ktlCtrlLock.ix ((off - 0x900000) / 0x10000))
  else if m = 10 then some Reg.intCtrlLock
  else if m = 11 then some Reg.tirCtrlLock
  else if m = 12 then some Reg.fshCtrlLock
  else if m = 13 then some Reg.brmCtrlLock
  else if m = 14 then some Reg.rmaCtrlLock
  else if m = 15 then some Reg.fwCtrlLock
  else none

/-- Whether the block that holds an offset is locked. -/
def lockedAt (s : State) (off : Nat) : Bool :=
  match lockOf off with
  | some f => flagF s f
  | none => false

end Sys2Proof.Machine
end

