-- ==== Sys2Proof/Machine/Dram.lean ====
section
/-! DEFINITION. The DRAM sites as bytes: codewords, the written-map, reads, whole and narrow writes, frame release
(R276, R279, R302–R315, R526). -/
namespace Sys2Proof.Machine

/-- The key of a stored byte: site, 16-byte word of the site, codeword position. -/
def cellKey (site word pos : Nat) : Nat := (site * 2 ^ 33 + word) * 18 + pos

/-- What an unlisted byte of a stack reads as (log entry 5). -/
def cellDefault : Byte := 0

/-- The stored byte at a key. -/
def memGet (m : List Host.Cell) (k : Nat) : Byte := (mget m k).getD cellDefault

/-- The stored bytes with `b` at key `k`, in canonical form: a byte equal to the default is not listed. -/
def memPut (m : List Host.Cell) (k : Nat) (b : Byte) : List Host.Cell := if b = cellDefault then mdel m k else mput m k b

/-- Put bytes at consecutive keys. -/
def memPuts (m : List Host.Cell) (k : Nat) : List Byte → List Host.Cell
  | [] => m
  | b :: bs => memPuts (memPut m k b) (k + 1) bs

/-- The canonical form of the stored bytes: keys strictly rising, no entry equal to the default. -/
def memWf : List Host.Cell → Bool
  | [] => true
  | [(_, b)] => b != cellDefault
  | (j, b) :: (k, c) :: m => b != cellDefault && decide (j < k) && memWf ((k, c) :: m)

/-- The stored codeword of a word. -/
def rawWord (s : State) (site word : Nat) : Codeword :=
  (List.range 18).map (fun p => (memGet s.dram.cells (cellKey site word p)).toNat)

/-- Store a codeword. -/
def putRaw (s : State) (site word : Nat) (w : Codeword) : State :=
  { s with dram := { s.dram with cells := memPuts s.dram.cells (cellKey site word 0) (w.map (BitVec.ofNat 8)) } }

/-- The key of a line's written-map bit (R310). -/
def lineKey (site line : Nat) : Nat := site * 2 ^ 29 + line

/-- The key of the map word that covers a line: 128 lines a word (R314). -/
def mapKey (site line : Nat) : Nat := site * 2 ^ 22 + line / 128

/-- Whether a line's map bit is set. -/
def isWritten (s : State) (site line : Nat) : Bool := s.dram.written.contains (lineKey site line)

/-- Whether a line's map word is lost (R314). -/
def mapBad (s : State) (site line : Nat) : Bool := s.dram.badMap.contains (mapKey site line)

/-- Whether any line of a frame has been written: its summary bit (R310). -/
def frameWritten (s : State) (site frame : Nat) : Bool :=
  let lo := lineKey site (frame * 256)
  s.dram.written.any (fun k => decide (lo ≤ k) && decide (k < lo + 256))

/-- Whether a line reads as if written because its map word is lost (R314); the map is not read where the summary bit is clear (R311). -/
def mapLost (s : State) (site line : Nat) : Bool := mapBad s site line && frameWritten s site (line / 256)

/-- A codeword that fails its check at no single position: S0 = 1, S1 = 0 (R304, R314). -/
def lostWord : Codeword := gfDouble (gfPow 230) :: gfPow 230 :: List.replicate 16 0

/-- The codeword a read meets (R311, R314). -/
def seenWord (s : State) (site word : Nat) : Codeword :=
  if isWritten s site (word / 16) then rawWord s site word
  else if mapLost s site (word / 16) then lostWord
  else List.replicate 18 0

/-- Set a line's written bit (R312); a lost map word is then rewritten with every bit set, and the lines that had never been
written hold words that fail their check (R314). -/
def markWritten (s : State) (site line : Nat) : State :=
  if mapBad s site line then
    let first := line / 128 * 128
    let rest := ((List.range 128).map (· + first)).filter (fun l => !(isWritten s site l))
    let s1 := rest.foldl (fun t l => (List.range 16).foldl (fun t i => putRaw t site (l * 16 + i) lostWord) t) s
    { s1 with dram := { s1.dram with
        written := rest.foldl (fun w l => sinsert w (lineKey site l)) s1.dram.written,
        badMap := s1.dram.badMap.filter (· != mapKey site line) } }
  else { s with dram := { s.dram with written := sinsert s.dram.written (lineKey site line) } }

/-- The bytes of a line before its first write are forgotten: every byte of the line is zero (R312). -/
def clearLine (s : State) (site line : Nat) : State :=
  { s with dram := { s.dram with cells := s.dram.cells.filter (fun c =>
      !(decide (cellKey site (line * 16) 0 ≤ c.1) && decide (c.1 < cellKey site (line * 16 + 16) 0))) } }

/-- One read of a line is counted (R300, R323): from the stack, or answered from the written-map. -/
def countLineRead (s : State) (site line : Nat) : State :=
  if isWritten s site line || mapLost s site line then bump s (Reg.mcReadsLines.ix site)
  else
    let n := s.integ.zeroFrac + 1
    let s := { s with integ := { s.integ with zeroFrac := n % 2 ^ 16 } }
    if n = 2 ^ 16 then bump s Reg.intMapZeroReads else s

/-- A controller reads a word (R279, R304, R526): corrected where it can be; an UNCORRECTABLE word is written back in the
poisoned form, counted and logged once. Answers the data and whether the word is poison to its reader. -/
def readWord (s : State) (site word : Nat) : State × PWord :=
  let w := seenWord s site word
  match classify w with
  | .clean => (s, ⟨wordData w, false⟩)
  | .poison => (s, ⟨wordData w, true⟩)
  | .corrected j => (logCorrected (bump s Reg.intDramCorrected) 0 j site word, ⟨wordData w, false⟩)
  | .uncorrectable =>
    let s := markWritten s site (word / 16)
    let s := putRaw s site word (poisonWord (w.drop 2))
    (intLog (bump (bump s Reg.intDramUncorrected) Reg.intPoisonWritten) 2 0 0x1F site word, ⟨wordData w, true⟩)

/-- Read `n` words from word `w` on. -/
def readWords (s : State) (site : Nat) : Nat → Nat → State × List PWord
  | _, 0 => (s, [])
  | w, n + 1 =>
    let r := readWord s site w
    let q := readWords r.1 site (w + 1) n
    (q.1, r.2 :: q.2)

/-- The lines that `n` words from word `w` on lie in. -/
def linesOf (w n : Nat) : List Nat :=
  if n = 0 then [] else (List.range ((w + n - 1) / 16 - w / 16 + 1)).map (· + w / 16)

/-- A controller serves a read of `n` words (R279), counting each line once. -/
def dramRead (s : State) (site w n : Nat) : State × List PWord :=
  readWords ((linesOf w n).foldl (fun t l => countLineRead t site l) s) site w n

/-- A whole word is written (R306): fresh check bytes, or the pattern where the writer carries poison. -/
def writeWhole (s : State) (site word : Nat) (p : PWord) : State := putRaw s site word (storedOf p.pois p.data)

/-- A narrow write into a written word is a read-modify-write (R315): the class read decides the form written. -/
def writeNarrow (s : State) (site word off : Nat) (bs : List Byte) (pois : Bool) : State :=
  let w := seenWord s site word
  let d := putAt (wordData w) off bs
  let s := bump s (Reg.mcRmwRmw.ix site)
  match classify w with
  | .clean => putRaw s site word (storedOf pois d)
  | .corrected j => putRaw (logCorrected (bump s Reg.intDramCorrected) 0 j site word) site word (storedOf pois d)
  | .poison => intLog (bump (putRaw s site word (storedOf true d)) Reg.intPoisonWritten) 3 0 0x1F site word
  | .uncorrectable =>
    intLog (bump (bump (putRaw s site word (storedOf true d)) Reg.intDramUncorrected) Reg.intPoisonWritten) 2 0 0x1F site word

/-- Bytes `bs` written at byte offset `off` of a word whose line is written already. -/
def writeInto (s : State) (site word off : Nat) (bs : List Byte) (pois : Bool) : State :=
  if bs.length = 16 then writeWhole s site word ⟨bs, pois⟩ else writeNarrow s site word off bs pois

/-- Whether a write to a line is its first (R312): its map bit reads clear. -/
def lineFresh (s : State) (site line : Nat) : Bool := !(isWritten s site line) && !(mapLost s site line)

/-- The first write to a line (R312): the whole line in one access, zero but for the new bytes; no read is needed. -/
def firstWrite (s : State) (site line : Nat) : State := clearLine (markWritten s site line) site line

/-- Bytes of the first write to a line that lie in one word (R312): the rest of the word is zero. -/
def writeFresh (s : State) (site word off : Nat) (bs : List Byte) (pois : Bool) : State :=
  putRaw s site word (storedOf pois (putAt (zeros 16) off bs))

/-- Bytes that lie in one word of a line that reads as written (R279, R315); a lost map word is rewritten with it (R314). -/
def writeWord (s : State) (site word off : Nat) (bs : List Byte) (pois : Bool) : State :=
  writeInto (markWritten s site (word / 16)) site word off bs pois

/-- Cut bytes at byte address `a` into the pieces that lie in one word each: word, offset, bytes. -/
def wordPieces : Nat → Nat → List Byte → List (Nat × Nat × List Byte)
  | 0, _, _ => []
  | _, _, [] => []
  | fuel + 1, a, bs =>
    let n := 16 - a % 16
    (a / 16, a % 16, bs.take n) :: wordPieces fuel (a + n) (bs.drop n)

/-- A controller serves a write of bytes at byte address `a` of a site; `pois` lists the words (numbered from the first
touched) that carry poison. Each line touched is counted once. -/
def dramWrite (s : State) (site a : Nat) (bs : List Byte) (pois : List Nat) : State :=
  let lines := linesOf (a / 16) (if bs.isEmpty then 0 else (a % 16 + bs.length + 15) / 16)
  let fresh := lines.filter (lineFresh s site)
  let s := fresh.foldl (fun t l => firstWrite t site l) (lines.foldl (fun t _ => bump t (Reg.mcWritesLines.ix site)) s)
  (wordPieces (bs.length + 1) a bs).foldl (fun t p =>
    (if fresh.contains (p.1 / 16) then writeFresh else writeWord) t site p.1 p.2.1 p.2.2 (pois.contains (p.1 - a / 16))) s

/-- A frame is released (R313): its map bits are cleared, in map words written whole. -/
def releaseFrame (s : State) (site frame : Nat) : State :=
  let lo := lineKey site (frame * 256)
  let m := mapKey site (frame * 256)
  { s with dram := { s.dram with
      written := s.dram.written.filter (fun k => !(decide (lo ≤ k) && decide (k < lo + 256))),
      badMap := s.dram.badMap.filter (fun k => !(decide (m ≤ k) && decide (k < m + 2))) } }

end Sys2Proof.Machine
end

