-- ==== Sys2Proof/Machine/Flags.lean ====
section
/-! DEFINITION. The status codes a completion carries (R426) and the colours of a meter (R433): what every command reports. -/
namespace Sys2Proof.Machine

/-- Completion statuses (R426). -/
inductive Status where
  | ok | short | busy | noContext | keyInvalid | poisoned | timeout | fenced | tableFull | epochRetired | malformed
  | accessDenied | reassemblyFailed | poisonSkipped | jobClosed | notSynchronised
  deriving DecidableEq, Repr

/-- The code of a status (R426). -/
def Status.code : Status → Nat
  | .ok => 0x00 | .short => 0x01 | .busy => 0x02 | .noContext => 0x03 | .keyInvalid => 0x04 | .poisoned => 0x05
  | .timeout => 0x06 | .fenced => 0x07 | .tableFull => 0x08 | .epochRetired => 0x09 | .malformed => 0x0A
  | .accessDenied => 0x0B | .reassemblyFailed => 0x0C | .poisonSkipped => 0x0D | .jobClosed => 0x0E
  | .notSynchronised => 0x0F

/-- The colour of a metered request (R433). -/
inductive Colour where
  | green | yellow | red
  deriving DecidableEq, Repr

/-- The first status of a list of conditions that applies, as the status tables of the chapters read. -/
def firstOf (d : Status) : List (Bool × Status) → Status
  | [] => d
  | (b, s) :: r => if b then s else firstOf d r

end Sys2Proof.Machine
end

