-- ==== Sys2Proof/Machine/FlashCore.lean ====
section
/-! DEFINITION. The flash store's log, map and write cache (R355–R371) as operations: placing a unit, reading one, relocation,
parity, bands, the delta log. -/
namespace Sys2Proof.Machine

/-- Update the flash part of the state. -/
def modFlash (s : State) (f : Flash → Flash) : State := { s with flash := f s.flash }

/-- A zero read unit. -/
def ruZero : RUnit := ⟨[], 0⟩

/-- The key of a die: 64c + 4t + l (R454). -/
def dieKey (ch die : Nat) : Nat := 64 * ch + die

/-- The physical unit at a page of a block. -/
def puOf (b : Blk) (page : Nat) : Nat := ((b.ch * 64 + b.die) * 2 ^ 17 + b.blk) * 2 ^ 13 + page

/-- The die a physical unit lies on. -/
def puDie (pu : Nat) : Nat := pu / 2 ^ 30

/-- The block a physical unit lies in. -/
def puBlk (pu : Nat) : Nat := pu / 2 ^ 13

/-- The key of a block. -/
def blkKey (b : Blk) : Nat := (b.ch * 64 + b.die) * 2 ^ 17 + b.blk

/-- Whether a die is fenced, on a fenced channel, or suspect (R369). -/
def dieOff (s : State) (ch die : Nat) : Bool :=
  (getF s (Reg.fshDfenceFence.ix ch)).testBit die || flagF s (Reg.fshChFence.ix ch)
    || (getF s (Reg.fshDsuspSuspect.ix ch)).testBit die || s.flash.testing.contains (ch, die)

/-- Whether a channel is down (R353). -/
def chDown (s : State) (ch : Nat) : Bool := getF s (Reg.fshChRate.ix ch) = 0

/-- The usable dies of a channel (R354, R369). -/
def usableDies (s : State) (ch : Nat) : List Nat :=
  if chDown s ch then [] else (setBitsOf 64 (s.flash.geom.dies.getD ch 0)).filter (fun d => !(dieOff s ch d))

/-- The channels that a new band spans (R361). -/
def bandChannels (s : State) : List Nat := (List.range 32).filter (fun c => !(usableDies s c).isEmpty)

/-- The blocks of a die that belong to a band. -/
def bandBlocks (s : State) : List Nat := s.flash.bands.flatMap (fun b => b.2.members.map blkKey)

/-- The free blocks of a die (R361). -/
def freeBlocks (s : State) (ch die : Nat) : List Nat :=
  let used := bandBlocks s
  (List.range s.flash.geom.blocks).filter (fun b =>
    let k := blkKey ⟨ch, die, b⟩
    !(used.contains k) && !(s.flash.retired.contains k))

/-- The number of times a block has been erased. -/
def eraseCount (s : State) (k : Nat) : Nat := (mget s.flash.erases k).getD 0

/-- The least-worn free block of a die, lowest number on a tie (R361). -/
def leastWorn (s : State) (ch die : Nat) : Option Nat :=
  (freeBlocks s ch die).foldl (fun (b : Option Nat) (x : Nat) =>
    match b with
    | none => some x
    | some y => if eraseCount s (blkKey ⟨ch, die, x⟩) < eraseCount s (blkKey ⟨ch, die, y⟩) then some x else some y) none

/-- The next usable die of a channel in rotation (R361). -/
def nextDie (s : State) (ch : Nat) : Option Nat :=
  let ds := usableDies s ch
  let r := (mget s.flash.rot ch).getD 0
  match ds.find? (fun d => decide (r ≤ d)) with
  | some d => some d
  | none => ds.head?

/-- The member block that a channel gives to a new band. -/
def bandMember (s : State) (ch : Nat) : Option Blk :=
  match nextDie s ch with
  | none => none
  | some d => (leastWorn s ch d).map (fun b => ⟨ch, d, b⟩)

/-- All free blocks of the store. -/
def freeTotal (s : State) : Nat := sumNat ((List.range 32).map (fun c => sumNat ((usableDies s c).map (fun d => (freeBlocks s c d).length))))

/-- Bytes of SLC capacity in erased blocks. -/
def erasedSlc (s : State) : Nat := freeTotal s * s.flash.geom.slcPages * 16384

/-- Mapped FLUs (R355). -/
def mappedFlus (s : State) : Nat := s.flash.map.length

/-- The SLC buffer's target B in bytes, as a band allocation computes it (R363); `Flash.slcB` holds it until the next. -/
def slcTarget (s : State) : Nat :=
  min (2 ^ 42) (max (2 ^ 36) ((s.flash.logical - mappedFlus s) * 16384 / 4))

/-- Bytes held in SLC bands (R363). -/
def slcHeld (s : State) : Nat :=
  sumNat (s.flash.bands.map (fun b => if b.2.slc then b.2.next * 16384 else 0))

/-- Pages of a band's blocks in its mode. -/
def bandPages (s : State) (b : Band) : Nat := if b.slc then s.flash.geom.slcPages else s.flash.geom.pages

/-- Data units that fit a band: W − 1 a row (R361). -/
def bandRoom (s : State) (b : Band) : Nat := (b.members.length - 1) * bandPages s b

/-- Allocate a band (R361, R363), unless too few channels are left, no block is free, or the flush reserve would be used. -/
def newBand (s : State) (slc : Bool) (reserve : Bool) : Option (State × Nat) :=
  let chs := bandChannels s
  let ms := chs.filterMap (bandMember s)
  if chs.length < 2 || ms.length ≠ chs.length then none
  else if !reserve && erasedSlc s < 2 ^ 30 + ms.length * s.flash.geom.slcPages * 16384 then none
  else
    let id := s.flash.nextBand
    let rot := ms.foldl (fun r b => mput r b.ch (b.die + 1)) s.flash.rot
    some (modFlash s (fun f => { f with
      bands := mput f.bands id ⟨ms, slc, 0, [], [], tickOf s, false⟩, nextBand := id + 1, rot := rot, slcB := slcTarget s }), id)

/-- The physical unit of member `m` of a row. -/
def bandPu (b : Band) (row m : Nat) : Nat :=
  match b.members[m]? with
  | some x => puOf x row
  | none => 0

/-- The parity member of a row (R361). -/
def parityMember (id : Nat) (b : Band) (row : Nat) : Nat := (id + row) % b.members.length

/-- The data members of a row in ascending order. -/
def dataMembers (id : Nat) (b : Band) (row : Nat) : List Nat :=
  (List.range b.members.length).filter (· != parityMember id b row)

/-- The place of the next data unit of a band. -/
def nextPlace (id : Nat) (b : Band) : Nat × Nat :=
  let w := b.members.length - 1
  let row := b.next / w
  (row, (dataMembers id b row).getD (b.next % w) 0)

/-- Take the next place of the write frontier (`native`: the fold's own frontier), opening a band where needed. -/
def takePlace (s : State) (native reserve : Bool) : Option (State × Nat) :=
  let cur := if native then s.flash.openNative else s.flash.openBand
  let usable : Option (State × Nat) :=
    match cur with
    | some id =>
      match mget s.flash.bands id with
      | some b => if b.next < bandRoom s b then some (s, id) else none
      | none => none
    | none => none
  let got := match usable with
    | some x => some x
    | none =>
      match newBand s (!native && decide (slcHeld s < slcTarget s)) reserve with
      | some (t, id) =>
        some (modFlash t (fun f => if native then { f with openNative := some id } else { f with openBand := some id }), id)
      | none => none
  match got with
  | none => none
  | some (t, id) =>
    match mget t.flash.bands id with
    | none => none
    | some b =>
      let (row, m) := nextPlace id b
      some (modFlash t (fun f => { f with bands := mput f.bands id { b with next := b.next + 1 } }), bandPu b row m)

/-- The map value of an FLU that is not mapped (all-ones, R371), in the model a number that no physical unit has. -/
def unmapped : Nat := 2 ^ 60

/-- A map change appends a delta (R371). -/
def setMap (s : State) (flu : Nat) (pu : Option Nat) : State :=
  modFlash s (fun f => { f with map := mset f.map flu pu, deltas := f.deltas ++ [(flu, pu.getD unmapped)] })

/-- Whether the write cache (256 MiB) or the delta log (192 MiB of uncovered deltas) makes a write wait (R360). -/
def cacheFull (s : State) : Bool := decide (s.flash.cache.length ≥ 16384) || decide (s.flash.deltas.length * 8 ≥ 192 * 2 ^ 20)

/-- Place a mapping unit in the write cache with its map delta (R360): none where it must wait. -/
def placeUnit (s : State) (flu kind name : Nat) (rus : List RUnit) (native : Bool) : Option State :=
  if cacheFull s then none
  else match takePlace s native false with
    | none => none
    | some (t, pu) =>
      let t := modFlash t (fun f => { f with cache := mput f.cache pu ⟨rus, flu, f.seq, kind, name⟩, seq := f.seq + 1, marker := none })
      some (setMap t flu (some pu))

/-- The stored unit at a physical unit, from the cache or from flash. -/
def unitAt (s : State) (pu : Nat) : Option MUnit :=
  match mget s.flash.cache pu with
  | some u => some u
  | none => mget s.flash.units pu

/-- Whether a die is in service (R354, R369). -/
def dieServes (s : State) (ch die : Nat) : Bool := (usableDies s ch).contains die

/-- Whether reads of a physical unit wait (R366): it is programmed on a die out of service and its row is not rebuilt yet. -/
def puBlocked (s : State) (pu : Nat) : Bool :=
  !(mhas s.flash.cache pu) && !(dieServes s (puDie pu / 64) (puDie pu % 64)) && !(s.flash.lost.contains pu)
    && s.flash.rebuild.any (fun r => match mget s.flash.bands r.1 with
        | some b => bandPu b r.2.1 r.2.2 = pu
        | none => false)

/-- Units that a read waits for: their rows are rebuilt first (R366). -/
def wantUnits (s : State) (pus : List Nat) : State := modFlash s (fun f => { f with wanted := pus.foldl sinsert f.wanted })

/-- The other units of the row of a programmed unit (R361, R365 step 4). -/
def rowOthers (s : State) (pu : Nat) : Option (List Nat) :=
  (s.flash.bands.find? (fun b => (b.2.members.map blkKey).contains (puBlk pu))).map (fun b =>
    ((List.range b.2.members.length).map (bandPu b.2 (pu % 2 ^ 13))).filter (· != pu))

/-- Whether a unit can be reconstructed from the other units of its row (R365 step 4, R370): all are there, and none is lost. -/
def rowWhole (s : State) (pu : Nat) : Bool :=
  match rowOthers s pu with
  | some us => us.all (fun u => mhas s.flash.units u && !(s.flash.lost.contains u) && !(puBlocked s u))
  | none => false

/-- A read unit with every word poisoned (R365 step 5). -/
def ruLost : RUnit := ⟨[], 2 ^ 256 - 1⟩

/-- Read unit `ru` of an FLU as the store returns it (R355, R364): zeros where it is not mapped, poison where it is lost or its row cannot
be rebuilt (R370). -/
def fluRu (s : State) (flu ru : Nat) : RUnit :=
  match mget s.flash.map flu with
  | none => ruZero
  | some pu =>
    if s.flash.lost.contains pu || (puBlocked s pu && !(rowWhole s pu)) then ruLost
    else match unitAt s pu with
      | some u => u.rus.getD ru ruZero
      | none => ruZero

/-- The four read units of an FLU. -/
def fluUnit (s : State) (flu : Nat) : List RUnit := (List.range 4).map (fluRu s flu)

/-- The metadata of a mapped FLU. -/
def fluMeta (s : State) (flu : Nat) : Nat × Nat :=
  match (mget s.flash.map flu).bind (unitAt s) with
  | some u => (u.kind, u.name)
  | none => (0, 0)

/-- The 256 words of a read unit with their poison marks. -/
def ruWords (r : RUnit) : List PWord :=
  ((chunksOf 16 256 (fitBytes 4096 r.data)).zip (List.range 256)).map (fun p => ⟨p.1, r.pois.testBit p.2⟩)

/-- A read unit from 256 words. -/
def wordsRu (ws : List PWord) : RUnit := ⟨ws.flatMap (·.data), maskOf 256 (fun i => (ws.getD i ⟨[], false⟩).pois)⟩

/-- Unmap an FLU. -/
def fluUnmap (s : State) (flu : Nat) : State := if mhas s.flash.map flu then setMap s flu none else s

/-- Whether a physical unit is the one its FLU maps to; a pad or a parity unit is none (R364). -/
def puValid (s : State) (pu : Nat) : Bool :=
  match unitAt s pu with
  | some u => mget s.flash.map u.flu = some pu && u.kind != 7 && u.kind != 0
  | none => false

/-- The physical units of a band. -/
def bandPus (s : State) (id : Nat) (b : Band) : List Nat :=
  (List.range (bandPages s b)).flatMap (fun r => (dataMembers id b r).map (bandPu b r))

/-- The valid units of a band. -/
def bandValid (s : State) (id : Nat) (b : Band) : List Nat := (bandPus s id b).filter (puValid s)

/-- Copy a valid unit to the frontier (R361, R362, R367): none where no place is free. -/
def relocate (s : State) (pu : Nat) (native : Bool) : Option State :=
  match unitAt s pu with
  | some u => if puValid s pu then
      placeUnit s u.flu u.kind u.name (if s.flash.lost.contains pu then [ruLost, ruLost, ruLost, ruLost] else u.rus) native
    else some s
  | none => some s

/-- Relocate each unit of a list; a unit with no place stays where it is. -/
def relocateAll (s : State) (native : Bool) (pus : List Nat) : State × Nat :=
  pus.foldl (fun a pu => match relocate a.1 pu native with
    | some t => (t, a.2 + 1)
    | none => a) (s, 0)

/-- Whether the store takes writes (R354, R372, R374). -/
def flashWritable (s : State) : Bool := s.flash.st = 2

/-- Whether the store answers reads: READY or FAILED (R354). -/
def flashReadable (s : State) : Bool := s.flash.st = 2 || s.flash.st = 5

/-! ### Recovery (R365) -/

/-- The counters of a decode step of R365; step 5 is also logged. -/
def countStep (s : State) (pu step : Nat) : State :=
  match step with
  | 2 => bump s Reg.fshReadsRetried
  | 3 => bump s Reg.fshReadsSoft
  | 4 => bump s Reg.fshRecoverRebuilt
  | 5 =>
    let r := freeVal (bump s Reg.fshRecoverPoisoned)
    intLog r.1 2 7 0x1F (puDie pu / 64) r.2
  | _ => s

/-- A read unit that no step of R365 recovers reads as poison from then on. -/
def loseRu (s : State) (pu ru : Nat) : State :=
  modFlash s (fun f => { f with units := mmod f.units pu (fun u => { u with rus := setAt (u.rus ++ List.replicate (4 - u.rus.length) ruZero) ru ruLost }) })

/-- A read of a programmed read unit ends at a step of R365: counted; step 4 relocates the unit, step 5 loses the read unit. -/
def endStep (s : State) (pu ru step : Nat) : State :=
  let s := countStep (modFlash s (fun f => { f with weak := mdel f.weak (4 * pu + ru) })) pu step
  if step = 5 then loseRu s pu ru else if step = 4 then (relocate s pu false).getD s else s

/-- A read unit that has gone weak is read: it ends at its step, or at step 5 where that is step 4 and the row is not whole. -/
def recoverRu (s : State) (pu ru : Nat) : State :=
  match mget s.flash.weak (4 * pu + ru) with
  | some step => endStep s pu ru (if step = 4 && !(rowWhole s pu) then 5 else step)
  | none => s

/-- Read units of an FLU are read from flash (R365), by a record, area, tier or merging read. -/
def recoverFlu (s : State) (flu : Nat) (rus : List Nat) : State :=
  match mget s.flash.map flu with
  | some pu => if mhas s.flash.cache pu then s else rus.foldl (fun t r => recoverRu t pu r) s
  | none => s

/-! ### Writes (R360) -/

/-- Write one read unit of an FLU (R360): merged into its whole mapping unit, whose other read units are read; none where it must wait, or
the store takes no writes (R354). -/
def fluWriteRu (s : State) (flu kind name ru : Nat) (r : RUnit) : Option State :=
  if !(flashWritable s) || (!(mhas s.flash.map flu) && mappedFlus s ≥ s.flash.logical) then none
  else
    let s := recoverFlu s flu ((List.range 4).filter (· != ru))
    placeUnit s flu kind name (setAt (fluUnit s flu) ru r) false

/-- Write a whole mapping unit. -/
def fluWrite (s : State) (flu kind name : Nat) (rus : List RUnit) : Option State :=
  if !(flashWritable s) || (!(mhas s.flash.map flu) && mappedFlus s ≥ s.flash.logical) then none
  else placeUnit s flu kind name rus false

/-- Whether a write to an FLU must wait behind an earlier one (R359). -/
def writeWaits (s : State) (flu : Nat) : Bool := s.flash.waitw.any (fun x => x.flu = flu)

/-- XOR of two read units, data and bitmap (R361). -/
def ruXor (a b : RUnit) : RUnit :=
  ⟨toBytes 4096 (ofBytes (fitBytes 4096 a.data) ^^^ ofBytes (fitBytes 4096 b.data)), a.pois ^^^ b.pois⟩

/-- XOR of the read units of two mapping units. -/
def rusXor (a b : List RUnit) : List RUnit := (List.range 4).map (fun i => ruXor (a.getD i ruZero) (b.getD i ruZero))

/-- The XOR of the units at members of a row (R361, R370). -/
def rowXor (s : State) (b : Band) (row : Nat) (ms : List Nat) : List RUnit :=
  ms.foldl (fun a m => rusXor a (match unitAt s (bandPu b row m) with | some u => u.rus | none => [])) [ruZero, ruZero, ruZero, ruZero]

/-- The parity unit of a row (R361). -/
def parityOf (s : State) (id : Nat) (b : Band) (row : Nat) : MUnit :=
  ⟨rowXor s b row (dataMembers id b row), 0, s.flash.seq, 7, 0⟩

/-- A row is programmed with its parity: its units leave the write cache. -/
def programRow (s : State) (id row : Nat) : State :=
  match mget s.flash.bands id with
  | none => s
  | some b =>
    let par := parityOf s id b row
    let ms := dataMembers id b row
    modFlash s (fun f => { f with
      units := mput (ms.foldl (fun u m => match mget f.cache (bandPu b row m) with
        | some x => mput u (bandPu b row m) x
        | none => u) f.units) (bandPu b row (parityMember id b row)) par,
      cache := ms.foldl (fun c m => mdel c (bandPu b row m)) f.cache, seq := f.seq + 1,
      bands := mput f.bands id { b with done := sinsert b.done row, busy := b.busy.filter (· != row),
                                        first := if b.done.isEmpty then tickOf s else b.first } })

/-- Whether all data units of a row are present (R361). -/
def rowFull (s : State) (id : Nat) (b : Band) (row : Nat) : Bool := (dataMembers id b row).all (fun m => mhas s.flash.cache (bandPu b row m))

/-- Whether a map change is covered by a checkpoint of a segment: its FLU is in the segment and its unit, if any, is on flash. -/
def covers (s : State) (seg : Nat) (flu : Nat) : Bool :=
  flu / 16384 = seg && (match mget s.flash.map flu with | some pu => mhas s.flash.units pu | none => true)

/-- A unit of the store's own KINDs enters the log (R364, R371): checkpoint 4, delta 5, flush marker 6, with a number in the place of its FLU
and a sequence number of its own. Of a segment's checkpoints the newest stays (log entry 102). -/
def logMeta (s : State) (kind n : Nat) : State :=
  modFlash s (fun f => { f with
    metas := f.metas.filter (fun u => !(kind = 4 && u.kind = 4 && u.flu = n)) ++ [⟨[], n, f.seq, kind, 0⟩], seq := f.seq + 1 })

/-- A segment of the map is written to a checkpoint (R371); its deltas are covered. -/
def ckptSegment (s : State) (segment : Nat) : State :=
  let s := logMeta s 4 segment
  modFlash s (fun f => { f with
    ckpt := (f.map.filter (fun m => covers s segment m.1)).foldl (fun c m => mput c m.1 m.2)
      (f.ckpt.filter (fun m => !(covers s segment m.1))),
    deltas := f.deltas.filter (fun d => !(covers s segment d.1)), kept := f.kept.filter (fun d => !(covers s segment d.1)) })

/-- A write made inside a command that finds the write cache or the delta log full lets the programs and checkpoints it waits for end at
once (R360; log entry 103). -/
def makeRoom (s : State) : State :=
  if !(cacheFull s) then s
  else
    let s := s.flash.bands.foldl (fun s p =>
      ((List.range (bandPages s p.2)).filter (fun r => !(p.2.done.contains r) && rowFull s p.1 p.2 r)).foldl (fun s r => programRow s p.1 r) s) s
    (s.flash.deltas.foldl (fun l d => sinsert l (d.1 / 16384)) []).foldl ckptSegment s

/-- The rows of a die that hold a programmed unit: band, row, member (R370). -/
def rowsOnDie (s : State) (ch die : Nat) : List (Nat × Nat × Nat) :=
  s.flash.bands.flatMap (fun p =>
    match findIdx (fun (m : Blk) => m.ch = ch && m.die = die) p.2.members with
    | some m => (p.2.done).map (fun r => (p.1, r, m))
    | none => [])

/-- Give a cached unit a new place on the frontier; where there is none it keeps its own. -/
def rehome (s : State) (pu : Nat) : State :=
  match mget s.flash.cache pu with
  | some u =>
    if puValid s pu then
      (placeUnit (modFlash s (fun f => { f with cache := mdel f.cache pu })) u.flu u.kind u.name u.rus false).getD s
    else modFlash s (fun f => { f with cache := mdel f.cache pu })
  | none => s

/-- Bands that have a member on a die are written no further, and the units of their rows not yet programmed or issued take new places. -/
def leaveDie (s : State) (ch die : Nat) : State :=
  let bs := s.flash.bands.filter (fun b => b.2.members.any (fun m => m.ch = ch && m.die = die))
  let shut (o : Option Nat) : Option Nat := o.filter (fun i => !(bs.any (fun b => b.1 = i)))
  let s := modFlash s (fun f => { f with openBand := shut f.openBand, openNative := shut f.openNative })
  (bs.flatMap (fun b => ((List.range (bandPages s b.2)).filter (fun r => !(b.2.done.contains r) && !(b.2.busy.contains r))).flatMap (fun r =>
    (dataMembers b.1 b.2 r).map (bandPu b.2 r)))).foldl rehome s

/-- A die is lost (R368–R370): every programmed row on it waits for its rebuild, and the bands it is a member of are written no further. -/
def loseDie (s : State) (ch die : Nat) : State :=
  leaveDie (modFlash s (fun f => { f with rebuild := f.rebuild ++ (rowsOnDie s ch die).filter (fun r => !(f.rebuild.contains r)) })) ch die

/-- Forget a band and erase its blocks (R362). -/
def dropBand (s : State) (id : Nat) : State :=
  match mget s.flash.bands id with
  | none => s
  | some b =>
    let pus := (List.range (max s.flash.geom.pages s.flash.geom.slcPages)).flatMap (fun r => b.members.map (fun m => puOf m r))
    modFlash s (fun f => { f with
      bands := mdel f.bands id, units := f.units.filter (fun u => !(pus.contains u.1)),
      lost := f.lost.filter (fun u => !(pus.contains u)),
      erases := b.members.foldl (fun e m => mput e (blkKey m) ((mget e (blkKey m)).getD 0 + 1)) f.erases,
      openBand := if f.openBand = some id then none else f.openBand,
      openNative := if f.openNative = some id then none else f.openNative })

/-! ### Tier pages (R355) -/

/-- Store the read units of a page in the tier area (R355): the mapping units that hold them, with zeros beyond the last, and no other FLU of
the page stays mapped; none where there is no room. -/
def tierStore (s : State) (page : Nat) (units : List RUnit) : Option State :=
  let n := ceilDiv units.length 4
  let fresh := ((List.range n).filter (fun j => !(mhas s.flash.map (4 * page + j)))).length
  let gone := (List.range 4).filter (fun j => decide (n ≤ j) && mhas s.flash.map (4 * page + j))
  if mappedFlus s + fresh > s.flash.logical + gone.length || !(flashWritable s) then none
  else (List.range n).foldl (fun (a : Option State) j => a.bind (fun t =>
    fluWrite t (4 * page + j) 1 0 ((List.range 4).map (fun i => units.getD (4 * j + i) ruZero))))
    (some (makeRoom (gone.foldl (fun t j => fluUnmap t (4 * page + j)) s)))

/-- The stored read units of a tier page. -/
def tierUnits (s : State) (page units : Nat) : List RUnit :=
  (List.range units).map (fun u => fluRu s (4 * page + u / 4) (u % 4))

/-- The units of a tier page are released (R332). -/
def tierRelease (s : State) (page : Nat) : State :=
  (List.range 4).foldl (fun t j => fluUnmap t (4 * page + j)) s

end Sys2Proof.Machine
end

