-- ==== Sys2Proof/Machine/Sbc.lean ====
section
/-! DEFINITION. Saunduf block compression (R345–R347): the encoder the node uses and the decoder that accepts any valid
stream. -/
namespace Sys2Proof.Machine

/-- Pack fields of width `w`, least significant bit first (R346). -/
def packBits (w : Nat) : List Nat → Nat
  | [] => 0
  | v :: vs => v % 2 ^ w + packBits w vs * 2 ^ w

/-- Unpack `n` fields of width `w`. -/
def unpackBits (w : Nat) : Nat → Nat → List Nat
  | 0, _ => []
  | n + 1, x => x % 2 ^ w :: unpackBits w n (x / 2 ^ w)

/-- The sign, exponent and mantissa planes of 2,048 values under exponent width `e` (R346). -/
def planesOf (e : Nat) (vs : List Nat) : List Byte × List Byte × List Byte :=
  (toBytes 256 (packBits 1 (vs.map (bits · 15 1))),
   toBytes (256 * e) (packBits e (vs.map (bits · (15 - e) e))),
   toBytes (256 * (15 - e)) (packBits (15 - e) (vs.map (bits · 0 (15 - e)))))

/-- The values back from the planes. -/
def valuesOf (e : Nat) (s x m : List Byte) : List Nat :=
  ((unpackBits 1 2048 (ofBytes s)).zip ((unpackBits e 2048 (ofBytes x)).zip (unpackBits (15 - e) 2048 (ofBytes m)))).map
    (fun p => p.1 * 2 ^ 15 + p.2.1 * 2 ^ (15 - e) + p.2.2)

/-- Tokens for literal bytes, in pieces of 128 (R347). -/
def litTokens : Nat → List Byte → List Byte
  | 0, _ => []
  | _, [] => []
  | f + 1, bs => BitVec.ofNat 8 ((bs.take 128).length - 1) :: (bs.take 128 ++ litTokens f (bs.drop 128))

/-- Tokens for a run of `n` zero bytes, in pieces of 128 with the remainder last (R347). -/
def zeroTokens : Nat → Nat → List Byte
  | 0, _ => []
  | f + 1, n => if n = 0 then [] else if n ≤ 128 then [BitVec.ofNat 8 (0x7F + n)] else 0xFF :: zeroTokens f (n - 128)

/-- The number of leading zero bytes. -/
def zeroRun : List Byte → Nat
  | [] => 0
  | b :: bs => if b = 0 then zeroRun bs + 1 else 0

/-- The coder (R347): every run of two or more zero bytes becomes zero tokens, all else literals. `lit` holds the literals not
yet coded, in reverse. -/
def codePlane : Nat → List Byte → List Byte → List Byte
  | 0, lit, _ => litTokens (lit.length + 1) lit.reverse
  | _, lit, [] => litTokens (lit.length + 1) lit.reverse
  | f + 1, lit, b :: bs =>
    let z := zeroRun (b :: bs)
    if z ≥ 2 then litTokens (lit.length + 1) lit.reverse ++ zeroTokens (z / 128 + 1) z ++ codePlane f [] ((b :: bs).drop z)
    else codePlane f (b :: lit) bs

/-- A plane in coded form. -/
def encPlane (bs : List Byte) : List Byte := codePlane (bs.length + 1) [] bs

/-- The decoder (R347): the bytes a token stream yields, none where a token runs past the stream's end. -/
def decPlane : Nat → List Byte → Option (List Byte)
  | 0, _ => some []
  | _, [] => some []
  | f + 1, t :: bs =>
    let n := t.toNat
    if n < 0x80 then
      if bs.length < n + 1 then none else (decPlane f (bs.drop (n + 1))).map (bs.take (n + 1) ++ ·)
    else (decPlane f bs).map (zeros (n - 0x7F) ++ ·)

/-- A coded plane that yields exactly `n` bytes. -/
def decExact (n : Nat) (bs : List Byte) : Option (List Byte) :=
  match decPlane (bs.length + 1) bs with
  | some r => if r.length = n then some r else none
  | none => none

/-- A block in SBC form (R345): mode, poison flag, coded sign and exponent lengths, body. -/
structure SbcBlock where
  mode : Nat
  pois : Bool
  slen : Nat
  elen : Nat
  body : List Byte
  deriving DecidableEq, Repr

/-- The header entry of a block (R345). -/
def SbcBlock.header (b : SbcBlock) : List Byte :=
  toBytes 2 b.body.length ++ toBytes 1 b.mode ++ toBytes 1 (b2n b.pois) ++ toBytes 2 b.slen ++ toBytes 2 b.elen

/-- Encode one block of 256 words (R346, R347): the shortest mode, the first of ZERO, PLANES5, PLANES8, RAW on a tie, RAW
whenever none is shorter than 4,096 bytes. -/
def encBlock (ws : List PWord) : SbcBlock :=
  let data := ws.flatMap (·.data)
  let pois := ws.any (·.pois)
  let pm := if pois then toBytes 32 (packBits 1 (ws.map (fun w => b2n w.pois))) else []
  let vs := unpackBits 16 2048 (ofBytes data)
  let pl (e : Nat) := let p := planesOf e vs; (encPlane p.1, encPlane p.2.1, encPlane p.2.2)
  let p5 := pl 5
  let p8 := pl 8
  let l5 := p5.1.length + p5.2.1.length + p5.2.2.length
  let l8 := p8.1.length + p8.2.1.length + p8.2.2.length
  if data.all (· == 0) then ⟨0, pois, 0, 0, pm⟩
  else if l5 < 4096 && l5 ≤ l8 then ⟨2, pois, p5.1.length, p5.2.1.length, pm ++ p5.1 ++ p5.2.1 ++ p5.2.2⟩
  else if l8 < 4096 then ⟨3, pois, p8.1.length, p8.2.1.length, pm ++ p8.1 ++ p8.2.1 ++ p8.2.2⟩
  else ⟨1, pois, 0, 0, pm ++ data⟩

/-- A page outside local DRAM (R345): its size in 4 KiB units, its bytes, and for a raw page the poison marks of its words. -/
structure SbcPage where
  units : Nat
  bytes : List Byte
  pois : List Nat
  deriving DecidableEq, Repr

/-- Encode a page of 4,096 words (R345): raw where SBC form would need 16 or 17 units. -/
def encPage (ws : List PWord) : SbcPage :=
  let bs := (chunksOf 256 16 ws).map encBlock
  let body := bs.flatMap (·.body)
  let n := ceilDiv (128 + body.length) 4096
  if n ≥ 16 then ⟨16, ws.flatMap (·.data), (List.range 4096).filter (fun i => (ws.getD i ⟨[], false⟩).pois)⟩
  else ⟨n, fitBytes (n * 4096) (bs.flatMap (·.header) ++ body), []⟩

/-- 256 poisoned words, what a block that cannot be decoded is returned as (R331). -/
def lostBlock : List PWord := List.replicate 256 ⟨zeros 16, true⟩

/-- The words of block `b` of a page in SBC form, from the page's bytes (R346): none where the token streams do not decode. -/
def decBlock (bytes : List Byte) (b : Nat) : Option (List PWord) :=
  let off := 128 + sumNat ((List.range b).map (fun i => getLE bytes (8 * i) 2))
  let len := getLE bytes (8 * b) 2
  let mode := getLE bytes (8 * b + 2) 1
  let pois := getLE bytes (8 * b + 3) 1 % 2 = 1
  let slen := getLE bytes (8 * b + 4) 2
  let elen := getLE bytes (8 * b + 6) 2
  let raw := (bytes.drop off).take len
  let pm := if pois then ofBytes (raw.take 32) else 0
  let body := if pois then raw.drop 32 else raw
  let e := if mode = 2 then 5 else 8
  let data : Option (List Byte) :=
    if mode = 0 then some (zeros 4096)
    else if mode = 1 then (if body.length = 4096 then some body else none)
    else if mode = 2 || mode = 3 then
      match decExact 256 (body.take slen), decExact (256 * e) ((body.drop slen).take elen),
            decExact (256 * (15 - e)) (body.drop (slen + elen)) with
      | some s, some x, some m => some (toBytes 4096 (packBits 16 (valuesOf e s x m)))
      | _, _, _ => none
    else none
  data.map (fun d => ((chunksOf 16 256 d).zip (List.range 256)).map (fun p => ⟨p.1, pm.testBit p.2⟩))

end Sys2Proof.Machine
end

