-- ==== Sys2Proof/Machine/Topo.lean ====
section
/-! DEFINITION. The rack as one node sees it (R25–R28) and the usable paths of a destination. -/
namespace Sys2Proof.Machine

/-- The shelf of a node (R25). -/
def shelfOf (n : Nat) : Nat := n / 8
/-- The position of a node in its shelf (R25). -/
def posOf (n : Nat) : Nat := n % 8

/-- The port on which a node reaches a direct neighbour (R26): none where it has none. -/
def portTo (me dest : Nat) : Option Nat :=
  if me = dest then none
  else if shelfOf me = shelfOf dest then some (if posOf dest < posOf me then posOf dest else posOf dest - 1)
  else if posOf me = posOf dest then some (if shelfOf dest < shelfOf me then 7 + shelfOf dest else 7 + shelfOf dest - 1)
  else none

/-- The node that the wiring of R26 puts at the far end of a rack-mesh port. -/
def neighbour (me port : Nat) : Nat :=
  if port < 7 then 8 * shelfOf me + (if port < posOf me then port else port + 1)
  else 8 * (if port - 7 < shelfOf me then port - 7 else port - 7 + 1) + posOf me

/-- The path set of a message (R27): the via node of each path, none for the direct link, in the order of R27's table. -/
def pathSet (me dest : Nat) : List (Option Nat) :=
  if me = dest then []
  else if shelfOf me = shelfOf dest then
    none :: ((List.range 8).filter (fun r => r != posOf me && r != posOf dest)).map (fun r => some (8 * shelfOf me + r))
  else if posOf me = posOf dest then
    none :: ((List.range 8).filter (fun u => u != shelfOf me && u != shelfOf dest)).map (fun u => some (8 * u + posOf me))
  else [some (8 * shelfOf me + posOf dest), some (8 * shelfOf dest + posOf me)]

/-- The first-hop port of a path. -/
def pathPort (me dest : Nat) (via : Option Nat) : Option Nat := portTo me (via.getD dest)

/-- This node's number (R25). -/
def nodeNo (s : State) : Nat := getF s Reg.brmCtrlNode

/-- Whether a port is UP (R382). -/
def portUp (s : State) (p : Nat) : Bool := getF s (Reg.brmPortState.ix p) = 2

/-- Whether some path to a node starts on an UP port. -/
def reachable (s : State) (dest : Nat) : Bool :=
  (pathSet (nodeNo s) dest).any (fun v => match pathPort (nodeNo s) dest v with | some p => portUp s p | none => false)

end Sys2Proof.Machine
end

