-- ==== Sys2Proof/Machine/NodeRange.lean ====
section
/-! DEFINITION. The node range (R324–R347): the home table, frames, reads and writes by the page's state, whole moves. Accesses
that engines make inside a step are served here at once; accesses that wait are the commands of `Tiers`. -/
namespace Sys2Proof.Machine

/-- Update the tier part of the state. -/
def modTiers (s : State) (f : Tiers → Tiers) : State := { s with tiers := f s.tiers }

/-- The page of a node-range address (R327). -/
def pageNo (addr : Nat) : Nat := addr / 65536

/-- Pages of the node range (R327): 0 acts as 1, and a number beyond 2^28 as 2^28 (log entry 92). -/
def rangePages (s : State) : Nat := min (2 ^ 28) (atLeast1 s Reg.tirRangePages)

/-- The home-table entry of a page never touched (R328). -/
def zeroEnt : PageEnt := ⟨.zero, 0, 0, 0, 0⟩

/-- A page's home-table entry (R328). -/
def pageEnt (s : State) (p : Nat) : PageEnt := (mget s.tiers.home p).getD zeroEnt

/-- Store a page's entry; an all-zero entry is not listed. -/
def setEnt (s : State) (p : Nat) (e : PageEnt) : State :=
  modTiers s (fun t => { t with home := if e = zeroEnt then mdel t.home p else mput t.home p e })

/-- The open context, other than 0, whose window holds a page; tenant 0 where none does (log entry 12). -/
def tenantOfPage (s : State) (p : Nat) : Nat :=
  match s.host.ctxs.find? (fun c => c.1 != 0 && decide (c.2.base ≤ p) && decide (p < c.2.base + c.2.pages)) with
  | some c => c.1
  | none => 0

/-! ### Frames (R335, R337) -/

/-- Whether a stack is fenced (R457). -/
def siteFenced (s : State) (site : Nat) : Bool := s.fw.fencedSites.testBit site

/-- The two sites among 0–3 that hold the copies of the home table (R328; log entry 13). -/
def homeSites (s : State) : List Nat := ((List.range 4).filter (fun i => !(siteFenced s i) && s.fw.draining != some i)).take 2

/-- Frames of one copy of the home table (R328). -/
def homeFrames (s : State) : Nat := ceilDiv (rangePages s * 8) 65536

/-- Frames the flash store reserves (R371): its map, the write cache and the delta log; none while the store is off. -/
def flashFrames (s : State) : Nat :=
  if s.flash.st = 0 then 0 else ceilDiv (16 * rangePages s + 4 * s.flash.logical) 65536 + 8192

/-- The site that holds the flash store's frames (log entry 13). -/
def flashSite (s : State) : Option Nat := ((List.range 4).filter (fun i => !(siteFenced s i) && s.fw.draining != some i)).getLast?

/-- Frames reserved on a site: they are its highest-numbered ones. -/
def reservedOn (s : State) (site : Nat) : Nat :=
  (if (homeSites s).contains site then homeFrames s else 0) + (if flashSite s = some site then flashFrames s else 0)

/-- STATE of a home-table entry (R328). -/
def Home.code : Home → Nat
  | .zero => 0 | .t2 .. => 1 | .lent .. => 2 | .t4 _ => 3 | .moving _ => 4

/-- LOC of a home-table entry (R328). -/
def Home.loc : Home → Nat
  | .zero => 0
  | .t2 site frame => site % 8 + frame % 2 ^ 21 * 2 ^ 3
  | .lent units lender handle => units % 32 + lender % 64 * 2 ^ 5 + handle % 2 ^ 20 * 2 ^ 11
  | .t4 units => units % 32
  | .moving slot => slot % 1024

/-- The 8-byte entry of the home table (R328). -/
def PageEnt.word (e : PageEnt) : Nat :=
  e.home.code + e.pins % 256 * 2 ^ 4 + e.age % 256 * 2 ^ 12 + e.acc % 16 * 2 ^ 20 + e.tenant % 512 * 2 ^ 24 + e.home.loc * 2 ^ 33

/-- Where the two copies of a page's entry stand (R328): their sites and byte addresses; each copy begins its site's reserved frames. -/
def homeEntryAt (s : State) (page : Nat) : List (Nat × Nat) :=
  (homeSites s).map (fun i => (i, (siteFrames s.part i - reservedOn s i) * 65536 + 8 * page))

/-- The frame a home names on a site. -/
def frameIn (site : Nat) : Home → List Nat
  | .t2 i f => if i = site then [f] else []
  | _ => []

/-- The frames of a site in use: pages, moves under way, lent frames. -/
def usedFrames (s : State) (site : Nat) : List Nat :=
  s.tiers.home.flatMap (fun e => frameIn site e.2.home)
    ++ s.tiers.moves.flatMap (fun m => frameIn site m.2.src ++ frameIn site m.2.dst)
    ++ s.tiers.lentOut.flatMap (fun l => if l.2.site = site then [l.2.frame] else [])

/-- Free frames of a site (R337); a fenced stack has none. -/
def freeFrames (s : State) (site : Nat) : Nat :=
  if siteFenced s site then 0 else siteFrames s.part site - reservedOn s site - (usedFrames s site).length

/-- Frames in the pool (R337). -/
def poolFrames (s : State) : Nat :=
  sumNat ((List.range 8).map (fun i => if siteFenced s i then 0 else siteFrames s.part i - reservedOn s i)) - s.tiers.lentOut.length

/-- Free pool frames. -/
def poolFree (s : State) : Nat := sumNat ((List.range 8).map (freeFrames s))

/-- The lowest number from `n` on that a list does not hold. -/
def lowestGap (used : List Nat) : Nat → Nat → Nat
  | 0, n => n
  | f + 1, n => if used.contains n then lowestGap used f (n + 1) else n

/-- The lowest free frame of a site. -/
def lowestFrame (s : State) (site : Nat) : Nat := let u := usedFrames s site; lowestGap u (u.length + 1) 0

/-- Whether a site takes new frames (R335, R456). -/
def siteTakes (s : State) (site : Nat) : Bool := decide (freeFrames s site > 0) && s.fw.draining != some site

/-- The site with the most free frames among the sites a mask allows, lowest on a tie (R335). -/
def bestSite (s : State) (mask : Nat) : Option Nat :=
  ((List.range 8).filter (fun i => mask.testBit i && siteTakes s i)).foldl (fun (b : Option Nat) i =>
    match b with
    | none => some i
    | some j => if freeFrames s j < freeFrames s i then some i else some j) none

/-- A frame for a tenant's page (R335), on a named site where one is given. -/
def pickFrame (s : State) (tenant : Nat) (site : Option Nat) : Option (Nat × Nat) :=
  match site with
  | some i => if siteTakes s i then some (i, lowestFrame s i) else none
  | none => (bestSite s (getF s (Reg.tirTenCfgSites.ix tenant))).map (fun i => (i, lowestFrame s i))

/-! ### Contents -/

/-- Whether `n` stored bytes from byte `a` of a page touch a poisoned stored word (R331). -/
def badRange (units : List RUnit) (a n : Nat) : Bool :=
  n != 0 && (List.range ((a + n - 1) / 16 - a / 16 + 1)).any (fun k =>
    let w := a / 16 + k
    ((units.getD (w / 256) ruZero).pois).testBit (w % 256))

/-- Block `b` of a page in SBC form as its stored read units give it (R330, R331), with whether its token streams do not decode: a block
that touches a poisoned stored word, or does not decode, is poisoned; a poisoned header poisons every block. -/
def sbcBlock (units : List RUnit) (bytes : List Byte) (b : Nat) : List PWord × Bool :=
  let off := 128 + sumNat ((List.range b).map (fun i => getLE bytes (8 * i) 2))
  if badRange units 0 128 || badRange units off (getLE bytes (8 * b) 2) then (lostBlock, false)
  else match decBlock bytes b with
    | some ws => (ws, false)
    | none => (lostBlock, true)

/-- The bytes of stored read units. -/
def storedBytes (units : List RUnit) : List Byte := units.flatMap (fun u => fitBytes 4096 u.data)

/-- The 4,096 words of a page from its stored read units: raw where there are 16 (R345). -/
def storedWords (units : List RUnit) : List PWord :=
  if units.length = 16 then units.flatMap ruWords
  else (List.range 16).flatMap (fun b => (sbcBlock units (storedBytes units) b).1)

/-- The blocks that a read of `n` words from word `w` fetches and that do not decode (R331). -/
def undecoded (units : List RUnit) (w n : Nat) : Nat :=
  if units.length = 16 || n = 0 then 0
  else ((List.range ((w + n - 1) / 256 - w / 256 + 1)).filter (fun i => (sbcBlock units (storedBytes units) (w / 256 + i)).2)).length

/-- Words of a page served in place from its stored read units (R330); each block that does not decode is logged (R331), under the place
its stored form came from; unit and address the spec does not give (log entry 6). -/
def serveStored (s : State) (place : Nat) (units : List RUnit) (w n : Nat) : State × List PWord :=
  ((List.range (undecoded units w n)).foldl (fun t _ => let r := freeVal t; intLog r.1 2 place 0x1F (r.2 % 256) (r.2 / 256)) s,
   ((storedWords units).drop w).take n)

/-- The read units that a page is stored in outside local DRAM (R345, R355). -/
def SbcPage.stored (p : SbcPage) : List RUnit :=
  (List.range p.units).map (fun u => ⟨(p.bytes.drop (4096 * u)).take 4096, maskOf 256 (fun w => p.pois.contains (256 * u + w))⟩)

/-- The home at which a page's bytes stand: the source of its move where it is MOVING (R332). -/
def homeNow (s : State) (e : PageEnt) : Home :=
  match e.home with
  | .moving slot => match mget s.tiers.moves slot with | some m => m.src | none => .zero
  | h => h

/-- Words of a page read at a home; none where a lender does not answer (R342). A LENT page is read by a READ of the RMA engine. -/
def homeRead (s : State) (page : Nat) (h : Home) (w n : Nat) : State × Option (List PWord) :=
  match h with
  | .zero => (s, some (List.replicate n ⟨zeros 16, false⟩))
  | .t2 site f => let r := dramRead s site (f * 4096 + w) n; (r.1, some r.2)
  | .lent _ lender handle =>
    let s := emit s (.lentRead lender handle)
    if reachable s lender then let r := serveStored s 5 ((mget s.tiers.lentHeld page).getD []) w n; (r.1, some r.2) else (s, none)
  | .t4 units =>
    let s := (List.range (ceilDiv units 4)).foldl (fun t j => recoverFlu t (4 * page + j) (List.range 4)) s
    let r := serveStored s 7 (tierUnits s page units) w n
    (r.1, some r.2)
  | .moving _ => (s, none)

/-- AGE and ACC after an access (R330). -/
def touchEnt (e : PageEnt) (h : Home) : PageEnt :=
  match h with
  | .t2 .. => { e with age := 0 }
  | .lent .. => { e with age := 0, acc := min 15 (e.acc + 1) }
  | .t4 _ => { e with acc := min 15 (e.acc + 1) }
  | _ => e

/-- The access is recorded in the page's entry. -/
def touch (s : State) (page : Nat) : State :=
  let e := pageEnt s page
  setEnt s page (touchEnt e (homeNow s e))

/-- What a read of the node range gives: its bytes, the poisoned words numbered from the first touched, and whether a lender
did not answer. -/
structure RdRes where
  bytes : List Byte
  pois : List Nat
  timeout : Bool
  deriving DecidableEq, Repr

/-- Whether any word of the read is poisoned. -/
def RdRes.bad (r : RdRes) : Bool := !r.pois.isEmpty

/-- The words a byte range touches. -/
def wordSpan (addr len : Nat) : Nat := if len = 0 then 0 else (addr + len - 1) / 16 - addr / 16 + 1

/-- Split `n` words from word address `w` at page boundaries: page, first word, words. -/
def pageSpans : Nat → Nat → Nat → List (Nat × Nat × Nat)
  | 0, _, _ => []
  | f + 1, w, n =>
    if n = 0 then [] else
    let k := min n (4096 - w % 4096)
    (w / 4096, w % 4096, k) :: pageSpans f (w + k) (n - k)

/-- Whether a byte range lies on a page whose lender does not answer (R342). -/
def nrSilent (s : State) (addr len : Nat) : Bool :=
  (pageSpans (wordSpan addr len + 1) (addr / 16) (wordSpan addr len)).any (fun p =>
    match homeNow s (pageEnt s p.1) with | .lent _ lender _ => !(reachable s lender) | _ => false)

/-- The units of a T4 page that lie on dies out of service and whose rows are not rebuilt yet (R366). -/
def pageBlocked (s : State) (page : Nat) : List Nat :=
  match homeNow s (pageEnt s page) with
  | .t4 units => ((List.range (ceilDiv units 4)).filterMap (fun j => mget s.flash.map (4 * page + j))).filter (puBlocked s)
  | _ => []

/-- Whether a read of the node range can be served now (R330, R366): no page of it on a lender that does not answer, and no unit of a T4
page on a die or channel that is lost. -/
def nrReady (s : State) (addr len : Nat) : Bool :=
  (pageSpans (wordSpan addr len + 1) (addr / 16) (wordSpan addr len)).all (fun p =>
    match homeNow s (pageEnt s p.1) with
    | .lent _ lender _ => reachable s lender
    | .t4 _ => flashReadable s && (pageBlocked s p.1).isEmpty
    | _ => true)

/-- A poisoned word of the node range is consumed (R309). The entry names the place, unit and word address at which the word is held
(R323): a T2 word's site and word; a word from a lender comes through a brim buffer and one from T4 from flash, whose unit and word the
spec does not say (log entry 6). -/
def consumeNr (s : State) (w : Nat) : State :=
  match homeNow s (pageEnt s (w / 4096)) with
  | .t2 site f => consume s 0 site (f * 4096 + w % 4096)
  | .lent .. => let r := freeVal s; consume r.1 5 (r.2 % 256) (r.2 / 256)
  | .t4 _ => let r := freeVal s; consume r.1 7 (r.2 % 256) (r.2 / 256)
  | _ => consume s 0 0 0

/-! ### Whole moves (R332, R336, R345) -/

/-- Poisoned words among words. -/
def countBad (ws : List PWord) : Nat := (ws.filter (·.pois)).length

/-- Write the words of a page into a frame. -/
def fillFrame (s : State) (site frame : Nat) (ws : List PWord) : State :=
  dramWrite s site (frame * 65536) (ws.flatMap (·.data)) ((List.range ws.length).filter (fun i => (ws.getD i ⟨[], false⟩).pois))

/-- Put a page's words at a destination home: none where it has no room or its lender does not answer. The units of an SBC page are set
here; to a lender the page travels as a whole-page WRITE of the RMA engine (R342). -/
def placeAt (s : State) (page : Nat) (dst : Home) (ws : List PWord) : Option (State × Home) :=
  match dst with
  | .t2 site f => some (fillFrame s site f ws, dst)
  | .lent _ lender handle =>
    if reachable s lender then
      let p := encPage ws
      some (emit (modTiers s (fun t => { t with lentHeld := mput t.lentHeld page p.stored })) (.lentWrite lender handle p.stored),
        .lent p.units lender handle)
    else none
  | .t4 _ =>
    let p := encPage ws
    (tierStore s page p.stored).map (fun t => (t, .t4 p.units))
  | _ => none

/-- Release a page's former home (R332, R313): a frame, a lent frame back to its lender, or T4 units. -/
def releaseHome (s : State) (page : Nat) (h : Home) : State :=
  match h with
  | .t2 site f => releaseFrame s site f
  | .lent _ lender handle => emit (modTiers s (fun t => { t with lentHeld := mdel t.lentHeld page })) (.lentBack lender handle)
  | .t4 _ => tierRelease s page
  | _ => s

/-- Counters of a committed move: demotions and promotions (R350). -/
def countMove (s : State) (src dst : Home) : State :=
  let s := bump s Reg.tirMovesDone
  match src, dst with
  | .t2 .., .lent .. => bump s Reg.tirDemoteToT3
  | .t2 .., .t4 _ => bump s Reg.tirDemoteToT4
  | .lent .., .t2 .. => bump s Reg.tirPromotePromoted
  | .t4 _, .t2 .. => bump s Reg.tirPromotePromoted
  | _, _ => s

/-- Whether a home is a T2 frame. -/
def isT2 : Home → Bool
  | .t2 .. => true
  | _ => false

/-- Whether a home is outside local DRAM: LENT or T4. -/
def isFar : Home → Bool
  | .lent .. => true
  | .t4 _ => true
  | _ => false

/-- Whether a move to `dst` of a page at `src` turns it into ZERO instead (R336). -/
def emptyMove (s : State) (src dst : Home) : Bool :=
  match src, dst with
  | .t2 site f, .lent .. => !(frameWritten s site f)
  | .t2 site f, .t4 _ => !(frameWritten s site f)
  | _, _ => false

/-- Move a page's bytes from one home to another and commit (R332): poison is carried and counted (R308). None where the
destination has no room or a lender does not answer. -/
def commitMove (s : State) (page : Nat) (src dst : Home) : Option State :=
  let e := pageEnt s page
  if emptyMove s src dst then some (setEnt (releaseHome s page src) page zeroEnt)
  else match homeRead s page src 0 4096 with
    | (_, none) => none
    | (t, some ws) =>
      let t := match src with | .t4 _ => (match dst with | .t4 _ => t | _ => tierRelease t page) | _ => t
      match placeAt t page dst ws with
      | none => none
      | some (t, h) =>
        let t := bumpBy t Reg.intPoisonCarried (countBad ws)
        let t := match src, dst with
          | .t4 _, _ => t
          | .lent _ lender handle, .lent .. => emit t (.lentBack lender handle)
          | _, _ => releaseHome t page src
        some (countMove (setEnt t page { e with home := h, acc := 0 }) src h)

/-- Move a page to a T2 frame now, on a named site where one is given. -/
def moveToT2 (s : State) (page : Nat) (site : Option Nat) : Option State :=
  let e := pageEnt s page
  match pickFrame s e.tenant site with
  | none => none
  | some (i, f) => commitMove s page e.home (.t2 i f)

/-- A page leaving ZERO is homed in a T2 frame (R335). -/
def allocT2 (s : State) (page : Nat) : Option State :=
  let t := tenantOfPage s page
  (pickFrame s t none).map (fun p => setEnt s page { pageEnt s page with home := .t2 p.1 p.2, tenant := t, age := 0, acc := 0 })

/-! ### Moves under way (R332, R333) -/

/-- Free a move-table entry and give its page a home. -/
def endMove (s : State) (slot page : Nat) (h : Home) : State :=
  setEnt (modTiers s (fun t => { t with moves := mdel t.moves slot })) page { pageEnt s page with home := h }

/-- A move is abandoned (R333): the page stays at its source, the destination's space is released, and the move is not made again until
an access or a MOVE descriptor asks for it. -/
def abandonMove (s : State) (slot : Nat) : State :=
  match mget s.tiers.moves slot with
  | none => s
  | some m =>
    let s := match m.dst with | .lent _ lender handle => emit s (.lentBack lender handle) | _ => s
    bump (endMove (modTiers s (fun t => { t with noRetry := sinsert t.noRetry m.page })) slot m.page m.src) Reg.tirMovesAbandoned

/-- Commit a move (R332 steps 2 and 3); one whose destination fails is abandoned (R333). -/
def finishMove (s : State) (slot : Nat) : State :=
  match mget s.tiers.moves slot with
  | none => s
  | some m =>
    match commitMove (endMove s slot m.page m.src) m.page m.src m.dst with
    | some t => t
    | none => abandonMove s slot

/-- A move that is asked for again may be made again (R333). -/
def mayRetry (s : State) (page : Nat) : State := modTiers s (fun t => { t with noRetry := t.noRetry.filter (· != page) })

/-! ### Lost entries (R329) -/

/-- The words of a page that is lost: every one poisoned. -/
def lostWords : List PWord := List.replicate 4096 ⟨zeros 16, true⟩

/-- What a page's entry named is given up: its home, and its move where it is MOVING. A lent frame whose entry or handle is lost cannot be
named to its lender. -/
def dropHome (s : State) (page : Nat) : State :=
  let e := pageEnt s page
  let s := match e.home with | .moving slot => modTiers s (fun t => { t with moves := mdel t.moves slot }) | _ => s
  let s := match homeNow s e with
    | .lent .. => modTiers s (fun t => { t with lentHeld := mdel t.lentHeld page })
    | h => releaseHome s page h
  setEnt s page { e with home := .zero }

/-- A page homed with every word poisoned, in T2 where a frame can be had, else in T4 (R329, R342). -/
def homeLost (s : State) (page : Nat) : State :=
  let e := pageEnt s page
  let s := bump s Reg.tirRefuseLost
  let d := dropHome s page
  match pickFrame d e.tenant none with
  | some (i, f) => setEnt (fillFrame d i f lostWords) page { e with home := .t2 i f, acc := 0 }
  | none =>
    match placeAt d page (.t4 0) lostWords with
    | some (t, h) => setEnt t page { e with home := h, acc := 0 }
    | none => s

/-- An access reads a page's entry (R329): each copy that reads UNCORRECTABLE is logged at its own site; one is replaced from the other,
both lose the page's home. -/
def homeCheck (s : State) (page : Nat) : State :=
  match mget s.tiers.homeBad page with
  | none => s
  | some m =>
    let s := modTiers s (fun t => { t with homeBad := mdel t.homeBad page })
    let s := ((homeEntryAt s page).zip (List.range 2)).foldl (fun t c =>
      if m.testBit c.2 then intLog (bump t Reg.intDramUncorrected) 2 0 0x1F c.1.1 (c.1.2 / 16) else t) s
    if m % 4 = 3 then homeLost s page else s

/-! ### Demotion (R334, R337, R338) -/

/-- Whether a queued or running kettle job names a frame (R293, R334). -/
def kettleNames (s : State) (site frame : Nat) : Bool :=
  match mget s.kettle site with
  | some k => k.jobs.any (fun j => j.lists.any (·.contains frame))
  | none => false

/-- Whether a home is a frame that a kettle job names. -/
def homeNamed (s : State) : Home → Bool
  | .t2 i f => kettleNames s i f
  | _ => false

/-- Whether a move may not start on a page (R333, R334). -/
def moveBarred (s : State) (page : Nat) : Bool :=
  let e := pageEnt s page
  e.pins != 0 || homeNamed s e.home || e.home = .zero || (match e.home with | .moving _ => true | _ => false)
    || s.tiers.noRetry.contains page || decide (s.tiers.moves.length ≥ 1024)

/-- Pages of a tenant homed in T2. -/
def t2Count (s : State) (tenant : Nat) : Nat := (s.tiers.home.filter (fun x => x.2.tenant = tenant && isT2 x.2.home)).length

/-- Whether a tenant is below its floor (R337): its T2 pages number at most the floor. -/
def belowFloor (s : State) (tenant : Nat) : Bool := decide (t2Count s tenant ≤ getF s (Reg.tirTenCfgFloor.ix tenant))

/-- Whether a page may be demoted (R337, R338). -/
def demotable (s : State) (p : Nat) (e : PageEnt) : Bool := isT2 e.home && !(moveBarred s p) && !(belowFloor s e.tenant)

/-- The candidate of a round: highest AGE, lowest page number on a tie (R338). -/
def demoteCandidate (s : State) : Option (Nat × PageEnt) :=
  (s.tiers.home.filter (fun x => demotable s x.1 x.2)).foldl (fun (b : Option (Nat × PageEnt)) x =>
    match b with
    | none => some x
    | some y => if y.2.age < x.2.age then some x else some y) none

/-- Demotions to T4 until a site of a mask has a free frame, as an allocation that finds none waits for (R335; log entry 93). -/
def demoteFor : Nat → State → Nat → State
  | 0, s, _ => s
  | f + 1, s, mask =>
    if (bestSite s mask).isSome then s
    else match demoteCandidate s with
      | none => s
      | some (p, e) =>
        match commitMove s p e.home (.t4 0) with
        | some t => demoteFor f t mask
        | none => s

/-- The state in which an allocation for a tenant's page has done what it can to find a frame (R335). -/
def seekFrame (s : State) (tenant : Nat) : State := demoteFor (s.tiers.home.length + 1) s (getF s (Reg.tirTenCfgSites.ix tenant))

/-! ### Promotion (R340) -/

/-- Promotion by access count (R340): a LENT or T4 page whose ACC reached PROMOTE, for a tenant below its floor or a pool with a
free frame above the low-water mark. -/
def promote (s : State) (page : Nat) : State :=
  let e := pageEnt s page
  let n := getF s Reg.tirCtrlPromote
  if isFar e.home && n != 0 && decide (e.acc ≥ n) && e.pins = 0 && !(s.tiers.noRetry.contains page)
      && (belowFloor s e.tenant || decide (poolFree s > getF s Reg.tirWaterLow)) then (moveToT2 s page none).getD s
  else s

/-! ### Serving accesses (R330) -/

/-- Read `n` words from word address `w` of the node range, each page at the home it has. -/
def nrReadNow (s : State) (w n : Nat) : State × List PWord × Bool :=
  (pageSpans (n + 1) w n).foldl (fun (a : State × List PWord × Bool) p =>
    let s := touch a.1 p.1
    match homeRead s p.1 (homeNow s (pageEnt s p.1)) p.2.1 p.2.2 with
    | (t, some ws) => (t, a.2.1 ++ ws, a.2.2)
    | (t, none) => (t, a.2.1 ++ List.replicate p.2.2 ⟨zeros 16, false⟩, true)) (s, [], false)

/-- What a read of words gives the bytes asked for. -/
def rdRes (addr len : Nat) (ws : List PWord) (timeout : Bool) : RdRes :=
  ⟨((ws.flatMap (·.data)).drop (addr % 16)).take len,
   (List.range (wordSpan addr len)).filter (fun i => (ws.getD i ⟨[], false⟩).pois), timeout⟩

/-- The node-range word of the first poisoned word of a read at `addr`. -/
def RdRes.first (r : RdRes) (addr : Nat) : Nat := addr / 16 + r.pois.headD 0

/-- Queues whose watch word a write touches are woken (R419): the queue engine reads the word in the next Ring cycle. -/
def wakeScan (s : State) (addr len : Nat) : State :=
  let hit := s.host.queues.filter (fun q => decide (addr < q.2.watch + 8) && decide (q.2.watch < addr + len))
  { s with host := { s.host with wakes := hit.foldl (fun w q => sinsert w q.1) s.host.wakes } }

/-- The words of a page with bytes merged in at an offset; words only partly written keep their poison (R315, R331). -/
def mergeWords (ws : List PWord) (off : Nat) (bs : List Byte) (pois : List Nat) : List PWord :=
  (wordPieces (bs.length + 1) off bs).foldl (fun l p =>
    modAt l p.1 (fun x => ⟨putAt x.data p.2.1 p.2.2, pois.contains (p.1 - off / 16) || (x.pois && p.2.2.length != 16)⟩)) ws

/-- The poisoned words of a page that bytes at an offset would write in part: each is written in the poisoned form (R315). -/
def narrowBad (ws : List PWord) (off : Nat) (bs : List Byte) : Nat :=
  ((wordPieces (bs.length + 1) off bs).filter (fun p => p.2.2.length != 16 && (ws.getD p.1 ⟨[], false⟩).pois)).length

/-- Poisoned forms written by the read-modify-writes of a page in place are counted and logged (R315, R321), at a place whose unit and word
the spec does not give (log entry 6). -/
def logNarrow (s : State) (h : Home) (n : Nat) : State :=
  (List.range n).foldl (fun t _ =>
    let r := freeVal (bump t Reg.intPoisonWritten)
    intLog r.1 3 (match h with | .lent .. => 5 | _ => 7) 0x1F (r.2 % 256) (r.2 / 256)) s

/-- A write in place (R330): the page is read, merged and written back whole in SBC form. -/
def writeInPlace (s : State) (page : Nat) (h : Home) (off : Nat) (bs : List Byte) (pois : List Nat) : Option State :=
  match homeRead s page h 0 4096 with
  | (_, none) => none
  | (t, some ws) =>
    match placeAt t page h (mergeWords ws off bs pois) with
    | some (t, h') => some (logNarrow (setEnt t page { pageEnt t page with home := h' }) h (narrowBad ws off bs))
    | none => none

/-- A write to one page at the home it has (R330, R335), `bs` within the page: the status where it could not be placed. A page that leaves
ZERO takes a frame, or is homed in T4 where none is free; a LENT or T4 page is moved to T2 first, unless its move was abandoned or no frame
is free. `seek`: the tier manager demotes for a frame first. -/
def pageWrite (s : State) (page off : Nat) (bs : List Byte) (pois : List Nat) (seek : Bool) : State × Option Status :=
  let e := pageEnt s page
  match homeNow s e with
  | .zero =>
    let t := tenantOfPage s page
    let s := if seek then seekFrame s t else s
    match allocT2 s page with
    | some t =>
      match (pageEnt t page).home with
      | .t2 i f => (dramWrite t i (f * 65536 + off) bs pois, none)
      | _ => (t, none)
    | none =>
      let ws := mergeWords (List.replicate 4096 ⟨zeros 16, false⟩) off bs pois
      match placeAt s page (.t4 0) ws with
      | some (t, h) => (setEnt t page { pageEnt t page with home := h, tenant := tenantOfPage s page, age := 0, acc := 0 }, none)
      | none => (s, some Status.tableFull)
  | .t2 i f => (touch (dramWrite s i (f * 65536 + off) bs pois) page, none)
  | h =>
    let stays : Bool := s.tiers.noRetry.contains page || decide (e.home ≠ h)
    let s := if seek && !stays then seekFrame s e.tenant else s
    match (if stays then none else moveToT2 s page none) with
    | some t =>
      match (pageEnt t page).home with
      | .t2 i f => (touch (dramWrite t i (f * 65536 + off) bs pois) page, none)
      | _ => (t, none)
    | none =>
      match writeInPlace s page h off bs pois with
      | some t => (touch t page, none)
      | none => (s, some (match h with | .lent .. => Status.timeout | _ => Status.tableFull))

/-- Write pieces page by page; the first status that is not OK stands and ends the write. -/
def writePages : Nat → State → Nat → List Byte → List Nat → Nat → Bool → State × Option Status
  | 0, s, _, _, _, _, _ => (s, none)
  | _, s, _, [], _, _, _ => (s, none)
  | f + 1, s, addr, bs, pois, w0, seek =>
    let n := 65536 - addr % 65536
    let r := pageWrite s (pageNo addr) (addr % 65536) (bs.take n)
      ((pois.filter (fun i => decide (addr / 16 - w0 ≤ i))).map (fun i => i + w0 - addr / 16)) seek
    match r.2 with
    | some st => (r.1, some st)
    | none => writePages f r.1 (addr + n) (bs.drop n) pois w0 seek

/-- A write to node-range bytes ends the use of every staged copy of the 256-byte lines it touches (R325). -/
def dropStaged (s : State) (addr len : Nat) : State :=
  let keeps (c : Staged) : Bool := match c.home with
    | some (a, n) => decide ((addr + len - 1) / 256 < a / 256) || decide ((a + n - 1) / 256 < addr / 256)
    | none => true
  { s with srch := { s.srch with searches := s.srch.searches.map (fun x => (x.1, { x.2 with staged := x.2.staged.filter keeps })) } }

/-- A write of the node range, each page at the home it has. -/
def nrWriteNow (s : State) (addr : Nat) (bs : List Byte) (pois : List Nat) (seek : Bool) : State × Option Status :=
  let s := dropStaged s addr bs.length
  let r := writePages (bs.length / 65536 + 2) s addr bs pois (addr / 16) seek
  match r.2 with
  | none => (wakeScan r.1 addr bs.length, none)
  | some st => (r.1, some st)

/-! ### Accesses that wait (R332, R335) -/

/-- Whether a page is MOVING (R328). -/
def isMoving (s : State) (p : Nat) : Bool := match (pageEnt s p).home with | .moving _ => true | _ => false

/-- The pages a byte range touches. -/
def pagesOf (addr len : Nat) : List Nat :=
  if len = 0 then [] else (List.range (pageNo (addr + len - 1) - pageNo addr + 1)).map (· + pageNo addr)

/-- The access is answered: the data, or that the write was placed, or its status. A host write that is not placed is dropped,
counted and recorded (R335). Words of a read that were damaged on their way arrive poisoned (R307). -/
def answerAcc (s : State) (a : WaitAcc) : State :=
  if a.write then
    let r := nrWriteNow s a.addr a.bytes a.pois false
    match r.2 with
    | none => emit r.1 (.placed a.req a.addr)
    | some st =>
      if a.host && st = .tableFull then cxlEvent (bump r.1 Reg.tirRefuseNoSpace) 1 false 0 a.addr
      else emit r.1 (.failed a.req a.addr st.code)
  else
    let r := nrReadNow s (a.addr / 16) (wordSpan a.addr a.len)
    let x := rdRes a.addr a.len r.2.1 r.2.2
    let pois := a.pois.foldl sinsert x.pois
    let s := if a.host && !pois.isEmpty then consumeNr r.1 (a.addr / 16 + pois.headD 0) else r.1
    if x.timeout then emit s (.failed a.req a.addr Status.timeout.code)
    else (pagesOf a.addr a.len).foldl promote (emit s (.data a.req a.addr x.bytes pois))

/-- Whether an access has waited MOVE_WAIT ticks. -/
def accLate (s : State) (a : WaitAcc) : Bool := decide (tickOf s ≥ a.expiry)

/-- Whether an access has to wait: on a MOVING page; a read, on a T4 page with a unit on a lost die (R366); a write, until MOVE_WAIT ticks have passed, on a ZERO page with no frame free, or on a
LENT or T4 page whose move to T2 was not abandoned (R330, R332, R335); a host write also behind an earlier one that waits (R265). -/
def mustWait (s : State) (a : WaitAcc) : Bool :=
  (pagesOf a.addr a.len).any (fun p =>
    isMoving s p || (!a.write && !(pageBlocked s p).isEmpty) || (a.write && !(accLate s a) &&
      (((pageEnt s p).home = .zero && (pickFrame s (tenantOfPage s p) none).isNone)
        || (isFar (pageEnt s p).home && !(s.tiers.noRetry.contains p)))))
  || (a.host && a.write && s.tiers.waiting.any (fun b => b.host && b.write))

/-- Where a move goes, before a frame is picked. -/
def dstOf (s : State) (page : Nat) : MoveDst → Option Home
  | .t2 => (pickFrame s (pageEnt s page).tenant none).map (fun p => .t2 p.1 p.2)
  | .site i => (pickFrame s (pageEnt s page).tenant (some i)).map (fun p => .t2 p.1 p.2)
  | .t3 lender handle => if (getF s Reg.tirLendersNodes).testBit lender then some (.lent 0 lender handle) else none
  | .t4 => some (.t4 0)

/-- Start a move (R332 step 1, R336): none where it may not start or has no destination. -/
def startMove (s : State) (page : Nat) (dst : MoveDst) (work : Option Nat) : Option State :=
  if moveBarred s page then none
  else match dstOf s page dst with
    | none => none
    | some d =>
      let e := pageEnt s page
      if emptyMove s e.home d then some (setEnt (releaseHome s page e.home) page zeroEnt)
      else match mfree s.tiers.moves 1024 with
        | none => none
        | some slot =>
          let s := modTiers s (fun t => { t with moves := mput t.moves slot ⟨page, e.home, d, tickOf s, work⟩ })
          some (setEnt s page { e with home := .moving slot })

/-- A write to a LENT or T4 page first starts a move of the page to T2 (R330). -/
def startForWrite (s : State) (a : WaitAcc) : State :=
  if a.write then (pagesOf a.addr a.len).foldl (fun t p =>
    if isFar (pageEnt t p).home then (startMove t p .t2 none).getD t else t) s
  else s

/-- An access is answered, or joins those that wait. -/
def serveOrWait (s : State) (a : WaitAcc) : State :=
  if mustWait s a then
    modTiers (wantUnits s ((pagesOf a.addr a.len).flatMap (pageBlocked s))) (fun t => { t with waiting := t.waiting ++ [a] })
  else answerAcc s a

/-- The accesses that wait resume in order of arrival, unless they must still wait (R332). -/
def resumeWaits (s : State) : State := s.tiers.waiting.foldl (fun t a => serveOrWait (startForWrite t a) a) (modTiers s (fun t => { t with waiting := [] }))

/-- An operation that finds a page MOVING and cannot wait in the model lets its move end at once, and the accesses that waited before it
go first (R332; log entry 94). -/
def settle (s : State) (page : Nat) : State :=
  match (pageEnt s page).home with
  | .moving slot => resumeWaits (finishMove s slot)
  | _ => s

/-- An access of an engine comes to a page (R329, R330, R333): its entry is read, and a move under way ends first. -/
def admitPage (s : State) (page : Nat) : State :=
  let s := homeCheck (mayRetry s page) page
  if isMoving s page then settle (bump s Reg.tirPromoteWaits) page else s

/-! ### What engines read and write -/

/-- Read `n` words from word address `w` of the node range (R330, R340). -/
def nrReadWords (s : State) (w n : Nat) : State × List PWord × Bool :=
  let pages := (pageSpans (n + 1) w n).map (·.1)
  let r := nrReadNow (pages.foldl admitPage s) w n
  (pages.foldl promote r.1, r.2)

/-- A read of the node range (R330). -/
def nrRead (s : State) (addr len : Nat) : State × RdRes :=
  let r := nrReadWords s (addr / 16) (wordSpan addr len)
  (r.1, rdRes addr len r.2.1 r.2.2)

/-- A little-endian number read from the node range, with whether it is poisoned or timed out. -/
def nrGet (s : State) (addr n : Nat) : State × Nat × Bool :=
  let r := nrRead s addr n
  (r.1, ofBytes r.2.bytes, r.2.bad || r.2.timeout)

/-- A write of the node range (R330): bytes at an address, the words that carry poison numbered from the first touched. -/
def nrWrite (s : State) (addr : Nat) (bs : List Byte) (pois : List Nat) : State × Option Status :=
  nrWriteNow ((pagesOf addr bs.length).foldl admitPage s) addr bs pois true

/-- A clean write whose status is not asked for: the target is checked and placed by its own rules. -/
def nrPut (s : State) (addr : Nat) (bs : List Byte) : State := (nrWrite s addr bs []).1

/-- A clean write that must be made: none where it could not be placed. -/
def nrTry (s : State) (addr : Nat) (bs : List Byte) : Option State :=
  match nrWrite s addr bs [] with
  | (t, none) => some t
  | (_, some _) => none

/-- Whether a byte range lies in a tenant's window (R410, R413). -/
def inWindow (s : State) (tenant addr len : Nat) : Bool :=
  if tenant = 0 then decide (addr + len ≤ rangePages s * 65536)
  else match mget s.host.ctxs tenant with
    | some c => decide (c.base * 65536 ≤ addr) && decide (addr + len ≤ (c.base + c.pages) * 65536)
    | none => false

end Sys2Proof.Machine
end

