-- ==== Sys2Proof/Machine/Operands.lean ====
section
/-! DEFINITION. Fields of descriptors (R424–R428): the common header, the class, the ADMIN header and operand lengths. -/
namespace Sys2Proof.Machine

/-- A little-endian field of a descriptor: `n` bytes at offset `off` (R7). -/
def Work.f (w : Work) (off n : Nat) : Nat := getLE w.desc off n

/-- Whether a byte range of a descriptor or operand is all zero. -/
def zeroAt (bs : List Byte) (off n : Nat) : Bool := getLE bs off n = 0

/-- The classes of R425. -/
def classKnown (c : Nat) : Bool := (decide (1 ≤ c) && decide (c ≤ 8)) || (decide (0x10 ≤ c) && decide (c ≤ 0x15)) || c = 0x20

/-- Whether the common header is well formed (R424): FLAGS bits 7:1 and bytes 3:2 zero. -/
def headerOk (d : List Byte) : Bool := decide (getLE d 1 1 < 2) && zeroAt d 2 2

/-- The ADMIN commands of R428. -/
def adminKnown (c : Nat) : Bool :=
  [1, 2, 8, 9, 0x0A, 0x0B, 0x10, 0x11, 0x12, 0x13, 0x20, 0x21, 0x22, 0x23, 0x24, 0x30, 0x31, 0x32, 0x33, 0x40, 0x41, 0x50].contains c

/-- CMD of an ADMIN descriptor (R428). -/
def Work.cmd (w : Work) : Nat := w.f 8 1
/-- The operand block's address (R428). -/
def Work.opAddr (w : Work) : Nat := w.f 16 8
/-- OPLEN (R428). -/
def Work.opLen (w : Work) : Nat := w.f 24 4

/-- Whether the ADMIN header's reserved bytes are zero and its operand address is aligned (R428). -/
def adminShape (w : Work) : Bool := zeroAt w.desc 9 7 && zeroAt w.desc 28 36 && w.opAddr % 8 = 0

/-- Whether a class holds its queue (R429): ADMIN, FLUSH, WAIT. -/
def holdsQueue (cls : Nat) : Bool := cls = 0x20 || cls = 0x14 || cls = 0x15

end Sys2Proof.Machine
end

