-- ==== Sys2Proof/Machine/Queues.lean ====
section
/-! DEFINITION. Queues, descriptors in flight and completions as shared operations (R417–R431, R54, R58). -/
namespace Sys2Proof.Machine

/-- Update the host part of the state. -/
def modHost (s : State) (f : HostIf → HostIf) : State := { s with host := f s.host }

/-- A queue by number. -/
def queueOf (s : State) (q : Nat) : Option Queue := mget s.host.queues q

/-- Update a queue that exists. -/
def modQueue (s : State) (q : Nat) (f : Queue → Queue) : State := modHost s (fun h => { h with queues := mmod h.queues q f })

/-- The tenant of a queue number (R417). -/
def queueTenant (q : Nat) : Nat := q / 8

/-- A field of the slot registers of a queue (R439). -/
def slotF (f : Fld) (q : Nat) : Fld := (f.pg (q / 8)).ix (q % 8)

/-- A descriptor in flight. -/
def workOf (s : State) (id : Nat) : Option Work := s.host.work.find? (fun w => w.id = id)

/-- Update a descriptor in flight. -/
def modWork (s : State) (id : Nat) (f : Work → Work) : State :=
  modHost s (fun h => { h with work := h.work.map (fun w => if w.id = id then f w else w) })

/-- The command on a descriptor has begun. -/
def beginWork (s : State) (id : Nat) : State := modWork s id (fun w => { w with begun := true })

/-- Forget a descriptor without a completion (R466, R374). -/
def dropWork (s : State) (id : Nat) : State :=
  modHost s (fun h => { h with work := h.work.filter (fun w => w.id != id) })

/-! ### Digests (R54) -/

/-- One bit of CRC-64 of ECMA-182. -/
def crc64Bit (c : Nat) (b : Bool) : Nat :=
  let c2 := (2 * c) % 2 ^ 64
  if (c.testBit 63) != b then c2 ^^^ 0x42F0E1EBA9EA3693 else c2

/-- CRC-64 of bytes, from 0, each byte most significant bit first, the bytes of a word in ascending order (log entry 76). -/
def crc64 (bs : List Byte) : Nat :=
  bs.foldl (fun c b => (List.range 8).foldl (fun c i => crc64Bit c (b.toNat.testBit (7 - i))) c) 0

/-- CRC-8 with polynomial 0x07 of bytes, from 0, each byte most significant bit first, the bytes of a word in ascending order (R54 gives the
polynomial alone; log entry 76). -/
def crc8 (bs : List Byte) : Nat :=
  bs.foldl (fun c b => (List.range 8).foldl (fun c i =>
    let d := (2 * c) % 256
    if (c.testBit 7) != (b.toNat.testBit (7 - i)) then d ^^^ 0x07 else d) c) 0

/-- Digests of one segment of up to 256 words. -/
def digestOf (id : SegId) (tick : Nat) (bs : List Byte) : Digest :=
  ⟨id, crc64 bs, tick, (chunksOf 16 256 bs).map crc8⟩

/-- The segments of a byte string, 4,096 bytes each. -/
def segments (bs : List Byte) : List (List Byte) := chunksOf 4096 (bs.length / 4096 + 1) bs

/-- Whether a descriptor's result is compared (R54). -/
def compared (s : State) (w : Work) : Bool := s.twin.st = 2 && w.tenant = getF s Reg.tckTwinCtrlTenant

/-- The digests of a descriptor's result: its status and result bytes, the ticks-spent field as zero (R54). -/
def resultDigests (s : State) (w : Work) (status : Nat) (res : List Byte) : List Digest :=
  ((segments (toBytes 1 status ++ res)).zip (List.range (res.length + 1))).map
    (fun p => digestOf ⟨2, 0, w.queue, w.seq, p.2⟩ (tickOf s) p.1)

/-! ### Completions -/

/-- A completion entry (R427). -/
def compBytes (c : Comp) (phase : Bool) (tick : Nat) : List Byte :=
  toBytes 4 c.tag ++ toBytes 4 c.seq ++ toBytes 1 c.status ++ toBytes 1 c.cls ++ toBytes 1 (b2n phase + 2 * b2n c.superseded)
    ++ toBytes 1 c.reason ++ toBytes 4 0 ++ toBytes 8 tick ++ toBytes 8 c.value

/-- A coalescing condition is met (R431): consumed, and the queue's entry is raised. -/
def fireIrq (s : State) (q : Nat) : State :=
  msixRaise (modQueue s q (fun x => { x with irqN := 0 })) (queueTenant q) (q % 8)

/-- A completion written while IRQ_EN is 1 is counted for coalescing (R431). -/
def countIrq (s : State) (q : Nat) (signal : Bool) : State :=
  if flagF s (slotF Reg.qeQirqIrqEn q) then
    let s := modQueue s q (fun x => { x with irqN := x.irqN + 1, irqFirst := if x.irqN = 0 then tickOf s else x.irqFirst })
    match queueOf s q with
    | some x => if signal || x.irqN ≥ atLeast1 s (slotF Reg.qeQirqCount q) then fireIrq s q else s
    | none => s
  else s

/-- Whether the CQ ring admits the next completion (R421). -/
def cqAdmits (x : Queue) : Bool := decide ((x.done + 2 ^ 32 - x.cqHead) % 2 ^ 32 < 2 ^ x.cqLog2)

/-- The CQ head word is read and checked (R421): a poisoned word is consumed and not used, a value out of range is ignored and
counted. -/
def readCqHead (s : State) (q : Nat) : State :=
  match queueOf s q with
  | none => s
  | some x =>
    let r := nrRead s (x.headw + 8) 8
    if r.2.timeout then r.1
    else if r.2.bad then consumeNr r.1 (r.2.first (x.headw + 8))
    else
      let h := getLE r.2.bytes 0 4
      if (h + 2 ^ 32 - x.cqHead) % 2 ^ 32 ≤ (x.done + 2 ^ 32 - x.cqHead) % 2 ^ 32 then modQueue r.1 q (fun x => { x with cqHead := h })
      else bump r.1 Reg.qeHosterrTail

/-- Write one completion entry into its slot (R421, R422, R427). -/
def writeComp (s : State) (q : Nat) (x : Queue) (c : Comp) : State :=
  let phase := (x.done / 2 ^ x.cqLog2) % 2 = 0
  let s := nrPut s (x.cqBase + (x.done % 2 ^ x.cqLog2) * 32) (compBytes c phase (tickOf s))
  let s := modQueue s q (fun x => { x with done := (x.done + 1) % 2 ^ 32, waitc := x.waitc.drop 1 })
  countIrq s q c.signal

/-- Write the completions that wait, in order, while the ring admits them (R421). Where `reads` is set, the head word is read when the
last accepted value does not admit the next one; at a tick edge it has been read already. In a queue being destroyed, what cannot be
written is discarded (R423). -/
def drainCq (reads : Bool) : Nat → State → Nat → State
  | 0, s, _ => s
  | f + 1, s, q =>
    match queueOf s q with
    | none => s
    | some x =>
      match x.waitc with
      | [] => s
      | c :: _ =>
        if cqAdmits x then drainCq reads f (writeComp s q x c) q
        else
          let s := if reads then readCqHead s q else s
          match queueOf s q with
          | none => s
          | some y =>
            if cqAdmits y then drainCq reads f (writeComp s q y c) q
            else if y.destroying then
              drainCq reads f (bump (modQueue s q (fun x => { x with waitc := x.waitc.drop 1 })) Reg.qeHosterrCqDrop) q
            else s

/-- A completion joins its queue and is written when the ring admits it; one whose queue is gone is discarded (R416). -/
def pushComp (s : State) (q : Nat) (orphan : Bool) (c : Comp) : State :=
  match queueOf s q, orphan with
  | some x, false =>
    let s := modQueue s q (fun x => { x with waitc := x.waitc ++ [c] })
    if x.waitc.isEmpty then drainCq true 2 s q else s
  | _, _ => bump s Reg.qeHosterrCqDrop

/-- The counters a status moves (R440). -/
def countStatus (s : State) (st : Status) : State :=
  match st with
  | .malformed => bump s Reg.qeRefuseMalformed
  | .noContext => bump s Reg.qeRefuseNoContext
  | _ => s

/-- A descriptor completes (R421, R427, R429): it leaves the descriptors in flight, its queue is no longer held by it, its
completion is written, or held until its segments match under twin HOLD (R58). `res` are its result bytes. -/
def complete (s : State) (w : Work) (st : Status) (value reason : Nat := 0) (sup : Bool := false) (res : List Byte := []) : State :=
  let s := countStatus (dropWork s w.id) st
  let s := modQueue s w.queue (fun x => if x.held = some w.id then { x with held := none } else x)
  let c : Comp := ⟨w.tag, w.seq, st.code, w.cls, sup, reason, value, w.signal⟩
  if compared s w then
    let ds := resultDigests s w st.code res
    let s := { s with twin := { s.twin with own := s.twin.own ++ ds, unsent := s.twin.unsent ++ ds } }
    if flagF s Reg.tckTwinCtrlHold && !w.orphan then
      { s with twin := { s.twin with held := s.twin.held ++ [(w.queue, c, ds.map (·.id))] } }
    else pushComp s w.queue w.orphan c
  else pushComp s w.queue w.orphan c

/-- Complete the descriptor with a number, if it is still in flight. -/
def completeId (s : State) (id : Nat) (st : Status) (value reason : Nat := 0) (sup : Bool := false) (res : List Byte := []) : State :=
  match workOf s id with
  | some w => complete s w st value reason sup res
  | none => s

/-- A descriptor whose last act is to write bytes: it completes with its status once they are written, else with the status of the write
(R335, R342). -/
def completeWith (s : State) (w : Work) (addr : Nat) (bs : List Byte) (st : Status) (value reason : Nat := 0) (res : List Byte := bs) : State :=
  match nrWrite s addr bs [] with
  | (t, none) => complete t w st value reason (res := res)
  | (t, some e) => complete t w e

/-- Run a command on a descriptor in flight of a class that no command has begun; otherwise nothing happens (log entry 2). -/
def onWork (s : State) (id cls : Nat) (k : State → Work → State) : State :=
  match workOf s id with
  | some w => if w.cls = cls && !w.begun then k s w else s
  | none => s

/-- Run an ADMIN command (R428): the checks that come before the command's own rules, in their order, then the operand block,
whose poison is consumed (R527). `fail` is what the command also does where one of these checks refuses it. -/
def onAdminF (s : State) (id cmd len : Nat) (rootOnly : Bool) (fail : State → State) (k : State → Work → List Byte → State) : State :=
  onWork s id 0x20 (fun s w =>
    if w.cmd != cmd then s
    else if !(adminShape w) || w.opLen < len then complete (fail s) w .malformed
    else if !(inWindow s w.tenant w.opAddr len) then complete (fail s) w .accessDenied
    else if rootOnly && w.tenant != 0 then complete (fail s) w .accessDenied
    else
      let r := nrRead s w.opAddr len
      if r.2.timeout then complete (fail r.1) w .timeout
      else if r.2.bad then complete (consumeNr (fail r.1) (r.2.first w.opAddr)) w .poisoned
      else k r.1 w r.2.bytes)

/-- Run an ADMIN command whose refusal by those checks does nothing more. -/
def onAdmin (s : State) (id cmd len : Nat) (rootOnly : Bool) (k : State → Work → List Byte → State) : State :=
  onAdminF s id cmd len rootOnly (fun s => s) k

/-- Whether an object's tenant is within an issuer's reach for ADMIN (R428). -/
def adminMay (w : Work) (tenant : Nat) : Bool := w.tenant = 0 || w.tenant = tenant

/-! ### Meters (R433) -/

/-- The capacity of a bucket: host descriptors in thousandths, fabric in units of 4 KiB. -/
def meterCap (fabric : Bool) (n : Nat) : Nat := if fabric then n * 4096 else n * 1000

/-- The fields CIR, CBS, PIR, PBS of a meter. -/
def meterF (s : State) (fabric : Bool) (t : Nat) : Nat × Nat × Nat × Nat :=
  if fabric then
    (getF s (Reg.tsFpolCir.ix t), getF s (Reg.tsFpolCbs.ix t), getF s (Reg.tsFpolPir.ix t), getF s (Reg.tsFpolPbs.ix t))
  else (getF s (Reg.tsHpolCir.ix t), getF s (Reg.tsHpolCbs.ix t), getF s (Reg.tsHpolPir.ix t), getF s (Reg.tsHpolPbs.ix t))

/-- The key of a meter: host meters first. -/
def meterKey (fabric : Bool) (t : Nat) : Nat := if fabric then 512 + t else t

/-- A meter's buckets; never written, they are full. -/
def meterOf (s : State) (fabric : Bool) (t : Nat) : Meter :=
  let f := meterF s fabric t
  (mget s.host.meters (meterKey fabric t)).getD ⟨meterCap fabric f.2.1, meterCap fabric f.2.2.2⟩

/-- Whether a meter is off: all four fields zero. -/
def meterOff (s : State) (fabric : Bool) (t : Nat) : Bool := meterF s fabric t = (0, 0, 0, 0)

/-- Meter a request of cost `b` (R433). -/
def meterTake (s : State) (fabric : Bool) (t b : Nat) : State × Colour :=
  if meterOff s fabric t then (s, .green)
  else
    let m := meterOf s fabric t
    let put (x : Meter) := modHost s (fun h => { h with meters := mput h.meters (meterKey fabric t) x })
    if m.tp < b then (s, .red)
    else if m.tc < b then (put { m with tp := m.tp - b }, .yellow)
    else (put ⟨m.tc - b, m.tp - b⟩, .green)

/-- One meter after a tick's refill (R433); a PIR below CIR acts as CIR. -/
def meterFill (s : State) (fabric : Bool) (t : Nat) (m : Meter) : Meter :=
  let f := meterF s fabric t
  let u := if fabric then 64 else 1
  ⟨min (meterCap fabric f.2.1) (m.tc + f.1 * u), min (meterCap fabric f.2.2.2) (m.tp + (max f.1 f.2.2.1) * u)⟩

end Sys2Proof.Machine
end

