-- ==== Sys2Proof/Machine/Tiers.lean ====
section
/-! DEFINITION. The tier manager's commands (R329–R349): node-range accesses that may wait, frames, moves, demotion, ageing,
lending, the MOVE descriptor, and host CXL.mem accesses (R410). -/
namespace Sys2Proof.Machine

/-- Whether the CXL port takes requests: link up, PERST high, no reset preparation, no flush, not halted (R374, R466, R511). -/
def portOpen (s : State) : Bool :=
  s.host.linkUp && !s.host.perstLow && !s.power.warmPend && !s.power.flushing && !s.power.halted && !s.power.tripped

/-- Whether the Ring serves its engines: start-up past step 5, no halt (R469, R374). -/
def ringUp (s : State) : Bool :=
  decide (getF s Reg.rstStatusStep ≥ 6) && !s.power.halted && !s.power.tripped && s.power.vddMgmt

/-! ### Accesses -/

/-- Home-table copies that have gone bad since (R329): pages, and bit `i` for copy `i`. -/
def spoilHome (s : State) (bad : List (Nat × Nat)) : State :=
  modTiers s (fun t => { t with homeBad := bad.foldl (fun m b => if b.2 % 4 = 0 then m else mput m b.1 (b.2 % 4)) t.homeBad })

/-- An access arrives (R330): the entries of its pages are read (R329); it is served now or put among those that wait. -/
def arrive (s : State) (a : WaitAcc) : State :=
  if a.addr + a.len > rangePages s * 65536 then emit s (.failed a.req a.addr Status.accessDenied.code)
  else
    let ps := pagesOf a.addr a.len
    let s := startForWrite (ps.foldl (fun t p => homeCheck (mayRetry t p) p) s) a
    serveOrWait (if ps.any (isMoving s) then bump s Reg.tirPromoteWaits else s) a

/-- An access of `len` bytes, or of bytes to write, with the home-table copies and the words of the transfer that it finds damaged. -/
def access (s : State) (req : Nat) (host : Bool) (addr len : Nat) (write : Option (List Byte × List Nat)) (bad : List (Nat × Nat))
    (path : List PathUps) : State :=
  let s := pathHits (spoilHome s bad) 0 path
  match write with
  | none => arrive s ⟨req, host, false, addr, len, [], pathLost path, expiryOf s Reg.tirCtrlMoveWait⟩
  | some (bs, pois) => arrive s ⟨req, host, true, addr, bs.length, bs, pois ++ pathLost path, expiryOf s Reg.tirCtrlMoveWait⟩

/-- NODE_RANGE_ACCESS: requester `req` reads `len` bytes, or writes bytes, at `addr`; `bad` are the home-table copies that have gone bad
since, `path` the words of the transfer damaged on the Ring datapaths. -/
def nodeRangeAccess (req addr len : Nat) (write : Option (List Byte × List Nat)) (bad : List (Nat × Nat)) (path : List PathUps)
    (s : State) : State :=
  if ringUp s then access s req false addr len write bad path else s

/-- HOST_MEM_READ (R410): requester 1; poison leaves with the data and is consumed by the host (R307, R309). -/
def hostMemRead (addr len : Nat) (bad : List (Nat × Nat)) (path : List PathUps) (s : State) : State :=
  if portOpen s then access s 1 true addr len none bad path else s

/-- HOST_MEM_WRITE (R410): words the host marks poisoned are stored with the pattern and counted (R307, R323). -/
def hostMemWrite (addr : Nat) (bs : List Byte) (pois : List Nat) (bad : List (Nat × Nat)) (path : List PathUps) (s : State) : State :=
  if portOpen s then access (bumpBy s Reg.intPoisonCarried pois.length) 1 true addr bs.length (some (bs, pois)) bad path else s

/-- FRAME_ALLOCATE (R335): the accesses that wait for a frame take one where one is free; after MOVE_WAIT ticks they fall to T4 or are
refused. -/
def frameAllocate (s : State) : State := resumeWaits s

/-- MOVE_START (R332): unless the page may not move (R334) or an abandoned move has not been asked for again (R333). -/
def moveStart (page : Nat) (dst : MoveDst) (s : State) : State := if ringUp s then (startMove s page dst none).getD s else s

/-- MOVE_COMMIT (R332): the page takes its destination, the accesses that waited resume. -/
def moveCommit (slot : Nat) (s : State) : State :=
  if ringUp s && mhas s.tiers.moves slot then resumeWaits (finishMove s slot) else s

/-- MOVE_ABANDON (R333): an access has waited MOVE_WAIT ticks on the page of a move. -/
def moveAbandon (slot : Nat) (s : State) : State :=
  match mget s.tiers.moves slot with
  | none => s
  | some m =>
    if ringUp s && s.tiers.waiting.any (fun a => (pagesOf a.addr a.len).contains m.page && accLate s a) then resumeWaits (abandonMove s slot)
    else s

/-! ### Demotion, ageing -/

/-- The nodes this node may ask for frames, ascending (R342). -/
def lenders (s : State) : List Nat := setBitsOf 64 (getF s Reg.tirLendersNodes)

/-- The lenders are asked in ascending order, and the first that has a free lent frame answers with a HANDLE (R342). `offers` are the
handles, by node, that the lenders answer when they are asked. -/
def askLenders (s : State) (offers : List (Nat × Nat)) : State × Option (Nat × Nat) :=
  match (lenders s).filterMap (fun n => offers.find? (fun o => o.1 = n)) with
  | [] => ((lenders s).foldl (fun t n => emit t (.lentAsk n)) s, none)
  | o :: _ => (((lenders s).filter (fun n => decide (n ≤ o.1))).foldl (fun t n => emit t (.lentAsk n)) s, some o)

/-- A move to a lender that does not answer its WRITE is abandoned before it has begun to copy (R333). -/
def abandonAt (s : State) (page lender handle : Nat) : State :=
  bump (emit (modTiers s (fun t => { t with noRetry := sinsert t.noRetry page })) (.lentBack lender handle)) Reg.tirMovesAbandoned

/-- A candidate is demoted (R338): to T3 where its tenant has LEND set and a lender has a free lent frame, else to T4. None where T4 has no
room for it. -/
def demoteOne (s : State) (offers : List (Nat × Nat)) (p : Nat) (e : PageEnt) : Option (State × List (Nat × Nat)) :=
  let t4 (s : State) : Option (State × List (Nat × Nat)) := (commitMove s p e.home (.t4 0)).map (·, offers)
  if flagF s (Reg.tirTenCfgLend.ix e.tenant) then
    match askLenders s offers with
    | (s, none) => t4 s
    | (s, some o) => some ((commitMove s p e.home (.lent 0 o.1 o.2)).getD (abandonAt s p o.1 o.2), offers.erase o)
  else t4 s

/-- Whether a write waits for a frame on sites of its tenant that have none (R335). -/
def starved (s : State) : Bool :=
  s.tiers.waiting.any (fun a => a.write && (pagesOf a.addr a.len).any (fun p => match (pageEnt s p).home with
    | .zero => (pickFrame s (tenantOfPage s p) none).isNone
    | h => isFar h && (pickFrame s (pageEnt s p).tenant none).isNone))

/-- Demote until the free frames reach the high-water mark (R338) and no write waits for a frame (R335). -/
def demoteLoop : Nat → State → List (Nat × Nat) → Nat → State
  | 0, s, _, _ => s
  | f + 1, s, offers, goal =>
    if decide (poolFree s ≥ goal) && !(starved s) then s
    else match demoteCandidate s with
      | none => s
      | some (p, e) =>
        match demoteOne s offers p e with
        | some (t, o) => demoteLoop f t o goal
        | none => s

/-- DEMOTION_ROUND (R338, R335): nothing happens while the pool's free frames are at or above LOW and no write waits for a frame. A HIGH
below LOW acts as LOW. -/
def demotionRound (offers : List (Nat × Nat)) (s : State) : State :=
  let low := getF s Reg.tirWaterLow
  if !(ringUp s) then s
  else if poolFree s < low then demoteLoop (s.tiers.home.length + 1) s offers (max low (getF s Reg.tirWaterHigh))
  else if starved s then demoteLoop (s.tiers.home.length + 1) s offers 0
  else s

/-- The sweep period (R339, R350): values outside 10–24 are clamped. -/
def agePeriod (s : State) : Nat := 2 ^ (min 24 (max 10 (getF s Reg.tirCtrlAgeLog2)))

/-- A page's AGE after sweep `n` (R339). -/
def agedBy (n a : Nat) : Nat := if a < 255 && n % 2 ^ (a / 16) = 0 then a + 1 else a

/-- AGER_SWEEP (R339): at a tick whose count is a multiple of the period, every T2 and LENT page is visited. -/
def agerSweep (s : State) : State :=
  if ringUp s && tickOf s % agePeriod s = 0 then
    modTiers s (fun t => { t with
      home := t.home.map (fun x => (x.1, match x.2.home with
        | .t2 .. => { x.2 with age := agedBy t.sweep x.2.age }
        | .lent .. => { x.2 with age := agedBy t.sweep x.2.age }
        | _ => x.2)),
      sweep := t.sweep + 1 })
  else s

/-! ### Lending (R341, R342) -/

/-- Frames lent out now. -/
def lentNow (s : State) : Nat := (s.tiers.lentOut.filter (fun e => e.2.borrower.isSome)).length

/-- The site a frame to lend is taken from: the allowed site with the most free frames. -/
def lendSite (s : State) : Option Nat := bestSite s (getF s Reg.tirLendSites)

/-- A frame goes out of the pool into the lent-frame table, under the lowest free handle, where a site of SITES has one free (R341). -/
def offerFrame (s : State) : State :=
  match lendSite s with
  | none => s
  | some i => match mfree s.tiers.lentOut (min (2 ^ 20) (s.tiers.lentOut.length + 1)) with
    | some h => modTiers s (fun t => { t with lentOut := mput t.lentOut h ⟨i, lowestFrame s i, none, 0, false⟩ })
    | none => s

/-- The table is filled up to FRAMES, as far as the sites of SITES have frames free (R341). -/
def offerAll (s : State) : State :=
  (List.range (min (getF s Reg.tirLendFrames - s.tiers.lentOut.length) (poolFree s))).foldl (fun t _ => offerFrame t) s

/-- Whether a frame of the table may still be offered: its site is one of SITES and not draining (R341, R456). -/
def mayOffer (s : State) (e : LentFrame) : Bool := (getF s Reg.tirLendSites).testBit e.site && s.fw.draining != some e.site

/-- Entries beyond FRAMES leave the table, highest HANDLE first (R342): a frame not borrowed goes back to the pool at once, a borrowed one
is recalled. -/
def trimLent (s : State) (es : List (Nat × LentFrame)) : State :=
  es.foldl (fun t e => match e.2.borrower with
    | none => modTiers t (fun x => { x with lentOut := mdel x.lentOut e.1 })
    | some b =>
      if e.2.recalled then t
      else emit (modTiers t (fun x => { x with lentOut := mput x.lentOut e.1 { e.2 with recalled := true } })) (.lentRecall b e.1)) s

/-- Frames lent out beyond `n` are recalled, highest HANDLE first, and those not borrowed beyond `n` go back to the pool (R341, R342). -/
def recallExcess (s : State) (n : Nat) : State :=
  let free := s.tiers.lentOut.filter (fun e => e.2.borrower.isNone)
  let out := s.tiers.lentOut.filter (fun e => e.2.borrower.isSome)
  let keep := n - min n out.length
  trimLent (trimLent s (free.reverse.take (free.length - keep))) (out.reverse.take (out.length - n))

/-- The effect of writing TIR_LEND (R341, R342). -/
def lendSet (s : State) (frames sites : Nat) : State :=
  let s := setF (setF s Reg.tirLendFrames frames) Reg.tirLendSites sites
  let s := trimLent s (s.tiers.lentOut.filter (fun e => e.2.borrower.isNone && !(mayOffer s e.2)))
  offerAll (recallExcess s frames)

/-- A borrower rehomes a page its lender recalls: to T2, or to T4 where no frame is free; the frame goes back (R342). -/
def recallPage (s : State) (p : Nat) : State :=
  match moveToT2 s p none with
  | some t => t
  | none => (commitMove s p (pageEnt s p).home (.t4 0)).getD s

/-- Pages homed LENT at a lender's handle. -/
def lentPages (s : State) (lender handle : Nat) : List Nat :=
  (s.tiers.home.filter (fun x => match x.2.home with | .lent _ l h => l = lender && h = handle | _ => false)).map (·.1)

/-- A lender does not know a handle (R342): the page is rehomed poisoned, the event logged and counted. -/
def lentUnknown (s : State) (lender handle : Nat) : State :=
  (lentPages s lender handle).foldl (fun t p => homeLost (intLog t 2 0 0x1F 0 (p * 4096)) p) s

/-- A lender answers a borrower that asks (R341, R342): with the lowest HANDLE whose frame is free, of a new generation, or with none. -/
def lendTo (s : State) (node : Nat) : State :=
  let s := offerAll s
  match s.tiers.lentOut.find? (fun e => e.2.borrower.isNone) with
  | some (h, e) =>
    emit (modTiers s (fun t => { t with lentOut := mput t.lentOut h { e with borrower := some node, gen := e.gen + 1 } })) (.lentAnswer node (some h))
  | none => emit s (.lentAnswer node none)

/-- A borrower gives a frame back (R342): it is free to lend again, or leaves the table where FRAMES or SITES no longer cover it. -/
def takeBack (s : State) (node handle : Nat) : State :=
  match mget s.tiers.lentOut handle with
  | none => s
  | some e =>
    if e.borrower != some node then s
    else
      let s := releaseFrame s e.site e.frame
      if e.recalled || decide (s.tiers.lentOut.length > getF s Reg.tirLendFrames) || !(mayOffer s e) then
        offerAll (modTiers s (fun t => { t with lentOut := mdel t.lentOut handle }))
      else modTiers s (fun t => { t with lentOut := mput t.lentOut handle { e with borrower := none } })

/-- LENT_FRAME_REQUEST (R341, R342): as lender, a borrower asks for a frame or gives one back; as borrower, a lender recalls a
handle, does not know it, or answers with poisoned stored words. -/
def lentFrameRequest (m : LentMsg) (s : State) : State :=
  if !(ringUp s) then s else
  match m with
  | .ask node => lendTo s node
  | .back node handle => takeBack s node handle
  | .recall lender handle => (lentPages s lender handle).foldl recallPage s
  | .unknown lender handle => lentUnknown s lender handle
  | .spoiled lender handle words =>
    (lentPages s lender handle).foldl (fun t p => modTiers t (fun x => { x with lentHeld := mmod x.lentHeld p (fun us =>
      us.zipIdx.map (fun u => { u.1 with pois := u.1.pois ||| maskOf 256 (fun w => words.contains (256 * u.2 + w)) })) })) s

/-- The effect of writing TIR_RANGE.PAGES (R327): ignored and counted while any page is not ZERO. -/
def rangeSet (s : State) (pages : Nat) : State :=
  if s.tiers.home.any (fun x => x.2.home != .zero) then bump s Reg.tirRefuseRange else setF s Reg.tirRangePages pages

/-- The sum of all floors with tenant `t`'s at `n` (R337). -/
def floorSum (s : State) (t n : Nat) : Nat :=
  sumNat ((List.range 512).map (fun i => if i = t then n else getF s (Reg.tirTenCfgFloor.ix i)))

/-- The effect of writing a FLOOR (R337): refused and counted where the floors would exceed the pool. -/
def floorSet (s : State) (t n : Nat) : State :=
  if floorSum s t n > poolFrames s then bump s Reg.tirRefuseFloor else setF s (Reg.tirTenCfgFloor.ix t) n

/-! ### MOVE (R348, R349) -/

/-- What a MOVE has done so far: pages moved, skipped, abandoned; whether it ended for lack of space. -/
structure MoveTally where
  done : Nat
  skipped : Nat
  abandoned : Nat
  full : Bool
  deriving DecidableEq, Repr

/-- Whether a page already is where an operation would put it (R349). -/
def atDest (op site : Nat) (h : Home) : Bool :=
  match h with
  | .t2 i _ => (op = 1 && (site = 0xFF || site = i)) || (op = 5 && site = i)
  | .lent .. => op = 3
  | .t4 _ => op = 2
  | _ => false

/-- Whether a page of a MOVE waits (R293, R334): a kettle job names its frame, or the move table is full. -/
def moveWaits (s : State) (op site page : Nat) : Bool :=
  let e := pageEnt s page
  e.pins = 0 && op != 4 && e.home != .zero && !(atDest op site e.home) && (homeNamed s e.home || decide (s.tiers.moves.length ≥ 1024))

/-- Whether a move that could not be made is one that was abandoned (R333): its source's or destination's lender does not answer, or the
flash store takes no write. -/
def moveFails (s : State) (src dst : Home) : Bool :=
  let silent (h : Home) : Bool := match h with | .lent _ l _ => !(reachable s l) | _ => false
  silent src || silent dst || (match dst with | .t4 _ => !(flashWritable s) || cacheFull s | _ => false)

/-- One page of a MOVE goes to a destination (R349): done, abandoned, or without space, which ends the MOVE. -/
def moveTo (s : State) (t : MoveTally) (page : Nat) (dst : Home) : State × MoveTally :=
  let src := (pageEnt s page).home
  match commitMove s page src dst with
  | some x => (x, { t with done := t.done + 1 })
  | none =>
    if moveFails s src dst then
      let s := match dst with | .lent _ l h => emit s (.lentBack l h) | _ => s
      (bump (modTiers s (fun x => { x with noRetry := sinsert x.noRetry page })) Reg.tirMovesAbandoned, { t with abandoned := t.abandoned + 1 })
    else (s, { t with full := true })

/-- One page of a MOVE goes to a T2 frame, on a named site where one is given (R349, R335). -/
def moveToFrame (s : State) (t : MoveTally) (page : Nat) (site : Option Nat) : State × MoveTally :=
  let e := pageEnt s page
  let s := if site.isNone then seekFrame s e.tenant else s
  match pickFrame s e.tenant site with
  | some (i, f) => moveTo s t page (.t2 i f)
  | none => (s, { t with full := true })

/-- One page of a MOVE (R349). `offers` are the handles, by node, that lenders answer. -/
def movePage (op site : Nat) (a : State × MoveTally × List (Nat × Nat)) (page : Nat) : State × MoveTally × List (Nat × Nat) :=
  let (s, t, g) := a
  if t.full then a else
  let s := settle (homeCheck (mayRetry s page) page) page
  let e := pageEnt s page
  let skip := (s, { t with skipped := t.skipped + 1 }, g)
  let put (r : State × MoveTally) := (r.1, r.2, g)
  if e.pins != 0 then skip
  else if op = 4 then
    (setEnt (releaseHome (dropStaged s (page * 65536) 65536) page e.home) page zeroEnt, { t with done := t.done + 1 }, g)
  else if e.home = .zero || atDest op site e.home then skip
  else if (op = 5 || (op = 1 && site != 0xFF)) && !((getF s (Reg.tirTenCfgSites.ix e.tenant)).testBit site) then skip
  else if op = 1 then put (moveToFrame s t page (if site = 0xFF then none else some site))
  else if op = 5 then put (moveToFrame s t page (some site))
  else if op = 2 then put (moveTo s t page (.t4 0))
  else if !(flagF s (Reg.tirTenCfgLend.ix e.tenant)) then skip
  else match askLenders s g with
    | (s, none) => (s, { t with full := true }, g)
    | (s, some o) => let r := moveTo s t page (.lent 0 o.1 o.2); (r.1, r.2, g.erase o)

/-- The move record (R349). -/
def moveRecord (t : MoveTally) (st : Status) : List Byte :=
  toBytes 4 t.done ++ toBytes 4 t.skipped ++ toBytes 4 t.abandoned ++ toBytes 1 st.code ++ toBytes 3 0

/-- MOVE (R348, R349): descriptor `id`; `offers` are the lent-frame handles, by node, that lenders answer. While a page of it must wait it
is not begun, and the command is sent again (log entry 95). -/
def moveDesc (id : Nat) (offers : List (Nat × Nat)) (s : State) : State :=
  onWork s id 8 (fun s w =>
    let page := w.f 8 4
    let count := w.f 12 4
    let op := w.f 16 1
    let site := w.f 17 1
    let rec_ := w.f 24 8
    let badSite := if op = 5 then decide (site > 7) else if op = 1 then decide (site > 7) && site != 0xFF else site != 0
    let bad := count = 0 || count > 65536 || op = 0 || op > 5 || badSite || !(zeroAt w.desc 18 6) || !(zeroAt w.desc 32 32)
      || rec_ % 16 != 0
    if bad then complete s w .malformed
    else if !(inWindow s w.tenant (page * 65536) (count * 65536)) || !(inWindow s w.tenant rec_ 16) then complete s w .accessDenied
    else if ((List.range count).map (· + page)).any (moveWaits s op site) then s
    else
      let (s, t, _) := ((List.range count).map (· + page)).foldl (movePage op site) (s, ⟨0, 0, 0, false⟩, offers)
      let st : Status := if t.full then .tableFull else .ok
      let r := moveRecord t st
      completeWith (resumeWaits s) w rec_ r st)

end Sys2Proof.Machine
end

