-- ==== Sys2Proof/Machine/Sched.lean ====
section
/-! DEFINITION. The Bow's schedule table as shared operations (R40–R43): what refuses an event, taking and freeing an entry. -/
namespace Sys2Proof.Machine

/-- Update the Bow. -/
def modBow (s : State) (f : Bow → Bow) : State := { s with bow := f s.bow }

/-- A tick more than 2^40 ahead (R42). -/
def tickFar (s : State) (t : Nat) : Bool := decide (t > tickOf s + 2 ^ 40)

/-- A tick less than 8 ticks ahead (R42). -/
def tickNear (s : State) (t : Nat) : Bool := decide (t < tickOf s + 8)

/-- Whether the schedule table is full (R40). -/
def schedFull (s : State) : Bool := decide (s.bow.sched.length ≥ 1024)

/-- An event takes a schedule entry (R40), in order of submission. -/
def schedAdd (s : State) (k : EvtKind) (tick : Nat) (w : Work) : State :=
  let s := modBow s (fun b => { b with sched := b.sched ++ [⟨k, tick, w.id, w.queue, w.seq, false⟩] })
  raiseHigh (beginWork s w.id) Reg.tckSchedHigh s.bow.sched.length

/-- A descriptor is refused for want of a schedule entry (R40). -/
def schedRefuse (s : State) (w : Work) : State := complete (bump s Reg.tckSchedRefused) w .tableFull

/-- The entries of the schedule at which a test holds are freed. -/
def schedFree (s : State) (p : SchedEvt → Bool) : State := modBow s (fun b => { b with sched := b.sched.filter (fun e => !(p e)) })

/-- The least tick of the entries at which a test holds. -/
def schedFirst (s : State) (p : SchedEvt → Bool) : Option Nat :=
  (s.bow.sched.filter p).foldl (fun (a : Option Nat) e => some (match a with | some t => min t e.tick | none => e.tick)) none

end Sys2Proof.Machine
end

