-- ==== Sys2Proof/Machine/Brim.lean ====
section
/-! DEFINITION. The brim ports (R378–R391): states, paths and spraying, messages and packets sent, acknowledgement and replay, loss of
a port, violations and quarantine. -/
namespace Sys2Proof.Machine

/-- Update the brim part of the state. -/
def modBrim (s : State) (f : Brim → Brim) : State := { s with brim := f s.brim }

/-- A port whose link has just come up, or never has: SEQ numbers run from 0 (log entry 14). -/
def portFresh : Port := ⟨0, 0, 2 ^ 24 - 1, false, [], [], [], 0, 0, 0⟩

/-- A port beside its registers. -/
def portOf (s : State) (p : Nat) : Port := (mget s.brim.ports p).getD portFresh

/-- Update a port. -/
def modPort (s : State) (p : Nat) (f : Port → Port) : State := modBrim s (fun b => { b with ports := mput b.ports p (f (portOf s p)) })

/-- BRM_PORTp.STATE (R406). -/
def portSt (s : State) (p : Nat) : Nat := getF s (Reg.brmPortState.ix p)

/-- Set BRM_PORTp.STATE. -/
def setPortSt (s : State) (p v : Nat) : State := setF s (Reg.brmPortState.ix p) v

/-- The role of a port in force (R406): 0 off or rack, 1 expansion, 2 twin; ROLE 2 on port 14 acts as 0. -/
def portRole (s : State) (p : Nat) : Nat :=
  let r := getF s (Reg.brmPortRole.ix p)
  if p < 14 then 0 else if p = 14 && r = 2 then 0 else r

/-! ### Paths (R384, R387) -/

/-- Whether a via node's latest PORTMAP shows its port to a destination UP (R387). -/
def viaUp (s : State) (via dest : Nat) : Bool :=
  match portTo via dest, mget s.brim.portmaps via with
  | some q, some m => m.testBit q
  | _, _ => false

/-- The available paths to a destination in path order (R384, R387): first-hop port, whether it is the direct link. -/
def availPaths (s : State) (dest : Nat) : List (Nat × Bool) :=
  if dest = 0x8E then (if portUp s 14 && portRole s 14 = 1 then [(14, true)] else [])
  else if dest = 0x8F then (if portUp s 15 && portRole s 15 = 1 then [(15, true)] else [])
  else (pathSet (nodeNo s) dest).filterMap (fun v =>
    match v with
    | none => (portTo (nodeNo s) dest).bind (fun p => if portUp s p then some (p, true) else none)
    | some via => (portTo (nodeNo s) via).bind (fun p => if portUp s p && viaUp s via dest then some (p, false) else none))

/-- The first-hop port of each packet of a message (R387): rotation from path MSGID mod n, the direct path taking DIRECT_WT + 1
consecutive packets. -/
def sprayPorts (s : State) (dest msgid count : Nat) : List Nat :=
  let ps := availPaths s dest
  let k := msgid % ps.length
  let turn := (ps.drop k ++ ps.take k).flatMap (fun p => List.replicate (if p.2 then getF s Reg.brmCtrlDirectWt + 1 else 1) p.1)
  (List.range count).map (fun i => turn.getD (i % turn.length) 0)

/-! ### Sending -/

/-- The 48 bytes of a packet's header (R385). -/
def packetHeader (p : Packet) : List Byte :=
  toBytes 1 p.kind ++ toBytes 1 (p.cls % 8 + 8 * b2n p.lent) ++ toBytes 1 p.src ++ toBytes 1 p.dest ++ toBytes 2 p.tenant ++ toBytes 2 p.queue
    ++ toBytes 4 p.key ++ toBytes 4 p.msgid ++ toBytes 4 p.offset ++ toBytes 4 p.total ++ toBytes 8 p.addr ++ toBytes 2 p.plen
    ++ toBytes 1 p.reason ++ zeros 1 ++ toBytes 4 p.reqid ++ zeros 8

/-- Words of 128 bits of a packet (R385): a header of three and its payload. -/
def packetWords (p : Packet) : Nat := 3 + ceilDiv p.payload.length 16

/-- The words of a packet: the header, then the payload, zero-padded to a whole word (R385). -/
def packetBody (p : Packet) : List Nat := (chunksOf 16 (packetWords p) (packetHeader p ++ p.payload)).map ofBytes

/-- The words of a packet cut into flits of 36 words, each with the places of its poisoned words (R380). -/
def packetFlits (p : Packet) : List (List Nat × List Nat) :=
  let n := ceilDiv (packetWords p) 36
  ((chunksOf 36 n (packetBody p)).zip (List.range n)).map (fun x =>
    (x.1, ((p.pois.map (· + 3)).filter (fun w => w / 36 = x.2)).map (· % 36)))

/-- The CRC-32 of IEEE 802.3 over the next bits of a word from a register value, the lowest bit first, as its bits come on the line (log entry
111). -/
def crc32Run : (n : Nat) → (c w : Nat) → Nat
  | 0, c, _ => c
  | n + 1, c, w => if c % 2 != w % 2 then crc32Run n ((c / 2) ^^^ 0xEDB88320) (w / 2) else crc32Run n (c / 2) (w / 2)

/-- The CRC-32 over bits n − 1 to 0 of a word (R380): initial value all ones, the result complemented. -/
def crc32 (n w : Nat) : Nat := crc32Run n (2 ^ 32 - 1) w ^^^ (2 ^ 32 - 1)

/-- The message bits of a flit out of its runs (R380): words, head (which words are poisoned, how many there are, class), SEQ with ACK and
NAK, credit with what follows it, CRC. -/
def flitJoin (words head ctl rest crc : Nat) : Nat :=
  words % 2 ^ 4608 + head % 2 ^ 45 * 2 ^ 4608 + ctl % 2 ^ 49 * 2 ^ 4653 + rest % 2 ^ 406 * 2 ^ 4702 + crc % 2 ^ 32 * 2 ^ 5108
/-- SEQ of a flit (R380). -/
def flitSeq (f : Nat) : Nat := bits f 4653 24
/-- ACK. -/
def flitAck (f : Nat) : Nat := bits f 4677 24
/-- NAK. -/
def flitNak (f : Nat) : Bool := f.testBit 4701
/-- CREDIT of a class. -/
def flitCredit (f c : Nat) : Nat := bits f (4702 + 16 * c) 16
/-- Whether a flit's CRC matches (R380, R381). -/
def flitOk (f : Nat) : Bool := decide (bits f 5108 32 = crc32 5108 f)

/-- The message bits of a flit (R380): its words, and what goes with them. -/
def flitBits (words pois : List Nat) (cls seq ack : Nat) (nak : Bool) (credit : List Nat) : Nat :=
  let b := sumNat ((words.zip (List.range 36)).map (fun x => x.1 % 2 ^ 128 * 2 ^ (128 * x.2)))
    + sumNat ((pois.filter (· < 36)).map (fun w => 2 ^ (4608 + w))) + min 36 words.length * 2 ^ 4644 + cls % 8 * 2 ^ 4650
    + seq % 2 ^ 24 * 2 ^ 4653 + ack % 2 ^ 24 * 2 ^ 4677 + b2n nak * 2 ^ 4701
    + sumNat ((credit.zip (List.range 8)).map (fun x => x.1 % 2 ^ 16 * 2 ^ (4702 + 16 * x.2)))
  b + crc32 5108 b * 2 ^ 5108

/-- Whether a class's gate is open on a port (R436): class 7 always is. -/
def gateOpen (s : State) (port cls : Nat) : Bool := cls = 7 || (getF s (Reg.tsPgateMask.ix port)).testBit cls

/-- The words of credit that a class has left on a port (R380, R381): 4,096, the 64 KiB of R388, when the port comes up (DESIGN CHOICE, log
entry 107), less what it sent, and what the partner returned. -/
def creditLeft (s : State) (port cls : Nat) : Nat := (mget (portOf s port).credit cls).getD 4096

/-- Whether a packet may start on a port now (R381, R437): its gate is open, its class has the credit, and the replay buffer of 4,096 flits
has room. -/
def mayStart (s : State) (port : Nat) (p : Packet) : Bool :=
  gateOpen s port p.cls && decide (packetWords p ≤ creditLeft s port p.cls)
    && decide ((portOf s port).replay.length + (packetFlits p).length ≤ 4096)

/-- A packet starts on a port (R381): its words take credit of its class, its flits the next SEQ numbers and stay in the replay buffer. -/
def startPacket (s : State) (port : Nat) (p : Packet) (tag : Option (Nat × Nat)) : State :=
  let fs := packetFlits p
  let n := fs.length
  let t := (portOf s port).txSeq
  let fl := (fs.zip (List.range n)).map (fun f =>
    (⟨(t + f.2) % 2 ^ 24, p.cls, f.1.1, f.1.2, if f.2 + 1 = n then tag else none⟩ : TxFlit))
  emit (modPort s port (fun x => { x with
    txSeq := (t + n) % 2 ^ 24, replay := x.replay ++ fl, credit := mput x.credit p.cls (creditLeft s port p.cls - packetWords p) })) (.packet port p)

/-- Put a packet on a port: it starts, or waits behind those that wait (R437). -/
def sendOn (s : State) (port : Nat) (p : Packet) (tag : Option (Nat × Nat)) : State :=
  if (portOf s port).waiting.isEmpty && mayStart s port p then startPacket s port p tag
  else
    let s := if gateOpen s port p.cls then s else bump s (Reg.tsPgateWaits.ix port)
    modPort s port (fun x => { x with waiting := x.waiting ++ [(p, tag)] })

/-- Start the packets of a port that wait, in order within each class, while they may start. -/
def drainPort (s : State) (port : Nat) : State :=
  let ws := (portOf s port).waiting
  ws.foldl (fun t x => if mayStart t port x.1 && !((portOf t port).waiting.any (fun y => y.1.cls = x.1.cls))
      then startPacket t port x.1 x.2 else modPort t port (fun q => { q with waiting := q.waiting ++ [x] }))
    (modPort s port (fun x => { x with waiting := [] }))

/-- A blank packet of a kind. -/
def packet0 (kind cls src dest : Nat) : Packet :=
  ⟨kind, cls, false, src, dest, 0, 0, 0, 0, 0, 1, 0, 0, 0, 0, false, [], [], []⟩

/-- The packets of a message (R386): 4,096 bytes each; `pois` are the poisoned words of the message. -/
def packetsOf (h : Packet) (bytes : List Byte) (pois : List Nat) : List Packet :=
  if bytes.isEmpty then [h]
  else ((chunksOf 4096 (bytes.length / 4096 + 1) bytes).zip (List.range (bytes.length / 4096 + 1))).map (fun x =>
    { h with offset := 4096 * x.2, plen := x.1.length, payload := x.1,
             pois := (pois.filter (fun w => decide (256 * x.2 ≤ w) && decide (w < 256 * x.2 + 256))).map (· - 256 * x.2) })

/-- Send a message (R386, R387): none where no path is available (R384). Answers the MSGID. `h` gives its header fields. -/
def sendMsg (s : State) (dest : Nat) (h : Packet) (bytes : List Byte) (pois : List Nat) (work : Option Nat)
    (sys : Option SysMsg) : Option (State × Nat) :=
  if (availPaths s dest).isEmpty then none
  else
    let id := s.brim.nextMsg
    let ps := packetsOf { h with msgid := if h.kind = 7 || h.kind = 8 then h.msgid else id, src := nodeNo s, dest := dest } bytes pois
    let ports := sprayPorts s dest id ps.length
    let m : OutMsg := ⟨h.kind, dest, h.queue, work, h.reqid, expiryOf s Reg.fwToDescRma, ps,
      (ports.zip (List.range ps.length)).map (fun x => (x.2, [x.1])), false, sys⟩
    let s := modBrim s (fun b => { b with msgs := mput b.msgs id m, nextMsg := (id + 1) % 2 ^ 32 })
    some ((ps.zip (ports.zip (List.range ps.length))).foldl (fun t x => sendOn t x.2.1 x.1 (some (id, x.2.2))) s, id)

/-- Send a NAK for a packet (R390): it echoes MSGID, OFFSET and REQID, in class 7 (R386). A NAK is not answered by a NAK. -/
def sendNak (s : State) (p : Packet) (reason : Nat) : State :=
  if p.kind = 8 then s
  else
    let s := bump s Reg.rmaNakSent
    let h := { packet0 8 7 (nodeNo s) p.src with
               msgid := p.msgid, offset := p.offset, reqid := p.reqid, reason := reason, lent := p.lent, key := p.key }
    match sendMsg s p.src h [] [] none none with
    | some x => x.1
    | none => s

/-! ### FLUSH and failures -/

/-- WRITEs of a queue to a destination that are not yet placed or reported (R398). -/
def writesOf (s : State) (q dest : Nat) : List WriteRec := s.brim.writes.filter (fun w => w.queue = q && w.dest = dest)

/-- Complete the FLUSHes whose earlier WRITEs are all placed or failed (R398): the first failure detected is their status. -/
def settleFlushes (s : State) : State :=
  (s.host.work.filter (fun w => w.cls = 0x14 && w.begun)).foldl (fun t w =>
    let ws := writesOf t w.queue (w.f 8 1)
    if ws.all (fun x => x.failed.isSome) then
      let st := ((ws.filterMap (·.failed)).head?).getD 0
      let t := modBrim t (fun b => { b with writes := b.writes.filter (fun x => !(x.queue = w.queue && x.dest = w.f 8 1)) })
      completeId (if st = Status.busy.code then bump t Reg.rmaRefuseBusy else t) w.id ([Status.busy, .keyInvalid, .timeout, .fenced, .malformed, .accessDenied, .reassemblyFailed].find? (fun x => x.code = st) |>.getD .ok)
    else t) s

/-- A WRITE whose completion is written fails (R398): the failure is kept for the next FLUSH, in order of detection. -/
def failWrite (s : State) (msgid : Nat) (st : Status) : State :=
  match s.brim.writes.find? (fun w => w.msgid = msgid && w.failed.isNone) with
  | some w => settleFlushes (modBrim s (fun b => { b with writes := b.writes.erase w ++ [{ w with failed := some st.code }] }))
  | none => s

/-- An outstanding operation ends (R397): its entry and its message are freed and its descriptor completes. -/
def endOp (s : State) (req : Nat) (st : Status) : State :=
  match mget s.brim.ops req with
  | none => s
  | some o =>
    let s := modBrim s (fun b => { b with ops := mdel b.ops req, msgs := mdel b.msgs o.msgid })
    completeId (if st = .busy then bump s Reg.rmaRefuseBusy else s) o.work st

/-- A message this node sent fails with a status (R398): its operation ends, or its WRITE failure is kept. SYS messages are left to
the search (R397). -/
def failMsg (s : State) (id : Nat) (st : Status) : State :=
  match mget s.brim.msgs id with
  | none => s
  | some m =>
    if m.kind = 1 && m.acked then failWrite (modBrim s (fun b => { b with msgs := mdel b.msgs id })) id st
    else if m.kind = 1 then
      let s := modBrim s (fun b => { b with writes := b.writes.filter (fun w => w.msgid != id) })
      settleFlushes (endOp s m.reqid st)
    else if m.kind = 2 || m.kind = 4 || m.kind = 5 then endOp s m.reqid st
    else modBrim s (fun b => { b with msgs := mdel b.msgs id })

/-- Stop sending a message (R405): packets of it that wait on ports are dropped. -/
def stopMsg (s : State) (id : Nat) : State :=
  (List.range 16).foldl (fun t p => modPort t p (fun x => { x with waiting := x.waiting.filter (fun w => (w.2.map (·.1)) != some id) })) s

/-! ### Losing a port (R389) -/

/-- Resend a packet of a message on the first available path it has not been on: none where none remains (R388). -/
def resend (s : State) (id i : Nat) : Option State :=
  match mget s.brim.msgs id with
  | none => none
  | some m =>
    let tried := (mget m.tried i).getD []
    match (availPaths s m.dest).find? (fun x => !(tried.contains x.1)), m.packets[i]? with
    | some x, some p =>
      some (sendOn (modBrim s (fun b => { b with msgs := mput b.msgs id { m with tried := mput m.tried i (tried ++ [x.1]) } })) x.1 p (some (id, i)))
    | _, _ => none

/-- The key that a forwarded packet's flits carry, beyond every MSGID. -/
def fwdKey (p : Packet) : Nat := 2 ^ 40 + p.src * 2 ^ 32 + p.msgid

/-- The places of messages whose packets a port has not delivered: those that wait and those not acknowledged. -/
def undelivered (s : State) (port : Nat) : List (Nat × Nat) :=
  ((portOf s port).replay.filterMap (·.msg) ++ (portOf s port).waiting.filterMap (·.2)).filter (fun x => decide (x.1 < 2 ^ 40))

/-- The unfinished forwards of a port are dropped, with a NAK NO_ROUTE on the port each arrived on where that is UP (R389). -/
def dropForwards (s : State) (port : Nat) : State :=
  let mine := s.brim.forwards.filter (fun f => f.outPort = port)
  let s := modBrim s (fun b => { b with forwards := b.forwards.filter (fun f => f.outPort != port) })
  mine.foldl (fun t f =>
    if portUp t f.inPort && f.pkt.kind != 8 then
      let h := { packet0 8 7 (nodeNo t) f.pkt.src with
                 msgid := f.pkt.msgid, offset := f.pkt.offset, reqid := f.pkt.reqid, reason := 4 }
      sendOn (bump t Reg.rmaNakSent) f.inPort h none
    else t) s

/-- A message is left with no available path (R384, R388, R397): its operation completes FENCED; a SYS message is listed, and its shard
search ends the same way (`sysLost`). -/
def cutMsg (s : State) (id : Nat) : State :=
  match mget s.brim.msgs id with
  | some m => if m.sys.isSome then modBrim s (fun b => { b with cut := sinsert b.cut id }) else failMsg s id .fenced
  | none => s

/-- A port leaves UP (R387, R389): the far node's PORTMAP is discarded, its packets are resent on other paths, its forwards dropped. The
caller has set the port's new state. -/
def leaveUp (s : State) (port : Nat) : State :=
  let us := undelivered s port
  let s := modPort s port (fun x => { x with replay := [], waiting := [], nak := false })
  let s := if port < 14 then modBrim s (fun b => { b with portmaps := mdel b.portmaps (neighbour (nodeNo s) port) }) else s
  let s := us.foldl (fun t x => (resend t x.1 x.2).getD (cutMsg t x.1)) s
  dropForwards s port

/-- BRM_PORTp as it is stored. -/
def portWord (s : State) (p : Nat) : Nat :=
  rawReg s [Reg.brmPortEn.ix p, Reg.brmPortFence.ix p, Reg.brmPortRole.ix p, Reg.brmPortState.ix p,
    Reg.brmPortPartner.ix p, Reg.brmPortTrains.ix p, Reg.brmPortMismatch.ix p]

/-- The event the ports log, with BRM_PORTp as its data (R383, R391, R484). -/
def portEvent (s : State) (p : Nat) : State := crownEvent s 0x0601 1 (portWord s p)

/-- A port starts training (R382): TRAINS counts the attempt. -/
def startTraining (s : State) (p : Nat) : State :=
  bump (setPortSt (modPort s p (fun _ => { portFresh with since := tickOf s })) p 1) (Reg.brmPortTrains.ix p)

/-- Whether the transmitters run (R472): start-up has brought the port dies up and nothing stops them. -/
def txOn (s : State) : Bool := decide (getF s Reg.rstStatusStep ≥ 8) && !s.power.halted && !s.power.tripped && s.power.vddMgmt

/-- The state of a port follows its EN, FENCE and ROLE (R382, R383, R406). -/
def portUpdate (s : State) (p : Nat) : State :=
  let was := portSt s p
  let en := flagF s (Reg.brmPortEn.ix p)
  let want :=
    if flagF s (Reg.brmPortFence.ix p) then 4
    else if !en || !(txOn s) || (decide (p ≥ 14) && portRole s p = 0) then 0
    else if was = 0 || was = 4 then 1 else was
  if want = was then s
  else if want = 1 then startTraining s p
  else
    let s := setPortSt s p want
    if was = 2 || was = 3 then leaveUp s p else s

/-- The effect of writing BRM_PORTp.EN (R382): EN is not taken before NODE_SET. -/
def portEnSet (s : State) (p v : Nat) : State :=
  portUpdate (setF s (Reg.brmPortEn.ix p) (if flagF s Reg.brmCtrlNodeSet then v else 0)) p

/-- The effect of writing BRM_PORTp.FENCE (R389). -/
def portFenceSet (s : State) (p v : Nat) : State := portUpdate (setF s (Reg.brmPortFence.ix p) v) p

/-! ### Training -/

/-- Whether the wiring check passes (R383): the partner's role is 0 rack, 1 expansion, 2 twin, and `strap` its twin strap role. -/
def wiringOk (s : State) (p node role strap : Nat) : Bool :=
  if p < 14 then role = 0 && node = neighbour (nodeNo s) p
  else if portRole s p = 1 then role = 1
  else if portRole s p = 2 then role = 2 && getF s Reg.rstStrapTwin != 0 && strap != b2n (getF s Reg.rstStrapTwin = 2)
  else false

/-- PORT_TRAINING (R382, R383): the stages are through and the partner's TRAIN flits have come. PARTNER is written only by a port that
passes: what it reads after a failed check, or while the port trains again, the spec leaves open, and the model leaves the earlier value
(DESIGN CHOICE, log entry 106). -/
def portTraining (p node role strap : Nat) (s : State) : State :=
  if decide (p < 16) && (portSt s p = 1 || portSt s p = 5) then
    if wiringOk s p node role strap then
      setF (setPortSt (modPort s p (fun _ => portFresh)) p 2) (Reg.brmPortPartner.ix p) node
    else portEvent (bump (setPortSt s p 5) (Reg.brmPortMismatch.ix p)) p
  else s

/-- TRAINING_RETRY (R382): training that has not passed within 10,000 ticks starts again. -/
def trainingRetry (p : Nat) (s : State) : State :=
  if decide (p < 16) && (portSt s p = 1 || portSt s p = 5) && decide (tickOf s ≥ (portOf s p).since + 10000)
  then startTraining s p else s

/-- PORT_DOWN (R389, R390): a link that was up is lost and trains again. -/
def portDown (p : Nat) (s : State) : State :=
  if decide (p < 16) && (portSt s p = 2 || portSt s p = 3) then
    startTraining (leaveUp (setPortSt s p 1) p) p
  else s

/-! ### Flits (R381) -/

/-- Whether SEQ `a` is at or before `b`, modulo 2^24. -/
def seqLe (a b : Nat) : Bool := decide ((b + 2 ^ 24 - a) % 2 ^ 24 < 2 ^ 23)

/-- A message's last packet has been acknowledged (R397, R398): a WRITE completes; a SYS message is kept for the RMA timeout from here. -/
def ackMsg (s : State) (x : Nat × Nat) : State :=
  match mget s.brim.msgs x.1 with
  | none => if x.1 ≥ 2 ^ 40 then modBrim s (fun b => { b with forwards := b.forwards.filter (fun f => fwdKey f.pkt != x.1 || f.pkt.offset != x.2) }) else s
  | some m =>
    if x.2 + 1 = m.packets.length then
      let s := modBrim s (fun b => { b with msgs := mput b.msgs x.1 { m with
        acked := true, expiry := if m.sys.isSome then expiryOf s Reg.fwToDescRma else m.expiry } })
      if m.kind = 1 then
        match m.work with
        | some w => completeId (modBrim s (fun b => { b with ops := mdel b.ops m.reqid })) w .ok
        | none => s
      else s
    else s

/-- The partner acknowledges up to a SEQ. -/
def takeAck (s : State) (p ack : Nat) : State :=
  let r := (portOf s p).replay
  let s := modPort s p (fun x => { x with replay := r.filter (fun f => !(seqLe f.seq ack)) })
  (r.filterMap (fun f => if seqLe f.seq ack then f.msg else none)).foldl ackMsg s

/-- FLIT_RECEIVE (R379–R381): `decoded` and `corrected` say what the FEC made of the codeword, `flit` is its 5,140 message bits. What its
words end, a packet, is a command of its own. -/
def flitReceive (p : Nat) (decoded corrected : Bool) (flit : Nat) (s : State) : State :=
  if !(decide (p < 16)) || !(portSt s p = 2 || portSt s p = 3) then s
  else
    let s := if decoded && corrected then bump s (Reg.brmPerrFecCorr.ix p) else s
    let x := portOf s p
    if decoded && flitOk flit && flitSeq flit = (x.rxSeq + 1) % 2 ^ 24 then
      let s := modPort s p (fun y => { y with rxSeq := flitSeq flit, nak := false })
      let s := (List.range 8).foldl (fun t c =>
        modPort t p (fun y => { y with credit := mput y.credit c (creditLeft t p c + flitCredit flit c) })) s
      let s := takeAck s p (flitAck flit)
      let s := if flitNak flit then
          emit (bumpBy s (Reg.brmPerrReplays.ix p) (portOf s p).replay.length) (.flit p 2 ((flitAck flit + 1) % 2 ^ 24))
        else s
      emit (drainPort s p) (.flit p 0 (flitSeq flit))
    else emit (modPort s p (fun x => { x with nak := true })) (.flit p 1 x.rxSeq)

/-! ### Violations and quarantine (R390, R391) -/

/-- An occurrence that automatic fencing counts (R453), in consecutive windows of FW_AUTO.WINDOW ticks; with the new count of the
unit. -/
def autoCount (s : State) (key : Nat) : State × Nat :=
  let w := tickOf s / atLeast1 s Reg.fwAutoWindow
  let f := if w = s.fw.autoStart then s.fw else { s.fw with autoCnt := [], autoStart := w }
  let n := (mget f.autoCnt key).getD 0 + 1
  ({ s with fw := { f with autoCnt := mput f.autoCnt key n } }, n)

/-- The firmware has fenced a unit on its own authority (R453). -/
def autoFenced (s : State) : State := crownEventOpen (bump s Reg.fwRecoverAutoFences) 0x0701 1

/-- A port is fenced when its quarantines in one window reach P_TH (R453). -/
def autoPort (s : State) (p : Nat) : State :=
  let r := autoCount s (0x20000 + p)
  if flagF s Reg.fwCtrlAutoPort && decide (r.2 ≥ getF s Reg.fwAutoPTh) then autoFenced (portFenceSet r.1 p 1) else r.1

/-- A violation is received on a port; over budget the port is quarantined. -/
def violation (s : State) (p : Nat) : State :=
  let s := bump s (Reg.brmPerrViol.ix p)
  let w := tickOf s / 1000
  let n := (if (portOf s p).window = w then (portOf s p).viol else 0) + 1
  let s := modPort s p (fun x => { x with window := w, viol := n })
  if portUp s p && n > atLeast1 s Reg.brmCtrlViolBudget then
    let s := modPort s p (fun x => { x with quarEnd := tickOf s + atLeast1 s Reg.brmCtrlQuarTicks })
    autoPort (leaveUp (setPortSt s p 3) p) p
  else s

/-- QUARANTINE_END (R391, R412): the port returns to UP, and the quarantine is logged in the Crown's log and as a CXL record. -/
def quarantineEnd (p : Nat) (s : State) : State :=
  if decide (p < 16) && portSt s p = 3 && decide (tickOf s ≥ (portOf s p).quarEnd)
  then
    let s := portEvent (setPortSt s p 2) p
    cxlEvent s 1 false 0x0601 (portWord s p)
  else s

/-- Drop a received packet (R390): counted; a violation where the table says so; a NAK with the reason. -/
def dropPacket (s : State) (port : Nat) (p : Packet) (reason : Nat) (viol : Bool) : State :=
  let s := bump s (Reg.brmPfwdDropped.ix port)
  let s := sendNak s p reason
  if viol then violation s port else s

/-! ### Forwarding and port maps (R28, R387, R388) -/

/-- The words of a packet that its buffer found damaged are counted and logged, and its poisoned words are counted as arriving (R307,
R308, R323). -/
def arrives (s : State) (port : Nat) (p : Packet) : State := bumpBy (pathHits s port p.path) Reg.intPoisonCarried p.pois.length

/-- A packet as its buffer holds it (R307): words damaged beyond correction are poisoned. -/
def inBuffer (p : Packet) : Packet := { p with pois := (pathLost p.path).foldl sinsert p.pois, path := [] }

/-- A packet for another node goes on (R28, R388): to the port of the node it is for, where this node reaches it directly. -/
def forwardOn (port : Nat) (p : Packet) (s : State) : State :=
  match (if port < 14 && p.dest < 64 then portTo (nodeNo s) p.dest else none) with
  | some q =>
    if portUp s q then
      let s := modBrim s (fun b => { b with forwards := b.forwards ++ [⟨port, q, p⟩] })
      bump (sendOn s q p (some (fwdKey p, p.offset))) (Reg.brmPfwdFwd.ix q)
    else dropPacket s port p 4 false
  | none => dropPacket s port p 4 false

/-- PACKET_FORWARD (R28, R388): a packet for another node arrived on a port. -/
def packetForward (port : Nat) (p : Packet) (s : State) : State :=
  if portSt s port = 3 then bump s (Reg.brmPfwdDropped.ix port)
  else if !(portUp s port) || p.dest = nodeNo s then s
  else forwardOn port (inBuffer p) (arrives s port p)

/-- The mask of UP rack ports (R385). -/
def upMask (s : State) : Nat := maskOf 14 (portUp s)

/-- PORTMAP_SEND (R387): a PORTMAP on every UP rack port, where the set has changed or 1,000 ticks have passed. -/
def portmapSend (s : State) : State :=
  if upMask s != s.brim.mapSent || tickOf s ≥ s.brim.mapTick + 1000 then
    let s := modBrim s (fun b => { b with mapSent := upMask s, mapTick := tickOf s })
    (setBitsOf 14 (upMask s)).foldl (fun t p =>
      let h := { packet0 10 7 (nodeNo t) (neighbour (nodeNo t) p) with
                 plen := 8, total := 8, payload := toBytes 8 (upMask t) }
      emit (sendOn t p h none) (.portmap p (upMask t))) s
  else s

end Sys2Proof.Machine
end

