-- ==== Sys2Proof/Machine/Rma.lean ====
section
/-! DEFINITION. Remote memory access (R392–R405): regions and keys, operations, packets received, reassembly, atomics, failures and
timeouts, FLUSH and WAIT. -/
namespace Sys2Proof.Machine

/-! ### Keys and poison marks -/

/-- The generation of a region slot (R393). -/
def slotGen (s : State) (slot : Nat) : Nat := (mget s.brim.gens slot).getD 1

/-- The generation after one (R393). -/
def nextGen (g : Nat) : Nat := if g = 0xFFFF then 1 else g + 1

/-- The region that a key names (R393, R395): registered, of this generation, not being removed. -/
def regionOf (s : State) (key : Nat) : Option Region :=
  match mget s.brim.regions (key % 65536) with
  | some r => if key / 65536 = slotGen s (key % 65536) && r.closing.isNone then some r else none
  | none => none

/-- Words of a message that are poisoned, from the poisoned words of the memory it was read from at `addr`. -/
def msgPois (addr len : Nat) (pois : List Nat) : List Nat :=
  (List.range (ceilDiv len 16)).filter (fun i =>
    let a := addr % 16 + 16 * i
    pois.any (fun w => decide (16 * w < a + min 16 (len - 16 * i)) && decide (a < 16 * w + 16)))

/-- Words of memory at `addr` that become poisoned, from the poisoned words of the bytes placed there. -/
def memPois (addr len : Nat) (pois : List Nat) : List Nat :=
  (List.range (wordSpan addr len)).filter (fun i =>
    pois.any (fun w => decide (addr % 16 + 16 * w < 16 * i + 16) && decide (16 * i < addr % 16 + min len (16 * w + 16))))

/-- Bytes of a message placed at a node-range address. -/
def placeBytes (s : State) (addr : Nat) (bs : List Byte) (pois : List Nat) : State :=
  (nrWrite s addr bs (memPois addr bs.length pois)).1

/-- The status a NAK's reason gives its operation (R398). -/
def nakStatus (reason : Nat) : Status :=
  match reason with
  | 1 => .malformed | 2 => .keyInvalid | 3 => .accessDenied | 4 => .fenced | 5 => .busy | 6 => .busy | _ => .reassemblyFailed

/-- The reason for which a packet's key, rights or range fail (R390): 0 where they hold; `right` is the bit of RIGHTS asked for. -/
def keyReason (s : State) (p : Packet) (right : Nat) : Nat :=
  if p.lent then
    match mget s.tiers.lentOut p.key with
    | some e => if e.borrower != some p.src then 2 else if p.addr + p.total > 65536 then 3 else 0
    | none => 2
  else match regionOf s p.key with
    | none => 2
    | some r =>
      if !(r.rights.testBit right) || p.addr + p.total > r.length || (r.peer != 0x1FF && r.peer != p.tenant)
        || (right = 2 && p.addr % 8 != 0) then 3 else 0

/-- Where region offset ADDR lies: a node-range address, or a lent frame's bytes at a site. -/
inductive Target where
  | node (addr : Nat)
  | frame (site addr : Nat)
  deriving DecidableEq, Repr

/-- The site of a target in a lent frame. -/
def Target.site : Target → Option Nat
  | .node _ => none
  | .frame i _ => some i

/-- The address of a target. -/
def Target.addr : Target → Nat
  | .node a => a
  | .frame _ a => a

/-- The target of a packet whose key holds. -/
def targetOf (s : State) (p : Packet) : Target :=
  if p.lent then
    match mget s.tiers.lentOut p.key with
    | some e => .frame e.site (e.frame * 65536 + p.addr)
    | none => .node 0
  else match regionOf s p.key with
    | some r => .node (r.base + p.addr)
    | none => .node 0

/-- Place message bytes at an offset of a target. -/
def Target.put (t : Target) (s : State) (off : Nat) (bs : List Byte) (pois : List Nat) : State :=
  match t with
  | .node a => placeBytes s (a + off) bs pois
  | .frame i a => dramWrite s i (a + off) bs (memPois (a + off) bs.length pois)

/-- Read bytes of a target, with the poisoned words of the message they make. -/
def Target.get (t : Target) (s : State) (len : Nat) : State × List Byte × List Nat :=
  match t with
  | .node a => let r := nrRead s a len; (r.1, r.2.bytes, msgPois a len r.2.pois)
  | .frame i a =>
    let r := dramRead s i (a / 16) (wordSpan a len)
    (r.1, ((r.2.flatMap (·.data)).drop (a % 16)).take len,
      msgPois a len ((List.range r.2.length).filter (fun k => (r.2.getD k ⟨[], false⟩).pois)))

/-- The first word of a target is consumed (R309). -/
def Target.consume (t : Target) (s : State) : State :=
  match t with
  | .node a => consumeNr s (a / 16)
  | .frame i a => Machine.consume s 0 i (a / 16)

/-! ### Descriptors (R396–R398) -/

/-- The destination is one that R384 names. -/
def destOk (d : Nat) : Bool := decide (d < 64) || d = 0x8E || d = 0x8F

/-- Whether an RMA descriptor's fields are in range (R396). -/
def rmaShape (w : Work) : Bool :=
  let atomic := w.cls = 0x12 || w.cls = 0x13
  let z (o n : Nat) := zeroAt w.desc o n
  z 36 4 && z 56 8 &&
  (if w.cls = 0x14 then destOk (w.f 8 1) && z 9 27 && z 40 16
   else if w.cls = 0x15 then z 8 2 && decide (w.f 10 2 < 4096) && z 12 4 && z 24 12 && z 40 16
   else destOk (w.f 8 1) && decide (w.f 9 1 ≤ 6) && z 10 2 &&
     (if atomic then w.f 16 8 % 8 = 0 && w.f 32 4 = 8 && (w.cls = 0x13 || z 48 8)
      else z 40 16 && decide (1 ≤ w.f 32 4) && decide (w.f 32 4 ≤ 2 ^ 24)))

/-- The header that an operation's packets start from. -/
def opHeader (s : State) (w : Work) (kind total req : Nat) : Packet :=
  { packet0 kind (w.f 9 1) (nodeNo s) (w.f 8 1) with
    tenant := w.tenant, queue := w.queue, key := w.f 12 4, addr := w.f 16 8, total := total, reqid := req }

/-- Entries of the outstanding table in use (R397): operations sent, and the FLUSHes and WAITs that hold their queues. -/
def outstanding (s : State) : Nat :=
  s.brim.ops.length + (s.host.work.filter (fun w => (w.cls = 0x14 || w.cls = 0x15) && w.begun)).length

/-- An operation takes an entry of the outstanding table, or completes TABLE_FULL at once where 16,384 are in use (R397). -/
def takeEntry (s : State) (w : Work) (k : State → State) : State :=
  if outstanding s ≥ 16384 then complete (bump s Reg.rmaRefuseTableFull) w .tableFull else k s

/-- Send an operation's message under its outstanding entry (R397): FENCED where no path is up. -/
def startOp (s : State) (w : Work) (kind total : Nat) (bytes : List Byte) (pois : List Nat) : State :=
  if (availPaths s (w.f 8 1)).isEmpty then complete s w .fenced
  else
    let req := s.brim.nextReq
    match sendMsg s (w.f 8 1) (opHeader s w kind total req) bytes pois (some w.id) none with
    | none => complete s w .fenced
    | some (t, id) =>
      let o : RmaOp := ⟨w.id, w.cls, w.f 8 1, w.tenant, w.queue, w.f 24 8, w.f 32 4, id, none⟩
      beginWork (modBrim t (fun b => { b with
        ops := mput b.ops req o, nextReq := (req + 1) % 2 ^ 32,
        writes := if kind = 1 then b.writes ++ [⟨w.queue, w.f 8 1, id, none⟩] else b.writes })) w.id

/-- The status of a NAK's reason for an operation on this node itself (R396): the same rules apply locally. -/
def localReason (s : State) (w : Work) (total right : Nat) : Nat :=
  keyReason s { opHeader s w 0 total 0 with src := nodeNo s } right

/-- The target of an operation on this node itself. -/
def localTarget (s : State) (w : Work) : Target := targetOf s (opHeader s w 0 1 0)

/-- Apply an atomic to a home word (R399): the old bytes and whether it was poisoned. -/
def applyAtomic (s : State) (t : Target) (swap : Bool) (a b : Nat) (opPois : Bool) : State × Nat × Bool :=
  let r := t.get s 8
  let old := ofBytes r.2.1
  if opPois || !(r.2.2.isEmpty) then
    (t.consume (bump r.1 Reg.rmaAtomicPoisoned), old, true)
  else
    let s := bump r.1 Reg.rmaAtomicDone
    if swap then (if old = a then t.put s 0 (toBytes 8 b) [] else s, old, false)
    else (t.put s 0 (toBytes 8 ((old + a) % 2 ^ 64)) [], old, false)

/-- An operation whose fields and local area pass their checks (R396) and that has its entry (R397) goes on with `k`. -/
def onRma (s : State) (id cls len : Nat) (k : State → Work → State) : State :=
  onWork s id cls (fun s w =>
    if !(rmaShape w) then complete s w .malformed
    else if !(inWindow s w.tenant (w.f 24 8) (if len = 0 then w.f 32 4 else len)) then complete s w .accessDenied
    else takeEntry s w (fun s => k s w))

/-- RMA_WRITE (R398). -/
def rmaWrite (work : Nat) (s : State) : State :=
  onRma s work 0x10 0 (fun s w =>
    let len := w.f 32 4
    let r := nrRead s (w.f 24 8) len
    let pois := msgPois (w.f 24 8) len r.2.pois
    let r := (bumpBy r.1 Reg.intPoisonCarried r.2.pois.length, r.2)
    if r.2.timeout then complete r.1 w .timeout
    else if w.f 8 1 = nodeNo s then
      match localReason s w len 1 with
      | 0 => complete ((localTarget s w).put r.1 0 r.2.bytes pois) w .ok
      | n => complete r.1 w (nakStatus n)
    else startOp r.1 w 1 len r.2.bytes pois)

/-- RMA_READ (R398). -/
def rmaRead (work : Nat) (s : State) : State :=
  onRma s work 0x11 0 (fun s w =>
    let len := w.f 32 4
    if w.f 8 1 = nodeNo s then
      match localReason s w len 0 with
      | 0 =>
        let r := (localTarget s w).get s len
        complete (placeBytes (bumpBy r.1 Reg.intPoisonCarried r.2.2.length) (w.f 24 8) r.2.1 r.2.2) w .ok
      | n => complete s w (nakStatus n)
    else startOp s w 2 len [] [])

/-- An atomic descriptor (R399): FETCH_ADD or COMPARE_SWAP. -/
def rmaAtomic (s : State) (work cls : Nat) : State :=
  onRma s work cls 8 (fun s w =>
    let swap := cls = 0x13
    if w.f 8 1 = nodeNo s then
      match localReason s w 8 2 with
      | 0 =>
        let r := applyAtomic s (localTarget s w) swap (w.f 40 8) (w.f 48 8) false
        complete (placeBytes r.1 (w.f 24 8) (toBytes 8 r.2.1) []) w (if r.2.2 then .poisoned else .ok)
      | n => complete s w (nakStatus n)
    else startOp s w (if swap then 5 else 4) 16 (toBytes 8 (w.f 40 8) ++ toBytes 8 (w.f 48 8)) [])

/-- RMA_FETCH_ADD. -/
def rmaFetchAdd (work : Nat) (s : State) : State := rmaAtomic s work 0x12
/-- RMA_COMPARE_SWAP. -/
def rmaCompareSwap (work : Nat) (s : State) : State := rmaAtomic s work 0x13

/-- RMA_FLUSH (R398): it holds its queue until earlier WRITEs to DEST are placed or have failed. -/
def rmaFlush (work : Nat) (s : State) : State :=
  onWork s work 0x14 (fun s w =>
    if !(rmaShape w) then complete s w .malformed else takeEntry s w (fun s => settleFlushes (beginWork s w.id)))

/-- Whether a WAIT's count is reached (R400). -/
def waitDone (s : State) (w : Work) : Bool :=
  match queueOf s (w.f 10 2) with
  | some q => decide (q.done ≥ w.f 16 8)
  | none => false

/-- RMA_WAIT (R400): it holds its queue until WAIT_RELEASE. -/
def rmaWait (work : Nat) (s : State) : State :=
  onWork s work 0x15 (fun s w =>
    if !(rmaShape w) then complete s w .malformed
    else if queueTenant (w.f 10 2) != w.tenant then complete s w .accessDenied
    else takeEntry s w (fun s => beginWork s w.id))

/-- WAIT_RELEASE (R400). -/
def waitRelease (work : Nat) (s : State) : State :=
  match workOf s work with
  | some w => if w.cls = 0x15 && w.begun && waitDone s w then complete s w .ok else s
  | none => s

/-! ### Packets received -/

/-- Whether a sender may reach this node through a port (R390): it is the partner, or its two-hop paths pass through the partner. -/
def srcOk (s : State) (port src : Nat) : Bool :=
  let partner := getF s (Reg.brmPortPartner.ix port)
  src = partner || (decide (port < 14) && decide (src < 64) && (pathSet src (nodeNo s)).contains (some partner))

/-- Whether a packet's fields are in range (R385, R386, R390). -/
def packetOk (p : Packet) : Bool :=
  let msg := p.kind = 1 || p.kind = 3 || p.kind = 9
  let cls7 := p.kind = 7 || p.kind = 8 || p.kind = 10 || p.kind = 11
  !p.rsv && decide (p.cls < 8) && (!cls7 || p.cls = 7) && decide (p.tenant < 512) && decide (p.queue < 4096)
    && p.payload.length = p.plen && decide (1 ≤ p.total) && decide (p.total ≤ 2 ^ 24) &&
    (if msg then p.offset % 4096 = 0 && decide (p.offset < p.total) && p.plen = min 4096 (p.total - p.offset)
     else if p.kind = 4 || p.kind = 5 || p.kind = 6 then p.plen = 16
     else if p.kind = 10 then p.plen = 8
     else if p.kind = 11 then true else p.plen = 0)

/-- The kinds that fabric ingress meters (R435). -/
def metered (kind : Nat) : Bool := [1, 2, 4, 5, 9].contains kind

/-- The cost of a packet at fabric ingress (R433). -/
def packetCost (p : Packet) : Nat := if p.kind = 2 then 48 + p.total else 48 + p.plen

/-- A packet of a kind as its buffer holds it (R307). -/
def takenAs (kind : Nat) (p : Packet) : Packet := { inBuffer p with kind := kind }

/-- A packet of a kind arrives on a port (R390, R391, R435): dropped, forwarded, or handed to `k`. Before a warm reset the ports take no new
request (R466). -/
def receive (s : State) (port kind : Nat) (p0 : Packet) (k : State → Packet → State) : State :=
  if decide (port ≥ 16) then s
  else if portSt s port = 3 then bump s (Reg.brmPfwdDropped.ix port)
  else if !(portUp s port) then s
  else
  let s := arrives s port p0
  let p := takenAs kind p0
  if (port = 15 && portRole s 15 = 2) != (decide (kind = 11)) then dropPacket s port p 1 true
  else if p.dest != nodeNo s && !(decide (port ≥ 14) && destOk p.dest) then forwardOn port p s
  else if !(packetOk p) || !(srcOk s port p.src) then dropPacket s port p 1 true
  else if metered kind && s.power.warmPend then s
  else if metered kind then
    let r := meterTake s true p.tenant (packetCost p)
    match r.2 with
    | .red => dropPacket (bump r.1 Reg.tsFstatRed) port p 5 false
    | .yellow => k (bump r.1 Reg.tsFstatYellow) p
    | .green => k r.1 p
  else k s p

/-- The key of a message at its receiver. -/
def msgKey (p : Packet) : Nat := p.src * 2 ^ 32 + p.msgid

/-- A message is whole (R402): its entry is freed and its key kept among 4,096, the oldest removed early. -/
def madeWhole (s : State) (key expiry : Nat) : State :=
  modBrim s (fun b =>
    let w := b.whole ++ [(key, expiry)]
    { b with reasm := mdel b.reasm key, whole := w.drop (w.length - 4096) })

/-- Take a packet of a message into reassembly (R402, R404): `t` is where message byte 0 goes, if anywhere; `k` runs when the message
is whole. -/
def reassemble (s : State) (port : Nat) (p : Packet) (t : Option Target) (k : State → State) : State :=
  let key := msgKey p
  let i := p.offset / 4096
  if s.brim.whole.any (fun x => x.1 = key) then bump s Reg.rmaReasmDups
  else if s.brim.failed.contains key then dropPacket s port p 7 false
  else
    let fresh := (mget s.brim.reasm key).isNone
    if fresh && s.brim.reasm.length ≥ 4096 then dropPacket s port p 6 false
    else
      let e := (mget s.brim.reasm key).getD ⟨p.kind, (t.bind Target.site), (t.map Target.addr).getD 0, expiryOf s Reg.fwToDescReasm, p.total, [], p.reqid⟩
      if e.got.contains i then bump s Reg.rmaReasmDups
      else
        let s := match t with | some x => x.put s p.offset p.payload p.pois | none => s
        let e := { e with got := sinsert e.got i }
        let s := modBrim s (fun b => { b with reasm := mput b.reasm key e })
        if e.got.length = ceilDiv e.total 4096 then k (madeWhole s key e.expiry) else s

/-- WRITE received (R402). -/
def write (port : Nat) (p : Packet) (s : State) : State :=
  receive s port 1 p (fun s p =>
    match keyReason s p 1 with
    | 0 => reassemble s port p (some (targetOf s p)) (fun s =>
        let h := { packet0 7 7 (nodeNo s) p.src with msgid := p.msgid, reqid := p.reqid }
        match sendMsg s p.src h [] [] none none with
        | some x => x.1
        | none => s)
    | n => dropPacket s port p n true)

/-- READ_REQ received (R398): answered with a READ_DATA message. -/
def readReq (port : Nat) (p : Packet) (s : State) : State :=
  receive s port 2 p (fun s p =>
    match keyReason s p 0 with
    | 0 =>
      let r := (targetOf s p).get s p.total
      let h := { packet0 3 p.cls (nodeNo s) p.src with total := p.total, reqid := p.reqid, tenant := p.tenant, queue := p.queue }
      let s := bumpBy r.1 Reg.intPoisonCarried r.2.2.length
      match sendMsg s p.src h r.2.1 r.2.2 none none with
      | some x => x.1
      | none => s
    | n => dropPacket s port p n true)

/-- READ_DATA received (R403): a READ is bound to the MSGID of the first packet; the whole message completes it. -/
def readData (port : Nat) (p : Packet) (s : State) : State :=
  receive s port 3 p (fun s p =>
    match mget s.brim.ops p.reqid with
    | some o =>
      if o.cls != 0x11 || o.dest != p.src then bump s Reg.fwRecoverLateDropped
      else if o.bound.getD p.msgid != p.msgid then bump s Reg.rmaReasmDups
      else
        let s := modBrim s (fun b => { b with ops := mput b.ops p.reqid { o with bound := some p.msgid } })
        reassemble s port p (some (.node o.laddr)) (fun s => endOp s p.reqid .ok)
    | none => if s.brim.whole.any (fun x => x.1 = msgKey p) then bump s Reg.rmaReasmDups else bump s Reg.fwRecoverLateDropped)

/-- Answer an atomic (R399). -/
def sendAtomicResp (s : State) (p : Packet) (r : Replay) : State :=
  let h := { packet0 6 p.cls (nodeNo s) p.src with
             reqid := p.reqid, reason := r.status, plen := 16, total := 16, tenant := p.tenant, queue := p.queue }
  match sendMsg s p.src h (toBytes 8 r.old ++ zeros 8) [] none none with
  | some x => x.1
  | none => s

/-- An atomic received (R399): applied once, its result kept for repeats. -/
def atomicIn (s : State) (port kind : Nat) (p : Packet) : State :=
  receive s port kind p (fun s p =>
    let key := p.src * 2 ^ 32 + p.reqid
    match keyReason s { p with total := 8 } 2 with
    | 0 =>
      match mget s.brim.atomics key with
      | some r => sendAtomicResp (bump s Reg.rmaAtomicReplayed) p r
      | none =>
        if s.brim.atomics.length ≥ 4096 then dropPacket s port p 6 false
        else
          let a := applyAtomic s (targetOf s p) (kind = 5) (getLE p.payload 0 8) (getLE p.payload 8 8) (!p.pois.isEmpty)
          let r : Replay := ⟨a.2.1, if a.2.2 then Status.poisoned.code else 0, expiryOf s Reg.fwToDescRma⟩
          sendAtomicResp (modBrim a.1 (fun b => { b with atomics := mput b.atomics key r })) p r
    | n => dropPacket s port p n true)

/-- FETCH_ADD received. -/
def fetchAdd (port : Nat) (p : Packet) (s : State) : State := atomicIn s port 4 p
/-- COMPARE_SWAP received. -/
def compareSwap (port : Nat) (p : Packet) (s : State) : State := atomicIn s port 5 p

/-- ATOMIC_RESP received (R398): the old value is placed and the atomic completes; a late one is dropped (R450). -/
def atomicResp (port : Nat) (p : Packet) (s : State) : State :=
  receive s port 6 p (fun s p =>
    match mget s.brim.ops p.reqid with
    | some o =>
      if (o.cls != 0x12 && o.cls != 0x13) || o.dest != p.src then bump s Reg.fwRecoverLateDropped
      else
        let s := placeBytes s o.laddr (p.payload.take 8) (if p.pois.contains 0 then [0] else [])
        endOp s p.reqid (if p.reason = Status.poisoned.code then .poisoned else .ok)
    | none => bump s Reg.fwRecoverLateDropped)

/-- PLACED received (R398). -/
def placed (port : Nat) (p : Packet) (s : State) : State :=
  receive s port 7 p (fun s p =>
    match s.brim.writes.find? (fun w => w.msgid = p.msgid && w.dest = p.src && w.failed.isNone) with
    | some w => settleFlushes (modBrim s (fun b => { b with writes := b.writes.erase w }))
    | none => bump s Reg.fwRecoverLateDropped)

/-- What ends a SYS message is left to the search (R127, R397); `k` is told what the message said and the status. -/
def nakIn (s : State) (port : Nat) (p : Packet) (k : State → Nat → SysMsg → Status → State) : State :=
  receive s port 8 p (fun s p =>
    let s := bump s Reg.rmaNakReceived
    let s := if p.lent && p.reason = 2 then
        lentUnknown s p.src p.key else s
    match mget s.brim.msgs p.msgid with
    | none => s
    | some m =>
      let fail (s : State) (st : Status) : State :=
        match m.sys with
        | some y => k (modBrim s (fun b => { b with msgs := mdel b.msgs p.msgid })) m.dest y st
        | none => failMsg s p.msgid st
      if p.reason = 4 then (match resend s p.msgid (p.offset / 4096) with | some t => t | none => fail s .fenced)
      else
        let s := if p.reason = 5 || p.reason = 6 then stopMsg s p.msgid else s
        fail s (nakStatus p.reason))

/-- PORTMAP received (R387). -/
def portmap (port : Nat) (p : Packet) (s : State) : State :=
  receive s port 10 p (fun s p => modBrim s (fun b => { b with portmaps := mput b.portmaps p.src (getLE p.payload 0 8) }))

/-! ### Timeouts (R397, R399, R402, R404) -/

/-- A move whose destination is a lender that has not answered within the RMA timeout is abandoned (R333). -/
def lenderTimeout (s : State) (slot : Nat) : State :=
  match mget s.tiers.moves slot with
  | some m =>
    match m.dst with
    | .lent .. => if tickOf s ≥ m.start + atLeast1 s Reg.fwToDescRma then resumeWaits (abandonMove s slot) else s
    | _ => s
  | none => s

/-- RMA_TIMEOUT (R398, R444): no response to a message within the RMA timeout; a SYS message is given up that long after its last packet
was acknowledged (R397). Numbers from 2^32 on name the whole-page WRITE of the move
in that entry of the move table (R333). -/
def rmaTimeout (msgid : Nat) (s : State) : State :=
  if msgid ≥ 2 ^ 32 then lenderTimeout s (msgid - 2 ^ 32)
  else match mget s.brim.msgs msgid with
  | some m => if decide (tickOf s ≥ m.expiry) && (m.sys.isNone || m.acked) then failMsg s msgid .timeout else s
  | none => s

/-- Bytes whose content the spec leaves undefined. -/
def undefBytes (s : State) (t : Target) (off n : Nat) : State :=
  let r := freeVal s
  t.put r.1 off (toBytes n r.2) []

/-- REASSEMBLY_TIMEOUT (R404): the entry is freed, the failure counted and logged, the bytes placed left undefined. -/
def reassemblyTimeout (src msgid : Nat) (s : State) : State :=
  let key := src * 2 ^ 32 + msgid
  match mget s.brim.reasm key with
  | none => s
  | some e =>
    if tickOf s < e.expiry then s
    else
      let s := bump (modBrim s (fun b => { b with reasm := mdel b.reasm key, failed := sinsert b.failed key })) Reg.rmaReasmFailed
      let t : Target := match e.site with | some i => .frame i e.addr | none => .node e.addr
      let s := if e.kind = 9 then s else e.got.foldl (fun u i => undefBytes u t (4096 * i) (min 4096 (e.total - 4096 * i))) s
      let r := freeVal s
      let s := crownEventOpen r.1 (r.2 % 2 ^ 16) (r.2 / 2 ^ 16 % 4)
      if e.kind = 3 then endOp s e.reqid .reassemblyFailed else s

/-- WHOLE_KEY_EXPIRY (R402). -/
def wholeKeyExpiry (src msgid : Nat) (s : State) : State :=
  modBrim s (fun b => { b with whole := b.whole.filter (fun x =>
    !(x.1 = src * 2 ^ 32 + msgid && decide (tickOf s ≥ x.2))) })

/-- ATOMIC_REPLAY_EXPIRY (R399). -/
def atomicReplayExpiry (src req : Nat) (s : State) : State :=
  modBrim s (fun b => { b with atomics := b.atomics.filter (fun x =>
    !(x.1 = src * 2 ^ 32 + req && decide (tickOf s ≥ x.2.expiry))) })

/-! ### Regions (R392–R395) -/

/-- Change PINS of pages. -/
def pinPages (s : State) (pages : List Nat) (up : Bool) : State :=
  pages.foldl (fun t p => setEnt t p { pageEnt t p with pins := if up then (pageEnt t p).pins + 1 else (pageEnt t p).pins - 1 }) s

/-- Whether a page is ZERO. -/
def isZeroPage (s : State) (p : Nat) : Bool := (pageEnt s p).home = .zero

/-- Home every page in T2 or ZERO (R394): none where one has no frame. -/
def homePages (s : State) (pages : List Nat) : Option State :=
  pages.foldl (fun (a : Option State) p => a.bind (fun t =>
    let t := settle (homeCheck (mayRetry t p) p) p
    if isZeroPage t p || isT2 (pageEnt t p).home then some t else moveToT2 (seekFrame t (pageEnt t p).tenant) p none)) (some s)

/-- REGION_REGISTER (R392–R394). -/
def regionRegister (work : Nat) (s : State) : State :=
  onAdmin s work 0x40 32 false (fun s w b =>
    let base := getLE b 0 8
    let len := getLE b 8 8
    let peer := getLE b 16 2
    let rights := getLE b 18 1
    let full (s : State) := complete (bump s Reg.rmaRefuseTableFull) w .tableFull
    if base % 64 != 0 || len < 64 || len > 2 ^ 40 || len % 64 != 0 || peer > 511 || rights = 0 || rights > 7
      || !(zeroAt b 19 1) || !(zeroAt b 24 8) then complete s w .malformed
    else if !(inWindow s w.tenant base len) then complete s w .accessDenied
    else
      let pages := pagesOf base len
      if pages.any (fun p => decide ((pageEnt s p).pins ≥ 255)) then full s
      else match mfree s.brim.regions 65536, homePages s pages with
        | some slot, some t =>
          let t := modBrim (pinPages t pages true) (fun x => { x with regions := mput x.regions slot ⟨w.tenant, base, len, peer, rights, none⟩ })
          completeWith t w (w.opAddr + 20) (toBytes 4 (slotGen t slot * 65536 + slot)) .ok (res := [])
        | _, _ => full s)

/-- REGION_DEREGISTER (R395): the key is accepted for removal. -/
def regionDeregister (work : Nat) (s : State) : State :=
  onAdmin s work 0x41 32 false (fun s w b =>
    let key := getLE b 0 4
    if !(zeroAt b 4 28) then complete s w .malformed
    else match regionOf s key with
      | some r =>
        if adminMay w r.tenant then
          beginWork (modBrim s (fun x => { x with regions := mput x.regions (key % 65536) { r with closing := some w.id } })) w.id
        else complete s w .keyInvalid
      | none => complete s w .keyInvalid)

/-- REGION_DEREGISTER_DONE (R395): pins are dropped, the slot is freed, its generation advances. -/
def regionDeregisterDone (slot : Nat) (s : State) : State :=
  match mget s.brim.regions slot with
  | some r =>
    match r.closing with
    | some id =>
      let s := pinPages s (pagesOf r.base r.length) false
      completeId (modBrim s (fun x => { x with
        regions := mdel x.regions slot, gens := mput x.gens slot (nextGen (slotGen s slot)) })) id .ok
    | none => s
  | none => s

end Sys2Proof.Machine
end

