-- ==== Sys2Proof/Machine/SearchData.lean ====
section
/-! DEFINITION. What a shard holds and how it is read (R93–R108, R133–R136): registrations, shard descriptors, rows and their
versions, records, approximate and exact scores. -/
namespace Sys2Proof.Machine

/-- Update the search part of the state. -/
def modSrch (s : State) (f : Srch → Srch) : State := { s with srch := f s.srch }

/-- A read of the node range: bytes, and whether a word of it is poisoned or its lender does not answer. -/
def rdB (s : State) (addr n : Nat) : State × List Byte × Bool :=
  if n = 0 then (s, [], false) else let r := nrRead s addr n; (r.1, r.2.bytes, r.2.bad || r.2.timeout)

/-- A read whose value is used: a poisoned word of it is consumed (R309). Bytes that cannot be had, in a page whose lender does not answer,
count as poisoned ones that nothing consumes: a map byte, an item ID, code, norm, hot entry, codebook or bitmap word (log entry 82). -/
def rdC (s : State) (addr n : Nat) : State × List Byte × Bool :=
  if n = 0 then (s, [], false)
  else
    let r := nrRead s addr n
    (if r.2.bad then consumeNr r.1 (r.2.first addr) else r.1, r.2.bytes, r.2.bad || r.2.timeout)

/-! ### Index registrations (R93) -/

/-- Owning tenant of a registration. -/
def ixTenant (r : List Byte) : Nat := getLE r 2 2
/-- DIMS. -/
def ixDims (r : List Byte) : Nat := getLE r 4 2
/-- VFMT. -/
def ixVfmt (r : List Byte) : Nat := getLE r 6 1
/-- DIST. -/
def ixDist (r : List Byte) : Nat := getLE r 7 1
/-- CODE. -/
def ixCode (r : List Byte) : Nat := getLE r 8 1
/-- M, the product-quantised subspaces. -/
def ixM (r : List Byte) : Nat := getLE r 9 1 + 1
/-- COLS. -/
def ixCols (r : List Byte) : Nat := getLE r 10 1
/-- MAP_PAGE. -/
def ixMapPage (r : List Byte) : Nat := getLE r 12 4
/-- PRESCAN_PAGE. -/
def ixPrePage (r : List Byte) : Nat := getLE r 16 4
/-- PRESCAN_SLOTS. -/
def ixPreSlots (r : List Byte) : Nat := getLE r 20 2
/-- COLTYPE of column j. -/
def ixColType (r : List Byte) (j : Nat) : Nat := bits (getLE r 24 8) (4 * j) 4
/-- SLOT_PAGES. -/
def ixSlotPages (r : List Byte) : Nat := getLE r 32 4
/-- Bytes of column j's values. -/
def colWidth (r : List Byte) (j : Nat) : Nat := 2 ^ (ixColType r j % 4)
/-- Whether column j is signed. -/
def colSigned (r : List Byte) (j : Nat) : Bool := (ixColType r j).testBit 2

/-- The distance code of the score operations: 0 squared Euclidean, 1 inner product, 2 cosine. -/
def ixDistOp (r : List Byte) : Nat := (ixDist r + 1) % 3

/-- Bytes of an item's compressed code (R99). -/
def codeBytes (r : List Byte) : Nat :=
  if ixCode r = 1 then ixM r else (if ixCode r = 9 then 272 else 144) * ceilDiv (ixDims r) 256

/-- Bytes of one element of a full vector (R103). -/
def vecElem (r : List Byte) : Nat := if ixVfmt r = 4 || ixVfmt r = 7 then 1 else 2

/-- Whether a page field is in range (R93). -/
def pageOk (n : Nat) : Bool := decide (n < 2 ^ 28)

/-- Whether a run of pages, zero or more, lies in a tenant's window. -/
def pagesIn (s : State) (t page bytes : Nat) : Bool := bytes = 0 || inWindow s t (page * 65536) bytes

/-- The checks of an index registration but for its number (R93). -/
def indexOk (s : State) (r : List Byte) : Bool :=
  decide (ixTenant r < 512) && decide (1 ≤ ixDims r) && decide (ixDims r ≤ 4096) && [2, 3, 4, 7].contains (ixVfmt r)
    && decide (ixDist r ≤ 2) && [1, 9, 10].contains (ixCode r)
    && (if ixCode r = 1 then ixDims r % ixM r = 0 else ixM r = 1)
    && decide (ixCols r ≤ 16) && zeroAt r 11 1 && zeroAt r 22 2 && zeroAt r 36 12
    && pageOk (ixMapPage r) && pageOk (ixPrePage r) && decide (ixPreSlots r ≤ 1024)
    && (List.range 16).all (fun j => decide (ixColType r j < 8))
    && (if ixPreSlots r = 0 then ixPrePage r = 0 && ixSlotPages r = 0
        else decide (1 ≤ ixSlotPages r) && decide (ixSlotPages r ≤ 8192))
    && pagesIn s (ixTenant r) (ixMapPage r) 65536
    && pagesIn s (ixTenant r) (ixPrePage r) (ixPreSlots r * ixSlotPages r * 65536)

/-! ### Shard descriptors (R98) -/

/-- The key of a shard. -/
def shardKey (index shard : Nat) : Nat := index * 65536 + shard
/-- The key of a row. -/
def rowKey (sk loc : Nat) : Nat := sk * 2 ^ 32 + loc
/-- CAPACITY: 0 means 2^32. -/
def shCap (d : List Byte) : Nat := if getLE d 4 4 = 0 then 2 ^ 32 else getLE d 4 4
/-- DEGREE. -/
def shDegree (d : List Byte) : Nat := getLE d 8 1
/-- TOP. -/
def shTop (d : List Byte) : Nat := getLE d 9 1
/-- REC_DRAM. -/
def shRecDram (d : List Byte) : Bool := (getLE d 10 1).testBit 0
/-- ENTRY. -/
def shEntry (d : List Byte) : Nat := getLE d 12 4
/-- CODE_SCALE. -/
def shScale (d : List Byte) : Nat := getLE d 16 4
/-- A page field of the descriptor as a byte address. -/
def shPage (d : List Byte) (off : Nat) : Nat := getLE d off 4 * 65536
/-- The page of column j. -/
def shCol (d : List Byte) (j : Nat) : Nat := shPage d (40 + 4 * j)
/-- The address of level ℓ's entries. -/
def shLevel (d : List Byte) (l : Nat) : Nat := shPage d (104 + 8 * (l - 1))
/-- The number of level ℓ's entries. -/
def shLevelN (d : List Byte) (l : Nat) : Nat := getLE d (108 + 8 * (l - 1)) 4

/-- REC, the bytes of a record (R103). -/
def recBytes (r d : List Byte) : Nat := 32 * ceilDiv (32 + 4 * shDegree d + ixDims r * vecElem r) 32

/-- The record page and offset of record i (R104). -/
def recPlace (r d : List Byte) (i : Nat) : Nat × Nat :=
  let n := recBytes r d
  if n ≤ 2048 then (i / 2, 2048 * (i % 2)) else if n ≤ 4096 then (i, 0) else (i * ceilDiv n 4096, 0)

/-- Record pages that a shard's capacity takes (R104). -/
def recPages (r d : List Byte) : Nat :=
  let n := recBytes r d
  if n ≤ 2048 then ceilDiv (shCap d) 2 else if n ≤ 4096 then shCap d else shCap d * ceilDiv n 4096

/-- The FP32 bits of 2^e (R98). -/
def pow2Bits (e : Int) : Nat := ((127 + e).toNat) * 2 ^ 23

/-- The area that names a shard's records (R356). -/
def recArea (s : State) (sk : Nat) : Option Area :=
  match mget s.flash.areas sk with
  | some a => if a.kind = 1 then some a else none
  | none => none

/-- The checks of a shard descriptor (R96, R98, R358) under its registration. A local index ENTRY beyond the capacity is out of range
(log entry 15). -/
def shardOk (s : State) (r d : List Byte) : Bool :=
  let t := ixTenant r
  let cap := shCap d
  let pq := ixCode r = 1
  decide (1 ≤ shDegree d) && decide (shDegree d ≤ 64) && decide (shTop d ≤ 8) && decide (getLE d 10 1 < 2) && zeroAt d 11 1
    && zeroAt d 168 24
    && (if pq then shScale d = 0 else (List.range 34).any (fun k => shScale d = pow2Bits ((k : Int) - 24)))
    && (List.range 5).all (fun i => pageOk (getLE d (20 + 4 * i) 4))
    && (pq || getLE d 28 4 = 0) && (ixDist r = 1 || getLE d 32 4 = 0) && (shRecDram d || getLE d 36 4 = 0)
    && (List.range 16).all (fun j => pageOk (getLE d (40 + 4 * j) 4) && (decide (j < ixCols r) || getLE d (40 + 4 * j) 4 = 0))
    && (List.range 8).all (fun l => pageOk (getLE d (104 + 8 * l) 4) && (decide (l < shTop d) || zeroAt d (104 + 8 * l) 8))
    && (shTop d != 0 || decide (shEntry d < cap))
    && pagesIn s t (getLE d 20 4) (cap * 8) && pagesIn s t (getLE d 24 4) (cap * codeBytes r)
    && (!pq || pagesIn s t (getLE d 28 4) (256 * ixDims r * 2))
    && (ixDist r != 1 || pagesIn s t (getLE d 32 4) (cap * 4))
    && (if shRecDram d then pagesIn s t (getLE d 36 4) (recPages r d * 4096)
        else match recArea s (getLE d 0 4 % 65536 * 65536 + getLE d 2 2) with
          | some a => a.tenant = t && decide (recPages r d ≤ a.pages)
          | none => false)
    && (List.range (ixCols r)).all (fun j => pagesIn s t (getLE d (40 + 4 * j) 4) (cap * colWidth r j))
    && (List.range (shTop d)).all (fun l => pagesIn s t (getLE d (104 + 8 * l) 4) (getLE d (108 + 8 * l) 4 * 128))
    && (ixPreSlots r = 0 || decide (ceilDiv cap 8 ≤ ixSlotPages r * 65536))

/-! ### Areas of the flash store -/

/-- The FLU and read unit of a page of an area (R356). -/
def areaFlu (a : Area) (page : Nat) : Nat × Nat := (a.first + page / 4, page % 4)

/-- Whether a page of an area can be read now: the store is mounted, no write to the page's unit waits, and it lies on no lost die (R116,
R359, R366, R372). -/
def areaReady (s : State) (a : Area) (page : Nat) : Bool :=
  flashReadable s && !(writeWaits s (areaFlu a page).1) && match mget s.flash.map (areaFlu a page).1 with
  | some pu => !(puBlocked s pu)
  | none => true

/-- The pages of an area that hold `n` bytes from byte `off` of a page are read from flash (R365). -/
def areaFetch (s : State) (a : Area) (page n : Nat) : State :=
  (List.range (ceilDiv n 4096)).foldl (fun t i => let x := areaFlu a (page + i); recoverFlu t x.1 [x.2]) s

/-- The words of pages of an area. -/
def areaWords (s : State) (a : Area) (page n : Nat) : List PWord :=
  (List.range (ceilDiv n 4096)).flatMap (fun i => let x := areaFlu a (page + i); ruWords (fluRu s x.1 x.2))

/-- Bytes of an area, with whether a word of them is poisoned. -/
def areaRead (s : State) (a : Area) (page off n : Nat) : State × List Byte × Bool :=
  let s := areaFetch s a page (off + n)
  let ws := areaWords s a page (off + n)
  (s, ((ws.flatMap (·.data)).drop off).take n,
   (List.range (wordSpan off n)).any (fun i => (ws.getD (off / 16 + i) ⟨[], false⟩).pois))

/-- The fold writes bytes into one page of an area: none where it must wait for an earlier write to the page's unit (R359), or the store
takes no writes; programs that it waits for end at once (R360). -/
def areaWrite (s : State) (a : Area) (page off : Nat) (bs : List Byte) (pois : List Nat) : Option State :=
  let x := areaFlu a page
  if writeWaits s x.1 then none else
  let s := recoverFlu (makeRoom s) x.1 [x.2]
  let ws := mergeWords (ruWords (fluRu s x.1 x.2)) off bs pois
  fluWriteRu s x.1 (if a.kind = 1 then 2 else 3) a.name x.2 (wordsRu ws)

/-! ### Rows (R133, R134) -/

/-- A hosted shard with its registration, as the operations below need it. -/
structure Ctx3 where
  sk : Nat
  reg : List Byte
  desc : List Byte
  deriving DecidableEq, Repr

/-- A hosted shard by key. -/
def ctxOf (s : State) (sk : Nat) : Option (Shard × Ctx3) :=
  match mget s.srch.shards sk, mget s.srch.indexes (sk / 65536) with
  | some h, some r => some (h, ⟨sk, r, h.desc⟩)
  | _, _ => none

/-- A row's newer version (R133). -/
def newer (s : State) (sk loc : Nat) : Option RowVer := mget s.srch.versions (rowKey sk loc)

/-- The newer version that a reader at epoch `e` reads (R134). -/
def newerAt (s : State) (sk loc e : Nat) : Option RowVer :=
  match newer s sk loc with
  | some v => if v.vfrom ≤ e then some v else none
  | none => none

/-- The parts that a newer version carries. -/
def newerData (s : State) (sk loc e : Nat) : Option RowData := (newerAt s sk loc e).bind (·.data)

/-- An item's ID at an epoch: none where it reads poisoned. -/
def itemId (s : State) (c : Ctx3) (loc e : Nat) : State × Option Nat :=
  match newerData s c.sk loc e with
  | some d => (s, some d.id)
  | none => let r := rdC s (shPage c.desc 20 + loc * 8) 8; (r.1, if r.2.2 then none else some (ofBytes r.2.1))

/-- The reserved all-ones ID (R8, R99). -/
def noId : Nat := 2 ^ 64 - 1

/-- An item's compressed code at an epoch. -/
def itemCode (s : State) (c : Ctx3) (loc e : Nat) : State × Option (List Byte) :=
  match newerData s c.sk loc e with
  | some d => (s, some d.code)
  | none =>
    let r := rdC s (shPage c.desc 24 + loc * codeBytes c.reg) (codeBytes c.reg)
    (r.1, if r.2.2 then none else some r.2.1)

/-- An item's entry of the norm array at an epoch; 0 where the distance is not cosine. -/
def itemNorm (s : State) (c : Ctx3) (loc e : Nat) : State × Option Nat :=
  if ixDist c.reg != 1 then (s, some 0)
  else match newerData s c.sk loc e with
    | some d => (s, some d.norm)
    | none => let r := rdC s (shPage c.desc 32 + loc * 4) 4; (r.1, if r.2.2 then none else some (ofBytes r.2.1))

/-- Column j of an item at an epoch, as the column's bytes; with the address of its word. -/
def itemAttr (s : State) (c : Ctx3) (loc e j : Nat) : State × Option Nat × Nat :=
  let w := colWidth c.reg j
  let a := shCol c.desc j + loc * w
  match newerData s c.sk loc e with
  | some d => (s, some (d.attrs.getD j 0 % 2 ^ (8 * w)), a / 16)
  | none => let r := rdB s a w; (r.1, if r.2.2 then none else some (ofBytes r.2.1), a / 16)

/-- The bytes of the base record (R104): none where a word is poisoned, which is consumed where the record is used. -/
def baseRecord (s : State) (c : Ctx3) (loc : Nat) (used : Bool := true) : State × Option (List Byte) :=
  let n := recBytes c.reg c.desc
  let p := recPlace c.reg c.desc loc
  if shRecDram c.desc then
    let a := shPage c.desc 36 + p.1 * 4096 + p.2
    let r := if used then rdC s a n else rdB s a n
    (r.1, if r.2.2 then none else some r.2.1)
  else match recArea s c.sk with
    | some a =>
      let r := areaRead s a p.1 p.2 n
      if r.2.2 then (if used then let f := freeVal r.1; (consume f.1 7 (f.2 % 256) (f.2 / 256), none) else (r.1, none))
      else (r.1, some r.2.1)
    | none => (s, none)

/-- Whether a record can be fetched now (R116). -/
def recReady (s : State) (c : Ctx3) (loc e : Nat) : Bool :=
  let p := recPlace c.reg c.desc loc
  (newerAt s c.sk loc e).isSome || decide (loc ≥ shCap c.desc) ||
    (if shRecDram c.desc then nrReady s (shPage c.desc 36 + p.1 * 4096 + p.2) (recBytes c.reg c.desc)
     else match recArea s c.sk with
       | some a => (List.range (ceilDiv (p.2 + recBytes c.reg c.desc) 4096)).all (fun i => areaReady s a (p.1 + i))
       | none => true)

/-- The physical units that the fetch of a record waits for (R116, R366). -/
def recBlocked (s : State) (c : Ctx3) (loc : Nat) : List Nat :=
  let p := recPlace c.reg c.desc loc
  let n := recBytes c.reg c.desc
  if shRecDram c.desc then (pagesOf (shPage c.desc 36 + p.1 * 4096 + p.2) n).flatMap (pageBlocked s)
  else match recArea s c.sk with
    | some a => ((List.range (ceilDiv (p.2 + n) 4096)).filterMap (fun i => mget s.flash.map (areaFlu a (p.1 + i)).1)).filter (puBlocked s)
    | none => []

/-- DEG of a record. -/
def recDeg (b : List Byte) : Nat := getLE b 20 1
/-- BIRTH of a record. -/
def recBirth (b : List Byte) : Nat := getLE b 8 6
/-- DEATH of a record. -/
def recDeath (b : List Byte) : Nat := getLE b 14 6
/-- The neighbours in use of a record. -/
def recNbrs (b : List Byte) : List Nat := (List.range (recDeg b)).map (fun i => getLE b (32 + 4 * i) 4)
/-- The all-ones DEATH of a live item. -/
def noDeath : Nat := 2 ^ 48 - 1

/-- A base record as it is used: none where SELF or DEG makes it one treated as poisoned (R105). -/
def recUsable (c : Ctx3) (loc : Nat) (b : List Byte) : Option (List Byte) :=
  if getLE b 28 4 = loc && decide (recDeg b ≤ shDegree c.desc) then some b else none

/-- The record of a row at an epoch: none where it is treated as poisoned (R105). -/
def rowRecord (s : State) (c : Ctx3) (loc e : Nat) : State × Option (List Byte) :=
  match newerAt s c.sk loc e with
  | some v => (s, some v.record)
  | none =>
    if loc ≥ shCap c.desc then (s, none)
    else
      let r := baseRecord s c loc
      (r.1, r.2.bind (recUsable c loc))

/-! ### Records staged in the batt store (R118, R325, R326) -/

/-- The version of a row that a reader at an epoch reads, as a staged copy's tag names it. -/
def rowTag (s : State) (sk loc e : Nat) : Nat := match newerAt s sk loc e with | some v => v.vfrom | none => 0

/-- The lines of the batt store kept for search prefetch and what remains (R326): its last ones (log entry 83). -/
def prefetchBase (s : State) : Nat :=
  (16 + (if flagF s Reg.tckTwinCtrlEn then 40 else 0) + getF s Reg.fltRoleStageMib) * 4096

/-- Lines of a run of words. -/
def stagedLines (n : Nat) : Nat := ceilDiv n 16

/-- The staged copies that the batt store holds. -/
def stagedAll (s : State) : List Staged := s.srch.searches.flatMap (fun x => x.2.staged)

/-- The first line of `n` free lines of the prefetch share, the lowest: none where there is no room. -/
def stagedRoom (s : State) (mine : List Staged) (n : Nat) : Option Nat :=
  let used := (stagedAll s ++ mine).map (fun c => (c.line, stagedLines c.words.length))
  ((prefetchBase s :: used.map (fun u => u.1 + u.2)).filter (fun b => decide (b + n ≤ 524288)
    && used.all (fun u => decide (b + n ≤ u.1) || decide (u.1 + u.2 ≤ b)))).min?

/-- The words of the record valid at an epoch, with the node-range bytes they copy: none where it cannot be read now. -/
def recordWords (s : State) (c : Ctx3) (loc e : Nat) : State × Option (List PWord × Option (Nat × Nat)) :=
  let n := recBytes c.reg c.desc
  let p := recPlace c.reg c.desc loc
  if decide (loc ≥ shCap c.desc) || !(recReady s c loc e) then (s, none)
  else match newerAt s c.sk loc e with
    | some v => (s, some ((chunksOf 16 (n / 16) (fitBytes n v.record)).map (fun b => ⟨b, false⟩), none))
    | none =>
      if shRecDram c.desc then
        let a := shPage c.desc 36 + p.1 * 4096 + p.2
        let r := nrReadWords s (a / 16) (n / 16)
        (r.1, if r.2.2 then none else some (r.2.1, some (a, n)))
      else match recArea s c.sk with
        | some a =>
          let s := areaFetch s a p.1 (p.2 + n)
          let ws := areaWords s a p.1 (p.2 + n)
          (s, some ((ws.drop (p.2 / 16)).take (n / 16), none))
        | none => (s, none)

/-- Stage one record (R118): a copy held under a valid tag stays, another of the record is given up; one that finds no room, or cannot be
read now, is dropped (log entry 83). -/
def stageRecord (c : Ctx3) (e : Nat) (a : State × List Staged) (loc : Nat) : State × List Staged :=
  let tag := rowTag a.1 c.sk loc e
  if a.2.any (fun g => g.loc = loc && g.tag = tag) then a
  else
    let mine := a.2.filter (fun g => g.loc != loc)
    match recordWords a.1 c loc e with
    | (t, none) => (t, mine)
    | (t, some ws) =>
      match stagedRoom t mine (stagedLines ws.1.length) with
      | some l => (t, mine ++ [⟨loc, tag, l, ws.2, ws.1⟩])
      | none => (t, mine)

/-- The staged copy that a fetch at an epoch may use: its tag names the version valid there (R118). -/
def stagedOf (s : State) (c : Ctx3) (gs : List Staged) (loc e : Nat) : Option Staged :=
  gs.find? (fun g => g.loc = loc && g.tag = rowTag s c.sk loc e)

/-- The record of a row at an epoch, from a staged copy where one may be used (R118): none where it is treated as poisoned. -/
def fetchRecord (s : State) (c : Ctx3) (gs : List Staged) (loc e : Nat) : State × Option (List Byte) :=
  match stagedOf s c gs loc e with
  | none => rowRecord s c loc e
  | some g =>
    match findIdx (fun (w : PWord) => w.pois) g.words with
    | some i => (consume s 2 0 (g.line * 16 + i), none)
    | none =>
      let b := (g.words.flatMap (·.data)).take (recBytes c.reg c.desc)
      (s, if g.tag = 0 then recUsable c loc b else some b)

/-- Staged copies in space that a change of share takes away are dropped (R326). -/
def trimStaged (s : State) : State :=
  modSrch s (fun r => { r with searches := r.searches.map (fun x =>
    (x.1, { x.2 with staged := x.2.staged.filter (fun g => decide (prefetchBase s ≤ g.line)) })) })

/-- A word of the batt store is written in the poisoned form by its scrubber (R319). -/
def poisonStaged (s : State) (line w : Nat) : State :=
  modSrch s (fun r => { r with searches := r.searches.map (fun x => (x.1, { x.2 with staged := x.2.staged.map (fun g =>
    if g.line ≤ line then { g with words := modAt g.words ((line - g.line) * 16 + w) (fun p => { p with pois := true }) } else g) })) })

/-! ### Scores (R106–R108) -/

/-- The values of a vector's bytes. -/
def vecVals (fmt dims : Nat) (bs : List Byte) : List FVal := (List.range dims).map (fun i => elemVal fmt (elemAt fmt bs i))

/-- The full vector of a record. -/
def recVec (c : Ctx3) (b : List Byte) : List FVal :=
  vecVals (ixVfmt c.reg) (ixDims c.reg) (b.drop (32 + 4 * shDegree c.desc))

/-- Dimensions of a subspace. -/
def subDims (r : List Byte) : Nat := ixDims r / ixM r

/-- Centroid k of subspace m (R100), from the codebook's bytes. -/
def centroid (r : List Byte) (book : List Byte) (m k : Nat) : List FVal :=
  vecVals 3 (subDims r) (book.drop ((m * 256 + k) * subDims r * 2))

/-- The codebook: none where it is poisoned; empty for QI codes. -/
def readBook (s : State) (c : Ctx3) : State × Option (List Byte) :=
  if ixCode c.reg = 1 then
    let r := rdC s (shPage c.desc 28) (256 * ixDims c.reg * 2)
    (r.1, if r.2.2 then none else some r.2.1)
  else (s, some [])

/-- The lookup table of a query (R108): M × 256 FP32 entries; empty for QI codes. -/
def lutOf (r book : List Byte) (qfmt : Nat) (q : List FVal) : List Nat :=
  if ixCode r != 1 then [] else
  (List.range (ixM r)).flatMap (fun m =>
    let qm := (q.drop (m * subDims r)).take (subDims r)
    (List.range 256).map (fun k =>
      let g := centroid r book m k
      (exactRound (if ixDist r = 2 then exactSqd (needsWide qfmt 3) qm g else exactDot (needsWide qfmt 3) qm g) fp32).code))

/-- The norm of a query, 0 where the distance is not cosine. -/
def queryNorm (r : List Byte) (qfmt : Nat) (q : List FVal) : Nat :=
  if ixDist r = 1 then norm32 (needsWide qfmt qfmt) q else 0

/-- One block of QI codes decoded with zero point 0 (R68, R69). -/
def qiBlock (code scale : Nat) (b : List Byte) : List FVal :=
  let n := if code = 9 then 256 else 128
  (qiDecode code (f32 scale) 0 (vecVals 3 8 (b.drop n)) ((List.range 256).map (fun i => elemAt (if code = 9 then 7 else 8) b i)) 0).1

/-- The vector that QI codes decode to. -/
def qiVec (c : Ctx3) (bs : List Byte) : List FVal :=
  let n := if ixCode c.reg = 9 then 272 else 144
  ((chunksOf n (bs.length / n + 1) bs).flatMap (qiBlock (ixCode c.reg) (shScale c.desc))).take (ixDims c.reg)

/-- The approximate score of a code (R108) as FP32 bits. -/
def approxScore (c : Ctx3) (qfmt : Nat) (q : List FVal) (lut : List Nat) (nq : Nat) (code : List Byte) (nx : Nat) : Nat :=
  if ixCode c.reg = 1 then
    let d := (List.range (ixM c.reg)).foldl (fun x m => exactAdd x (f32 (lut.getD (m * 256 + getLE code m 1) 0)) false) (exactZero true)
    if ixDist c.reg = 1 then cosine32 d nq nx else (exactRound d fp32).code
  else scoreOf (ixDistOp c.reg) (needsWide qfmt 3) q (qiVec c code) nq nx

/-- A query as scores need it: format, values, lookup table, norm. -/
structure Query where
  fmt : Nat
  vals : List FVal
  lut : List Nat
  nq : Nat
  deriving DecidableEq, Repr

/-- The approximate rank key of a code. -/
def approxKey (c : Ctx3) (q : Query) (code : List Byte) (nx : Nat) : Nat :=
  rankKey (ixDistOp c.reg) (approxScore c q.fmt q.vals q.lut q.nq code nx)

/-- The exact score of a record (R107). -/
def exactScore (c : Ctx3) (q : Query) (b : List Byte) : Nat :=
  scoreOf (ixDistOp c.reg) (needsWide q.fmt (ixVfmt c.reg)) q.vals (recVec c b) q.nq (getLE b 24 4)

/-- What the approximate key of a local index comes to (R110, R113, R117): a key and ID; unused; or poisoned. -/
inductive Approx where
  | key (k id : Nat)
  | unused
  | poisoned
  deriving DecidableEq, Repr

/-- The approximate key of a local index at an epoch. -/
def approxOf (s : State) (c : Ctx3) (q : Query) (loc e : Nat) : State × Approx :=
  if loc ≥ shCap c.desc then (s, .poisoned)
  else match itemId s c loc e with
    | (s, none) => (s, .poisoned)
    | (s, some id) =>
      if id = noId then (s, .unused)
      else match itemCode s c loc e with
        | (s, none) => (s, .poisoned)
        | (s, some code) => match itemNorm s c loc e with
          | (s, none) => (s, .poisoned)
          | (s, some nx) => (s, .key (approxKey c q code nx) id)

/-! ### Hot-graph entries (R102) -/

/-- A hot entry: its item, DOWN and neighbours in use. -/
structure Hot where
  item : Nat
  down : Nat
  nbrs : List Nat
  deriving DecidableEq, Repr

/-- Hot entry `slot` of a level: none where it is poisoned or treated so. -/
def hotEntry (s : State) (c : Ctx3) (level slot : Nat) : State × Option Hot :=
  if slot ≥ shLevelN c.desc level then (s, none)
  else
    let r := rdC s (shLevel c.desc level + slot * 128) 128
    if r.2.2 || getLE r.2.1 8 1 > 28 then (r.1, none)
    else (r.1, some ⟨getLE r.2.1 0 4, getLE r.2.1 4 4, (List.range (getLE r.2.1 8 1)).map (fun i => getLE r.2.1 (16 + 4 * i) 4)⟩)

end Sys2Proof.Machine
end

