-- ==== Sys2Proof/Machine/Search.lean ====
section
/-! DEFINITION. Searches (R109–R131, R156–R167): filters, admission, descent, rounds, partial lists, the merge and its result. -/
namespace Sys2Proof.Machine

/-- A shard search in the table. -/
def searchOf (s : State) (id : Nat) : Option SSearch := mget s.srch.searches id

/-- Store a shard search. -/
def setSearch (s : State) (id : Nat) (x : SSearch) : State := modSrch s (fun r => { r with searches := mput r.searches id x })

/-- Poisoned items are counted (R117). -/
def countItems (s : State) (n : Nat) : State := bumpBy s Reg.srcPoisonItems n

/-! ### Filters (R119–R122) -/

/-- An operation of a filter program. -/
structure FOp where
  op : Nat
  col : Nat
  imm : Nat
  deriving DecidableEq, Repr

/-- The operations of a program's bytes. -/
def filterOps (bs : List Byte) : List FOp :=
  (chunksOf 16 (bs.length / 16 + 1) bs).map (fun b => ⟨getLE b 0 1, getLE b 1 1, getLE b 8 8⟩)

/-- Whether an operation compares or tests a column. -/
def opCol (o : Nat) : Bool := decide (1 ≤ o) && decide (o ≤ 9)

/-- Whether IMM is the extension of a value of the column's width (R120). -/
def immOk (r : List Byte) (j imm : Nat) : Bool :=
  let w := 8 * colWidth r j
  if colSigned r j then ux 64 (sx w imm) = imm else imm % 2 ^ w = imm

/-- The depth of the stack after the operations, none where a check of R120 fails. -/
def filterDepth (r : List Byte) : Nat → List (List Byte) → Option Nat
  | d, [] => some d
  | d, b :: bs =>
    let o := getLE b 0 1
    let j := getLE b 1 1
    let imm := getLE b 8 8
    if !(zeroAt b 2 6) then none
    else if opCol o then
      if decide (j < ixCols r) && immOk r j imm && decide (d + 1 ≤ 8) then filterDepth r (d + 1) bs else none
    else if j != 0 || imm != 0 then none
    else if o = 0x13 then (if d + 1 ≤ 8 then filterDepth r (d + 1) bs else none)
    else if o = 0x12 then (if d ≥ 1 then filterDepth r d bs else none)
    else if o = 0x10 || o = 0x11 then (if d ≥ 2 then filterDepth r (d - 1) bs else none)
    else none

/-- Whether a program passes the checks of R120. -/
def filterOk (r : List Byte) (bs : List Byte) : Bool :=
  bs.isEmpty || filterDepth r 0 (chunksOf 16 (bs.length / 16 + 1) bs) = some 1

/-- One comparison or bit test of a column's value (R119). -/
def testCol (r : List Byte) (o : FOp) (v : Nat) : Bool :=
  let w := 8 * colWidth r o.col
  let m := o.imm % 2 ^ w
  let lt := if colSigned r o.col then decide (sx w v < sx w m) else decide (v < m)
  match o.op with
  | 1 => v = m
  | 2 => v != m
  | 3 => lt
  | 4 => lt || v = m
  | 5 => !(lt || v = m)
  | 6 => !lt
  | 7 => v &&& m != 0
  | 8 => v &&& m = m
  | _ => v &&& m = 0

/-- Run a program (R119): each operation with what it finds, where it is a comparison or a bit test. -/
def runFilter : List (FOp × Bool) → List Bool → Bool
  | [], st => st.head? = some true
  | (o, v) :: os, st =>
    if opCol o.op then runFilter os (v :: st)
    else match o.op, st with
      | 0x10, a :: b :: t => runFilter os ((a && b) :: t)
      | 0x11, a :: b :: t => runFilter os ((a || b) :: t)
      | 0x12, a :: t => runFilter os ((!a) :: t)
      | 0x13, t => runFilter os (true :: t)
      | _, t => runFilter os t

/-- The columns a program reads. -/
def filterCols (os : List FOp) : List Nat := os.foldl (fun l o => if opCol o.op then sinsert l o.col else l) []

/-- The operations of a program with their places. -/
def placedOps (os : List FOp) : List (Nat × FOp) := (List.range os.length).zip os

/-- The values of the columns that operations read at an epoch, with the poisoned attribute words met. -/
def readCols (s : State) (c : Ctx3) (os : List FOp) (loc e : Nat) : State × SMap Nat × List Nat :=
  (filterCols os).foldl (fun (a : State × SMap Nat × List Nat) j =>
    match itemAttr a.1 c loc e j with
    | (t, some v, _) => (t, mput a.2.1 j v, a.2.2)
    | (t, none, w) => (t, a.2.1, sinsert a.2.2 w)) (s, [], [])

/-- Evaluate a filter on a local index (R119, R122): whether it passes, with the poisoned attribute words it met. -/
def evalFilter (s : State) (c : Ctx3) (os : List FOp) (loc e : Nat) : State × Bool × List Nat :=
  let r := readCols s c os loc e
  (r.1, r.2.2.isEmpty && runFilter (os.map (fun o => (o, testCol c.reg o ((mget r.2.1 o.col).getD 0)))) [], r.2.2)

/-- The key of what kettles gave for the operation at place `k` of a filter and a local index. -/
def gotKey (k loc : Nat) : Nat := k * 2 ^ 32 + loc

/-- The word of an attribute value of the base columns. -/
def attrWord (c : Ctx3) (j loc : Nat) : Nat := (shCol c.desc j + loc * colWidth c.reg j) / 16

/-- Evaluate a filter on a local index of the base columns with what kettles gave (R122, R286, R291), reading the columns only for the
operations they gave nothing for: whether it passes, the poisoned attribute words that the engine met, and those that kettles met. -/
def evalScan (s : State) (c : Ctx3) (got : SMap Nat) (os : List FOp) (loc : Nat) : State × Bool × List Nat × List Nat :=
  let po := placedOps os
  let r := readCols s c ((po.filter (fun p => (mget got (gotKey p.1 loc)).isNone)).map (·.2)) loc 0
  let kw := (po.filter (fun p => mget got (gotKey p.1 loc) = some 2)).foldl (fun l p => sinsert l (attrWord c p.2.col loc)) []
  let truth (p : Nat × FOp) : Bool := match mget got (gotKey p.1 loc) with
    | some v => v = 1
    | none => testCol c.reg p.2 ((mget r.2.1 p.2.col).getD 0)
  (r.1, r.2.2.isEmpty && kw.isEmpty && runFilter (po.map (fun p => (p.2, truth p))) [], r.2.2, kw)

/-! ### Pre-scan (R121–R124, R140) -/

/-- The address of a pre-scan slot's bitmap (R124). -/
def slotAddr (r : List Byte) (slot : Nat) : Nat := (ixPrePage r + slot * ixSlotPages r) * 65536

/-- How far a pre-scan of the base columns is: the bits set, the poisoned attribute words that the engine met and those that kettles met,
and the poisoned item IDs. -/
structure Scan where
  bits : List Nat
  words : List Nat
  kwords : List Nat
  ids : Nat
  deriving DecidableEq, Repr

/-- One local index of a pre-scan (R122): its base item ID and attributes, whatever newer version it has. No version is valid at epoch 0,
so a read at epoch 0 is one of the base. -/
def scanBase (c : Ctx3) (got : SMap Nat) (os : List FOp) (a : State × Scan) (i : Nat) : State × Scan :=
  match itemId a.1 c i 0 with
  | (t, none) => (t, { a.2 with ids := a.2.ids + 1 })
  | (t, some id) =>
    if id = noId then (t, a.2)
    else
      let f := evalScan t c got os i
      (f.1, { a.2 with bits := if f.2.1 then a.2.bits ++ [i] else a.2.bits, words := f.2.2.1.foldl sinsert a.2.words,
                       kwords := f.2.2.2.foldl sinsert a.2.kwords })

/-- The correction of a pre-scan (R140): the bit of a row whose version valid at an epoch carries attributes of its own. -/
def scanFix (c : Ctx3) (os : List FOp) (e : Nat) (a : State × List Nat) (i : Nat) : State × List Nat :=
  match newerData a.1 c.sk i e with
  | none => a
  | some _ =>
    let f := evalFilter a.1 c os i e
    (f.1, if f.2.1 then sinsert a.2 i else a.2.filter (· != i))

/-- The pre-scan (R122, R140) with what kettles gave: the bits of the allowed local indices, with the poisoned words and item IDs counted
once each. The kettles have consumed the poisoned words that they met (R309). -/
def preScan (s : State) (c : Ctx3) (got : SMap Nat) (os : List FOp) (e : Nat) : State × List Nat × Nat :=
  let r := (List.range (shCap c.desc)).foldl (scanBase c got os) (s, ⟨[], [], [], 0⟩)
  let f := (List.range (shCap c.desc)).foldl (scanFix c os e) (r.2.words.foldl consumeNr r.1, r.2.bits)
  (f.1, f.2, (r.2.words.foldl sinsert r.2.kwords).length + r.2.ids)

/-- Whether every page of the filtered columns is homed on a site whose kettles can scan it (R123). A program that reads no column gives
the kettles nothing to scan, and the engine does it (log entry 85). -/
def kettleScan (s : State) (c : Ctx3) (os : List FOp) : Bool :=
  hasKettles s.part && !(filterCols os).isEmpty &&
  (filterCols os).all (fun j => (pagesOf (shCol c.desc j) (shCap c.desc * colWidth c.reg j)).all (fun p =>
    match (pageEnt s p).home with
    | .t2 i _ => isKettleSite s.part i
        && !(getF s (Reg.ktlFence0Fence.ix (i - 4)) = 2 ^ 64 - 1 && getF s (Reg.ktlFence1Fence.ix (i - 4)) = 2 ^ 64 - 1)
    | _ => false))

/-! ### Capacity and admission (R129) -/

/-- Whether a search has been admitted. -/
def admittedS (x : SSearch) : Bool := x.phase != .waiting

/-- Candidate entries an engine has taken. -/
def engineUsed (s : State) (e : Nat) : Nat :=
  sumNat (s.srch.searches.map (fun x => if admittedS x.2 && x.2.engine = e then x.2.par.lw + x.2.par.k else 0))

/-- Query slots an engine has taken. -/
def engineSlots (s : State) (e : Nat) : List Nat :=
  s.srch.searches.filterMap (fun x => if admittedS x.2 && x.2.engine = e then some x.2.slot else none)

/-- Lookup-table store an engine has taken, in KiB. -/
def engineLut (s : State) (e : Nat) : Nat :=
  sumNat (s.srch.searches.map (fun x => if admittedS x.2 && x.2.engine = e then x.2.lut.length / 256 else 0))

/-- Engines open to admission (R272). -/
def openEngines (s : State) : Nat := if getF s Reg.fltRoleProfile = 1 then 16 else 64

/-- Whether an engine is being reset or asked to release work (R447). -/
def engineDown (s : State) (e : Nat) : Bool := s.fw.inReset.any (fun x => x.1 = .traversal e)

/-- The engine that takes a search (R129): the one with the most free candidate entries, lowest number on ties. -/
def pickEngine (s : State) (cand lut : Nat) : Option Nat :=
  ((List.range (openEngines s)).filter (fun e => !(engineDown s e) && decide (engineUsed s e + cand ≤ 65536)
      && decide ((engineSlots s e).length < 256) && decide (engineLut s e + lut ≤ 1024))).foldl
    (fun (b : Option Nat) e => match b with
      | none => some e
      | some f => if engineUsed s e < engineUsed s f then some e else some f) none

/-- Whether a search takes the pre-scan path (R121). -/
def takesScan (x : SSearch) : Bool := !x.filter.isEmpty && decide (x.par.hint < x.par.thresh)

/-- The pre-scan slot a search takes, of its index's (R124): the spec says a free one, and the model takes the lowest (log entry 84). -/
def pickScan (s : State) (index : Nat) (r : List Byte) : Option Nat :=
  (List.range (ixPreSlots r)).find? (fun k => !(mhas s.srch.slots (index * 1024 + k)))

/-! ### Partial lists (R128, R156) -/

/-- The partial list of a shard search that ended with a failure status. -/
def failedPartial (shard epoch poison : Nat) (st : Status) : Partial := ⟨st.code, 0, shard, epoch, 0, poison, 0, 0, []⟩

/-- Offers in the order of results (R91). -/
def offerLe (a b : Offer) : Bool := keyLe (a.key, a.id) (b.key, b.id)

/-- Whether an FP32 score is finite. -/
def finiteF (b : Nat) : Bool := match f32 b with | .fin .. => true | _ => false

/-- A finite score in units of 2^−149 (R156). -/
def scoreUnits (b : Nat) : Int := match f32 b with | .fin .. => scaled (-149) (f32 b) | _ => 0

/-- The partial list of a search that stopped (R128, R156). -/
def formPartial (x : SSearch) (stop : Nat) : Partial :=
  let os := sortBy offerLe x.offers
  let top := os.take x.par.k
  let rest := os.drop x.par.k
  let tail := match top.getLast?, decide (top.length = x.par.k) with
    | some l, true => (rest.filter (fun o => o.key = l.key)).length
    | _, _ => 0
  let st := firstOf .ok [(stop = 8 || decide (top.length < x.par.k), .short), (x.poison > 0, .poisonSkipped)]
  ⟨st.code, stop, x.shard, x.epoch, tail, x.poison, (os.filter (fun o => !(finiteF o.score))).length,
    (os.map (fun o => scoreUnits o.score)).foldl (· + ·) 0, top.map (fun o => (o.id, o.score))⟩

/-- An entry's flags in a partial list or result (R166). -/
def entryFlags (score shard : Nat) (mismatch tied : Bool) : Nat :=
  (match f32 score with | .nan => 2 | _ => 0) + 4 * b2n mismatch + 8 * b2n tied + shard * 2 ^ 16

/-- The bytes of a partial list (R156). -/
def Partial.bytes (p : Partial) : List Byte :=
  toBytes 1 p.status ++ toBytes 1 p.stop ++ toBytes 2 p.shard ++ toBytes 2 p.ents.length ++ toBytes 6 p.epoch ++ toBytes 4 p.tail
    ++ toBytes 4 p.poison ++ toBytes 4 p.nonfinite ++ toBytes 40 (ux 320 p.sum)
    ++ p.ents.flatMap (fun e => toBytes 8 e.1 ++ toBytes 4 e.2 ++ toBytes 4 (entryFlags e.2 p.shard false false))

/-- A partial list from its bytes. -/
def partialOf (b : List Byte) : Partial :=
  ⟨getLE b 0 1, getLE b 1 1, getLE b 2 2, getLE b 6 6, getLE b 12 4, getLE b 16 4, getLE b 20 4, sx 320 (getLE b 24 40),
   (List.range (getLE b 4 2)).map (fun i => (getLE b (64 + 16 * i) 8, getLE b (72 + 16 * i) 4))⟩

/-- A partial list arrives at its coordinator (R127): put at its place; the merge waits once every place is filled. -/
def arrivePart (s : State) (ref : Nat) (p : Partial) : State :=
  let cid := ref / 1024
  let i := ref % 1024
  match mget s.srch.coords cid with
  | none => s
  | some c =>
    if mhas c.parts i then s
    else
      let c := { c with parts := mput c.parts i p, arrival := c.arrival ++ [i] }
      modSrch s (fun r => { r with
        coords := mput r.coords cid c,
        merges := if c.parts.length = c.shards.length then r.merges ++ [cid] else r.merges })

/-- Send a SYS message (R127, R386): its packets carry what the spec says it carries, and its framing is firmware's own. None where
no path is available. -/
def sendSys (s : State) (node : Nat) (m : SysMsg) : Option State :=
  let body := match m with
    | .request _ _ _ _ f q _ _ _ => f ++ q
    | .partialList _ b => b
  let cls := if getF s Reg.rmaCtrlSysClass = 7 then 6 else getF s Reg.rmaCtrlSysClass
  let bs := if body.isEmpty then [0] else body
  match sendMsg s node { packet0 9 cls (nodeNo s) node with total := bs.length } bs [] none (some m) with
  | some (t, id) => some (emit t (.sysMsg node id m))
  | none => none

/-- A shard search leaves the table and frees what it holds (R129). -/
def freeSearch (s : State) (id : Nat) : State :=
  modSrch s (fun r => { r with searches := mdel r.searches id, slots := r.slots.filter (fun x => x.2 != id) })

/-- A shard search ends: its partial list is merged here or sent to its coordinator (R127, R156); one that cannot be sent is
lost. -/
def endSearch (s : State) (id : Nat) (x : SSearch) (p : Partial) : State :=
  let s := freeSearch s id
  let s := if p.status = Status.poisoned.code then bump s Reg.srcPoisonShardWide
           else if p.status = Status.busy.code then bump s Reg.srcRefuseBusy else s
  match x.node with
  | none => arrivePart s x.ref p
  | some n => (sendSys s n (.partialList x.ref p.bytes)).getD s

/-- A shard search ends with a failure status. -/
def failSearch (s : State) (id : Nat) (st : Status) : State :=
  match searchOf s id with
  | some x => endSearch s id x (failedPartial x.shard x.epoch x.poison st)
  | none => s

/-! ### The traversal (R110–R118) -/

/-- The order of the candidate list. -/
def candLe (a b : Cand) : Bool := keyLe (a.key, a.id) (b.key, b.id)

/-- The place after every item whose key can be formed (R117). -/
def lastKey : Nat := 2 ^ 32

/-- The key of an item as the descent compares it: where it has none, the last place. -/
def orderOf : Approx → Nat × Nat
  | .key k id => (k, id)
  | _ => (lastKey, 2 ^ 64)

/-- Whether a key goes strictly before another. -/
def keyLt (a b : Nat × Nat) : Bool := keyLe a b && a != b

/-- What the descent through the hot graph gives: the start item, or that ENTRY is poisoned; with the poisoned entries counted. -/
structure Descent where
  start : Option Nat
  best : Nat × Nat
  poison : Nat
  deriving DecidableEq, Repr

/-- One look at a neighbour of the descent. -/
def lookHot (c : Ctx3) (q : Query) (e level : Nat) (a : State × (Nat × Nat) × Option Hot × Nat) (n : Nat) :
    State × (Nat × Nat) × Option Hot × Nat :=
  match hotEntry a.1 c level n with
  | (t, none) => (t, a.2.1, a.2.2.1, a.2.2.2 + 1)
  | (t, some h) =>
    match approxOf t c q h.item e with
    | (t, .key k id) => if keyLt (k, id) a.2.1 then (t, (k, id), some h, a.2.2.2) else (t, a.2)
    | (t, .unused) => (t, a.2)
    | (t, .poisoned) => (t, a.2.1, a.2.2.1, a.2.2.2 + 1)

/-- The greedy walk of one level (R110), at most `fuel` moves. -/
def walkLevel (c : Ctx3) (q : Query) (e level : Nat) : Nat → State → Hot → Nat × Nat → Nat → State × Hot × (Nat × Nat) × Nat
  | 0, s, h, b, p => (s, h, b, p)
  | f + 1, s, h, b, p =>
    match h.nbrs.foldl (lookHot c q e level) (s, b, none, p) with
    | (t, b', none, p') => (t, h, b', p')
    | (t, b', some n, p') => walkLevel c q e level f t n b' p'

/-- The descent from a level down (R110, R117). -/
def descend (c : Ctx3) (q : Query) (e : Nat) : Nat → State → Hot → Nat × Nat → Nat → State × Nat × (Nat × Nat) × Nat
  | 0, s, h, b, p => (s, h.item, b, p)
  | level + 1, s, h, b, p =>
    let r := walkLevel c q e (level + 1) (shLevelN c.desc (level + 1) + 1) s h b p
    let t := r.1
    let g := r.2.1
    if level = 0 then (t, g.item, r.2.2)
    else match hotEntry t c level g.down with
      | (t, none) => (t, g.item, r.2.2.1, r.2.2.2 + 1)
      | (t, some d) => descend c q e level t d r.2.2.1 r.2.2.2

/-- The start item of level 0 with its first place, and whether ENTRY was poisoned (R110, R117). Poison of the entry item's own key is
counted once. -/
def startItem (s : State) (c : Ctx3) (q : Query) (e : Nat) : State × Option (Nat × Nat) :=
  if shTop c.desc = 0 then (s, some (shEntry c.desc, 0))
  else match hotEntry s c (shTop c.desc) (shEntry c.desc) with
    | (t, none) => (t, none)
    | (t, some h) =>
      let a := approxOf t c q h.item e
      let p := match a.2 with | .poisoned => 1 | _ => 0
      let d := descend c q e (shTop c.desc) a.1 h (orderOf a.2) p
      let again := d.2.1 = h.item && p = 1
      (d.1, some (d.2.1, d.2.2.2 - (if again then 1 else 0)))

/-- The first list of level 0 (R110, R117). -/
def firstList (s : State) (c : Ctx3) (q : Query) (e start : Nat) : State × List Cand × Nat :=
  match approxOf s c q start e with
  | (t, .key k id) => (t, [⟨k, id, start, false⟩], 0)
  | (t, .unused) => (t, [], 0)
  | (t, .poisoned) => (t, [⟨lastKey, 2 ^ 64, start, false⟩], 1)

/-- The stop reasons (R156). -/
def stopExhausted : Nat := 1

/-- Whether every expansion of the budget is spent. -/
def budgetSpent (x : SSearch) : Bool := x.par.budget != 0 && decide (x.expansions ≥ x.par.budget)

/-- Entries a batch may take (R110). -/
def takeOf (x : SSearch) : Nat := if x.par.budget = 0 then x.par.w else min x.par.w (x.par.budget - x.expansions)

/-- The next batch: the best unexpanded entries among the first `len` (R110). -/
def batchOf (x : SSearch) : List Cand := ((x.list.take x.len).filter (fun c => !c.done)).take (takeOf x)

/-- The head of the loop (R110): the search with its batch ready, or the reason it stops. Widening comes before stopping. -/
def loopHead (x : SSearch) : SSearch × Nat :=
  let x := if (batchOf x).isEmpty && !x.filter.isEmpty && decide (x.offers.length < x.par.k) && decide (x.len < x.par.lw) && !(budgetSpent x)
    then { x with len := x.par.lw } else x
  if (batchOf x).isEmpty then (x, if budgetSpent x then 4 else 1)
  else if x.par.rounds != 0 && x.rounds = x.par.rounds then (x, 2)
  else (x, 0)

/-- Prefetch (R118): the records of the next P unexpanded entries after the batch are staged, in list order; copies of records already
expanded are given up. -/
def prefetch (s : State) (c : Ctx3) (x : SSearch) : State × SSearch :=
  let r := ((((x.list.filter (fun e => !e.done)).drop (batchOf x).length).take x.par.p).map (·.loc)).foldl
    (stageRecord c x.epoch) (s, x.staged.filter (fun g => !(x.expanded.contains g.loc)))
  (r.1, { x with staged := r.2 })

/-- Whether an item passes the filter (R119, R121): by the bitmap on the pre-scan path, else by its attribute values. A bitmap word that
itself reads poisoned fails the candidate and counts as one poisoned item (log entry 86). -/
def passes (s : State) (c : Ctx3) (x : SSearch) (loc : Nat) : State × Bool × Nat :=
  if x.filter.isEmpty then (s, true, 0)
  else match x.scan with
    | some slot =>
      let r := rdC s (slotAddr c.reg slot + loc / 8) 1
      (r.1, !r.2.2 && (getLE r.2.1 0 1).testBit (loc % 8), if r.2.2 then 1 else 0)
    | none => let r := evalFilter s c (filterOps x.filter) loc x.epoch; (r.2.2.foldl consumeNr r.1, r.2.1, r.2.2.length)

/-- Whether an item is visible at an epoch (R111). -/
def visible (b : List Byte) (e : Nat) : Bool := decide (recBirth b ≤ e) && decide (e < recDeath b)

/-- New entries of a record's neighbours (R110, R113). `list` are the entries held; `acc` the new ones so far. -/
def newNbrs (c : Ctx3) (q : Query) (x : SSearch) : List Nat → State → List Cand → Nat → State × List Cand × Nat
  | [], s, acc, p => (s, acc, p)
  | n :: ns, s, acc, p =>
    if x.expanded.contains n || x.list.any (fun e => e.loc = n) || acc.any (fun e => e.loc = n) then newNbrs c q x ns s acc p
    else match approxOf s c q n x.epoch with
      | (t, .key k id) => newNbrs c q x ns t (acc ++ [⟨k, id, n, false⟩]) p
      | (t, .unused) => newNbrs c q x ns t acc p
      | (t, .poisoned) => newNbrs c q x ns t acc (p + 1)

/-- One entry of a batch (R110): its record is merged, and its exact key replaces its key. An entry that had no approximate key takes its
whole place from its record (R117). -/
def mergeEntry (c : Ctx3) (q : Query) (a : State × SSearch × List Cand) (e : Cand) : State × SSearch × List Cand :=
  let (s, x, new) := a
  match fetchRecord s c x.staged e.loc x.epoch with
  | (t, none) => (t, { x with poison := x.poison + 1, list := x.list.filter (fun y => y.loc != e.loc) }, new)
  | (t, some b) =>
    let score := exactScore c q b
    let key := rankKey (ixDistOp c.reg) score
    let x := { x with
      list := x.list.map (fun y => if y.loc = e.loc then { y with key := key, id := if y.id = 2 ^ 64 then getLE b 0 8 else y.id, done := true } else y),
      expanded := sinsert x.expanded e.loc, expansions := x.expansions + 1 }
    let r := if visible b x.epoch then passes t c x e.loc else (t, false, 0)
    let x := { x with poison := x.poison + r.2.2,
                      offers := if r.2.1 then x.offers ++ [⟨e.loc, key, getLE b 0 8, score⟩] else x.offers }
    let n := newNbrs c q x (recNbrs b) r.1 new 0
    (n.1, { x with poison := x.poison + n.2.2 }, n.2.1)

/-- The query of a search. -/
def queryOf (c : Ctx3) (x : SSearch) : Query := ⟨x.qfmt, vecVals x.qfmt (ixDims c.reg) x.query, x.lut, x.nq⟩

/-- One round (R110, R112): the whole batch in list order, then the list cut to LW. -/
def oneRound (s : State) (c : Ctx3) (x : SSearch) : State × SSearch :=
  let r := (batchOf x).foldl (mergeEntry c (queryOf c x)) (s, x, [])
  (r.1, { r.2.1 with list := (sortBy candLe (r.2.1.list ++ r.2.2)).take x.par.lw, rounds := x.rounds + 1 })

/-- The local indices that a search's bitmap allows (R121), with the poisoned words met. -/
def allowed (s : State) (c : Ctx3) (x : SSearch) : State × List Nat × Nat :=
  (List.range (shCap c.desc)).foldl (fun (a : State × List Nat × Nat) i =>
    let p := passes a.1 c x i
    (p.1, if p.2.1 then a.2.1 ++ [i] else a.2.1, a.2.2 + p.2.2)) (s, [], 0)

/-- The exhaustive search (R121): the record of every allowed local index is fetched and offered where visible. -/
def exhaust (s : State) (c : Ctx3) (x : SSearch) (locs : List Nat) : State × SSearch :=
  locs.foldl (fun (a : State × SSearch) i =>
    match rowRecord a.1 c i x.epoch with
    | (t, none) => (t, { a.2 with poison := a.2.poison + 1 })
    | (t, some b) =>
      if visible b x.epoch then
        let sc := exactScore c (queryOf c x) b
        (t, { a.2 with offers := a.2.offers ++ [⟨i, rankKey (ixDistOp c.reg) sc, getLE b 0 8, sc⟩] })
      else (t, a.2)) (s, x)

/-- Go on after the list has changed: the search stops, or its next batch is chosen and its prefetch issued. -/
def continueSearch (s : State) (c : Ctx3) (id : Nat) (x : SSearch) : State :=
  let h := loopHead x
  if h.2 = 0 then let p := prefetch s c h.1; setSearch p.1 id p.2 else endSearch s id h.1 (formPartial h.1 h.2)

/-- Begin the traversal (R110): the descent, then level 0's first list. An exhaustive search replaces the loop that follows, and only that
(R121). -/
def beginTraversal (s : State) (c : Ctx3) (id : Nat) (x : SSearch) : State :=
  let q := queryOf c x
  match startItem s c q x.epoch with
  | (t, none) => endSearch t id x (failedPartial x.shard x.epoch x.poison .poisoned)
  | (t, some (st, p)) =>
    let l := firstList t c q x.epoch st
    let s := countItems l.1 (p + l.2.2)
    let x := { x with phase := .running, list := l.2.1, poison := x.poison + p + l.2.2 }
    if x.exhaustive then setSearch s id x else continueSearch s c id x

/-- The bitmap is complete (R121): exhaustive search or traversal. -/
def afterScan (s : State) (c : Ctx3) (id : Nat) (x : SSearch) : State :=
  let r := preScan s c x.got (filterOps x.filter) x.epoch
  let x := { x with poison := x.poison + r.2.2, got := [] }
  let n := ceilDiv (shCap c.desc) 8
  let s := nrPut (countItems r.1 r.2.2) (slotAddr c.reg (x.scan.getD 0)) (toBytes n (r.2.1.foldl (fun a i => a + 2 ^ i) 0))
  if x.par.brute != 0 && decide (r.2.1.length ≤ x.par.brute) then
    beginTraversal (bump s Reg.srcPathExhaustive) c id { x with exhaustive := true }
  else beginTraversal s c id x

/-- The poison of a query is consumed (R117): at its word here, or as it came in a message through a brim buffer (log entry 6). -/
def consumeQuery (s : State) : Option (Option Nat) → State
  | some (some w) => consumeNr s w
  | some none => let r := freeVal s; consume r.1 5 (r.2 % 256) (r.2 / 256)
  | none => s

/-- SHARD_SEARCH_ADMIT (R129, R130): the head of the waiting queue is admitted, binds its epoch, and starts its descent, or its
pre-scan (R123): by kettles, whose job's completion ends it, else by the engine at once. None is admitted over the power cap (R476). -/
def shardSearchAdmit (s : State) : State :=
  if !(ringUp s) || s.power.warmPend || flagF s Reg.rstPowerCapped then s else
  match s.srch.searches.find? (fun x => x.2.phase = .waiting) with
  | none => s
  | some (id, x) =>
    match ctxOf s (shardKey x.index x.shard) with
    | none => failSearch s id .fenced
    | some (h, c) =>
      if h.detaching.isSome then failSearch s id .fenced
      else
        let lut := if ixCode c.reg = 1 then ixM c.reg else 0
        let scan := takesScan x
        match pickEngine s (x.par.lw + x.par.k) lut, pickScan s x.index c.reg with
        | none, _ => s
        | some e, slot =>
          if scan && slot.isNone then s
          else
            let slots := engineSlots s e
            let b := if x.qpois.isSome then (s, some []) else readBook s c
            let q := vecVals x.qfmt (ixDims c.reg) x.query
            let x := { x with
              phase := .running, engine := e, slot := lowestGap slots (slots.length + 1) 0, order := s.srch.nextOrder, epoch := h.epoch,
              admitted := tickOf s, lut := lutOf c.reg (b.2.getD []) x.qfmt q, nq := queryNorm c.reg x.qfmt q,
              len := x.par.l, scan := if scan then slot else none }
            let s := modSrch b.1 (fun r => { r with
              nextOrder := r.nextOrder + 1,
              slots := match scan, slot with
                | true, some k => mput r.slots (x.index * 1024 + k) id
                | _, _ => r.slots })
            let s := setSearch s id x
            if x.qpois.isSome || b.2.isNone then failSearch (consumeQuery s x.qpois) id .poisoned
            else if scan then
              let s := bump s Reg.srcPathPrescan
              if kettleScan s c (filterOps x.filter) then setSearch s id { x with phase := .scanning }
              else afterScan (bump s Reg.srcPathEngineScan) c id x
            else beginTraversal s c id x

/-- Whether the tick edge of a search's deadline has come (R115). -/
def pastDeadline (s : State) (x : SSearch) : Bool :=
  x.phase != .waiting && x.par.deadline != 0 && decide (tickOf s ≥ x.admitted + x.par.deadline)

/-- SEARCH_DEADLINE (R115): results are those after the last completed round. -/
def searchDeadline (id : Nat) (s : State) : State :=
  match searchOf s id with
  | some x => if pastDeadline s x then endSearch s id x (formPartial x 8) else s
  | none => s

/-- The kettle jobs of a search's pre-scan have ended (R123): a job that failed leaves the whole scan to the engine. -/
def kettleScanned (s : State) (id : Nat) (ok : Bool) : State :=
  match searchOf s id with
  | some x =>
    match x.phase, ctxOf s (shardKey x.index x.shard) with
    | .scanning, some (_, c) =>
      if pastDeadline s x then searchDeadline id s
      else if ok then afterScan s c id x
      else afterScan (bump s Reg.srcPathEngineScan) c id { x with got := [] }
    | _, _ => s
  | none => s

/-- What a kettle job gave of a pre-scan is collected (R286, R291): `bits` and the elements in poisoned words, by local index. -/
def scanCollect (s : State) (id place : Nat) (bits : List (Nat × Nat)) : State :=
  match searchOf s id with
  | some x =>
    if x.phase = .scanning then
      setSearch s id { x with got := bits.foldl (fun m b => if b.1 < 2 ^ 32 then mput m (gotKey place b.1) b.2 else m) x.got }
    else s
  | none => s

/-- ADMIT_TIMEOUT (R129): a shard search that has waited ADMIT ticks completes BUSY. -/
def admitTimeout (id : Nat) (s : State) : State :=
  match searchOf s id with
  | some x => if x.phase = .waiting && tickOf s ≥ x.arrived + atLeast1 s Reg.srcCtrlAdmit then failSearch s id .busy else s
  | none => s

/-- TRAVERSAL_ROUND (R110, R112): once every record of the batch is staged or can be fetched, one round; a search run exhaustively ends once
every allowed record can be. A round that has not been merged before the edge of the deadline is discarded (R115). -/
def traversalRound (id : Nat) (s : State) : State :=
  match searchOf s id with
  | none => s
  | some x =>
    match x.phase, ctxOf s (shardKey x.index x.shard) with
    | .running, some (_, c) =>
      if engineDown s x.engine then s
      else if pastDeadline s x then searchDeadline id s
      else if x.exhaustive then
        let al := allowed s c x
        if al.2.1.all (fun i => recReady s c i x.epoch) then
          let r := exhaust al.1 c { x with poison := x.poison + al.2.2 } al.2.1
          endSearch (countItems r.1 (r.2.poison - x.poison)) id r.2 (formPartial r.2 16)
        else wantUnits s (al.2.1.flatMap (recBlocked s c))
      else if (batchOf x).all (fun e => (stagedOf s c x.staged e.loc x.epoch).isSome || recReady s c e.loc x.epoch) then
        let r := oneRound s c x
        continueSearch (countItems r.1 (r.2.poison - x.poison)) c id r.2
      else wantUnits s ((batchOf x).flatMap (fun e => recBlocked s c e.loc))
    | _, _ => s

/-- SHARD_SEARCH_EXPIRY (R127): a shard search run for another node ends at the tick its message carries. -/
def shardSearchExpiry (id : Nat) (s : State) : State :=
  match searchOf s id with
  | some x => if x.node.isSome && decide (tickOf s ≥ x.expiry) then failSearch s id .timeout else s
  | none => s

/-! ### SEARCH (R125–R127) -/

/-- The parameters of a SEARCH descriptor. -/
def searchPar (w : Work) : SearchPar :=
  ⟨w.f 12 2, w.f 14 2, w.f 16 2, w.f 10 1, w.f 11 1, w.f 18 2, w.f 24 4, w.f 20 4, w.f 28 2, w.f 30 2, w.f 32 4⟩

/-- Whether the parameters are in range (R109). -/
def parOk (p : SearchPar) : Bool :=
  decide (1 ≤ p.k) && decide (p.k ≤ p.l) && decide (p.l ≤ p.lw) && decide (p.lw ≤ 4096) && decide (1 ≤ p.w) && decide (p.w ≤ 16)
    && decide (p.p ≤ 64)

/-- A shard search joins the waiting queue, or ends at once: FENCED where the shard is not hosted (R97), BUSY where the queue of
16,384 is full (R129). -/
def joinSearch (s : State) (x : SSearch) : State :=
  let id := s.srch.nextSearch
  let s := setSearch (modSrch s (fun r => { r with nextSearch := id + 1 })) id x
  match mget s.srch.shards (shardKey x.index x.shard) with
  | none => failSearch s id .fenced
  | some h =>
    if h.detaching.isSome then failSearch s id .fenced
    else if (s.srch.searches.filter (fun y => y.2.phase = .waiting)).length > 16384 then failSearch s id .busy
    else s

/-- A shard search as it arrives. -/
def newSearch (s : State) (ref : Nat) (node : Option Nat) (index shard : Nat) (par : SearchPar) (filter query : List Byte)
    (qfmt : Nat) (qpois : Option (Option Nat)) (expiry : Nat) : SSearch :=
  { ref := ref, node := node, index := index, shard := shard, par := par, filter := filter, query := query, qfmt := qfmt,
    qpois := qpois, arrived := tickOf s, expiry := expiry, phase := .waiting, engine := 0, slot := 0, order := 0, epoch := 0,
    admitted := 0, lut := [], nq := 0, list := [], expanded := [], offers := [], rounds := 0, expansions := 0, len := 0,
    poison := 0, staged := [], got := [], scan := none, exhaustive := false }

/-- Start the shard search of one place of SHARDS (R94, R97, R127). -/
def startShard (ref index shard mapBase : Nat) (par : SearchPar) (filter query : List Byte) (qfmt : Nat) (qpois : Option Nat)
    (expiry : Nat) (s : State) : State :=
  let r := rdC s (mapBase + shard) 1
  let s := r.1
  let n := getLE r.2.1 0 1
  if r.2.2 then arrivePart (bump s Reg.srcPoisonShardWide) ref (failedPartial shard 0 0 .poisoned)
  else if n > 63 then arrivePart s ref (failedPartial shard 0 0 .fenced)
  else if n = nodeNo s then joinSearch s (newSearch s ref none index shard par filter query qfmt (qpois.map some) expiry)
  else match sendSys s n (.request ref index shard par filter query qfmt qpois.isSome expiry) with
    | some t => t
    | none => arrivePart s ref (failedPartial shard 0 0 .fenced)

/-- Whether a list holds no number twice. -/
def noRepeats : List Nat → Bool
  | [] => true
  | x :: xs => !(xs.contains x) && noRepeats xs

/-- SEARCH (R125–R127): the descriptor and block are checked and the search is split over the shard map. -/
def search (work : Nat) (s : State) : State :=
  onWork s work 1 (fun s w =>
    let par := searchPar w
    match mget s.srch.indexes (w.f 8 2) with
    | none => complete s w .malformed
    | some r =>
      if ixTenant r != w.tenant then complete s w .accessDenied
      else
        let qb := w.f 40 8
        let res := w.f 48 8
        let rl := w.f 56 4
        let scanPath := decide (par.hint < par.thresh)
        let shape := parOk par && decide (w.f 36 1 < 2) && zeroAt w.desc 37 3 && zeroAt w.desc 60 4 && qb % 64 = 0 && res % 64 = 0
          && decide (rl ≥ 64 + 16 * par.k)
        if !(inWindow s w.tenant qb 16) || !(inWindow s w.tenant res rl) then complete s w .accessDenied
        else if !shape then complete s w .malformed
        else
          let h := nrRead s qb 8
          let ns := getLE h.2.bytes 0 2
          let nops := getLE h.2.bytes 5 1
          let fo := roundUp (8 + 2 * ns) 16
          let qo := fo + 16 * nops
          let len := qo + 2 * ixDims r
          if h.2.timeout then complete h.1 w .timeout
          else if h.2.bad then complete (consumeNr h.1 (h.2.first qb)) w .poisoned
          else if !(inWindow s w.tenant qb len) then complete h.1 w .accessDenied
          else if ns = 0 || ns > 1024 || nops > 32 then complete h.1 w .malformed
          else
            let b := nrRead h.1 qb qo
            let shards := (List.range ns).map (fun i => getLE b.2.bytes (8 + 2 * i) 2)
            let filter := (b.2.bytes.drop fo).take (16 * nops)
            let qfmt := getLE b.2.bytes 4 1
            if b.2.timeout then complete b.1 w .timeout
            else if b.2.bad then complete (consumeNr b.1 (b.2.first qb)) w .poisoned
            else if getLE b.2.bytes 2 2 != ixDims r || (qfmt != 2 && qfmt != 3) || !(zeroAt b.2.bytes 6 2)
              || !(zeroAt b.2.bytes (8 + 2 * ns) (fo - (8 + 2 * ns))) || !(noRepeats shards) || !(filterOk r filter)
              || (nops != 0 && scanPath && ixPreSlots r = 0) then complete b.1 w .malformed
            else
              let q := nrRead b.1 (qb + qo) (2 * ixDims r)
              if q.2.timeout then complete q.1 w .timeout
              else
              let qp := if q.2.bad then some (q.2.first (qb + qo)) else none
              let cid := q.1.srch.nextCoord
              let c : Coord := ⟨w.id, w.f 8 2, par.k, decide (w.f 36 1 = 1), shards, res, rl, [], []⟩
              let s := modSrch q.1 (fun x => { x with coords := mput x.coords cid c, nextCoord := cid + 1 })
              let s := beginWork s w.id
              (shards.zip (List.range ns)).foldl (fun t p =>
                startShard (cid * 1024 + p.2) (w.f 8 2) p.1 (ixMapPage r * 65536) par filter q.2.bytes qfmt qp
                  w.expiry t) s)

/-- Whether a shard search's partial list is still awaited (R127, R450). -/
def openPart (s : State) (ref : Nat) : Bool :=
  match mget s.srch.coords (ref / 1024) with
  | some c => !(mhas c.parts (ref % 1024))
  | none => false

/-- SYS (R127): a whole SYS message is handed to firmware: a shard search request or a partial list; one that comes too late is dropped and
counted (R450). -/
def sys (port : Nat) (p : Packet) (m : SysMsg) (s : State) : State :=
  receive s port 9 p (fun s p => reassemble s port p none (fun s =>
    match m with
    | .request ref index shard par filter query qfmt qpois expiry =>
      joinSearch s (newSearch s ref (some p.src) index shard par filter query qfmt (if qpois then some none else none) expiry)
    | .partialList ref b => if openPart s ref then arrivePart s ref (partialOf b) else bump s Reg.fwRecoverLateDropped))

/-- A SYS message failed (R127, R397): at the coordinating node its shard search completes with the status; a partial list is lost. -/
def sysFailed (s : State) (_node : Nat) (m : SysMsg) (st : Status) : State :=
  match m with
  | .request ref _ shard .. => arrivePart s ref (failedPartial shard 0 0 st)
  | .partialList .. => s

/-- The SYS messages that are left with no available path fail FENCED (R397). -/
def sysLost (s : State) : State :=
  s.brim.cut.foldl (fun t id => match mget t.brim.msgs id with
    | some m => (match m.sys with
      | some y => sysFailed (modBrim t (fun b => { b with msgs := mdel b.msgs id })) m.dest y .fenced
      | none => t)
    | none => t) (modBrim s (fun b => { b with cut := [] }))

/-- NAK received (R398). -/
def nak (port : Nat) (p : Packet) (s : State) : State := nakIn s port p sysFailed

/-- REASSEMBLY_TIMEOUT (R404). For a SYS message, `m` is what the message said: where it is a partial list, the shard search it answers
completes REASSEMBLY_FAILED here, at the coordinating node. -/
def sysReassemblyTimeout (src msgid : Nat) (m : Option SysMsg) (s : State) : State :=
  match mget s.brim.reasm (src * 2 ^ 32 + msgid) with
  | some e =>
    if decide (tickOf s ≥ e.expiry) && e.kind = 9 then
      match m with
      | some (.partialList ref b) =>
        arrivePart (reassemblyTimeout src msgid s) ref (failedPartial (partialOf b).shard 0 0 .reassemblyFailed)
      | _ => reassemblyTimeout src msgid s
    else reassemblyTimeout src msgid s
  | none => s

/-! ### The merge (R157–R167) -/

/-- An entry of the merge: rank key, item ID, shard, score, leaf. -/
structure MEnt where
  key : Nat
  id : Nat
  shard : Nat
  score : Nat
  leaf : Nat
  deriving DecidableEq, Repr

/-- The order in which a tree emits (R158): keys, then item ID and shard in a stable tree, the lower leaf first in an ordinary one. -/
def mergeLe (canon : Bool) (a b : MEnt) : Bool :=
  if a.key != b.key then decide (a.key < b.key)
  else if canon then (if a.id != b.id then decide (a.id < b.id) else decide (a.shard ≤ b.shard))
  else decide (a.leaf ≤ b.leaf)

/-- What a merge has drawn so far: emitted entries in order with their mismatch flags, the distinct items drawn after place k and not
returned, ties drawn and not returned, duplicates, mismatches. -/
structure Draw where
  out : List (MEnt × Bool)
  more : List MEnt
  ties : Nat
  dups : Nat
  bad : Nat
  deriving DecidableEq, Repr

/-- The key of place k, once it is filled. -/
def Draw.kth (d : Draw) (k : Nat) : Option Nat := if d.out.length ≥ k then (d.out.getLast?).map (·.1.key) else none

/-- Draw the entries in order (R160): up to k distinct items, then every further entry with the key of place k. -/
def drawAll (k : Nat) : List MEnt → Draw → Draw
  | [], d => d
  | e :: es, d =>
    match d.kth k with
    | some key =>
      if e.key != key then d
      else match d.out.find? (fun o => o.1.id = e.id) with
        | some o =>
          let mis := o.1.score != e.score
          drawAll k es { d with ties := d.ties + 1, dups := d.dups + 1, bad := d.bad + b2n mis,
                                out := d.out.map (fun x => if x.1.id = e.id then (x.1, x.2 || mis) else x) }
        | none => match d.more.find? (fun o => o.id = e.id) with
          | some o => drawAll k es { d with ties := d.ties + 1, dups := d.dups + 1, bad := d.bad + b2n (o.score != e.score) }
          | none => drawAll k es { d with ties := d.ties + 1, more := d.more ++ [e] }
    | none =>
      match d.out.find? (fun o => o.1.id = e.id) with
      | some o =>
        let mis := o.1.score != e.score
        drawAll k es { d with dups := d.dups + 1, bad := d.bad + b2n mis,
                              out := d.out.map (fun x => if x.1.id = e.id then (x.1, x.2 || mis) else x) }
      | none => drawAll k es { d with out := d.out ++ [(e, false)] }

/-- Duplicates dropped before place k was filled that carry its key count among the ties (R162). -/
def dupTies (k : Nat) (es : List MEnt) (key : Nat) : Nat :=
  let mine := es.filter (fun e => e.key = key)
  let before := es.filter (fun e => decide (e.key < key))
  let ids := (before.map (·.id)).eraseDups
  let fresh := (mine.map (·.id)).eraseDups.filter (fun i => !(ids.contains i))
  mine.length - min fresh.length (k - ids.length)

/-- The exact sum of finite scores as FP64 bits (R163). -/
def sumF64 (n : Int) : Nat := (roundFrac fp64 false (decide (n < 0)) n.natAbs (2 ^ 149)).code

/-- Statuses whose entries are merged (R164). -/
def mergedStatus (c : Nat) : Bool := c = Status.ok.code || c = Status.short.code || c = Status.poisonSkipped.code

/-- The merged status (R164), its order also where the descriptor timeout ended shard searches (R127; log entry 87). -/
def mergeStatus (ps : List Partial) (ret k poison : Nat) : Nat :=
  let has (x : Status) := ps.any (fun p => p.status = x.code)
  let others := sortBy (fun a b => decide (a ≤ b)) ((ps.map (·.status)).filter (fun c => !(mergedStatus c)))
  if has .poisoned then Status.poisoned.code
  else if has .epochRetired then Status.epochRetired.code
  else if has .fenced then Status.fenced.code
  else if has .timeout then Status.timeout.code
  else match others with
    | c :: _ => c
    | [] => if ret < k || ps.any (fun p => p.stop = 8) then Status.short.code
            else if poison > 0 then Status.poisonSkipped.code else 0

/-- A status from its code. -/
def statusOf (c : Nat) : Status :=
  ([Status.ok, .short, .busy, .noContext, .keyInvalid, .poisoned, .timeout, .fenced, .tableFull, .epochRetired, .malformed,
    .accessDenied, .reassemblyFailed, .poisonSkipped, .jobClosed, .notSynchronised].find? (fun x => x.code = c)).getD .ok

/-- A merged result: its bytes, its status, and what it counts. -/
structure Merged where
  bytes : List Byte
  status : Nat
  ret : Nat
  dups : Nat
  bad : Nat
  nonfinite : Nat
  deriving DecidableEq, Repr

/-- Merge the partial lists of a SEARCH (R158–R167): `ps` in the order of SHARDS, `arrival` the places in order of arrival; `ticks` is
the TICKS field. -/
def mergeParts (dist : Nat) (c : Coord) (canon : Bool) (ps : List Partial) (arrival : List Nat) (ticks : Nat) : Merged :=
  let ents := (ps.zip (List.range ps.length)).flatMap (fun x =>
    if mergedStatus x.1.status then
      x.1.ents.map (fun e => (⟨rankKey dist e.2, e.1, x.1.shard, e.2, (findIdx (· = x.2) arrival).getD 0⟩ : MEnt))
    else [])
  let es := sortBy (mergeLe canon) ents
  let d := drawAll c.k es ⟨[], [], 0, 0, 0⟩
  let out := sortBy (fun (a b : MEnt × Bool) => keyLe (a.1.key, a.1.id) (b.1.key, b.1.id)) d.out
  let ret := out.length
  let kth := if ret = c.k then (out.getLast?).map (·.1.key) else none
  let ties := match kth with
    | none => 0
    | some key => dupTies c.k es key + sumNat (ps.map (fun p =>
        if mergedStatus p.status && p.ents.length = c.k && ((p.ents.getLast?).map (fun e => rankKey dist e.2)) = some key then p.tail else 0))
  let poison := sumNat (ps.map (·.poison))
  let nonf := sumNat (ps.map (·.nonfinite))
  let sel := (out.map (fun e => scoreUnits e.1.score)).foldl (· + ·) 0
  let all := (ps.map (·.sum)).foldl (· + ·) 0
  let st := mergeStatus ps ret c.k poison
  let eps := (ps.filter (fun p => mergedStatus p.status)).map (·.epoch)
  let epoch := if ps.length = 1 then (ps.map (·.epoch)).headD 0 else (eps.min?).getD 0
  let listed := decide (c.resultLen ≥ 64 + 16 * c.k + 16 * ps.length)
  let head := toBytes 1 st ++ toBytes 1 (ps.foldl (fun a p => a ||| p.stop) 0)
    ++ toBytes 1 (b2n canon + 2 * b2n (d.bad > 0) + 4 * b2n listed) ++ toBytes 1 0 ++ toBytes 2 ret ++ toBytes 2 ps.length
    ++ toBytes 6 epoch ++ toBytes 2 0 ++ toBytes 4 ties ++ toBytes 4 d.dups ++ toBytes 4 poison ++ toBytes 4 nonf
    ++ toBytes 8 (sumF64 sel) ++ toBytes 8 (sumF64 (all - sel)) ++ toBytes 4 ticks ++ toBytes 12 0
  let body := out.flatMap (fun e => toBytes 8 e.1.id ++ toBytes 4 e.1.score
    ++ toBytes 4 (entryFlags e.1.score e.1.shard e.2 (decide (ties > 0) && kth = some e.1.key)))
  let pad := (List.range (c.k - ret)).flatMap (fun _ => toBytes 8 noId ++ toBytes 4 fp32.nanBits ++ toBytes 4 1)
  let list := if listed then ps.flatMap (fun p => toBytes 2 p.shard ++ toBytes 1 p.status ++ toBytes 1 p.stop
    ++ toBytes 2 p.ents.length ++ toBytes 6 p.epoch ++ toBytes 4 p.poison) else []
  ⟨head ++ body ++ pad ++ list, st, ret, d.dups, d.bad, nonf⟩

/-- A merge runs whole (R157): the result is written, then the SEARCH completes. -/
def runMerge (s : State) (cid : Nat) (c : Coord) : State :=
  let s := modSrch s (fun r => { r with coords := mdel r.coords cid, merges := r.merges.filter (· != cid) })
  match workOf s c.work, mget s.srch.indexes c.index with
  | some w, some r =>
    let ps := (List.range c.shards.length).map (fun i => (mget c.parts i).getD (failedPartial (c.shards.getD i 0) 0 0 .timeout))
    let m := mergeParts (ixDistOp r) c (c.canon || flagF s Reg.selCtrlAllStable) ps c.arrival ((tickOf s - w.fetched) % 2 ^ 32)
    let s := bump s Reg.selMergeMerges
    let s := if ps.length > 64 then bump s Reg.selMergeTwoPass else s
    let s := bumpBy (bumpBy s Reg.selDupDups m.dups) Reg.selDupMismatch m.bad
    let s := bumpBy s Reg.selShortNonfinite m.nonfinite
    let s := if m.ret < c.k then bump s Reg.selShortShort else s
    completeWith s w c.result m.bytes (statusOf m.status) (res := putLE m.bytes 48 4 0)
  | _, _ => s

/-- MERGE (R157): the first merge that waits takes the lowest-numbered free tree of its kind. -/
def merge (s : State) : State :=
  if !(ringUp s) then s else
  match s.srch.merges with
  | [] => s
  | cid :: _ => match mget s.srch.coords cid with
    | some c =>
      let trees := if c.canon || flagF s Reg.selCtrlAllStable then (List.range 4).map (· + 28) else List.range 28
      if trees.all (fun i => s.fw.inReset.any (fun x => x.1 = .tree i)) then s else runMerge s cid c
    | none => modSrch s (fun r => { r with merges := r.merges.drop 1 })

/-- A SEARCH's descriptor timeout (R127, R445): shard searches whose partial list has not come complete TIMEOUT, those of this node with the
epoch they bound and the poison they met, and all are merged. -/
def searchTimeout (s : State) (work : Nat) : State :=
  match s.srch.coords.find? (fun x => x.2.work = work) with
  | none => s
  | some (cid, _) =>
    let mine := s.srch.searches.filter (fun x => x.2.node.isNone && x.2.ref / 1024 = cid)
    let s := mine.foldl (fun t x => arrivePart (freeSearch t x.1) x.2.ref (failedPartial x.2.shard x.2.epoch x.2.poison .timeout)) s
    match mget s.srch.coords cid with
    | some c => runMerge s cid c
    | none => s

end Sys2Proof.Machine
end

