-- ==== Sys2Proof/Machine/Gather.lean ====
section
/-! DEFINITION. Embedding tables (R170–R196): registration, pins, GATHER on a Carder, SCATTER row by row, load counters and skew
migration. -/
namespace Sys2Proof.Machine

/-- Update the Carder part of the state. -/
def modCard (s : State) (f : Card → Card) : State := { s with card := f s.card }

/-- A read with its poisoned words kept apart from a lender's silence. -/
def rdW (s : State) (addr n : Nat) : State × RdRes := if n = 0 then (s, ⟨[], [], false⟩) else nrRead s addr n

/-! ### Registrations (R170–R172) -/

/-- Owning tenant of a table. -/
def tbTenant (r : List Byte) : Nat := getLE r 2 2
/-- DIM. -/
def tbDim (r : List Byte) : Nat := getLE r 4 2
/-- LOAD_SHIFT. -/
def tbShift (r : List Byte) : Nat := getLE r 6 1
/-- ROWS. -/
def tbRows (r : List Byte) : Nat := getLE r 8 4
/-- SLOTS. -/
def tbSlots (r : List Byte) : Nat := getLE r 12 4
/-- The address of a row's pointer (R171). -/
def dirAddr (r : List Byte) (row : Nat) : Nat := getLE r 16 4 * 65536 + 8 * row
/-- SLOTSIZE (R172). -/
def slotSize (r : List Byte) : Nat := 64 * ceilDiv (16 + 2 * tbDim r) 64
/-- The address of a slot (R172). -/
def tbSlot (r : List Byte) (slot : Nat) : Nat := getLE r 20 4 * 65536 + slot * slotSize r
/-- Load shards of a table (R170). -/
def loadShards (r : List Byte) : Nat := if tbShift r = 0 then 0 else ceilDiv (tbRows r) (2 ^ tbShift r)
/-- The all-ones slot of an absent row. -/
def noSlot : Nat := 0xFFFFFFFF

/-- The checks of a registration but for its number (R170). -/
def tableOk (s : State) (r : List Byte) : Bool :=
  let t := tbTenant r
  decide (getLE r 0 2 < 1024) && decide (t < 512) && decide (1 ≤ tbDim r) && decide (tbDim r ≤ 4096)
    && (tbShift r = 0 || (decide (10 ≤ tbShift r) && decide (tbShift r ≤ 31))) && zeroAt r 7 1
    && decide (1 ≤ tbRows r) && decide (tbRows r ≤ tbSlots r)
    && pageOk (getLE r 16 4) && pageOk (getLE r 20 4) && pageOk (getLE r 24 4) && (tbShift r != 0 || getLE r 24 4 = 0)
    && decide (getLE r 28 4 ≤ 2 ^ 32 - 2) && decide (loadShards r ≤ 16384)
    && pagesIn s t (getLE r 16 4) (8 * tbRows r) && pagesIn s t (getLE r 20 4) (tbSlots r * slotSize r)
    && pagesIn s t (getLE r 24 4) (4 * loadShards r)

/-- TABLE_REGISTER (R170). -/
def tableRegister (work : Nat) (s : State) : State :=
  onAdmin s work 0x10 32 false (fun s w b =>
    let r := b.take 32
    if !(adminMay w (tbTenant r)) then complete s w .accessDenied
    else if !(tableOk s r) || mhas s.card.tables (getLE r 0 2) then complete s w .malformed
    else if s.card.tables.length ≥ 1024 then complete (bump s Reg.crdRefuseTableFull) w .tableFull
    else complete (modCard s (fun c => { c with tables := mput c.tables (getLE r 0 2) ⟨r, getLE r 28 4, [], []⟩ })) w .ok)

/-- Whether a pin, a SCATTER, or a GATHER that waits holds a table (R428; log entry 20). -/
def tableHeld (s : State) (t : Nat) (x : Table) : Bool :=
  !x.queue.isEmpty || s.card.pins.any (fun p => p.2.table = t)
    || s.card.waiting.any (fun id => match workOf s id with | some w => w.f 8 2 = t | none => false)

/-- TABLE_DEREGISTER (R428). -/
def tableDeregister (work : Nat) (s : State) : State :=
  onAdmin s work 0x11 8 false (fun s w b =>
    let t := getLE b 0 2
    match mget s.card.tables t with
    | none => complete s w .malformed
    | some x =>
      if !(adminMay w (tbTenant x.reg)) then complete s w .accessDenied
      else if !(zeroAt b 2 6) then complete s w .malformed
      else if tableHeld s t x then complete s w .busy
      else complete (modCard s (fun c => { c with tables := mdel c.tables t })) w .ok)

/-- PIN (R193): the handle is the lowest free one. -/
def pin (work : Nat) (s : State) : State :=
  onAdmin s work 0x12 8 false (fun s w b =>
    let t := getLE b 0 2
    match mget s.card.tables t with
    | none => complete s w .malformed
    | some x =>
      if !(adminMay w (tbTenant x.reg)) then complete s w .accessDenied
      else if !(zeroAt b 2 6) then complete s w .malformed
      else match mfree s.card.pins 256 with
        | none => complete (bump s Reg.crdRefuseTableFull) w .tableFull
        | some h => complete (modCard s (fun c => { c with pins := mput c.pins h ⟨t, x.tver⟩ })) w .ok h)

/-- UNPIN (R193). -/
def unpin (work : Nat) (s : State) : State :=
  onAdmin s work 0x13 8 false (fun s w b =>
    let h := getLE b 0 2
    match mget s.card.pins h with
    | none => complete s w .malformed
    | some p =>
      let owner := match mget s.card.tables p.table with | some x => tbTenant x.reg | none => 0
      if !(adminMay w owner) then complete s w .accessDenied
      else if !(zeroAt b 2 6) then complete s w .malformed
      else complete (modCard s (fun c => { c with pins := mdel c.pins h })) w .ok)

/-! ### Reading a row at a version (R173–R175) -/

/-- Where a row's version stands: absent; present and poisoned without a slot to read, with the poisoned word met if there is one; in
a slot. -/
inductive RowAt where
  | absent
  | lost (word : Option Nat)
  | slot (n rver : Nat)
  deriving DecidableEq, Repr

/-- The first poisoned word of a read at an address, if it met one. -/
def RdRes.firstBad (r : RdRes) (addr : Nat) : Option Nat := if r.bad then some (r.first addr) else none

/-- A row's directory pointer as it was read (R171), the poisoned word met, and whether a lender did not answer. -/
structure Ptr where
  slot : Nat
  rver : Nat
  word : Option Nat
  timeout : Bool
  deriving DecidableEq, Repr

/-- Read a row's directory pointer. -/
def rowPtr (s : State) (r : List Byte) (row : Nat) : State × Ptr :=
  let x := rdW s (dirAddr r row) 8
  (x.1, ⟨getLE x.2.bytes 0 4, getLE x.2.bytes 4 4, x.2.firstBad (dirAddr r row), x.2.timeout⟩)

/-- A slot's header as it was read (R172). -/
structure Head where
  prev : Nat
  prevRver : Nat
  row : Nat
  word : Option Nat
  timeout : Bool
  deriving DecidableEq, Repr

/-- Read the header of a slot below SLOTS. -/
def slotHead (s : State) (r : List Byte) (slot : Nat) : State × Head :=
  let x := rdW s (tbSlot r slot) 16
  (x.1, ⟨getLE x.2.bytes 4 4, getLE x.2.bytes 8 4, getLE x.2.bytes 12 4, x.2.firstBad (tbSlot r slot), x.2.timeout⟩)

/-- The version of a row that a reader reads (R174): at version `v`, or the newest where none is given; with whether a lender did not
answer. A bound reader that needs PREV does not use it where the newest version is itself a poisoned row (R173): it takes the row as
poisoned, though the spec does not say whether PREV may still be used (log entry 88). -/
def locateRow (s : State) (r : List Byte) (row : Nat) (v : Option Nat) : State × RowAt × Bool :=
  let p := rowPtr s r row
  if p.2.timeout then (p.1, .lost none, true)
  else if p.2.word.isSome then (p.1, .lost p.2.word, false)
  else if p.2.slot = noSlot then (p.1, .absent, false)
  else if p.2.slot ≥ tbSlots r then (p.1, .lost none, false)
  else if (match v with | none => true | some v => decide (p.2.rver ≤ v)) then (p.1, .slot p.2.slot p.2.rver, false)
  else
    let h := slotHead p.1 r p.2.slot
    if h.2.timeout then (h.1, .lost none, true)
    else if h.2.word.isSome then (h.1, .lost h.2.word, false)
    else if h.2.row != row then (h.1, .lost none, false)
    else if h.2.prev = noSlot || decide (h.2.prevRver > v.getD 0) then (h.1, .absent, false)
    else if h.2.prev ≥ tbSlots r then (h.1, .lost none, false)
    else (h.1, .slot h.2.prev h.2.prevRver, false)

/-- A row version as it was read: its values, the poisoned words of its values, whether it is treated as a poisoned row (R173), the
poisoned word met if there is one, the row its header names, and whether a lender did not answer. -/
structure RowVal where
  vals : List Nat
  pois : List Nat
  bad : Bool
  word : Option Nat
  own : Nat
  timeout : Bool
  deriving DecidableEq, Repr

/-- Every word of a row's values. -/
def allWords (dim : Nat) : List Nat := List.range (ceilDiv (2 * dim) 16)

/-- Read a row version from its slot. A row whose header is poisoned has every word poisoned (log entry 17). -/
def readRow (s : State) (r : List Byte) (row slot : Nat) : State × RowVal :=
  let n := tbDim r
  let x := rdW s (tbSlot r slot) (16 + 2 * n)
  let head := x.2.pois.contains 0
  let body := (x.2.pois.filter (fun i => decide (i ≥ 1))).map (fun i => i - 1)
  (x.1, ⟨(List.range n).map (fun i => getLE x.2.bytes (16 + 2 * i) 2), if head then allWords n else body, x.2.bad,
         x.2.firstBad (tbSlot r slot), if head then row else getLE x.2.bytes 12 4, x.2.timeout⟩)

/-- A row version as one row's reader takes it: a version that names another row is a poisoned row (R173, log entry 17). -/
def seenAs (x : RowVal) (row : Nat) : RowVal :=
  if x.own = row then x else { x with pois := allWords x.vals.length, bad := true }

/-- A row that is present and poisoned with no slot to read. -/
def lostRow (r : List Byte) (row : Nat) (word : Option Nat) : RowVal :=
  ⟨List.replicate (tbDim r) 0, allWords (tbDim r), true, word, row, false⟩

/-! ### GATHER (R176–R184) -/

/-- GATHER: waits for a Carder. -/
def gather (work : Nat) (s : State) : State :=
  onWork s work 5 (fun s w => beginWork (modCard s (fun c => { c with waiting := c.waiting ++ [w.id] })) w.id)

/-- Output bytes of an element (R179). -/
def outBytes (w : Work) : Nat := if w.f 11 1 = 1 then 4 else 2
/-- The stride of the output (R179). -/
def outStride (w : Work) (dim : Nat) : Nat := 16 * ceilDiv (dim * outBytes w) 16
/-- Rows of the output: bags, or entries for NONE. -/
def outRows (w : Work) : Nat := if w.f 10 1 = 0 then w.f 16 4 else w.f 20 4

/-- Whether the fields of a GATHER are in range (R176), and its pin held on its table (R193). -/
def gatherOk (s : State) (w : Work) : Bool :=
  let fl := w.f 12 1
  let usePin := fl.testBit 2
  decide (w.f 10 1 ≤ 2) && (w.f 11 1 = 1 || w.f 11 1 = 3) && decide (fl < 8) && zeroAt w.desc 13 1
    && !(fl.testBit 1 && usePin) && (usePin || w.f 14 2 = 0)
    && decide (1 ≤ w.f 16 4) && decide (w.f 16 4 ≤ 16777216)
    && (if w.f 10 1 = 0 then w.f 20 4 = 0 && w.f 32 8 = 0
        else decide (1 ≤ w.f 20 4) && decide (w.f 20 4 ≤ 1048576) && decide (w.f 20 4 ≤ w.f 16 4))
    && w.f 24 8 % 4 = 0 && w.f 32 8 % 4 = 0 && w.f 40 8 % 2 = 0 && (fl.testBit 0 || w.f 40 8 = 0)
    && w.f 48 8 % 64 = 0 && w.f 56 8 % 32 = 0
    && (!usePin || (match mget s.card.pins (w.f 14 2) with | some p => p.table = w.f 8 2 | none => false))

/-- Whether the areas of a GATHER lie in its tenant's window. -/
def gatherIn (s : State) (w : Work) (dim : Nat) : Bool :=
  let t := w.tenant
  inWindow s t (w.f 24 8) (4 * w.f 16 4)
    && (w.f 10 1 = 0 || inWindow s t (w.f 32 8) (4 * (w.f 20 4 + 1)))
    && (!((w.f 12 1).testBit 0) || inWindow s t (w.f 40 8) (2 * w.f 16 4))
    && inWindow s t (w.f 48 8) (outRows w * outStride w dim)
    && inWindow s t (w.f 56 8) (32 + outRows w)

/-- What a Carder holds while it works through a list: rows located and read in the window with their occurrences, the hot rows by slot
number and RVER, and its counts; `stop` once a lender has not answered. -/
structure Carder where
  seen : SMap (RowAt × Option RowVal × Nat)
  hot : List (Nat × Nat × RowVal)
  reads : Nat
  hits : Nat
  missing : Nat
  load : List Nat
  changed : Bool
  stop : Bool
  deriving DecidableEq, Repr

/-- Serve one list entry (R182, R183): the row version's values, none where it is absent. `pos` is its place in the list. -/
def serveEntry (s : State) (r : List Byte) (v : Option Nat) (tver : Nat) (k0 : Carder) (pos row : Nat) :
    State × Carder × Option RowVal :=
  let k0 := if pos % 4096 = 0 then { k0 with seen := [] } else k0
  let at0 : State × RowAt × Bool × Option RowVal × Nat := match mget k0.seen row with
    | some (a, x, n) => (s, a, false, x, n)
    | none => let l := locateRow s r row v; (l.1, l.2.1, l.2.2, none, 0)
  let (s, a, o, got, n) := at0
  let k0 := match a with
    | .slot _ rv => if v.isNone && decide (rv > tver) then { k0 with changed := true } else k0
    | _ => k0
  if o then (s, { k0 with stop := true }, none)
  else match a with
    | .absent => (s, { k0 with seen := mput k0.seen row (a, none, n + 1), missing := k0.missing + 1 }, none)
    | .lost word => (s, { k0 with seen := mput k0.seen row (a, none, n + 1) }, some (lostRow r row word))
    | .slot slot rv =>
      match k0.hot.find? (fun h => h.1 = slot && h.2.1 = rv) with
      | some h => (s, { k0 with seen := mput k0.seen row (a, got, n + 1), hits := k0.hits + 1 }, some (seenAs h.2.2 row))
      | none =>
        let rd : State × RowVal × Bool := match got with
          | some x => (s, x, false)
          | none => let x := readRow s r row slot; (x.1, x.2, true)
        let (s, x, fresh) := rd
        if x.timeout then (s, { k0 with stop := true }, none)
        else
          let hot := if n + 1 ≥ 16 && decide (k0.hot.length < 256) then k0.hot ++ [(slot, rv, x)] else k0.hot
          (s, { k0 with seen := mput k0.seen row (a, some x, n + 1), hot := hot, reads := k0.reads + b2n fresh,
                        load := if fresh then row :: k0.load else k0.load }, some (seenAs x row))

/-- A bag as it fills: one accumulator per element, entries present, entries absent, whether it is poisoned, and the first poisoned word
it used. -/
structure Bag where
  acc : List Exact
  present : Nat
  missing : Nat
  poison : Bool
  word : Option Nat
  deriving DecidableEq, Repr

/-- An empty bag. -/
def bagZero (dim : Nat) : Bag := ⟨List.replicate dim (exactZero false), 0, 0, false, none⟩

/-- Add a row to a bag (R181): `wt` is the entry's weight, if any, with the word it lies in where that is poisoned. -/
def bagAdd (b : Bag) (x : Option RowVal) (wt : Option (Nat × Option Nat)) : Bag :=
  match x with
  | none => { b with missing := b.missing + 1 }
  | some x =>
    let ww := wt.bind (·.2)
    let pw := ww.isSome
    let term (v : Nat) : FVal := match wt with | some y => mulV (decodeF fp16 y.1) (decodeF fp16 v) | none => decodeF fp16 v
    { b with acc := (b.acc.zip x.vals).map (fun p => exactAdd p.1 (term p.2) (x.bad || pw)), present := b.present + 1,
             poison := b.poison || x.bad || pw, word := (b.word.or x.word).or ww }

/-- Whether an output element is NaN or infinite. -/
def nonFinite (f : Fmt) (c : Nat) : Bool := match decodeF f c with | .fin .. => false | _ => true

/-- What one output row comes to: its bytes, its poisoned words, its status byte, and the poisoned word that it consumed. -/
structure OutRow where
  bytes : List Byte
  pois : List Nat
  status : Nat
  word : Option Nat
  deriving DecidableEq, Repr

/-- The output format of a GATHER. -/
def outFmt (w : Work) : Fmt := if w.f 11 1 = 1 then fp32 else fp16

/-- A finished bag (R181). -/
def bagRow (w : Work) (dim : Nat) (b : Bag) : OutRow :=
  let f := outFmt w
  let n := outBytes w
  let cs := if b.present = 0 then List.replicate dim 0
            else b.acc.map (fun a => (if w.f 10 1 = 2 then exactRoundDiv a b.present f else exactRound a f).code)
  let bytes := fitBytes (outStride w dim) (cs.flatMap (fun c => toBytes n c))
  ⟨bytes, if b.poison then List.range (bytes.length / 16) else [],
   b2n b.poison + 2 * b2n (b.present = 0) + 4 * b2n (b.missing != 0) + 8 * b2n (cs.any (nonFinite f)), b.word⟩

/-- A copied row (R179): a copy carries poison and consumes none (R308). -/
def copyRow (w : Work) (dim : Nat) (x : Option RowVal) : OutRow :=
  let f := outFmt w
  let n := outBytes w
  match x with
  | none => ⟨zeros (outStride w dim), [], 4, none⟩
  | some x =>
    let cs := if n = 2 then x.vals else x.vals.map (fun v => (convF fp32 false (decodeF fp16 v)).code)
    let bytes := fitBytes (outStride w dim) (cs.flatMap (fun c => toBytes n c))
    let words := if n = 2 then x.pois else x.pois.flatMap (fun i => [2 * i, 2 * i + 1])
    ⟨bytes, words.filter (fun i => decide (i < bytes.length / 16)), b2n x.bad + 8 * b2n (cs.any (nonFinite f)), none⟩

/-- The weights of a GATHER: each entry's value, and its word where that is poisoned; none where it is not WEIGHTED. -/
def readWeights (s : State) (w : Work) : State × Option (List (Nat × Option Nat)) × Bool :=
  if !((w.f 12 1).testBit 0) then (s, none, false)
  else
    let a := w.f 40 8
    let x := rdW s a (2 * w.f 16 4)
    (x.1, some ((List.range (w.f 16 4)).map (fun i => (getLE x.2.bytes (2 * i) 2,
      if x.2.pois.contains ((a + 2 * i) / 16 - a / 16) then some ((a + 2 * i) / 16) else none))), x.2.timeout)

/-- Work through the list: rows finished so far, the bag under way. `ends` gives the entry at which each bag ends. -/
def gatherLoop (r : List Byte) (w : Work) (v : Option Nat) (tver : Nat) (wts : Option (List (Nat × Option Nat))) :
    List Nat → Nat → List Nat → State → Carder → Bag → List OutRow → State × Carder × List OutRow
  | [], _, ends, s, k, b, out =>
    (s, k, if ends.isEmpty then out else out ++ [bagRow w (tbDim r) b])
  | row :: rows, pos, ends, s, k, b, out =>
    if w.f 10 1 = 0 then
      let x := serveEntry s r v tver k pos row
      if x.2.1.stop then (x.1, x.2.1, out)
      else gatherLoop r w v tver wts rows (pos + 1) ends x.1 x.2.1 b (out ++ [copyRow w (tbDim r) x.2.2])
    else
      let here := ends.takeWhile (fun e => decide (e ≤ pos))
      let fin := (here.zip (List.range here.length)).map (fun p => bagRow w (tbDim r) (if p.2 = 0 then b else bagZero (tbDim r)))
      let b := if here.isEmpty then b else bagZero (tbDim r)
      let x := serveEntry s r v tver k pos row
      if x.2.1.stop then (x.1, x.2.1, out ++ fin)
      else
        let wt := wts.bind (fun l => l[pos]?)
        gatherLoop r w v tver wts rows (pos + 1) (ends.drop here.length) x.1 x.2.1 (bagAdd b x.2.2 wt) (out ++ fin)

/-- The bags of the list's end: the one under way and the empty ones behind it. -/
def lastBags (w : Work) (dim : Nat) (out : List OutRow) : List OutRow :=
  out ++ List.replicate (outRows w - out.length) (bagRow w dim (bagZero dim))

/-- The bytes of a gather record (R180). -/
def gatherRecord (tver status : Nat) (changed latest : Bool) (rows : List OutRow) (n reads hits : Nat) (missing : Nat) : List Byte :=
  let count (bit : Nat) : Nat := (rows.filter (fun o => o.status.testBit bit)).length
  toBytes 4 tver ++ toBytes 1 status ++ toBytes 1 (b2n changed + 2 * b2n latest) ++ toBytes 2 0 ++ toBytes 4 (count 0) ++ toBytes 4 (count 1)
    ++ toBytes 4 missing ++ toBytes 4 reads ++ toBytes 4 hits ++ toBytes 4 0
    ++ rows.map (fun o => BitVec.ofNat 8 o.status) ++ List.replicate (n - rows.length) (16 : Byte)

/-- The rows read from homes are counted against their load shards (R194). -/
def countLoad (s : State) (t : Nat) (rows : List Nat) : State :=
  modCard s (fun c => { c with tables := mmod c.tables t (fun x =>
    if tbShift x.reg = 0 then x
    else { x with load := rows.foldl (fun m r =>
                    let k := r / 2 ^ tbShift x.reg
                    mput m k (satTo 32 ((mget m k).getD 0 + 1))) x.load }) })

/-- Write the output rows in order: how many could be written, and the status of the write that ended them, if one did (R335, R342). -/
def putRows (out stride : Nat) : List OutRow → Nat → State → State × Nat × Option Status
  | [], i, s => (s, i, none)
  | o :: os, i, s =>
    match nrWrite s (out + i * stride) o.bytes o.pois with
    | (t, none) => putRows out stride os (i + 1) t
    | (t, some e) => (t, i, some e)

/-- Write the output rows and the gather record, count, and complete (R178–R180). A row that cannot be written ends the GATHER with the
status of the write; the rows not completed are undefined. -/
def endGather (s : State) (w : Work) (r : List Byte) (tver : Nat) (k : Carder) (rows : List OutRow) (st : Status) : State :=
  let dim := tbDim r
  let stride := outStride w dim
  let n := outRows w
  let s := rows.foldl (fun t o => match o.word with | some a => consumeNr t a | none => t) s
  let put := putRows (w.f 48 8) stride rows 0 s
  let s := put.1
  let rows := rows.take put.2.1
  let st := put.2.2.getD st
  let s := (List.range (n - rows.length)).foldl (fun t i => undefBytes t (.node (w.f 48 8)) ((rows.length + i) * stride) stride) s
  let carried := if w.f 10 1 = 0 then sumNat (rows.map (fun o => o.pois.length)) else 0
  let s := bumpBy s Reg.intPoisonCarried carried
  let s := bumpBy (bumpBy s Reg.crdReadsReads k.reads) Reg.crdReadsHotHits k.hits
  let s := bumpBy s Reg.crdRefusePoisoned (rows.filter (fun o => o.status.testBit 0)).length
  let s := countLoad s (w.f 8 2) k.load
  let st := if st = .ok && rows.any (fun o => o.status.testBit 0) then .poisoned else st
  let b := gatherRecord tver st.code k.changed ((w.f 12 1).testBit 1) rows n k.reads k.hits k.missing
  completeWith s w (w.f 56 8) b st (res := rows.flatMap (·.bytes) ++ b)

/-- A Carder that has done nothing. -/
def carderNew : Carder := ⟨[], [], 0, 0, 0, [], false, false⟩

/-- What the checks of a GATHER leave (R178): the registration, the version bound or pinned, TVER, the list, the ends of the bags, and
whether a lender did not answer. -/
structure GatherPlan where
  reg : List Byte
  tv : Nat
  tver : Nat
  idx : List Nat
  ends : List Nat
  silent : Bool
  deriving DecidableEq, Repr

/-- The entries of a list of `n` numbers of `e` bytes that could be read: all of them, but where a lender did not answer those that do not
lie on its pages. -/
def knownEntries (s : State) (addr e n : Nat) (x : RdRes) : List Nat :=
  ((List.range n).filter (fun i => !x.timeout || !(nrSilent s (addr + e * i) e))).map (fun i => getLE x.bytes (e * i) e)

/-- Whether the first and the last of bag offsets, where they could be read, are 0 and NIDX, and all that could be read do not decrease
(R176). -/
def offsetsOk (s : State) (addr nb ni : Nat) (x : RdRes) : Bool :=
  let o := knownEntries s addr 4 (nb + 1) x
  let seen (i : Nat) : Bool := !x.timeout || !(nrSilent s (addr + 4 * i) 4)
  (!(seen 0) || o.head? = some 0) && (!(seen nb) || o.getLast? = some ni)
    && (o.zip (o.drop 1)).all (fun p => decide (p.1 ≤ p.2)) && o.all (fun v => decide (v ≤ ni))

/-- The checks of a GATHER (R178), the lines above TIMEOUT in their order: the status that ends it, or its plan. -/
def gatherCheck (s : State) (w : Work) : State × Except Status GatherPlan :=
  match mget s.card.tables (w.f 8 2) with
  | none => (s, .error .malformed)
  | some x =>
    let r := x.reg
    let ni := w.f 16 4
    let nb := w.f 20 4
    if !(gatherOk s w) then (s, .error .malformed)
    else if !(gatherIn s w (tbDim r)) || tbTenant r != w.tenant then (s, .error .accessDenied)
    else
      let l := rdW s (w.f 24 8) (4 * ni)
      let o := if w.f 10 1 = 0 then (l.1, ⟨[], [], false⟩) else rdW l.1 (w.f 32 8) (4 * (nb + 1))
      let tv := match mget s.card.pins (w.f 14 2), (w.f 12 1).testBit 2 with | some p, true => p.tver | _, _ => x.tver
      let idx := (List.range ni).map (fun i => getLE l.2.bytes (4 * i) 4)
      let offs := (List.range (nb + 1)).map (fun i => getLE o.2.bytes (4 * i) 4)
      let offsOk := w.f 10 1 = 0 || offsetsOk o.1 (w.f 32 8) nb ni o.2
      let silent := l.2.timeout || o.2.timeout
      if l.2.bad then (consumeNr o.1 (l.2.first (w.f 24 8)), .error .poisoned)
      else if o.2.bad then (consumeNr o.1 (o.2.first (w.f 32 8)), .error .poisoned)
      else if !offsOk || (knownEntries o.1 (w.f 24 8) 4 ni l.2).any (fun i => decide (i ≥ tbRows r)) then (o.1, .error .malformed)
      else (o.1, .ok ⟨r, tv, x.tver, idx, offs.drop 1, silent⟩)

/-- Run a GATHER on a Carder (R178–R184). -/
def runGather (s : State) (w : Work) : State :=
  match gatherCheck s w with
  | (s, .error st) => complete s w st
  | (s, .ok p) =>
    let wt := readWeights s w
    if p.silent || wt.2.2 then endGather wt.1 w p.reg p.tv carderNew [] .timeout
    else
      let v := if (w.f 12 1).testBit 1 then none else some p.tv
      let g := gatherLoop p.reg w v p.tver wt.2.1 p.idx 0 p.ends wt.1 carderNew (bagZero (tbDim p.reg)) []
      let k := g.2.1
      let rows := if k.stop || w.f 10 1 = 0 then g.2.2 else lastBags w (tbDim p.reg) g.2.2
      endGather g.1 w p.reg p.tv k rows (if k.stop then .timeout else .ok)

/-- Whether some Carder is free: none is in reset for every one (R447). -/
def carderFree (s : State) : Bool :=
  (List.range 8).any (fun i => !(s.fw.inReset.any (fun x => x.1 = .carder i)))

/-- GATHER_ADMIT (R178): the GATHER that waits longest is admitted onto a Carder and carried out. -/
def gatherAdmit (s : State) : State :=
  match s.card.waiting with
  | [] => s
  | id :: _ =>
    if !(carderFree s) then s
    else
      let s := modCard s (fun c => { c with waiting := c.waiting.drop 1 })
      match workOf s id with
      | some w => runGather s w
      | none => s

/-- A GATHER that waits times out (R178, R180): the lines above TIMEOUT come first; else its record says that no bag was completed. -/
def gatherTimeout (s : State) (w : Work) : State :=
  match gatherCheck (modCard s (fun c => { c with waiting := c.waiting.filter (· != w.id) })) w with
  | (s, .error st) => complete s w st
  | (s, .ok p) => endGather s w p.reg p.tv carderNew [] .timeout

/-! ### SCATTER (R185–R192) -/

/-- Update a SCATTER. -/
def setScat (s : State) (id : Nat) (x : Scat) : State := modCard s (fun c => { c with scatters := mput c.scatters id x })

/-- Values per row of a SCATTER. -/
def scDim (s : State) (w : Work) : Nat :=
  if w.f 10 1 = 3 then w.f 20 2 else match mget s.card.tables (w.f 8 2) with | some x => tbDim x.reg | none => 0

/-- The stride of the source rows (R185). -/
def srcStride (dim : Nat) : Nat := 16 * ceilDiv (dim * 2) 16

/-- Distinct numbers in order of first occurrence. -/
def distinct : List Nat → List Nat → List Nat
  | _, [] => []
  | seen, x :: xs => if seen.contains x then distinct seen xs else x :: distinct (x :: seen) xs

/-- Whether the fields of a SCATTER are in range (R185). -/
def scatterOk (s : State) (w : Work) : Bool :=
  let m := w.f 10 1
  decide (1 ≤ m) && decide (m ≤ 3) && (w.f 11 1 = 3 || (m = 2 && w.f 11 1 = 2)) && zeroAt w.desc 12 4
    && decide (1 ≤ w.f 16 4) && decide (w.f 16 4 ≤ 1048576) && zeroAt w.desc 22 2 && zeroAt w.desc 48 16
    && (if m = 3 then w.f 8 2 = 0 && decide (1 ≤ w.f 20 2) && decide (w.f 20 2 ≤ 4096)
        else w.f 20 2 = 0 && mhas s.card.tables (w.f 8 2))

/-- Whether the areas of a SCATTER lie in its tenant's window. -/
def scatterIn (s : State) (w : Work) : Bool :=
  inWindow s w.tenant (w.f 24 8) (w.f 16 4 * (if w.f 10 1 = 3 then 8 else 4))
    && inWindow s w.tenant (w.f 32 8) (w.f 16 4 * srcStride (scDim s w)) && inWindow s w.tenant (w.f 40 8) 32

/-- Whether a table SCATTER's list passes its checks (R186). -/
def scatterListOk (w : Work) (r : List Byte) (idx : List Nat) : Bool :=
  let d := (distinct [] idx).length
  idx.all (fun i => decide (i < tbRows r))
    && (if w.f 10 1 = 1 then d = idx.length else decide (d * tbDim r * (if w.f 11 1 = 2 then 80 else 16) ≤ 67108864))

/-- What the checks of a SCATTER leave (R186): the SCATTER as it begins, and whether a lender did not answer for its list. -/
structure ScatPlan where
  scat : Scat
  silent : Bool
  deriving DecidableEq, Repr

/-- The checks of a SCATTER (R186, in R178's order): the status that ends it, or its plan. Nothing is written, and no record, where they
refuse it. -/
def scatterCheck (s : State) (w : Work) : State × Except Status ScatPlan :=
  let raw : Bool := w.f 10 1 = 3
  let e := if raw then 8 else 4
  let x := mget s.card.tables (w.f 8 2)
  let foreign := match x, raw with | some t, false => tbTenant t.reg != w.tenant | _, _ => false
  if !(scatterOk s w) then (s, .error .malformed)
  else if !(scatterIn s w) || foreign then (s, .error .accessDenied)
  else
    let l := rdW s (w.f 24 8) (e * w.f 16 4)
    let s := l.1
    let known := knownEntries s (w.f 24 8) e (w.f 16 4) l.2
    let idx := (List.range (w.f 16 4)).map (fun i => getLE l.2.bytes (e * i) e)
    if l.2.bad then (consumeNr s (l.2.first (w.f 24 8)), .error .poisoned)
    else if raw then
      if known.any (fun a => a % 2 != 0) then (s, .error .malformed)
      else if known.any (fun a => !(inWindow s w.tenant a (2 * w.f 20 2))) then (s, .error .accessDenied)
      else (s, .ok ⟨⟨1024, idx, false, [], 0, 0, 0, false⟩, l.2.timeout⟩)
    else match x with
      | none => (s, .error .malformed)
      | some t =>
        if !(scatterListOk w t.reg known) then (s, .error .malformed)
        else (s, .ok ⟨⟨w.f 8 2, idx, false, [], 0, 0, 0, false⟩, l.2.timeout⟩)

/-- The versions that readers hold on a table: its pins (a GATHER is whole within its admission). -/
def heldVersions (s : State) (t : Nat) : List Nat := (s.card.pins.filter (fun p => p.2.table = t)).map (fun p => p.2.tver)

/-- Whether a retained PREV is still needed (R190): some held version lies between it and the newest. -/
def prevNeeded (s : State) (t rver : Nat) (h : Head) : Bool :=
  h.prev != noSlot && (heldVersions s t).any (fun v => decide (h.prevRver ≤ v) && decide (v < rver))

/-- The slots that are not free (R187): those that a pointer or a retained PREV names. The search reads nothing on behalf of a
requester. -/
def usedSlots (s : State) (t : Nat) (r : List Byte) : List Nat :=
  (List.range (tbRows r)).flatMap (fun row =>
    let p := (rowPtr s r row).2
    if p.slot = noSlot then []
    else if p.slot ≥ tbSlots r then [p.slot]
    else
      let h := (slotHead s r p.slot).2
      if prevNeeded s t p.rver h then [p.slot, h.prev] else [p.slot])

/-- The lowest free slot (log entry 19). -/
def freeSlot (s : State) (t : Nat) (r : List Byte) : Option Nat :=
  let u := usedSlots s t r
  let n := lowestGap u (u.length + 1) 0
  if n < tbSlots r then some n else none

/-- A source row: values, the first poisoned word it holds, and whether a lender did not answer. -/
def srcRow (s : State) (w : Work) (dim i : Nat) : State × List Nat × Option Nat × Bool :=
  let a := w.f 32 8 + i * srcStride dim
  let x := rdW s a (2 * dim)
  (x.1, (List.range dim).map (fun j => getLE x.2.bytes (2 * j) 2), x.2.firstBad a, x.2.timeout)

/-- The places of a row in the list. -/
def placesOf (idx : List Nat) (row : Nat) : List Nat := ((idx.zip (List.range idx.length)).filter (fun p => p.1 = row)).map (·.2)

/-- The sources of one row added up (R186 ADD): the sum so far, the first poisoned word met, whether a lender did not answer. -/
structure Sum where
  acc : List Exact
  word : Option Nat
  timeout : Bool
  deriving DecidableEq, Repr

/-- Accumulate the source rows of one row (R186 ADD). -/
def addSources (s : State) (w : Work) (dim : Nat) (a0 : Sum) (is : List Nat) : State × Sum :=
  is.foldl (fun (a : State × Sum) i =>
    let x := srcRow a.1 w dim i
    let f := if w.f 11 1 = 2 then bf16 else fp16
    (x.1, ⟨(a.2.acc.zip x.2.1).map (fun p => exactAdd p.1 (decodeF f p.2) x.2.2.1.isSome), a.2.word.or x.2.2.1, a.2.timeout || x.2.2.2⟩)) (s, a0)

/-- What the new version of a row comes to: its values; that it is kept for poison, with the poisoned word met if there is one; or that a
lender did not answer. -/
inductive NewVer where
  | vals (v : List Nat)
  | kept (word : Option Nat)
  | timeout
  deriving DecidableEq, Repr

/-- The new version of a row whose current one is in `slot`, if it has one (R186, R191). -/
def newVersion (s : State) (w : Work) (r : List Byte) (idx : List Nat) (row slot : Nat) : State × NewVer :=
  let dim := tbDim r
  if w.f 10 1 = 1 then
    let x := srcRow s w dim ((placesOf idx row).headD 0)
    (x.1, if x.2.2.2 then .timeout else if x.2.2.1.isSome then .kept x.2.2.1 else .vals x.2.1)
  else
    let wide := w.f 11 1 = 2
    let cur : State × RowVal :=
      if slot = noSlot then (s, ⟨List.replicate dim 0, [], false, none, row, false⟩)
      else let x := readRow s r row slot; (x.1, seenAs x.2 row)
    if cur.2.timeout then (cur.1, .timeout)
    else
      let acc := if slot = noSlot then List.replicate dim (exactZero wide)
                 else cur.2.vals.map (fun v => exactAdd (exactZero wide) (decodeF fp16 v) cur.2.bad)
      let a := addSources cur.1 w dim ⟨acc, cur.2.word, false⟩ (placesOf idx row)
      (a.1, if a.2.timeout then .timeout else if a.2.acc.any (·.poison) then .kept a.2.word
            else .vals (a.2.acc.map (fun x => (exactRound x fp16).code)))

/-- The current version of a row as a SCATTER meets it: treated as a poisoned row (R173), with the poisoned word met if there is one; that
a lender did not answer; or its slot, its RVER and, where it has a version, its header. -/
inductive Current where
  | bad (word : Option Nat)
  | timeout
  | good (slot rver : Nat) (h : Option Head)
  deriving DecidableEq, Repr

/-- Read a row's pointer and the header it names (R173, R190). -/
def currentRow (s : State) (r : List Byte) (row : Nat) : State × Current :=
  let p := rowPtr s r row
  if p.2.timeout then (p.1, .timeout)
  else if p.2.word.isSome then (p.1, .bad p.2.word)
  else if p.2.slot = noSlot then (p.1, .good noSlot p.2.rver none)
  else if p.2.slot ≥ tbSlots r then (p.1, .bad none)
  else
    let h := slotHead p.1 r p.2.slot
    if h.2.timeout then (h.1, .timeout)
    else if h.2.word.isSome then (h.1, .bad h.2.word)
    else if h.2.row != row then (h.1, .bad none)
    else (h.1, .good p.2.slot p.2.rver (some h.2))

/-- The scatter record (R191). -/
def scatterRecord (tver status done kept waits : Nat) : List Byte :=
  toBytes 4 tver ++ toBytes 1 status ++ toBytes 3 0 ++ toBytes 4 done ++ toBytes 4 kept ++ toBytes 4 waits ++ toBytes 12 0

/-- A SCATTER ends (R187, R191): TVER advances where a row was swapped, the record is written, the table's next SCATTER has its turn. -/
def endScatter (s : State) (w : Work) (x : Scat) (st : Status) : State :=
  let s := modCard s (fun c => { c with
    scatters := mdel c.scatters w.id,
    tables := mmod c.tables x.table (fun t =>
      { t with queue := t.queue.filter (· != w.id), tver := if x.done = 0 then t.tver else t.tver + 1 }) })
  let s := if st = .tableFull then bump s Reg.crdRefuseTableFull else s
  let tver := match mget s.card.tables x.table with | some t => t.tver | none => 0
  let st := if st = .ok && x.kept != 0 then .poisoned else st
  let b := scatterRecord tver st.code x.done x.kept x.waits
  completeWith s w (w.f 40 8) b st

/-- Write one row's new version and swap its pointer (R187); the status of the write that could not be placed, where one could not (R335,
R342): the row is then not swapped. -/
def swapRow (s : State) (r : List Byte) (row free slot rver tver : Nat) (vals : List Nat) : State × Option Status :=
  let body := toBytes 4 (tver + 1) ++ toBytes 4 slot ++ toBytes 4 rver ++ toBytes 4 row ++ vals.flatMap (fun v => toBytes 2 v)
  match nrWrite s (tbSlot r free) (fitBytes (slotSize r) body) [] with
  | (t, some e) => (t, some e)
  | (t, none) =>
    match nrWrite t (dirAddr r row) (toBytes 4 free ++ toBytes 4 (tver + 1)) [] with
    | (t, some e) => (t, some e)
    | (t, none) => (bump t Reg.crdScatterSwaps, none)

/-- A row that keeps its version for poison (R191): a poisoned word met is consumed (R309). -/
def keepRow (s : State) (word : Option Nat) : State :=
  bump (match word with | some a => consumeNr s a | none => s) Reg.crdScatterKept

/-- Write rows in order until one must wait, or the SCATTER ends (R187, R190, R191). -/
def scatterRows (w : Work) (t : Nat) (r : List Byte) (tver : Nat) : List Nat → State → Scat → State
  | [], s, x => endScatter s w x .ok
  | row :: rows, s, x =>
    match currentRow s r row with
    | (s, .timeout) => endScatter s w x .timeout
    | (s, .bad word) => scatterRows w t r tver rows (keepRow s word) { x with kept := x.kept + 1, counted := false }
    | (s, .good slot rver h) =>
      match newVersion s w r x.idx row slot with
      | (s, .timeout) => endScatter s w x .timeout
      | (s, .kept word) => scatterRows w t r tver rows (keepRow s word) { x with kept := x.kept + 1, counted := false }
      | (s, .vals v) =>
        if (match h with | some y => prevNeeded s t rver y | none => false) then
          let s := if x.counted then s else bump s Reg.crdScatterWaits
          setScat s w.id { x with todo := row :: rows, waits := if x.counted then x.waits else x.waits + 1, counted := true }
        else match freeSlot s t r with
          | none => endScatter s w x .tableFull
          | some f =>
            match swapRow s r row f slot rver tver v with
            | (s, none) => scatterRows w t r tver rows s { x with done := x.done + 1, counted := false }
            | (s, some e) => endScatter s w x e

/-- The poisoned words of a destination that a source row's poisoned words reach. -/
def movedPois (src dst n : Nat) (pois : List Nat) : List Nat :=
  (List.range (wordSpan dst n)).filter (fun i =>
    let lo := max dst ((dst / 16 + i) * 16)
    let hi := min (dst + n) ((dst / 16 + i + 1) * 16)
    pois.any (fun p =>
      let plo := (src / 16 + p) * 16
      decide (src + (lo - dst) < plo + 16) && decide (plo < src + (hi - dst))))

/-- RAW (R186): each row to its destination, in list order. -/
def scatterRaw (w : Work) (dim : Nat) : List Nat → Nat → State → Scat → State
  | [], _, s, x => endScatter s w x .ok
  | a :: as, i, s, x =>
    let src := w.f 32 8 + i * srcStride dim
    let v := rdW s src (2 * dim)
    if v.2.timeout then endScatter v.1 w x .timeout
    else
      let p := movedPois src a (2 * dim) v.2.pois
      match nrWrite v.1 a v.2.bytes p with
      | (t, some st) => endScatter t w x st
      | (t, none) => scatterRaw w dim as (i + 1) (bumpBy t Reg.intPoisonCarried p.length) { x with done := x.done + 1 }

/-- SCATTER (R185, R186): checked whole; a table SCATTER then waits its turn on its table (R189). One whose list a lender did not give ends
TIMEOUT with its record. -/
def scatter (work : Nat) (s : State) : State :=
  onWork s work 6 (fun s w =>
    match scatterCheck s w with
    | (s, .error st) => complete s w st
    | (s, .ok p) =>
      if p.silent then endScatter s w p.scat .timeout
      else
        let s := if p.scat.table = 1024 then s
                 else modCard s (fun c => { c with tables := mmod c.tables p.scat.table (fun t => { t with queue := t.queue ++ [w.id] }) })
        beginWork (setScat s w.id p.scat) w.id)

/-- SCATTER_START (R187–R189): a RAW SCATTER, or the first in its table's order. -/
def scatterStart (work : Nat) (s : State) : State :=
  match workOf s work, mget s.card.scatters work with
  | some w, some x =>
    if x.begun || !(carderFree s) then s
    else if x.table = 1024 then scatterRaw w (w.f 20 2) x.idx 0 s { x with begun := true }
    else match mget s.card.tables x.table with
      | none => s
      | some t =>
        if t.queue.head? != some work then s
        else if t.tver = 2 ^ 32 - 2 then
          complete (modCard s (fun c => { c with
            scatters := mdel c.scatters work,
            tables := mmod c.tables x.table (fun t => { t with queue := t.queue.drop 1 }) })) w .malformed
        else scatterRows w x.table t.reg t.tver (distinct [] x.idx) s { x with begun := true }
  | _, _ => s

/-- SCATTER_ROW_RESUME (R190): the row that waits goes on once no reader needs its PREV. -/
def scatterRowResume (work : Nat) (s : State) : State :=
  match workOf s work, mget s.card.scatters work with
  | some w, some x =>
    match mget s.card.tables x.table with
    | some t => if x.begun && !x.todo.isEmpty then scatterRows w x.table t.reg t.tver x.todo s x else s
    | none => s
  | _, _ => s

/-- A SCATTER times out (R190): rows already swapped stay swapped. One not yet begun is checked first. -/
def scatterTimeout (s : State) (w : Work) : State :=
  match mget s.card.scatters w.id with
  | some x => endScatter s w x .timeout
  | none =>
    match scatterCheck s w with
    | (s, .error st) => complete s w st
    | (s, .ok p) => endScatter s w p.scat .timeout

/-! ### Load counters and skew migration (R194) -/

/-- Lines each site has served, as its counters stand. -/
def siteLines (s : State) : List Nat := (List.range 8).map (fun i => getF s (Reg.mcReadsLines.ix i) + getF s (Reg.mcWritesLines.ix i))

/-- The site with the least traffic of the last window, the lowest on a tie. -/
def quietSite (s : State) : Nat :=
  ((List.range 8).filter (fun i => siteTakes s i)).foldl (fun b i => if s.card.traffic.getD i 0 < s.card.traffic.getD b 0 then i else b)
    (((List.range 8).filter (fun i => siteTakes s i)).headD 0)

/-- The pages that hold the current slots of a load shard. -/
def shardPages (s : State) (r : List Byte) (k : Nat) : List Nat :=
  let rows := (List.range (2 ^ tbShift r)).map (fun i => k * 2 ^ tbShift r + i) |>.filter (fun i => decide (i < tbRows r))
  (rows.flatMap (fun row =>
    let p := (rowPtr s r row).2
    if p.word.isNone && decide (p.slot < tbSlots r) then pagesOf (tbSlot r p.slot) (slotSize r) else [])).eraseDups

/-- Skew migration (R194): the pages of each load shard whose count in the last window exceeds the mean by SKEW_X start to move to the
site with the least traffic. -/
def skewMigrate (s : State) : State :=
  if !(flagF s Reg.crdCtrlSkewEn) then s
  else
    let x := max 2 (getF s Reg.crdCtrlSkewX)
    s.card.tables.foldl (fun (s : State) t =>
      let r := t.2.reg
      let n := loadShards r
      if n = 0 then s
      else
        let b := rdW s (getLE r 24 4 * 65536) (4 * n)
        let counts := (List.range n).map (fun k => getLE b.2.bytes (4 * k) 4)
        let total := sumNat counts
        let site := quietSite b.1
        ((List.range n).filter (fun k => decide (counts.getD k 0 * n > x * total))).foldl (fun s k =>
          (shardPages s r k).foldl (fun s p =>
            match (pageEnt s p).home with
            | .t2 i _ => if i = site then s else (startMove s p (.site site) none).getD s
            | _ => (startMove s p (.site site) none).getD s) s) b.1) s

/-- LOAD_WINDOW_END (R194): the counts are written to LOAD_PAGE and reset. -/
def loadWindowEnd (s : State) : State :=
  if tickOf s < s.card.window + atLeast1 s Reg.crdCtrlWindow then s
  else
    let s := s.card.tables.foldl (fun (s : State) t =>
      let r := t.2.reg
      if tbShift r = 0 then s
      else nrPut s (getLE r 24 4 * 65536) ((List.range (loadShards r)).flatMap (fun k => toBytes 4 ((mget t.2.load k).getD 0)))) s
    let now := siteLines s
    let s := modCard s (fun c => { c with
      tables := c.tables.map (fun t => (t.1, { t.2 with load := [] })),
      window := tickOf s,
      traffic := (List.range 8).map (fun i => now.getD i 0 - c.mark.getD i 0),
      mark := now })
    skewMigrate s

end Sys2Proof.Machine
end

