-- ==== Sys2Proof/Machine/FeltCore.lean ====
section
/-! DEFINITION. The Felt below the slots (R197–R226): blocks and the map, a cell's registers and SRAM, bundles and their order of issue,
windows, routers, staging transfers. -/
namespace Sys2Proof.Machine

/-- Update the Felt part of the state. -/
def modFelt (s : State) (f : Felt → Felt) : State := { s with felt := f s.felt }
/-- A loaded image. -/
def imageOf (s : State) (i : Nat) : Option Image := mget s.felt.images i
/-- Store an image. -/
def setImage (s : State) (i : Nat) (x : Image) : State := modFelt s (fun f => { f with images := mput f.images i x })

/-! ### Blocks and the map (R203, R214–R217) -/

/-- Logical block-rows R (R214). -/
def blockRows (p : Part) : Nat := partBlocks p / 8

/-- The fences asked for by FLT_FENCE and FENCE_HI. -/
def fenceAsked (s : State) : Nat := getF s Reg.fltFenceFence + getF s Reg.fltBlkHiFenceHi * 2 ^ 64

/-- The usable physical blocks of a block-column, in ascending order. -/
def usable (s : State) (j : Nat) : List Nat :=
  ((List.range 9).map (fun k => j + 8 * k)).filter (fun b => !(s.felt.defect.testBit b) && !(s.felt.fenced.testBit b))

/-- The physical block of a logical block (R214): none where its column is short. -/
def physOf (s : State) (l : Nat) : Option Nat := if l < partBlocks s.part then (usable s (l % 8))[l / 8]? else none

/-- The bits of a block-column in a mask of 72 blocks. -/
def colMask (j : Nat) : Nat := sumNat ((List.range 9).map (fun k => 2 ^ (j + 8 * k)))

/-- Whether a fence in a column awaits an idle load (R216). -/
def fencePending (s : State) (j : Nat) : Bool := (fenceAsked s &&& colMask j) != (s.felt.fenced &&& colMask j)

/-- The logical blocks that loaded images hold. -/
def heldBlocks (s : State) : Nat := s.felt.images.foldl (fun a i => a ||| i.2.blocks) 0

/-- Pending fences are applied for every column of which no image holds a block (R216, R258). -/
def applyFences (s : State) : State :=
  (List.range 8).foldl (fun s j =>
    if (setBitsOf 64 (heldBlocks s)).any (fun l => l % 8 = j) then s
    else
      let f := s.felt.fenced
      modFelt s (fun x => { x with fenced := f - (f &&& colMask j) + (fenceAsked s &&& colMask j) })) s

/-- The column and row of a cell in the mesh (R203). -/
def meshAt (cell : Nat) : Nat × Nat :=
  let l := cell / 16
  let c := cell % 16
  (4 * (l % 8) + c % 4, 4 * (l / 8) + c / 4)

/-- The cell at a column and row. -/
def cellAt (x y : Nat) : Nat := 16 * (8 * (y / 4) + x / 4) + (4 * (y % 4) + x % 4)

/-- The neighbour of a cell on a link (0 N, 1 E, 2 S, 3 W): none beyond the edge of the mesh. -/
def meshNext (rows cell dir : Nat) : Option Nat :=
  let p := meshAt cell
  match dir with
  | 0 => if p.2 = 0 then none else some (cellAt p.1 (p.2 - 1))
  | 1 => if p.1 = 31 then none else some (cellAt (p.1 + 1) p.2)
  | 2 => if p.2 + 1 ≥ rows then none else some (cellAt p.1 (p.2 + 1))
  | 3 => if p.1 = 0 then none else some (cellAt (p.1 - 1) p.2)
  | _ => none

/-- The link on which a flit sent on link `dir` arrives at the neighbour. -/
def opposite (dir : Nat) : Nat := (dir + 2) % 4

/-! ### Registers (R226, R227) -/

/-- All ones of a width. -/
def ones (w : Nat) : Nat := 2 ^ w - 1
/-- A register with nothing in it. -/
def tag0 : Tagged := ⟨0, false⟩
/-- A scalar register: s0 reads zero with a clear tag. -/
def Core.rs (c : Core) (r : Nat) : Tagged := if r = 0 then tag0 else (mget c.s r).getD tag0
/-- A vector register. -/
def Core.rv (c : Core) (r : Nat) : Tagged := (mget c.v r).getD tag0
/-- A predicate register: p0 reads all ones. -/
def Core.rp (c : Core) (r : Nat) : Tagged := if r = 0 then ⟨ones 64, false⟩ else (mget c.p r).getD tag0
/-- An accumulator with nothing in it. -/
def accZero : Acc := ⟨none, [], false⟩
/-- Lane i of a vector value. -/
def laneOf (v i : Nat) : Nat := bits v (32 * i) 32
/-- A vector value from 64 lanes. -/
def ofLanes (f : Nat → Nat) : Nat := packBits 32 ((List.range 64).map f)
/-- The bits of a vector register that a predicate governs (R231). -/
def laneMask (p : Nat) : Nat := packBits 32 ((List.range 64).map (fun i => if p.testBit i then ones 32 else 0))

/-- The masked write of a register (R227): a whole write takes the written tag, a part write ORs it. -/
def maskWrite (w mask : Nat) (old : Tagged) (val : Nat) (tag : Bool) : Tagged :=
  if mask = ones w then ⟨val % 2 ^ w, tag⟩
  else ⟨(old.val - (old.val &&& mask)) + (val &&& mask), old.tag || tag⟩

/-- A write lands (R228). -/
def landWrite (c : Core) (w : PWrite) : Core :=
  match w.tgt with
  | .s r m => if r = 0 then c else { c with s := mput c.s r (maskWrite 64 m (c.rs r) w.val w.tag) }
  | .v r m => { c with v := mput c.v r (maskWrite 2048 m (c.rv r) w.val w.tag) }
  | .p r m => if r = 0 then c else { c with p := mput c.p r (maskWrite 64 m (c.rp r) w.val w.tag) }
  | .acc a => { c with accSeen := mput c.accSeen a w.acc }
  | .lane e => { c with lanesSeen := mput c.lanesSeen e w.lane }
  | .set => { c with sel := w.val }

/-- Writes that land together, in the order in which the last one stands (R229): issued earlier first, then M, V, X, C. -/
def writeLe (a b : PWrite) : Bool := decide (a.issued < b.issued) || (a.issued = b.issued && decide (a.prec ≤ b.prec))

/-- The writes of an issue cycle land. -/
def landAll (c : Core) (cyc : Nat) : Core :=
  let now := sortBy writeLe (c.pend.filter (fun w => decide (w.land ≤ cyc)))
  now.foldl landWrite { c with pend := c.pend.filter (fun w => decide (w.land > cyc)) }

/-- Every write in flight lands, in the order of its cycles. -/
def landRest (c : Core) : Core :=
  let le (a b : PWrite) : Bool := decide (a.land < b.land) || (a.land = b.land && writeLe a b)
  (sortBy le c.pend).foldl landWrite { c with pend := [] }

/-- A cell as loading leaves it (R201, R219). -/
def coreNew (wins : List Win) : Core :=
  ⟨⟨0, 0, [], none, true⟩, [], [], [], [], [], [], [], [], [], 0, [], wins, [], [], none⟩

/-! ### SRAM (R198, R200) -/

/-- Words of a cell's SRAM. -/
def sramWords : Nat := 32768
/-- A word never written since the SRAM was cleared. -/
def swordZero : SWord := ⟨zeros 16, false, 0⟩
/-- A word of SRAM. -/
def Core.word (c : Core) (w : Nat) : SWord := (mget c.sram w).getD swordZero
/-- Store a word; a clean zero word is not listed. -/
def Core.setWord (c : Core) (w : Nat) (x : SWord) : Core :=
  { c with sram := if x = swordZero then mdel c.sram w else mput c.sram w x }

/-- Write whole words from word `w` on, each with its poison. -/
def putWords (c : Core) (w : Nat) (bs : List Byte) (pois : Nat → Bool) : Core :=
  ((chunksOf 16 (bs.length / 16 + 1) bs).zip (List.range (bs.length / 16 + 1))).foldl
    (fun c x => c.setWord (w + x.2) ⟨fitBytes 16 x.1, pois x.2, 0⟩) c

/-- Two errors in one word: those of two positions are more than the code corrects. -/
def joinErr (a b : Nat) : Nat := if a = 0 then min beyond b else if b = 0 || a = b then a else beyond

/-- What a read of words gives: bytes, whether one is poisoned or uncorrectable, and the words that were not clean: the error that stands
in each, one above `beyond` for poison. -/
structure SRead where
  bytes : List Byte
  bad : Bool
  hits : List (Nat × Nat)
  deriving DecidableEq, Repr

/-- The class of a word read: 0 clean, 1 corrected, 2 uncorrectable, 3 poison. -/
def SWord.cls (x : SWord) : Nat := if x.pois then 3 else if x.err = 0 then 0 else if x.err < beyond then 1 else 2

/-- A word as an access counts it. -/
def SWord.hit (x : SWord) : Nat := if x.pois then beyond + 1 else min beyond x.err

/-- Words as the guard code classes them (R200). -/
def sramRead (c : Core) (w n : Nat) : SRead :=
  let xs := (List.range n).map (fun i => c.word (w + i))
  ⟨xs.flatMap (·.data), xs.any (fun x => decide (x.cls ≥ 2)),
   ((List.range n).map (fun i => (w + i, (c.word (w + i)).hit))).filter (fun h => h.2 != 0)⟩

/-- Upsets met by a read: word counted from the first, and the error that strikes it. They stay until the word is rewritten. -/
def upset (c : Core) (w : Nat) (ups : List (Nat × Nat)) : Core :=
  ups.foldl (fun c u => let x := c.word (w + u.1)
                        c.setWord (w + u.1) { x with err := joinErr x.err u.2 }) c

/-- The physical block of a logical block, 0 where it has none. -/
def pblockOf (s : State) (l : Nat) : Nat := (physOf s l).getD 0

/-- A block is fenced by firmware when the uncorrectable SRAM words logged with it in one window reach B_TH (R453). -/
def autoBlock (s : State) (phys : Nat) : State :=
  let r := autoCount s (0x30000 + phys)
  let done : Bool := if phys < 64 then (getF s Reg.fltFenceFence).testBit phys else (getF s Reg.fltBlkHiFenceHi).testBit (phys - 64)
  if flagF s Reg.fwCtrlAutoBlock && decide (r.2 ≥ getF s Reg.fwAutoBTh) && !done then
    autoFenced (if phys < 64 then setF r.1 Reg.fltFenceFence (setBit (getF s Reg.fltFenceFence) phys true)
      else setF r.1 Reg.fltBlkHiFenceHi (setBit (getF s Reg.fltBlkHiFenceHi) (phys - 64) true))
  else r.1

/-- What marks a word met by a read-modify-write among the words an access did not find clean. -/
def rmwHit : Nat := 32

/-- Words that an SRAM access did not find clean are counted and logged (R200, R321, R453): a read logs nothing of a word that carries the
poison pattern, and a read-modify-write of a poisoned word writes the pattern again (R315). -/
def countHits (s : State) (cell : Nat) (hits : List (Nat × Nat)) : State :=
  hits.foldl (fun s h =>
    let u := pblockOf s (cell / 16)
    let a := cell % 16 * 32768 + h.1
    let e := h.2 % rmwHit
    let rmw : Bool := decide (h.2 ≥ rmwHit)
    let s := if rmw && decide (e ≥ beyond) then bump s Reg.intPoisonWritten else s
    if e < beyond then logCorrected (bump s Reg.fltEccCorrected) 1 (e - 1) u a
    else if e = beyond then autoBlock (intLog (bump s Reg.fltEccUncorrected) 2 1 0x1F u a) u
    else let s := bump s Reg.fltEccUncorrected; if rmw then intLog s 3 1 0x1F u a else s) s

/-- Bytes written inside one word of SRAM: a part write is a read-modify-write, and one into a poisoned word leaves it poisoned (R306,
R315). With the word it did not find clean. -/
def pokeWord (k : Core) (a : Nat) (bs : List Byte) (pois : Bool) : Core × List (Nat × Nat) :=
  let o := k.word (a / 16)
  let part : Bool := bs.length != 16
  (k.setWord (a / 16) ⟨putAt o.data (a % 16) bs, pois || (part && decide (o.cls ≥ 2)), 0⟩,
   if part && o.hit != 0 then [(a / 16, rmwHit + o.hit)] else [])

/-! ### Bundles (R222–R225, R233, R234) -/

/-- Field of a bundle: the C slot. -/
def slotC (b : Nat) : Nat := bits b 0 32
/-- The X slot. -/
def slotX (b : Nat) : Nat := bits b 32 24
/-- The V slot. -/
def slotV (b : Nat) : Nat := bits b 56 32
/-- The M slot. -/
def slotM (b : Nat) : Nat := bits b 88 32
/-- REPEAT. -/
def bRepeat (b : Nat) : Nat := bits b 125 3
/-- STOP. -/
def bStop (b : Nat) : Bool := b.testBit 124
/-- Whether a slot is enabled: 0 C, 1 X, 2 V, 3 M. -/
def bEn (b slot : Nat) : Bool := b.testBit (120 + slot)

/-- The bundle at a program counter; those beyond the loaded ones are zero, and no checked trace reaches them. -/
def Cell.bundle (c : Cell) (pc : Nat) : Nat := c.code.getD pc 0

/-- The slots that a bundle acts with in a repetition (R224): 0 C, 1 X, 2 V, 3 M, 4 STOP; one with none is passed by its C slot. -/
def neededSlots (b rep : Nat) : List Nat :=
  let l := (if bEn b 0 && rep = 0 then [0] else []) ++ (if bEn b 1 then [1] else []) ++ (if bEn b 2 && rep = 0 then [2] else [])
    ++ (if bEn b 3 then [3] else []) ++ (if bStop b && rep = bRepeat b then [4] else [])
  if l.isEmpty then [0] else l

/-- Whether a C slot holds a LOOP. -/
def isLoop (b : Nat) : Bool := bEn b 0 && bits (slotC b) 26 6 = 0x20
/-- Whether a C slot holds a JUMP. -/
def isJump (b : Nat) : Bool := bEn b 0 && bits (slotC b) 26 6 = 0x21

/-- Whether the LOOP of a bundle at `pc` may start (R233). -/
def loopOk (q : Seq) (b : Nat) : Bool :=
  let n := bits (slotC b) 12 14
  let len := bits (slotC b) 0 12
  n != 0 && len != 0 && decide (q.pc + len ≤ 4095) && decide (q.loops.length < 4) && q.loops.all (fun l => decide (q.pc + len ≤ l.last))

/-- Whether the JUMP of a bundle at `pc` may be taken, `d` being its delay bundle (R234). -/
def jumpOk (q : Seq) (b d : Nat) : Bool :=
  q.loops.isEmpty && !(isLoop d) && !(isJump d) && !(bStop b) && !(bStop d)

/-- The end of the bodies that end on a bundle, innermost first (R233): the next bundle and the loops left. -/
def loopEnd (pc : Nat) : List CLoop → Nat × List CLoop
  | [] => (pc + 1, [])
  | l :: ls => if l.last = pc then (if l.left > 0 then (l.first, { l with left := l.left - 1 } :: ls) else loopEnd pc ls) else (pc + 1, l :: ls)

/-- Where a cell goes after an issue cycle of bundle `b` (R224, R225, R233, R234). -/
def seqNext (q : Seq) (b : Nat) : Seq :=
  let q := if q.rep = 0 && isLoop b then
      { q with loops := ⟨q.pc + 1, q.pc + bits (slotC b) 0 12, bits (slotC b) 12 14 - 1⟩ :: q.loops }
    else q
  if q.rep < bRepeat b then { q with rep := q.rep + 1 }
  else if bStop b then { q with rep := 0, stopped := true }
  else match q.jump with
    | some t => { q with pc := t, rep := 0, jump := none }
    | none =>
      if isJump b then { q with pc := q.pc + 1, rep := 0, jump := some (bits (slotC b) 0 12) }
      else
        let r := loopEnd q.pc q.loops
        { q with pc := r.1, rep := 0, loops := r.2 }

/-! ### Routers (R204) -/

/-- Whether a router entry drives its link in an issue cycle. -/
def Router.active (r : Router) (cyc : Nat) : Bool :=
  decide (r.reps ≥ 1) && decide (r.first ≤ cyc)
    && (if r.period = 0 then cyc = r.first else (cyc - r.first) % r.period = 0 && decide ((cyc - r.first) / r.period < r.reps))

/-! ### Windows and transfers (R206–R211) -/

/-- Transfers of a window's list. -/
def xferCount (st : List StageEnt) (cell win : Nat) : Nat :=
  sumNat ((st.filter (fun e => e.cell = cell && e.win = win)).map (·.count))

/-- The entry and index of transfer n of a window. -/
def xferAt : List StageEnt → Nat → Option (StageEnt × Nat)
  | [], _ => none
  | e :: es, n => if n < e.count then some (e, n) else xferAt es (n - e.count)

/-- Window w of a cell. -/
def Core.win (c : Core) (w : Nat) : Win := c.wins.getD w ⟨0, 0, 0xFF, false, 0, none⟩

/-- Whether a line lies in a window that the Ring owns. -/
def ringOwned (ws : List Win) (line : Nat) : Bool :=
  ws.any (fun w => w.dir != 0xFF && !w.own && decide (w.base ≤ line) && decide (line < w.base + w.lines))

/-- The windows as a launch leaves them (R207). -/
def winsAtLaunch (ws : List Win) : List Win := ws.map (fun w => { w with own := w.dir = 1, xfer := 0, ready := none })

/-- Update a cell of an image. -/
def Image.modCell (x : Image) (c : Nat) (f : Cell → Cell) : Image := { x with cells := mmod x.cells c f }

/-- Update both views of a cell's state. -/
def Cell.both (c : Cell) (f : Core → Core) : Cell := { c with base := f c.base, cur := f c.cur }

/-- A word of a block's outward tap traffic (R54): at 256 words the segment is complete, and it is digested while the twins compare. -/
def tapWord (s : State) (blk : Nat) (w : List Byte) : State :=
  let ws := (mget s.twin.blockWords blk).getD [] ++ [ofBytes w]
  if ws.length < 256 then { s with twin := { s.twin with blockWords := mput s.twin.blockWords blk ws } }
  else
    let seg := (mget s.twin.blockSeg blk).getD 0
    let ds := if s.twin.st = 2 then [digestOf ⟨1, blk, 0, seg, 0⟩ (tickOf s) (ws.flatMap (fun n => toBytes 16 n))] else []
    { s with twin := { s.twin with
        blockWords := mdel s.twin.blockWords blk, blockSeg := mput s.twin.blockSeg blk ((seg + 1) % 2 ^ 32),
        own := s.twin.own ++ ds, unsent := s.twin.unsent ++ ds } }

/-- A block's outward tap traffic is counted in segments while twin mode is on (R54). -/
def tapOut (s : State) (blk : Nat) (ws : List (List Byte)) : State :=
  if s.twin.st != 0 then ws.foldl (fun s w => tapWord s blk w) s else s

/-- Move the bytes of one row of a transfer between the node range and the window (R208–R211). -/
def moveRow (s : State) (img cell : Nat) (w : Win) (e : StageEnt) (addr j : Nat) : State :=
  let word := w.base * 16 + j * (e.rowlen / 16)
  match imageOf s img with
  | none => s
  | some x =>
    if w.dir = 0 then
      let r := rdW s addr e.rowlen
      let lost (i : Nat) : Bool := r.2.timeout && nrSilent r.1 (addr + 16 * i) 16
      let p (i : Nat) : Bool := lost i || r.2.pois.contains i
      let n := ((List.range (e.rowlen / 16)).filter p).length
      setImage (bumpBy r.1 Reg.intPoisonCarried n) img (x.modCell cell (fun c => c.both (fun k => putWords k word r.2.bytes p)))
    else
      match mget x.cells cell with
      | none => s
      | some c =>
        let ws := (List.range (e.rowlen / 16)).map (fun i => c.base.word (word + i))
        let pois := (List.range ws.length).filter (fun i => decide ((ws.getD i swordZero).cls ≥ 2))
        let s := countHits s cell (sramRead c.base word ws.length).hits
        (nrWrite (tapOut (bumpBy s Reg.intPoisonCarried pois.length) (cell / 16) (ws.map (·.data))) addr (ws.flatMap (·.data)) pois).1

/-- Move a transfer's bytes (R208). -/
def moveXfer (s : State) (img : Nat) (t : Xfer) : State :=
  match imageOf s img with
  | none => s
  | some x =>
    match mget x.cells t.cell, xferAt (x.staging.filter (fun e => e.cell = t.cell && e.win = t.win)) t.num, x.run with
    | some c, some (e, n), some r =>
      (List.range e.rows).foldl (fun s j =>
        let a : Int := (r.base + e.addr + j * e.stride : Nat) + (n : Int) * e.astep
        moveRow s img t.cell (c.base.win t.win) e a.toNat j) s
    | _, _, _ => s

/-- Replace a window of a cell's state. -/
def Core.setWin (c : Core) (w : Nat) (f : Win → Win) : Core := { c with wins := modAt c.wins w f }

/-- The rows of node-range bytes that transfer `n` of a window moves (R208): first byte and length. -/
def xferRows (x : Image) (r : Run) (cell win n : Nat) : List (Nat × Nat) :=
  match xferAt (x.staging.filter (fun e => e.cell = cell && e.win = win)) n with
  | some (e, i) => (List.range e.rows).map (fun j =>
      (((r.base + e.addr + j * e.stride : Nat) + (i : Int) * e.astep : Int).toNat, e.rowlen))
  | none => []

/-- The outbound windows that the image hands back in issue cycle 0, by the first bundle of their cells (R225, R250). -/
def givenFirst (x : Image) : List (Nat × Nat) :=
  x.cells.filterMap (fun c =>
    let b := c.2.bundle c.2.entry
    let w := bits (slotX b) 0 2
    if bEn b 1 && bits (slotX b) 21 3 = 0 && bits (slotX b) 17 4 = 2 && (c.2.base.win w).dir = 1 then some (c.1, w) else none)

/-- Whether an inbound transfer 0 must follow an outbound one that issue cycle 0 is still to start (R209: ties are ordered outbound before
inbound): their bytes overlap. -/
def heldFill (x : Image) (t : Xfer) : Bool :=
  match x.run, mget x.cells t.cell with
  | some r, some c =>
    t.num = 0 && (c.base.win t.win).dir = 0 && r.step = 0 && (!r.launched || x.cyc = 0)
      && (givenFirst x).any (fun o => (xferRows x r o.1 o.2 0).any (fun a => (xferRows x r t.cell t.win 0).any (fun b =>
            decide (a.1 < b.1 + b.2) && decide (b.1 < a.1 + a.2))))
  | _, _ => false

/-- TRANSFER_READY (R207, R209, R211): a transfer's last word lands, or is placed, in Felt cycle `felt`; every transfer that was
started before it has moved its bytes. A transfer that must follow one not yet started is not ready. -/
def transferReady (img cell win felt : Nat) (s : State) : State :=
  match imageOf s img with
  | none => s
  | some x =>
    match findIdx (fun (t : Xfer) => t.cell = cell && t.win = win) x.xfers with
    | none => s
    | some i =>
      if (x.xfers[i]?).any (heldFill x) then s else
      let due := (x.xfers.take (i + 1)).filter (fun t => !t.moved && !(heldFill x t))
      let s := due.foldl (fun s t => moveXfer s img t) s
      match imageOf s img with
      | none => s
      | some y =>
        let moved : List Xfer := (y.xfers.take (i + 1)).map (fun t => { t with moved := t.moved || !(heldFill y t) })
        let left := moved.take i ++ y.xfers.drop (i + 1)
        let y := { y with xfers := left }
        setImage s img (y.modCell cell (fun c => c.both (fun k => k.setWin win (fun w => { w with ready := some felt }))))

end Sys2Proof.Machine
end

