-- ==== Sys2Proof/Machine/CellOps.lean ====
section
/-! DEFINITION. What each cell instruction does (R222–R253): legality of the encodings, and the effect of each slot, read from the state at
the start of the issue cycle (`b`) and written into the state with what the bundle has done (`k`). -/
namespace Sys2Proof.Machine

/-- The class of a cell fault (R218): 1 ILLEGAL, 2 SCHEDULE, 3 POISON, 4 WATCHDOG. -/
def fIllegal : Nat := 1
/-- SCHEDULE. -/
def fSchedule : Nat := 2
/-- POISON. -/
def fPoison : Nat := 3

/-- What surrounds a slot: issue cycle, the Felt cycle it falls in, repetition, the cell, flits that arrive, a free value, upsets met by its
SRAM read, transfers of each window, the delay bundle of a JUMP. -/
structure Env where
  cyc : Nat
  felt : Nat
  n : Nat
  cell : Nat
  flits : List Flit
  fv : Nat
  ups : List (Nat × Nat)
  totals : List Nat
  delay : Nat
  deriving DecidableEq, Repr

/-- What a slot comes to: the cell's state with the SRAM words it read that were not clean; a fault; a WREL that freezes the image. -/
inductive Act where
  | done (k : Core) (hits : List (Nat × Nat))
  | fault (cls : Nat)
  | freeze
  deriving DecidableEq, Repr

/-- A slot that is done with no SRAM read. -/
def ok (k : Core) : Act := .done k []

/-- Issue a write of latency `lat` from the slot of precedence `prec` (R228, R229). -/
def issue (k : Core) (v : Env) (lat prec : Nat) (t : WTarget) (val : Nat) (tag : Bool) : Core :=
  { k with pend := k.pend ++ [⟨v.cyc + lat - 1, v.cyc, prec, t, val, tag, accZero, exactZero false⟩] }

/-- Add counts to the selected statistics set (R235). -/
def count (k : Core) (sel : Nat) (t : TStat) : Core :=
  { k with sets := mput k.sets sel (((mget k.sets sel).getD tstatZero).join t) }

/-- Counts of one kind. -/
def satCount (n : Nat) : TStat := { tstatZero with sat := n }

/-- What conversions count, summed. -/
def convCount (cs : List Conv) : TStat := cs.foldl (fun t c => t.conv c) tstatZero

/-! ### C slot (R232–R235): precedence 3 -/

/-- Write a whole scalar register from the C slot. -/
def cWrite (k : Core) (v : Env) (lat sd val : Nat) : Act := ok (issue k v lat 3 (.s sd (ones 64)) val false)

/-- A scalar operation of layout CR. -/
def cReg (b k : Core) (v : Env) (w lat : Nat) (f : Nat → Nat → Nat) : Act :=
  let x := b.rs (bits w 16 5)
  let y := b.rs (bits w 11 5)
  if x.tag || y.tag then .fault fPoison else cWrite k v lat (bits w 21 5) (f x.val y.val % 2 ^ 64)

/-- A scalar operation of layout CI. -/
def cImm (b k : Core) (v : Env) (w : Nat) (f : Nat → Nat → Nat) : Act :=
  let x := b.rs (bits w 16 5)
  if x.tag then .fault fPoison else cWrite k v 1 (bits w 21 5) (f x.val (bits w 0 16) % 2 ^ 64)

/-- Arithmetic shift right. -/
def sarNat (x n : Nat) : Nat := ux 64 (sx 64 x / (2 ^ n : Nat))

/-- LDIq: bits 16q+15:16q of the register (R232). -/
def cLdi (k : Core) (v : Env) (w q : Nat) : Act :=
  ok (issue k v 1 3 (.s (bits w 21 5) (ones 16 * 2 ^ (16 * q))) (bits w 0 16 * 2 ^ (16 * q)) false)

/-- The C slot of a bundle. LOOP and JUMP act on the order of issue alone (`seqNext`). -/
def actC (v : Env) (b k : Core) (bundle : Nat) : Act :=
  let w := slotC bundle
  match bits w 26 6 with
  | 0x01 => cReg b k v w 1 (fun x y => x + y)
  | 0x02 => cReg b k v w 1 (fun x y => x + (2 ^ 64 - y))
  | 0x03 => cReg b k v w 1 (fun x y => x &&& y)
  | 0x04 => cReg b k v w 1 (fun x y => x ||| y)
  | 0x05 => cReg b k v w 1 (fun x y => x ^^^ y)
  | 0x06 => cReg b k v w 1 (fun x y => x * 2 ^ (y % 64))
  | 0x07 => cReg b k v w 1 (fun x y => x / 2 ^ (y % 64))
  | 0x08 => cReg b k v w 1 (fun x y => sarNat x (y % 64))
  | 0x09 => cReg b k v w 3 (fun x y => x * y)
  | 0x0A => cReg b k v w 1 (fun x y => if sx 64 x ≤ sx 64 y then x else y)
  | 0x0B => cReg b k v w 1 (fun x y => if sx 64 x ≥ sx 64 y then x else y)
  | 0x10 => cImm b k v w (fun x i => x + ux 64 (sx 16 i))
  | 0x11 => cImm b k v w (fun x i => x &&& i)
  | 0x12 => cImm b k v w (fun x i => x ||| i)
  | 0x13 => cLdi k v w 0
  | 0x14 => cLdi k v w 1
  | 0x15 => cLdi k v w 2
  | 0x16 => cLdi k v w 3
  | 0x20 => if loopOk b.seq bundle then ok k else .fault fIllegal
  | 0x21 => if jumpOk b.seq bundle v.delay then ok k else .fault fIllegal
  | 0x22 => ok (issue k v 1 3 .set (bits w 0 4) false)
  | _ => ok k

/-- Whether a C slot's encoding is defined (R223, R232; log entry 21). -/
def legalC (w : Nat) : Bool :=
  let op := bits w 26 6
  if op = 0 then w = 0
  else if op ≤ 0x0B then bits w 0 11 = 0
  else if 0x10 ≤ op && op ≤ 0x12 then true
  else if 0x13 ≤ op && op ≤ 0x16 then bits w 16 5 = 0
  else if op = 0x20 then true
  else if op = 0x21 then bits w 12 14 = 0
  else if op = 0x22 then bits w 4 22 = 0
  else false

/-! ### M slot (R236, R237): precedence 0 -/

/-- An accumulator as its chain sees it. -/
def Core.ac (c : Core) (a : Nat) : Acc := (mget c.acc a).getD accZero
/-- An element of an accumulator. -/
def Acc.at_ (a : Acc) (i j : Nat) : Nat := a.el.getD (32 * i + j) 0

/-- Write an accumulator's chain at once and its readers' view after 8 cycles (R230). -/
def accWrite (k : Core) (v : Env) (a : Nat) (x : Acc) : Core :=
  { k with acc := mput k.acc a x, pend := k.pend ++ [⟨v.cyc + 7, v.cyc, 0, .acc a, 0, false, x, exactZero false⟩] }

/-- Whether a format multiplies in the integer units. -/
def intFmt (f : Nat) : Bool := f = 7 || f = 8 || f = 9 || f = 10

/-- Element i of a 256-bit segment. -/
def segEl (f seg i : Nat) : Nat := bits seg (fmtBits f * i) (fmtBits f)

/-- The integer value of a code in an MMA: an escape contributes 0 (R237). -/
def mmaInt (f c : Nat) : Int := if (f = 9 || f = 10) && c = qiEscape f then 0 else sx (fmtBits f) c

/-- The products that one element of the accumulator gains (R237), as the places of the factors. -/
def mmaPairs (f quad i j : Nat) : List (Nat × Nat) :=
  if f = 2 then
    (if i / 16 = quad / 2 && j / 16 = quad % 2 then [(i % 16, j % 16)] else [])
  else if fmtBits f = 4 then [(2 * i, 2 * j), (2 * i + 1, 2 * j + 1)] else [(i, j)]

/-- One element of an integer accumulator after an MMA: its value and whether it saturated. -/
def mmaIntEl (f a b old : Nat) (ps : List (Nat × Nat)) : Nat × Nat :=
  let t := ps.foldl (fun t p => t + mmaInt f (segEl f a p.1) * mmaInt f (segEl f b p.2)) (sx 32 old)
  let r := clampI (-(2 ^ 31), 2 ^ 31 - 1) t
  (ux 32 r.1, r.2)

/-- One element of an FP32 accumulator after an MMA: one exact sum, rounded once. -/
def mmaF32El (f a b old : Nat) (ps : List (Nat × Nat)) : Nat :=
  match ps with
  | [] => old
  | p :: qs =>
    let prod (p : Nat × Nat) := mulV (elemVal f (segEl f a p.1)) (elemVal f (segEl f b p.2))
    toF32 (addV (qs.foldl (fun t q => addV t (prod q)) (prod p)) (f32 old))

/-- MMA (R237). -/
def mma (v : Env) (b k : Core) (w : Nat) : Act :=
  let a := bits w 24 3
  let x := b.rv (bits w 19 5)
  let y := b.rv (bits w 11 5)
  let f := bits w 4 4
  let clr := w.testBit 1
  let old := k.ac a
  let acc := if clr then accZero else old
  if acc.kind.isSome && acc.kind != some (!(intFmt f)) then .fault fIllegal
  else if x.tag || y.tag || acc.tag then .fault fPoison
  else
    let sa := bits x.val (256 * ((bits w 16 3 + v.n) % 8)) 256
    let sb := bits y.val (256 * ((bits w 8 3 + v.n) % 8)) 256
    let at_ (n : Nat) := mmaPairs f (bits w 2 2) (n / 32) (n % 32)
    if intFmt f then
      let el := (List.range 1024).map (fun n => mmaIntEl f sa sb (acc.at_ (n / 32) (n % 32)) (at_ n))
      ok (count (accWrite k v a ⟨some false, el.map (·.1), false⟩) b.sel (satCount (sumNat (el.map (·.2)))))
    else
      let el := (List.range 1024).map (fun n => mmaF32El f sa sb (acc.at_ (n / 32) (n % 32)) (at_ n))
      ok (accWrite k v a ⟨some true, el, false⟩)

/-- MRD (R236). -/
def mrd (v : Env) (b k : Core) (w : Nat) : Act :=
  let x := (mget b.accSeen (bits w 24 3)).getD accZero
  let r := 2 * ((bits w 15 4 + v.n) % 16)
  ok (issue k v 2 0 (.v (bits w 19 5) (ones 2048)) (ofLanes (fun i => x.at_ (r + i / 32) (i % 32))) x.tag)

/-- MWR (R236). -/
def mwr (v : Env) (b k : Core) (w : Nat) : Act :=
  let a := bits w 24 3
  let x := b.rv (bits w 19 5)
  let r := 2 * ((bits w 15 4 + v.n) % 16)
  let old := k.ac a
  let el := (List.range 1024).map (fun n => if n / 64 = r / 2 then laneOf x.val (n % 64) else old.at_ (n / 32) (n % 32))
  ok (accWrite k v a ⟨some (w.testBit 1), el, old.tag || x.tag⟩)

/-- The M slot of a bundle. -/
def actM (v : Env) (b k : Core) (bundle : Nat) : Act :=
  let w := slotM bundle
  match bits w 27 5 with
  | 1 => mma v b k w
  | 2 => ok (accWrite k v (bits w 24 3) accZero)
  | 3 => mrd v b k w
  | 4 => mwr v b k w
  | _ => ok k

/-- Whether an M slot's encoding is defined (R236, R237). -/
def legalM (w : Nat) : Bool :=
  match bits w 27 5 with
  | 0 => w = 0
  | 1 => w % 2 = 0 && [2, 4, 5, 6, 7, 8, 9, 10].contains (bits w 4 4) && (bits w 2 2 = 0 || bits w 4 4 = 2)
  | 2 => bits w 0 24 = 0
  | 3 => bits w 0 15 = 0
  | 4 => bits w 2 13 = 0 && w % 2 = 0
  | _ => false

/-! ### V slot (R238–R244): precedence 1 -/

/-- Whether the predicate governs element i of width `wd`, the elements beginning at bit `off` (R231); an element it does not allow is not
converted and counts nothing (log entry 37). -/
def elOn (p off wd i : Nat) : Bool := p.testBit ((off + wd * i) / 32)

/-- The predicate register of a VA instruction. -/
def vPred (b : Core) (w : Nat) : Tagged := b.rp (bits w 3 3)

/-- Write lanes of a vector register under a predicate. -/
def vWrite (k : Core) (v : Env) (lat vd pred val : Nat) (tag : Bool) : Core := issue k v lat 1 (.v vd (laneMask pred)) val tag

/-- A lane operation on two vector registers that faults on poison. -/
def vBin (b k : Core) (v : Env) (w lat : Nat) (f : Nat → Nat → Nat) : Act :=
  let x := b.rv (bits w 16 5)
  let y := b.rv (bits w 11 5)
  let p := vPred b w
  if x.tag || y.tag || p.tag then .fault fPoison
  else ok (vWrite k v lat (bits w 21 5) p.val (ofLanes (fun i => f (laneOf x.val i) (laneOf y.val i) % 2 ^ 32)) false)

/-- A fused lane operation. -/
def vTri (b k : Core) (v : Env) (w : Nat) (f : Nat → Nat → Nat → Nat) : Act :=
  let x := b.rv (bits w 16 5)
  let y := b.rv (bits w 11 5)
  let z := b.rv (bits w 6 5)
  let p := vPred b w
  if x.tag || y.tag || z.tag || p.tag then .fault fPoison
  else ok (vWrite k v 4 (bits w 21 5) p.val (ofLanes (fun i => f (laneOf x.val i) (laneOf y.val i) (laneOf z.val i))) false)

/-- A comparison of FP32 lanes (R238). -/
def vCond (m a b : Nat) : Bool :=
  match m with
  | 0 => eqV (f32 a) (f32 b) | 1 => !(eqV (f32 a) (f32 b)) | 2 => ltV (f32 a) (f32 b)
  | 3 => !(ltV (f32 b) (f32 a)) | 4 => ltV (f32 b) (f32 a) | _ => !(ltV (f32 a) (f32 b))

/-- VCMP. -/
def vcmp (v : Env) (b k : Core) (w : Nat) : Act :=
  let x := b.rv (bits w 16 5)
  let y := b.rv (bits w 11 5)
  let p := vPred b w
  if x.tag || y.tag || p.tag then .fault fPoison
  else ok (issue k v 2 1 (.p (bits w 21 3) p.val) (maskOf 64 (fun i => vCond (bits w 0 3) (laneOf x.val i) (laneOf y.val i))) false)

/-- Arithmetic shift right of a 32-bit lane. -/
def sar32 (x n : Nat) : Nat := ux 32 (sx 32 x / (2 ^ n : Nat))

/-- VSEL. -/
def vsel (v : Env) (b k : Core) (w : Nat) : Act :=
  let x := b.rv (bits w 16 5)
  let y := b.rv (bits w 11 5)
  let p := (vPred b w).val
  ok (issue k v 2 1 (.v (bits w 21 5) (ones 2048)) (ofLanes (fun i => if p.testBit i then laneOf x.val i else laneOf y.val i)) (x.tag || y.tag))

/-- VBC. -/
def vbc (v : Env) (b k : Core) (w : Nat) : Act :=
  let x := b.rs (bits w 16 5)
  ok (vWrite k v 2 (bits w 21 5) (vPred b w).val (ofLanes (fun _ => x.val % 2 ^ 32)) x.tag)

/-- The lane number of VGET and VPUT. -/
def vLane (w : Nat) : Nat := 2 * bits w 11 5 + w % 2

/-- VGET. -/
def vget (v : Env) (b k : Core) (w : Nat) : Act :=
  let x := b.rv (bits w 16 5)
  ok (issue k v 2 1 (.s (bits w 21 5) (ones 64)) (laneOf x.val (vLane w)) x.tag)

/-- VPUT. -/
def vput (v : Env) (b k : Core) (w : Nat) : Act :=
  let x := b.rs (bits w 16 5)
  let n := 32 * vLane w
  ok (issue k v 2 1 (.v (bits w 21 5) (ones 32 * 2 ^ n)) ((x.val % 2 ^ 32) * 2 ^ n) x.tag)

/-- VROT. -/
def vrot (v : Env) (b k : Core) (w : Nat) : Act :=
  let x := b.rv (bits w 16 5)
  ok (vWrite k v 2 (bits w 21 5) (vPred b w).val (ofLanes (fun i => laneOf x.val ((i + bits w 11 5) % 64))) x.tag)

/-- PSET. -/
def pset (v : Env) (b k : Core) (w : Nat) : Act :=
  let x := b.rs (bits w 16 5)
  ok (issue k v 1 1 (.p (bits w 21 3) (ones 64)) x.val x.tag)

/-- PGET. -/
def pget (v : Env) (b k : Core) (w : Nat) : Act :=
  let x := b.rp (bits w 16 3)
  ok (issue k v 1 1 (.s (bits w 21 5) (ones 64)) x.val x.tag)

/-- The width of a VCVT format: 0 names 32-bit integer lanes. -/
def cvtBits (f : Nat) : Nat := if f = 0 then 32 else fmtBits f

/-- Whether the operands of a VCVT are defined (R239). -/
def cvtOk (w : Nat) : Bool :=
  let src := bits w 11 5
  let dst := bits w 6 4
  let sat := w.testBit 10
  let n := min (cvtBits src) (cvtBits dst)
  decide (src ≤ 8) && decide (1 ≤ dst) && decide (dst ≤ 8) && !(src = 0 && decide (dst ≥ 7)) && !(sat && decide (dst ≥ 7))
    && (if cvtBits src = cvtBits dst then bits w 0 3 = 0 else decide (bits w 0 3 < 32 / n))

/-- One converted element (R65–R67). -/
def convTo (dst : Nat) (sat : Bool) (x : FVal) : Conv :=
  match fmtOf dst with
  | some f => convF f sat x
  | none => (convI dst x).2

/-- VCVT (R239). The bits of vd beyond the 64 elements of a widening conversion are not stated: they are a free value (log entry 6). -/
def vcvt (v : Env) (b k : Core) (w : Nat) : Act :=
  let x := b.rv (bits w 16 5)
  let p := vPred b w
  if x.tag || p.tag then .fault fPoison
  else
    let src := bits w 11 5
    let dst := bits w 6 4
    let ws := cvtBits src
    let wd := cvtBits dst
    let m := bits w 0 3
    let base := if ws < wd then 64 * ws * m else 0
    let val (i : Nat) : FVal := let e := bits x.val (base + ws * i) ws
      if src = 0 then intVal (sx 32 e) else elemVal src e
    let cs := (List.range 64).map (fun i => convTo dst (w.testBit 10) (val i))
    let packed := packBits wd (cs.map (·.code))
    let r := if ws < wd then (packed + (v.fv % 2 ^ (2048 - 64 * wd)) * 2 ^ (64 * wd), ones 2048)
             else if ws = wd then (packed, ones (64 * wd))
             else (packed * 2 ^ (64 * wd * m), ones (64 * wd) * 2 ^ (64 * wd * m))
    let k := issue k v 4 1 (.v (bits w 21 5) (r.2 &&& laneMask p.val)) r.1 false
    let off := if ws ≤ wd then 0 else 64 * wd * m
    ok (count k b.sel (convCount (((List.range 64).filter (elOn p.val off wd)).map (fun i => cs.getD i { code := 0 }))))

/-- VRSC (R240). -/
def vrsc (v : Env) (b k : Core) (w : Nat) : Act :=
  let x := b.rv (bits w 16 5)
  let y := b.rv (bits w 11 5)
  let z := b.rs (bits w 6 5)
  let p := vPred b w
  if bits z.val 18 46 != 0 || bits z.val 6 2 != 0 then .fault fIllegal
  else
    let four := z.val.testBit 17
    let code := if four then (if z.val.testBit 16 then 10 else 8) else (if z.val.testBit 16 then 9 else 7)
    let wd := if four then 4 else 8
    let m := bits w 0 3
    if (!four && m ≥ 4) || !(zeroOk code (sx 8 (bits z.val 8 8))) then .fault fIllegal
    else if x.tag || y.tag || z.tag || p.tag then .fault fPoison
    else
      let rs := (List.range 64).map (fun i =>
        rescale code (sx 32 (laneOf x.val i)) (sx 32 (laneOf y.val i)) (bits z.val 0 6) (sx 8 (bits z.val 8 8)))
      let val := packBits wd (rs.map (fun r => ux wd r.1))
      let k := issue k v 4 1 (.v (bits w 21 5) ((ones (64 * wd) * 2 ^ (64 * wd * m)) &&& laneMask p.val)) (val * 2 ^ (64 * wd * m)) false
      ok (count k b.sel (satCount (sumNat (((List.range 64).filter (elOn p.val (64 * wd * m) wd)).map (fun i => (rs.getD i (0, 0)).2)))))

/-! #### The side register (R241) -/

/-- The side list of block q. -/
def sideList (x q : Nat) : List Nat := (List.range 8).map (fun i => bits x (128 * q + 16 * i) 16)
/-- The FP32 scale. -/
def sideScale (x : Nat) : FVal := f32 (bits x 256 32)
/-- The zero point. -/
def sideZero (x : Nat) : Int := sx 8 (bits x 288 8)
/-- The side format. -/
def sideFmt (x : Nat) : Fmt := if x.testBit 304 then bf16 else fp16
/-- The side list's values. -/
def sideVals (x q : Nat) : List FVal := (sideList x q).map (decodeF (sideFmt x))

/-- What VQENC builds: codes, side list, escapes used, counts (R70, R242). -/
structure Enc where
  codes : List Nat
  side : List Nat
  used : Nat
  t : TStat
  deriving DecidableEq, Repr

/-- One element of VQENC. -/
def encStep (code : Nat) (f : Fmt) (s : FVal) (z : Int) (fv : Nat) (e : Enc) (x : FVal) : Enc :=
  match qiInside code s z x with
  | some c => { e with codes := e.codes ++ [c] }
  | none =>
    if e.used < 8 then
      let c := convF f false x
      { e with codes := e.codes ++ [qiEscape code], side := setAt e.side e.used c.code, used := e.used + 1, t := e.t.conv c }
    else
      let nan := match x with | .nan => 1 | _ => 0
      { e with codes := e.codes ++ [ux (fmtBits code) (qiClip code s z x fv)], t := e.t.join { tstatZero with outl := 1, nan := nan } }

/-- VQENC (R242). The block's count and side list start cleared at its first part. -/
def vqenc (v : Env) (b k : Core) (w : Nat) : Act :=
  let x := b.rv (bits w 16 5)
  let y := b.rv (bits w 11 5)
  let p := vPred b w
  let code := bits w 6 5
  if !(zeroOk code (sideZero y.val)) then .fault fIllegal
  else if x.tag || y.tag || p.tag then .fault fPoison
  else
    let wd := fmtBits code
    let m := bits w 0 3
    let q := m / 4
    let fresh : Bool := m % 4 = 0
    let e0 : Enc := ⟨[], if fresh then List.replicate 8 0 else sideList y.val q, if fresh then 0 else bits y.val (296 + 4 * q) 4, tstatZero⟩
    let e := (List.range 64).foldl (fun e i =>
      if elOn p.val (64 * wd * m) wd i then encStep code (sideFmt y.val) (sideScale y.val) (sideZero y.val) v.fv e (f32 (laneOf x.val i))
      else { e with codes := e.codes ++ [0] }) e0
    let k := issue k v 4 1 (.v (bits w 21 5) ((ones (64 * wd) * 2 ^ (64 * wd * m)) &&& laneMask p.val)) (packBits wd e.codes * 2 ^ (64 * wd * m)) false
    let sideVal := packBits 16 e.side * 2 ^ (128 * q) + e.used * 2 ^ (296 + 4 * q)
    let k := issue k v 4 1 (.v (bits w 11 5) (ones 128 * 2 ^ (128 * q) + 15 * 2 ^ (296 + 4 * q))) sideVal false
    ok (count k b.sel e.t)

/-- The codes of block q of a code register. -/
def blockCodes (code x q : Nat) : List Nat := (List.range 256).map (fun i => bits x (1024 * q + fmtBits code * i) (fmtBits code))

/-- VQDEC (R243). An escape beyond the eighth counts in ESC_OVER whatever its predicate bit (log entry 37). -/
def vqdec (v : Env) (b k : Core) (w : Nat) : Act :=
  let x := b.rv (bits w 16 5)
  let y := b.rv (bits w 11 5)
  let p := vPred b w
  let code := bits w 6 5
  if !(zeroOk code (sideZero y.val)) then .fault fIllegal
  else if x.tag || y.tag || p.tag then .fault fPoison
  else
    let m := bits w 0 3
    let q := m / 4
    let cs := blockCodes code x.val q
    let before := ((cs.take (64 * (m % 4))).filter (fun c => c = qiEscape code)).length
    let d := qiDecode code (sideScale y.val) (sideZero y.val) (sideVals y.val q) ((cs.drop (64 * (m % 4))).take 64) before
    let k := vWrite k v 4 (bits w 21 5) p.val (ofLanes (fun i => toF32 (d.1.getD i (.fin false 0 0)))) false
    ok (count k b.sel { tstatZero with esc := d.2 })

/-- VAMAX (R244). -/
def vamax (b k : Core) (w : Nat) : Act :=
  let x := b.rv (bits w 16 5)
  let p := vPred b w
  if x.tag || p.tag then .fault fPoison
  else
    let t := (setBitsOf 64 p.val).foldl (fun t i =>
      let e := laneOf x.val i
      t.join (match f32 e with
        | .nan => { tstatZero with nan := 1 }
        | .inf _ => { tstatZero with inf := 1 }
        | .fin .. => { tstatZero with amax := e % 2 ^ 31 })) tstatZero
    ok (count k b.sel t)

/-! #### Exact lanes (R245–R249) -/

/-- ELANE. -/
def xLane (w : Nat) : Nat := bits w 4 3
/-- W. -/
def xWide (w : Nat) : Bool := w.testBit 3
/-- FMT of a VX instruction. -/
def xFmt (w : Nat) : Nat := bits w 7 4
/-- The lanes that an instruction names. -/
def xLanes (w : Nat) : List Nat := if xWide w then (List.range 5).map (· + xLane w) else [xLane w]
/-- The form an instruction names, as it is kept for a lane. -/
def xForm (w : Nat) : Nat := 2 * xLane w + b2n (xWide w)

/-- Whether the lanes' fixed forms allow the instruction (R245); a lane no XCLR has fixed allows any (log entry 22). -/
def formOk (k : Core) (w : Nat) : Bool := (xLanes w).all (fun i => match mget k.form i with | some f => f = xForm w | none => true)

/-- Fix the form of the lanes. -/
def fixForm (k : Core) (w : Nat) : Core := { k with form := (xLanes w).foldl (fun m i => mput m i (xForm w)) k.form }

/-- A lane's accumulator in the form an instruction names: a lane that no XCLR has fixed keeps the low words of its value and its state
(log entry 22). -/
def asForm (x : Exact) (wide : Bool) : Exact :=
  if x.wide = wide then x else let n := if wide then 640 else 128; { x with wide := wide, a := sx n (ux n x.a) }

/-- An exact accumulator as its chain sees it. -/
def xGetChain (k : Core) (w : Nat) : Exact := asForm ((mget k.lanes (xLane w)).getD (exactZero (xWide w))) (xWide w)

/-- An exact accumulator as its other readers see it. -/
def xGetSeen (b : Core) (w : Nat) : Exact := asForm ((mget b.lanesSeen (xLane w)).getD (exactZero (xWide w))) (xWide w)

/-- Write an exact accumulator's chain at once and its readers' view after 6 cycles (R230, R246). -/
def xPut (k : Core) (v : Env) (w : Nat) (x : Exact) : Core :=
  { k with lanes := mput k.lanes (xLane w) x,
           pend := k.pend ++ [⟨v.cyc + 5, v.cyc, 1, .lane (xLane w), 0, false, accZero, x⟩] }

/-- Accumulate terms (R246): each with the lane whose predicate bit governs it. -/
def xAccum (v : Env) (k : Core) (w : Nat) (pois : Bool) (p : Nat) (ts : List (Nat × FVal)) : Core :=
  let x := ts.foldl (fun x t => if p.testBit t.1 then exactAdd x t.2 pois else x) (xGetChain k w)
  xPut k v w { x with poison := x.poison || pois }

/-- The elements of a vector register in a format, each with its lane. -/
def vElems (f x : Nat) : List (Nat × FVal) :=
  let wd := cvtBits f
  (List.range (2048 / wd)).map (fun i =>
    let e := bits x (wd * i) wd
    (wd * i / 32, if f = 0 then intVal (sx 32 e) else elemVal f e))

/-- XDOT, XSUM and XSQD (R246). -/
def xdot (v : Env) (b k : Core) (w kind : Nat) : Act :=
  let x := b.rv (bits w 16 5)
  let y := b.rv (bits w 11 5)
  let p := b.rp (bits w 0 3)
  if !(formOk k w) then .fault fIllegal
  else
    let xs := vElems (xFmt w) x.val
    let ts := if kind = 1 then xs
              else (xs.zip (vElems (xFmt w) y.val)).map (fun q => (q.1.1, if kind = 0 then mulV q.1.2 q.2.2 else sqDiff q.1.2 q.2.2))
    ok (xAccum v k w (x.tag || (kind != 1 && y.tag) || p.tag) p.val ts)

/-- Whether a side register's scale suits XDOTQ (R246). -/
def scaleOk (x : Nat) : Bool :=
  let s := bits x 256 32
  (List.range 34).any (fun i => s = pow2Bits ((i : Int) - 24) && (sideZero x = 0 || decide (i ≤ 32)))

/-- XDOTQ (R246): QI8 or QI4 codes. An escape beyond the eighth counts in ESC_OVER whatever its predicate bit (log entry 37). -/
def xdotq (v : Env) (b k : Core) (w code : Nat) : Act :=
  let x := b.rv (bits w 16 5)
  let y := b.rv (bits w 11 5)
  let sd := b.rv (bits w 21 5)
  let p := b.rp (bits w 0 3)
  if !(formOk k w) || !(scaleOk sd.val) || !(zeroOk code (sideZero sd.val)) || (!(xWide w) && sd.val.testBit 304) then .fault fIllegal
  else
    let ds := (List.range (if code = 9 then 1 else 2)).map (fun q =>
      qiDecode code (sideScale sd.val) (sideZero sd.val) (sideVals sd.val q) (blockCodes code x.val q) 0)
    let ts := ((ds.flatMap (·.1)).zip (vElems (xFmt w) y.val)).map (fun q => (q.2.1, mulV q.1 q.2.2))
    let k := xAccum v k w (x.tag || y.tag || sd.tag || p.tag) p.val ts
    ok (count k b.sel { tstatZero with esc := sumNat (ds.map (·.2)) })

/-- The target of XRND. -/
def rndFmt (f : Nat) : Fmt := match f with | 1 => fp32 | 2 => bf16 | 3 => fp16 | _ => fp64

/-- XRND (R248). -/
def xrnd (v : Env) (b k : Core) (w : Nat) : Act :=
  let x := xGetSeen b w
  let a := b.rs (bits w 16 5)
  let m := bits w 0 3
  if !(formOk k w) || (m = 1 && (decide (a.val < 1) || decide (a.val > 2 ^ 40))) then .fault fIllegal
  else
    let c := if m = 0 then exactRound x (rndFmt (xFmt w))
             else if m = 1 then exactRoundDiv x a.val (rndFmt (xFmt w))
             else exactRoundScale x (f32 (a.val % 2 ^ 32)) (rndFmt (xFmt w))
    let k := issue k v 8 1 (.s (bits w 21 5) (ones 64)) c.code (x.poison || (m != 0 && a.tag))
    ok (count k b.sel (satCount c.sat))

/-- The 128-bit state of a copy (R249). -/
def stateBits (x : Exact) : Nat :=
  x.terms + b2n x.infPos * 2 ^ 41 + b2n x.infNeg * 2 ^ 42 + b2n x.ovf * 2 ^ 43 + b2n x.poison * 2 ^ 44 + x.nan * 2 ^ 64

/-- XGET (R249). -/
def xget (v : Env) (b k : Core) (w : Nat) : Act :=
  let x := xGetSeen b w
  let wd := if xWide w then 640 else 128
  if !(formOk k w) then .fault fIllegal
  else ok (issue k v 2 1 (.v (bits w 21 5) (ones 2048)) (ux wd x.a + stateBits x * 2 ^ wd) x.poison)

/-- XADD (R249). -/
def xadd (v : Env) (b k : Core) (w : Nat) : Act :=
  let y := b.rv (bits w 16 5)
  let wd := if xWide w then 640 else 128
  let st := bits y.val wd 128
  if !(formOk k w) || y.val / 2 ^ (wd + 128) != 0 || bits st 45 19 != 0 || bits st 96 32 != 0 then .fault fIllegal
  else
    let x := xGetChain k w
    let t := x.terms + bits st 0 41
    let fits : Bool := t ≤ 2 ^ 40
    let x := { x with a := if fits then sx wd (ux wd (x.a + sx wd (bits y.val 0 wd))) else x.a, terms := if fits then t else x.terms,
                      nan := satTo 32 (x.nan + bits st 64 32), infPos := x.infPos || st.testBit 41, infNeg := x.infNeg || st.testBit 42,
                      ovf := x.ovf || st.testBit 43 || !fits, poison := x.poison || st.testBit 44 || y.tag }
    ok (xPut k v w x)

/-- The V slot of a bundle. -/
def actV (v : Env) (b k : Core) (bundle : Nat) : Act :=
  let w := slotV bundle
  match bits w 26 6 with
  | 0x01 => vBin b k v w 4 f32Add
  | 0x02 => vBin b k v w 4 f32Sub
  | 0x03 => vBin b k v w 4 f32Mul
  | 0x04 => vTri b k v w f32Fma
  | 0x05 => vTri b k v w f32Fnma
  | 0x06 => vBin b k v w 2 f32Min
  | 0x07 => vBin b k v w 2 f32Max
  | 0x08 => vcmp v b k w
  | 0x10 => vBin b k v w 2 (fun x y => x + y)
  | 0x11 => vBin b k v w 2 (fun x y => x + (2 ^ 32 - y))
  | 0x12 => vBin b k v w 4 (fun x y => x * y)
  | 0x13 => vBin b k v w 2 (fun x y => x &&& y)
  | 0x14 => vBin b k v w 2 (fun x y => x ||| y)
  | 0x15 => vBin b k v w 2 (fun x y => x ^^^ y)
  | 0x16 => vBin b k v w 2 (fun x y => x * 2 ^ (y % 32))
  | 0x17 => vBin b k v w 2 (fun x y => if w.testBit 0 then sar32 x (y % 32) else x / 2 ^ (y % 32))
  | 0x18 => vsel v b k w
  | 0x19 => vbc v b k w
  | 0x1A => vget v b k w
  | 0x1B => vput v b k w
  | 0x1C => vrot v b k w
  | 0x1D => pset v b k w
  | 0x1E => pget v b k w
  | 0x20 => vcvt v b k w
  | 0x22 => vrsc v b k w
  | 0x25 => vamax b k w
  | 0x26 => vqenc v b k w
  | 0x27 => vqdec v b k w
  | 0x30 => ok (xPut (fixForm k w) v w (exactZero (xWide w)))
  | 0x31 => xdot v b k w 0
  | 0x32 => xdot v b k w 1
  | 0x33 => xdot v b k w 2
  | 0x34 => xdotq v b k w 9
  | 0x35 => xdotq v b k w 10
  | 0x38 => xrnd v b k w
  | 0x39 => xget v b k w
  | 0x3A => xadd v b k w
  | _ => ok k

/-- Whether a VX instruction's fields are defined (R245–R249). -/
def legalVx (op w : Nat) : Bool :=
  let f := xFmt w
  let d0 : Bool := bits w 21 5 = 0
  let a0 : Bool := bits w 16 5 = 0
  let b0 : Bool := bits w 11 5 = 0
  let m := bits w 0 3
  let pair : Bool := [2, 3, 4, 5, 6, 7, 8].contains f && (xWide w || f != 2)
  (!(xWide w) || decide (xLane w ≤ 3)) &&
    (if op = 0x30 then d0 && a0 && b0 && f = 0 && m = 0
     else if op = 0x31 || op = 0x33 then d0 && pair
     else if op = 0x32 then d0 && b0 && (pair || f = 0 || (f = 1 && xWide w))
     else if op = 0x34 then [4, 5, 7].contains f
     else if op = 0x35 then [6, 8].contains f
     else if op = 0x38 then b0 && [1, 2, 3, 15].contains f && decide (m ≤ 2) && (m != 0 || a0)
     else if op = 0x39 then a0 && b0 && f = 0 && m = 0
     else if op = 0x3A then d0 && b0 && f = 0 && m = 0
     else false)

/-- Whether a V slot's encoding is defined (R238–R244; log entry 21): a field that an operation gives no meaning must be zero. -/
def legalV (w : Nat) : Bool :=
  let op := bits w 26 6
  let d := bits w 21 5
  let a := bits w 16 5
  let b0 : Bool := bits w 11 5 = 0
  let c0 : Bool := bits w 6 5 = 0
  let p0 : Bool := bits w 3 3 = 0
  let m := bits w 0 3
  if op = 0 then w = 0
  else if op ≤ 3 || op = 6 || op = 7 then c0 && m = 0
  else if op ≤ 5 then m = 0
  else if op = 8 then c0 && decide (m ≤ 5) && decide (d < 8)
  else if 0x10 ≤ op && op ≤ 0x16 then c0 && m = 0
  else if op = 0x17 then c0 && decide (m ≤ 1)
  else if op = 0x18 || op = 0x1C then c0 && m = 0
  else if op = 0x19 then b0 && c0 && m = 0
  else if op = 0x1A || op = 0x1B then c0 && p0 && decide (m ≤ 1)
  else if op = 0x1D then decide (d < 8) && b0 && c0 && p0 && m = 0
  else if op = 0x1E then decide (a < 8) && b0 && c0 && p0 && m = 0
  else if op = 0x20 then cvtOk w
  else if op = 0x22 then true
  else if op = 0x25 then d = 0 && b0 && c0 && m = 0
  else if op = 0x26 || op = 0x27 then (bits w 6 5 = 9 && decide (m ≤ 3)) || bits w 6 5 = 10
  else if op ≥ 0x30 then legalVx op w
  else false

/-! ### X slot (R250–R253): precedence 2 -/

/-- The last byte address of the SRAM. -/
def sramTop : Nat := 0x7FFFF

/-- A line address computed as R251 states; the fault where it is out of range, not aligned, or in a window the Ring owns. -/
def lineFault (b : Core) (a : Nat) : Option Nat :=
  if a > sramTop || a % 256 != 0 then some fIllegal else if ringOwned b.wins (a / 256) then some fSchedule else none

/-- Load a line into a vector register. -/
def loadLine (v : Env) (b k : Core) (a r : Nat) : Act :=
  match lineFault b a with
  | some f => .fault f
  | none =>
    let k := upset k (a / 16) v.ups
    let x := sramRead (upset b (a / 16) v.ups) (a / 16) 16
    .done (issue k v 3 2 (.v (r % 32) (ones 2048)) (ofBytes x.bytes) x.bad) x.hits

/-- Store a vector register into a line (R200). -/
def storeLine (b k : Core) (a r : Nat) : Act :=
  match lineFault b a with
  | some f => .fault f
  | none => let x := b.rv (r % 32); ok (putWords k (a / 16) (toBytes 256 x.val) (fun _ => x.tag))

/-- The address of a VLD or VST, and the base after it (R251). -/
def vAddr (b : Core) (w : Nat) : Nat × Nat :=
  let x := (b.rs (bits w 11 5)).val
  let y := (x + ux 64 (256 * sx 10 (bits w 0 10))) % 2 ^ 64
  if w.testBit 10 then (x, y) else (y, y)

/-- The advance of the base register of an access with INC. -/
def bump1 (k : Core) (v : Env) (w : Nat) (y : Nat) : Core :=
  if w.testBit 10 then issue k v 1 2 (.s (bits w 11 5) (ones 64)) y false else k

/-- Give an access with INC its advance, unless it faults. -/
def withInc (a : Act) (v : Env) (w y : Nat) : Act :=
  match a with
  | .done k h => .done (bump1 k v w y) h
  | r => r

/-- SLD and SST (R250, R251): an SST is a read-modify-write (R199, R315). -/
def sldst (v : Env) (b k : Core) (w : Nat) : Act :=
  let sb := b.rs (bits w 10 5)
  let a := (sb.val + ux 64 (8 * sx 10 (bits w 0 10))) % 2 ^ 64
  let r := (bits w 15 5 + v.n) % 32
  if sb.tag then .fault fPoison
  else if a > sramTop || a % 8 != 0 then .fault fIllegal
  else if ringOwned b.wins (a / 256) then .fault fSchedule
  else if w.testBit 20 then
    let x := b.rs r
    let y := pokeWord k a (toBytes 8 x.val) x.tag
    .done y.1 y.2
  else
    let k := upset k (a / 16) v.ups
    let x := sramRead (upset b (a / 16) v.ups) (a / 16) 1
    .done (issue k v 3 2 (.s r (ones 64)) (getLE x.bytes (a % 16) 8) x.bad) x.hits

/-- SEND (R252): a false predicate sends zero bits without poison. -/
def sendX (v : Env) (b k : Core) (w : Nat) : Act :=
  let q := bits w 14 2 + v.n
  let x := b.rv ((bits w 16 5 + q / 4) % 32)
  let p := (b.rp (bits w 7 3)).val.testBit 0
  ok { k with send := some ⟨bits w 10 4, if p then bits x.val (512 * (q % 4)) 512 else 0, p && x.tag⟩ }

/-- RECV (R252). A flit that does not come, as after a fault of its sender, leaves a free value (log entry 6). -/
def recvX (v : Env) (b k : Core) (w : Nat) : Act :=
  let q := bits w 14 2 + v.n
  let r := (bits w 16 5 + q / 4) % 32
  let p := (b.rp (bits w 7 3)).val.testBit 0
  let f := v.flits.find? (fun f => f.at_ = v.cyc && f.cell = v.cell && f.dir = bits w 12 2)
  let x : Nat × Bool := match f with | some f => (f.val, f.tag) | none => (v.fv % 2 ^ 512, false)
  if p then ok (issue k v 1 2 (.v r (ones 512 * 2 ^ (512 * (q % 4)))) (x.1 * 2 ^ (512 * (q % 4))) x.2) else ok k

/-- WREL (R207, R212). -/
def wrelX (v : Env) (b k : Core) (w : Nat) : Act :=
  let n := bits w 0 2
  let x := b.win n
  let cur := if x.dir = 0 then x.xfer else x.xfer - 1
  if x.dir = 0xFF || x.own || decide (v.totals.getD n 0 ≤ cur) then .fault fSchedule
  else match x.ready with
    | some f => if f + 8 ≤ v.felt then ok (k.setWin n (fun y => { y with own := true })) else .freeze
    | none => .freeze

/-- WGIVE (R207): an inbound window's next transfer, or the outbound one now handed over, starts at the end of the cycle. -/
def wgiveX (v : Env) (b k : Core) (w : Nat) : Act :=
  let n := bits w 0 2
  let x := b.win n
  if x.dir = 0xFF || !x.own || (x.dir = 1 && decide (v.totals.getD n 0 ≤ x.xfer)) then .fault fSchedule
  else
    let k := k.setWin n (fun y => { y with own := false, xfer := y.xfer + 1, ready := none })
    ok { k with gave := k.gave ++ [n] }

/-- The X slot of a bundle. A poisoned base register faults, as an operand of the address (log entry 23). -/
def actX (v : Env) (b k : Core) (bundle : Nat) : Act :=
  let w := slotX bundle
  let r := bits w 16 5 + v.n
  match bits w 21 3 with
  | 0 => if bits w 17 4 = 1 then wrelX v b k w else if bits w 17 4 = 2 then wgiveX v b k w else ok k
  | 1 => loadLine v b k (256 * (bits w 0 11 + v.n)) r
  | 2 => storeLine b k (256 * (bits w 0 11 + v.n)) r
  | 3 => if (b.rs (bits w 11 5)).tag then .fault fPoison else withInc (loadLine v b k (vAddr b w).1 r) v w (vAddr b w).2
  | 4 => if (b.rs (bits w 11 5)).tag then .fault fPoison else withInc (storeLine b k (vAddr b w).1 r) v w (vAddr b w).2
  | 5 => sldst v b k w
  | 6 => sendX v b k w
  | _ => recvX v b k w

/-- Whether an X slot's encoding is defined (R250). -/
def legalX (w : Nat) : Bool :=
  match bits w 21 3 with
  | 0 => decide (bits w 17 4 ≤ 2) && bits w 2 15 = 0 && (bits w 17 4 != 0 || bits w 0 2 = 0)
  | 1 => bits w 11 5 = 0
  | 2 => bits w 11 5 = 0
  | 6 => bits w 0 7 = 0 && bits w 10 4 != 0
  | 7 => bits w 0 7 = 0 && bits w 10 2 = 0
  | _ => true

/-! ### Whole bundles -/

/-- Whether a bundle's slots are all defined, and its disabled ones zero (R223). -/
def bundleLegal (b : Nat) : Bool :=
  (if bEn b 0 then legalC (slotC b) else slotC b = 0) && (if bEn b 1 then legalX (slotX b) else slotX b = 0)
    && (if bEn b 2 then legalV (slotV b) else slotV b = 0) && (if bEn b 3 then legalM (slotM b) else slotM b = 0)

/-- The effect of a slot: 0 C, 1 X, 2 V, 3 M; the STOP slot has none of its own. -/
def actSlot (slot : Nat) (v : Env) (b k : Core) (bundle : Nat) : Act :=
  match slot with
  | 0 => if bEn bundle 0 && v.n = 0 then actC v b k bundle else ok k
  | 1 => actX v b k bundle
  | 2 => actV v b k bundle
  | 3 => actM v b k bundle
  | _ => ok k

/-- The operation that a slot holds: opcode for C, V and M; for X: 0 XNOP, 1 WREL, 2 WGIVE, 3 VLDA, 4 VSTA, 5 VLD, 6 VST, 7 SLD,
8 SST, 9 SEND, 10 RECV. A bundle with nothing to do in this repetition is a CNOP. -/
def slotOp (slot bundle rep : Nat) : Nat :=
  match slot with
  | 0 => if bEn bundle 0 && rep = 0 then bits (slotC bundle) 26 6 else 0
  | 1 =>
    let w := slotX bundle
    match bits w 21 3 with
    | 0 => bits w 17 4
    | 1 => 3 | 2 => 4 | 3 => 5 | 4 => 6
    | 5 => if w.testBit 20 then 8 else 7
    | 6 => 9
    | _ => 10
  | 2 => bits (slotV bundle) 26 6
  | 3 => bits (slotM bundle) 27 5
  | _ => 0

end Sys2Proof.Machine
end

