-- ==== Sys2Proof/Machine/Runs.lean ====
section
/-! DEFINITION. Steps of a run (R263–R269): where a step starts, its step words and scales, its record, its end, the end of a run. -/
namespace Sys2Proof.Machine

/-- Update an image. -/
def modImage (s : State) (i : Nat) (f : Image → Image) : State :=
  match imageOf s i with
  | some x => setImage s i (f x)
  | none => s

/-- The Felt cycle an issue cycle of the running step falls in, counted from tick 0 (R43, R204, R212). -/
def issueFelt (r : Run) (cyc : Nat) : Nat := r.start * 1800 + 120 + cyc + r.stall

/-! ### TENSORS entries (R266) -/

/-- SET. -/
def tnSet (b : List Byte) : Nat := getLE b 0 1
/-- MODE. -/
def tnMode (b : List Byte) : Nat := getLE b 1 1
/-- FMT. -/
def tnFmt (b : List Byte) : Nat := getLE b 2 1
/-- H. -/
def tnH (b : List Byte) : Nat := getLE b 3 1
/-- M. -/
def tnM (b : List Byte) : Nat := getLE b 4 1
/-- INIT. -/
def tnInit (b : List Byte) : Nat := getLE b 8 4
/-- SCALE_ADDR. -/
def tnAddr (b : List Byte) : Nat := getLE b 12 4
/-- BLOCKS. -/
def tnBlocks (b : List Byte) : Nat := getLE b 16 8

/-- Whether a cell's block is named in a mask of logical blocks. -/
def cellIn (mask cell : Nat) : Bool := mask.testBit (cell / 16)

/-- Update the cells of the blocks in a mask. -/
def Image.modCells (x : Image) (mask : Nat) (f : Core → Core) : Image :=
  { x with cells := x.cells.map (fun c => if cellIn mask c.1 then (c.1, c.2.both f) else c) }

/-- Write bytes inside one word of a cell's SRAM through the fill port; what its read did not find clean is counted (R200, R315). -/
def pokeCell (s : State) (img cell a : Nat) (bs : List Byte) (pois : Bool) : State :=
  match (imageOf s img).bind (fun x => mget x.cells cell) with
  | none => s
  | some c =>
    countHits (modImage s img (fun x => x.modCell cell (fun c => c.both (fun k => (pokeWord k a bs pois).1)))) cell (pokeWord c.base a bs pois).2

/-- The statistics of a tensor in the step that closes (R267): its set in every cell of its blocks. -/
def tensorStat (x : Image) (b : List Byte) : TStat :=
  (x.cells.filter (fun c => cellIn (tnBlocks b) c.1)).foldl (fun t c => t.join ((mget c.2.base.sets (tnSet b)).getD tstatZero)) tstatZero

/-- The tensors of an image with their numbers. -/
def tensorsOf (x : Image) : List (Nat × List Byte) := (List.range x.tensors.length).zip x.tensors

/-- Clear a tensor's set in every cell of its blocks. -/
def clearSet (x : Image) (b : List Byte) : Image := x.modCells (tnBlocks b) (fun k => { k with sets := mdel k.sets (tnSet b) })

/-- The history and scale of a derived tensor after a step (R74); a clamped scale is counted in SAT of the step it is for, in the set of
the lowest cell of the tensor (log entry 26). -/
def deriveScale (x : Image) (r : Run) (t : Nat) (b : List Byte) (amax : Nat) : Image × Run :=
  if tnMode b != 1 then (x, r)
  else
    let h := (amax :: (mget r.hist t).getD []).take (tnH b)
    let d := derivedScale h (tnM b) (tnFmt b) ((mget r.scale t).getD (tnInit b))
    let r := { r with hist := mput r.hist t h, scale := mput r.scale t d.1 }
    let x := if d.2 = 0 then x
      else match x.cells.find? (fun c => cellIn (tnBlocks b) c.1) with
        | some c => x.modCell c.1 (fun y => y.both (fun k => count k (tnSet b) (satCount d.2)))
        | none => x
    (x, r)

/-- The tensors of a closing step (R267): their records, the sets cleared, the scales for the next step. -/
def closeTensors (x : Image) (r : Run) : Image × Run × List Byte :=
  (tensorsOf x).foldl (fun (a : Image × Run × List Byte) t =>
    let st := tensorStat a.1 t.2
    let d := deriveScale (clearSet a.1 t.2) a.2.1 t.1 t.2 st.amax
    (d.1, d.2, a.2.2 ++ st.bytes r.step)) (x, r, [])

/-- The bytes of a step record before its tensor records (R268). -/
def stepRecord (x : Image) (r : Run) (st : Status) (final : Bool) (fault : Nat) : List Byte :=
  toBytes 8 r.step ++ toBytes 8 r.start ++ toBytes 4 (satTo 32 (r.lastStop + 1 - r.start)) ++ toBytes 4 (satTo 32 r.late)
    ++ toBytes 8 r.stall ++ toBytes 1 st.code ++ toBytes 1 (b2n r.overrun + 2 * b2n r.capped + 4 * b2n final)
    ++ toBytes 2 (satTo 16 r.skipped) ++ toBytes 2 x.numsig ++ toBytes 2 0 ++ toBytes 8 fault ++ toBytes 16 0

/-- FLT_FAULT as it reads (R221). -/
def faultReg (s : State) : Nat :=
  rawReg s [Reg.fltFaultClass, Reg.fltFaultLblock, Reg.fltFaultPos, Reg.fltFaultPblock, Reg.fltFaultPc, Reg.fltFaultSlots, Reg.fltFaultValid]

/-- Every write of a step that has ended lands. -/
def Image.landed (x : Image) : Image := { x with cells := x.cells.map (fun c => (c.1, c.2.both landRest)) }

/-- The running step closes (R267, R268): its record is written into its ring slot, and the next step's counts begin at zero. -/
def closeStep (s : State) (img : Nat) (st : Status) (final : Bool) (fault : Nat) : State :=
  match imageOf s img with
  | none => s
  | some x => match x.run with
    | none => s
    | some r =>
      let c := closeTensors x.landed r
      let slot := r.records + r.step % max 1 r.ring * (64 + 32 * x.tensors.length)
      let r2 := { c.2.1 with step := r.step + 1, inStep := false, skipped := 0, overrun := false, capped := false }
      nrPut (setImage s img { c.1 with run := some r2 }) slot (stepRecord x r st final fault ++ c.2.2)

/-- A cell at the start of a step (R264): at its ENTRY with an empty loop stack and statistics set 0 selected; the rest is kept. -/
def Cell.begin (c : Cell) : Cell :=
  let k := { c.cur with seq := ⟨c.entry, 0, [], none, false⟩, sel := 0, gave := [], send := none }
  { c with base := k, cur := k, acted := [], faulted := false }

/-- The scales of the step that starts (R267): INIT at launch, the derived ones after. -/
def putScales (s : State) (img : Nat) (x : Image) (r : Run) : State :=
  (tensorsOf x).foldl (fun s t =>
    if tnMode t.2 != 1 then s
    else (x.cells.filter (fun c => cellIn (tnBlocks t.2) c.1)).foldl (fun s c =>
      pokeCell s img c.1 (tnAddr t.2) (toBytes 4 ((mget r.scale t.1).getD (tnInit t.2))) false) s) s

/-- STEP_WORD_READ (R265): a source word and the step number are written into a cell's SRAM. -/
def stepWord (s : State) (img step : Nat) (w : Nat × Nat × Nat) : State :=
  let r := rdW s w.1 8
  let bad : Bool := r.2.bad || r.2.timeout
  let d := if r.2.timeout then zeros 8 else r.2.bytes
  pokeCell (bumpBy r.1 Reg.intPoisonCarried (b2n bad)) img w.2.1 w.2.2 (d ++ toBytes 8 step) bad

/-- A step starts (R263–R267): the first bundle issues at Felt cycle 120 of this tick. -/
def startStep (s : State) (img : Nat) : State :=
  match imageOf s img with
  | none => s
  | some x => match x.run with
    | none => s
    | some r =>
      let before := if r.step = 0 then 0 else x.before + (tickOf s - r.start) * 1800 - r.stall
      let r2 := { r with start := tickOf s, inStep := true, late := 0, stall := 0, lastStop := tickOf s }
      let x := { x with cells := x.cells.map (fun c => (c.1, c.2.begin)), cyc := 0, before := before, flits := [], freeze := none }
      let s := putScales (setImage s img { x with run := some r2 }) img x r2
      r.words.foldl (fun s w => stepWord s img r.step w) s

/-- Transfers that have started are finished (R219). -/
def finishXfers (s : State) (img : Nat) : State :=
  match imageOf s img with
  | none => s
  | some x =>
    let s := (x.xfers.filter (fun t => !t.moved)).foldl (fun s t => moveXfer s img t) s
    modImage s img (fun y => { y with xfers := [] })

/-- An image is unloaded (R201, R260, R283): its slot, cells, blocks and kettle programs are released. -/
def dropImage (s : State) (img : Nat) : State :=
  let s := modFelt s (fun f => { f with images := mdel f.images img })
  { s with kettle := s.kettle.map (fun k => (k.1, { k.2 with
      progs := k.2.progs.filter (fun p => !(decide (8 + 8 * img ≤ p.1) && decide (p.1 < 16 + 8 * img))) })) }

/-- RUN_END (R269): the FINAL record is written, the run ends, its descriptor completes, and an UNLOAD that waited takes effect. -/
def endRun (s : State) (img : Nat) (st : Status) (fault : Nat) : State :=
  let s := finishXfers s img
  match imageOf s img with
  | none => s
  | some x => match x.run with
    | none => s
    | some r =>
      let s := if r.inStep then closeStep s img st true fault else s
      let s := modImage s img (fun y => { y with run := none, flits := [], freeze := none })
      let s := completeId s r.work st
      match x.unload with
      | some w => completeId (dropImage s img) w .ok
      | none => s

/-- The status of a run that ends with a fault (R218). -/
def faultStatus (cls : Nat) : Status := if cls = 3 then .poisoned else if cls = 4 then .timeout else .malformed

/-- Whether every cell of an image has stopped. -/
def Image.allStopped (x : Image) : Bool := x.cells.all (fun c => c.2.base.seq.stopped)

/-- Whether a boundary at tick `t` finds every cell stopped and no instruction in flight (R263): the last bundle issued, and every write
landed, before its edge. -/
def Image.quiet (x : Image) (r : Run) (t : Nat) : Bool :=
  x.allStopped && decide (issueFelt r x.cyc ≤ t * 1800)
    && x.cells.all (fun c => c.2.base.pend.all (fun w => decide (issueFelt r w.land ≤ t * 1800)))

/-- Whether the boundary that closes the running step ends the run (R269). -/
def Run.last (r : Run) : Bool := r.stopReq || (r.steps != 0 && decide (r.step + 1 ≥ r.steps))

/-- The next step of a run starts at a boundary, or the power cap withholds it (R263, R476). -/
def nextStep (s : State) (img : Nat) : State :=
  if flagF s Reg.rstPowerCapped then
    modImage s img (fun x => { x with run := x.run.map (fun r => { r with capped := true, skipped := r.skipped + 1 }) })
  else startStep s img

/-- One boundary of an image (R263): the first of its run's period that has been reached and not dealt with. The firmware work that
belongs to it waits for the end of class 6 (R43, R194, R338). -/
def oneBoundary (img : Nat) (s : State) : State :=
  match imageOf s img with
  | none => s
  | some x => match x.run with
    | none => s
    | some r =>
      let t := r.bound + r.period
      if !r.launched || tickOf s < t then s
      else
        let s := setImage s img { x with run := some { r with bound := t } }
        let s :=
          if !r.inStep then nextStep s img
          else if !(x.quiet r t) then
            modImage (bump s Reg.fltImagesOverruns) img (fun x =>
              { x with run := x.run.map (fun r => { r with skipped := r.skipped + 1, overrun := true }) })
          else if r.last then endRun s img .ok 0
          else nextStep (closeStep s img .ok false 0) img
        modBow s (fun b => { b with edgeWork := true })

end Sys2Proof.Machine
end

