-- ==== Sys2Proof/Machine/Cycle.lean ====
section
/-! DEFINITION. The issue cycle of an image (R202–R204, R212–R220, R224–R229): a slot acts, a cell faults, the image freezes and resumes,
and the cycle ends when every cell has acted. -/
namespace Sys2Proof.Machine

/-- The environment of a cell's slots in the issue cycle. -/
def cellEnv (s : State) (x : Image) (r : Run) (n : Nat) (c : Cell) (ups : List (Nat × Nat)) : Env :=
  { cyc := x.cyc, felt := issueFelt r x.cyc, n := c.base.seq.rep, cell := n, flits := x.flits, fv := Config.freeNat s.fresh, ups := ups,
    totals := (List.range 4).map (xferCount x.staging n), delay := c.bundle (c.base.seq.pc + 1) }

/-- Why a cell's bundle faults (R218): class and slot, none named where the bundle itself faults; an encoding fault names its slots. -/
def bundleFaults (v : Env) (c : Cell) : List (Nat × Option Nat) :=
  let b := c.bundle c.base.seq.pc
  if c.base.seq.pc > 4095 then [(fIllegal, none)]
  else if (mget c.codeErr c.base.seq.pc).getD 0 ≥ beyond then [(fPoison, none)]
  else if !(bundleLegal b) then
    ((if (if bEn b 0 then legalC (slotC b) else slotC b = 0) then [] else [(fIllegal, some 0)])
      ++ (if (if bEn b 1 then legalX (slotX b) else slotX b = 0) then [] else [(fIllegal, some 1)])
      ++ (if (if bEn b 2 then legalV (slotV b) else slotV b = 0) then [] else [(fIllegal, some 2)])
      ++ (if (if bEn b 3 then legalM (slotM b) else slotM b = 0) then [] else [(fIllegal, some 3)]))
  else (neededSlots b c.base.seq.rep).filterMap (fun i => match actSlot i v c.base c.base b with
    | .fault f => some (f, some i)
    | _ => none)

/-- The counter of a fault class (R221). -/
def faultCounter (cls : Nat) : Fld :=
  match cls with | 1 => Reg.fltFaultsIllegal | 2 => Reg.fltFaultsSchedule | 3 => Reg.fltFaultsPoison | _ => Reg.fltFaultsWatchdog

/-- Record a fault in FLT_FAULT (R219): the first one, or one of the same issue cycle of the same image that is ordered before it. -/
def recordFault (s : State) (img : Nat) (x : Image) (r : Run) (cell cls pc slots : Nat) : State :=
  let cyc := x.before + x.cyc
  let same : Bool := flagF s Reg.fltFaultValid && s.felt.faultImg = img && s.felt.faultCyc = cyc
  let old := (getF s Reg.fltFaultLblock * 16 + getF s Reg.fltFaultPos) * 8 + getF s Reg.fltFaultClass
  if flagF s Reg.fltFaultValid && !(same && decide (cell * 8 + cls < old)) then s
  else
    let s := setF (setF (setF s Reg.fltFaultClass cls) Reg.fltFaultLblock (cell / 16)) Reg.fltFaultPos (cell % 16)
    let s := setF (setF (setF s Reg.fltFaultPblock (pblockOf s (cell / 16))) Reg.fltFaultPc pc) Reg.fltFaultSlots slots
    let s := setF (setF (setF s Reg.fltFaultValid 1) Reg.fltFaultCycIssue cyc) Reg.fltFaultTickTick (issueFelt r x.cyc / 1800)
    modFelt s (fun f => { f with faultImg := img, faultCyc := cyc })

/-- The fault that ends a run (R219): the first in issue order, then in order of cell and class. -/
def runFault (r : Run) (cyc cell cls : Nat) : Run :=
  match r.fault with
  | none => { r with fault := some (cls, cell, cyc + 8) }
  | some (c, l, e) => if e = cyc + 8 && decide (cell * 8 + cls < l * 8 + c) then { r with fault := some (cls, cell, e) } else r

/-- CELL_FAULT (R218, R219): the bundle has no effect in any slot, the fault is counted and recorded, the cell stops. -/
def cellFault (s : State) (img cell : Nat) (fs : List (Nat × Option Nat)) : State :=
  match imageOf s img with
  | none => s
  | some x => match x.run, mget x.cells cell with
    | some r, some c =>
      let classes := [1, 2, 3, 4].filter (fun k => fs.any (fun f => f.1 = k))
      let cls := classes.headD 1
      let slots := maskOf 4 (fun i => fs.any (fun f => f.1 = cls && f.2 = some i))
      let s := classes.foldl (fun s k => bump s (faultCounter k)) s
      let s := if classes.contains fPoison then let r := freeVal s; consume r.1 1 (pblockOf s (cell / 16)) (cell % 16 * 32768 + r.2 % 32768) else s
      let s := recordFault s img x r cell cls c.base.seq.pc slots
      setImage s img { x.modCell cell (fun y => { y with cur := y.base, acted := [], faulted := true }) with
        run := some (runFault r x.cyc cell cls) }
    | _, _ => s

/-- The transfers that the WGIVEs of a cycle start, in their order (R209): outbound first, then by cell and window. -/
def gaveXfers (cells : SMap Cell) : List Xfer :=
  let all := cells.flatMap (fun c => (c.2.cur.gave.foldl sinsert []).map (fun w =>
    let y := c.2.cur.win w
    (y.dir, (⟨c.1, w, if y.dir = 1 then y.xfer - 1 else y.xfer, false⟩ : Xfer))))
  ((all.filter (fun t => t.1 = 1)) ++ (all.filter (fun t => t.1 != 1))).map (·.2)

/-- Transfers that exist: an inbound window has none after the last of its list. -/
def liveXfers (st : List StageEnt) (ts : List Xfer) : List Xfer := ts.filter (fun t => decide (t.num < xferCount st t.cell t.win))

/-- The flits that the routers of an image put on the links in an issue cycle (R204, R252): own sends and pass-throughs. -/
def routed (rows : Nat) (x : Image) : List Flit :=
  x.links.filterMap (fun r =>
    if !(r.active x.cyc) then none
    else match meshNext rows r.cell r.out with
      | none => none
      | some n =>
        let f : Option (Nat × Bool) :=
          if r.src = 0 then (mget x.cells r.cell).bind (fun c => c.cur.send.bind (fun o => if o.dirs.testBit r.out then some (o.val, o.tag) else none))
          else (x.flits.find? (fun f => f.at_ = x.cyc && f.cell = r.cell && f.dir = r.src - 1)).map (fun f => (f.val, f.tag))
        f.map (fun v => ⟨x.cyc + 2, n, opposite r.out, v.1, v.2⟩))

/-- A cell at the end of an issue cycle: its writes land, and it goes to its next bundle; one that faulted issues no more. -/
def Cell.step (c : Cell) (cyc : Nat) : Cell :=
  let k := landAll c.cur cyc
  let k := { k with gave := [], send := none }
  let k := if c.faulted then { k with seq := { k.seq with stopped := true } }
    else if k.seq.stopped then k
    else { k with seq := seqNext k.seq (c.bundle k.seq.pc) }
  { c with base := k, cur := k, acted := [] }

/-- Whether a cell has acted in the issue cycle with every slot that its bundle needs. -/
def Cell.through (c : Cell) : Bool :=
  c.base.seq.stopped || c.faulted || (neededSlots (c.bundle c.base.seq.pc) c.base.seq.rep).all (fun i => c.acted.contains i)

/-- Every cell stops, as a fault asks eight cycles on (R219). -/
def Image.stopAll (x : Image) : Image :=
  { x with cells := x.cells.map (fun c => (c.1, c.2.both (fun k => { k with seq := { k.seq with stopped := true } }))) }

/-- The issue cycle ends once every cell has acted: writes land, windows handed back start their transfers (those of issue cycle 0 before
the fills of the launch, R209), links move, and the next cycle begins. The writes of the last STOP land in their own time. A fault's eighth cycle ends the step and the run (R219). -/
def endCycle (s : State) (img : Nat) : State :=
  match imageOf s img with
  | none => s
  | some x => match x.run with
    | none => s
    | some r =>
      if !(x.cells.all (fun c => c.2.through)) then s
      else
        let new := if r.fault.isSome then [] else liveXfers x.staging (gaveXfers x.cells)
        let first := if x.cyc = 0 && r.step = 0 then new else []
        let y : Image := { x with
                          cells := x.cells.map (fun c => (c.1, c.2.step x.cyc)), xfers := first ++ x.xfers ++ (if first.isEmpty then new else []),
                          flits := x.flits.filter (fun f => decide (f.at_ > x.cyc)) ++ routed (4 * blockRows s.part) x,
                          cyc := x.cyc + 1 }
        let done : Bool := match r.fault with | some f => decide (y.cyc ≥ f.2.2) | none => false
        let y : Image := if done then y.stopAll else y
        let y : Image := if y.allStopped then { y with flits := [], run := some { r with lastStop := issueFelt r x.cyc / 1800 } } else y
        let s := setImage s img y
        match r.fault with
        | some f => if done || y.allStopped then endRun s img (faultStatus f.1) (faultReg s) else s
        | none => s

/-- The WRELs of the issue cycle that are not ready (R212). -/
def dueWrels (s : State) (x : Image) (r : Run) : List (Nat × Nat) :=
  (x.cells.filter (fun c => !c.2.through)).filterMap (fun c =>
    let b := c.2.bundle c.2.base.seq.pc
    if bEn b 1 && slotOp 1 b c.2.base.seq.rep = 1 && !(c.2.acted.contains 1) then
      match actX (cellEnv s x r c.1 c.2 []) c.2.base c.2.base b with
      | .freeze => some (c.1, bits (slotX b) 0 2)
      | _ => none
    else none)

/-- LATE_RELEASE (R212): the image freezes in the Felt cycle of its issue cycle until the last of its WRELs is ready. -/
def freezeImage (s : State) (img : Nat) (x : Image) (r : Run) : State :=
  setImage s img { x with freeze := some ⟨issueFelt r x.cyc, tickOf s, dueWrels s x r⟩ }

/-- A word of the instruction store that is not found clean is logged (R321). The log's places have no instruction store: it is entered
with cell SRAM's, at a word address that the spec does not say (log entry 6). -/
def logCode (s : State) (cell e : Nat) : State :=
  let r := freeVal s
  let u := pblockOf s (cell / 16)
  let a := cell % 16 * 32768 + r.2 % 32768
  if e < beyond then logCorrected (bump r.1 Reg.fltEccCorrected) 1 (e - 1) u a
  else intLog (bump r.1 Reg.fltEccUncorrected) 2 1 0x1F u a

/-- The read of a bundle from the instruction store (R200, R202): its upset is kept, counted and logged. -/
def readCode (s : State) (img cell ecc : Nat) (c : Cell) : State × Cell :=
  let pc := c.base.seq.pc
  let e := joinErr ((mget c.codeErr pc).getD 0) (min beyond ecc)
  if e = 0 || !c.acted.isEmpty || c.base.seq.rep != 0 then (s, c)
  else
    let c := { c with codeErr := mput c.codeErr pc e }
    (modImage (logCode s cell e) img (fun x => x.modCell cell (fun _ => c)), c)

/-- A slot of a cell acts in the image's issue cycle with the operation that the command names (R222–R224): nothing happens where the
image does not issue, the cell has stopped, or its bundle holds another operation there (log entry 2). -/
def cellOp (img cell ecc : Nat) (ups : List (Nat × Nat)) (slot op : Nat) (s : State) : State :=
  match imageOf s img with
  | none => s
  | some x => match x.run, mget x.cells cell with
    | some r, some c0 =>
      if !r.inStep || x.freeze.isSome || c0.base.seq.stopped || c0.faulted then s
      else
        let rc := readCode s img cell ecc c0
        let c := rc.2
        let s := { rc.1 with fresh := rc.1.fresh + 1 }
        let b := c.bundle c.base.seq.pc
        let v := cellEnv s x r cell c ups
        let fs := bundleFaults v c
        if !((neededSlots b c.base.seq.rep).contains slot) || slotOp slot b c.base.seq.rep != op || c.acted.contains slot then s
        else if !(dueWrels s x r).isEmpty then freezeImage s img x r
        else if !fs.isEmpty then endCycle (cellFault s img cell fs) img
        else match actSlot slot v c.base c.cur b with
          | .fault f => endCycle (cellFault s img cell [(f, some slot)]) img
          | .freeze => freezeImage s img x r
          | .done k hits =>
            let s := modImage s img (fun x => x.modCell cell (fun y => { y with cur := k, acted := sinsert y.acted slot }))
            endCycle (countHits s cell hits) img
    | _, _ => s

/-- LATE_RELEASE_RESUME (R212, R213): eight Felt cycles after the last awaited transfer is ready the image resumes. -/
def lateReleaseResume (img : Nat) (s : State) : State :=
  match imageOf s img with
  | none => s
  | some x => match x.run, x.freeze with
    | some r, some f =>
      let ready := f.waits.map (fun w => (mget x.cells w.1).bind (fun c => (c.base.win w.2).ready))
      if ready.any (·.isNone) then s
      else
        let at_ := maxD f.felt (ready.map (fun o => o.getD 0 + 8))
        let n := at_ - f.felt
        let s := bumpBy (bump s Reg.fltLateReleases) Reg.fltStallCycles n
        setImage s img { x with freeze := none, run := some { r with late := r.late + 1, stall := r.stall + n } }
    | _, _ => s

/-- FELT_WATCHDOG (R220): one freeze has lasted more than WDOG_STALL ticks. The fault is the lowest waiting cell's; the other cells
run out their eight cycles. -/
def feltWatchdog (img : Nat) (s : State) : State :=
  match imageOf s img with
  | none => s
  | some x => match x.run, x.freeze with
    | some r, some f =>
      if tickOf s ≤ f.tick + atLeast1 s Reg.fltCtrlWdogStall then s
      else
        let n := tickOf s * 1800 - f.felt
        let s := bumpBy (bump s Reg.fltLateReleases) Reg.fltStallCycles n
        let s := setImage s img { x with freeze := none, run := some { r with late := r.late + 1, stall := r.stall + n } }
        match (f.waits.map (·.1)).foldl (fun (a : Option Nat) c => some (match a with | some m => min m c | none => c)) none with
        | some cell => endCycle (cellFault s img cell [(4, some 1)]) img
        | none => s
    | _, _ => s

end Sys2Proof.Machine
end

