-- ==== Sys2Proof/Machine/Updates.lean ====
section
/-! DEFINITION. Updates of a shard (R133–R155), commits and epochs (R141–R144), folds and forced retirement (R136–R139), and the ADMIN
commands on indexes and shards (R93–R98). -/
namespace Sys2Proof.Machine

/-- Entries of the version table (R135). -/
def verEntries : Nat := 4194304

/-- Store a row's newer version; the highest use is kept (R168). -/
def putVersion (s : State) (sk loc : Nat) (v : RowVer) : State :=
  let s := modSrch s (fun r => { r with versions := mput r.versions (rowKey sk loc) v })
  raiseHigh s Reg.srcVerHigh s.srch.versions.length

/-- Update a hosted shard. -/
def modShard (s : State) (sk : Nat) (f : Shard → Shard) : State := modSrch s (fun r => { r with shards := mmod r.shards sk f })

/-- The versions of a shard: row and version. -/
def versionsOf (s : State) (sk : Nat) : List (Nat × RowVer) :=
  (s.srch.versions.filter (fun v => v.1 / 2 ^ 32 = sk)).map (fun v => (v.1 % 2 ^ 32, v.2))

/-- The admitted readers of a shard that hold an epoch below `e` (R145). -/
def readersBelow (s : State) (sk e : Nat) : List (Nat × SSearch) :=
  s.srch.searches.filter (fun x => admittedS x.2 && shardKey x.2.index x.2.shard = sk && decide (x.2.epoch < e))

/-- The waiting updates of a shard whose build search holds an epoch below `e` (R145). -/
def buildsBelow (s : State) (sk e : Nat) : List Nat :=
  (s.srch.updates.filter (fun u => (u.2.build.any (fun b => decide (b < e)))
    && (workOf s u.1).any (fun w => shardKey (w.f 8 2) (w.f 10 2) = sk))).map (·.1)

/-- Whether a reader of either kind keeps a version from `e` on from being folded (R136, R145). -/
def foldBlocked (s : State) (sk e : Nat) : Bool := !(readersBelow s sk e).isEmpty || !(buildsBelow s sk e).isEmpty

/-! ### The parts of a new row (R149) -/

/-- The value that an exact sum holds before any rounding: no number and the infinities by the first lines of R86. -/
def exactVal (x : Exact) : FVal :=
  if x.nan != 0 || x.ovf || (x.infPos && x.infNeg) then .nan
  else if x.infPos then .inf false
  else if x.infNeg then .inf true
  else .fin (x.a < 0) x.a.natAbs x.unit

/-- The index of the least of a list of exact sums in the order of R88, the lowest on equal sums (R149). -/
def leastSum (xs : List Exact) : Nat :=
  (((xs.zip (List.range xs.length)).foldl (fun (b : Option (FVal × Nat)) x =>
    match b with
    | none => some (exactVal x.1, x.2)
    | some y => if ltV (exactVal x.1) y.1 then some (exactVal x.1, x.2) else some y) none).map (·.2)).getD 0

/-- The product-quantised code of a vector (R149). -/
def pqCode (r book : List Byte) (v : List FVal) : List Byte :=
  (List.range (ixM r)).map (fun m =>
    let vm := (v.drop (m * subDims r)).take (subDims r)
    BitVec.ofNat 8 (leastSum ((List.range 256).map (fun k => exactSqd (needsWide (ixVfmt r) 3) vm (centroid r book m k)))))

/-- The bytes of one encoded QI block of up to 256 values (R68, R70): missing elements are zero codes, unused side entries zero. -/
def qiBlockBytes (code : Nat) (side : Fmt) (scale : FVal) (zero : Int) (vs : List FVal) : List Byte × Nat :=
  let q := qiEncode code side scale zero 0 vs 0
  let cs := q.1 ++ List.replicate (256 - q.1.length) 0
  (toBytes (if code = 9 then 256 else 128) (packBits (fmtBits code) cs)
    ++ (List.range 8).flatMap (fun i => toBytes 2 (q.2.1.getD i 0)), q.2.2)

/-- The QI code of a vector (R149). -/
def qiCode (c : Ctx3) (v : List FVal) : List Byte :=
  (chunksOf 256 (v.length / 256 + 1) v).flatMap (fun b => (qiBlockBytes (if ixCode c.reg = 9 then 9 else 10) fp16 (f32 (shScale c.desc)) 0 b).1)

/-- The code of a vector. -/
def encodeItem (c : Ctx3) (book : List Byte) (v : List FVal) : List Byte :=
  if ixCode c.reg = 1 then pqCode c.reg book v else qiCode c v

/-- The format and values of a full vector as a query (R150): exact in FP16 where VFMT is FP8 E4M3 or INT8. -/
def asQuery (c : Ctx3) (book : List Byte) (v : List FVal) : Query :=
  let f := if ixVfmt c.reg = 4 || ixVfmt c.reg = 7 then 3 else ixVfmt c.reg
  ⟨f, v, lutOf c.reg book f v, queryNorm c.reg f v⟩

/-! ### Rows an update writes (R137) -/

/-- Whether a row can take a pending version at epoch `e`, or what it waits for: nothing, a commit, a fold. -/
inductive RowWait where
  | ready | commit | fold (vfrom : Nat)
  deriving DecidableEq, Repr

/-- The state of a row for an update (R137). -/
def rowWait (s : State) (sk loc e : Nat) : RowWait :=
  match newer s sk loc with
  | none => .ready
  | some v => if v.vfrom ≤ e then .fold v.vfrom else if v.fixed.isSome then .commit else .ready

/-- What an update comes to: it ends, waits with the forward neighbours it has found or the epoch its build search holds, or writes.
`out` is LOCAL_OUT. -/
inductive Plan where
  | fail (st : Status)
  | wait (rows : List RowWait) (fwd : Option (List Nat)) (build : Option Nat)
  | write (rows : List (Nat × RowVer)) (out : Nat)
  deriving DecidableEq, Repr

/-- Turn the rows an update would write into a plan: it waits until every one can take a version, and needs entries for those that
have none (R137, R139). -/
def planRows (s : State) (sk e : Nat) (rows : List (Nat × RowVer)) (fwd : Option (List Nat)) (out : Nat) : Plan :=
  let ws := rows.map (fun r => rowWait s sk r.1 e)
  if ws.any (fun w => w != .ready) then .wait ws fwd none
  else if (rows.filter (fun r => (newer s sk r.1).isNone)).length > verEntries - s.srch.versions.length then .fail .tableFull
  else .write rows out

/-! ### The build search (R150) -/

/-- A build search as a shard search of its own. -/
def buildSearch0 (c : Ctx3) (e l w : Nat) (q : Query) : SSearch :=
  { ref := 0, node := none, index := c.sk / 65536, shard := c.sk % 65536,
    par := ⟨shDegree c.desc, l, l, w, 0, 0, 0, 0, 0, 0, 0⟩, filter := [], query := [], qfmt := q.fmt, qpois := none, arrived := 0,
    expiry := 0, phase := .running, engine := 0, slot := 0, order := 0, epoch := e, admitted := 0, lut := q.lut, nq := q.nq,
    list := [], expanded := [], offers := [], rounds := 0, expansions := 0, len := l, poison := 0, staged := [], got := [], scan := none,
    exhaustive := false }

/-- One round of a build search whose query is `q`. -/
def buildRound (s : State) (c : Ctx3) (q : Query) (x : SSearch) : State × SSearch :=
  let r := (batchOf x).foldl (mergeEntry c q) (s, x, [])
  (r.1, { r.2.1 with list := (sortBy candLe (r.2.1.list ++ r.2.2)).take x.par.lw, rounds := x.rounds + 1 })

/-- Rounds until the list is exhausted: none where a record cannot be fetched now. The fuel of a build search covers one round for every
expansion and, between two, one for every poisoned entry removed from the list. -/
def buildRounds (c : Ctx3) (q : Query) : Nat → State → SSearch → Option (State × SSearch)
  | 0, s, x => some (s, x)
  | f + 1, s, x =>
    let b := batchOf x
    if b.isEmpty then some (s, x)
    else if b.all (fun e => recReady s c e.loc x.epoch) then
      let r := buildRound s c q x
      buildRounds c q f r.1 r.2
    else none

/-- What a build search gives: it must wait, it is POISONED, or the forward list in result order. -/
inductive Build where
  | notReady
  | poisoned
  | found (fwd : List Nat)
  deriving DecidableEq, Repr

/-- The build search of an INSERT at the shard's current epoch (R150). Its poisoned items are counted (R117). -/
def buildSearch (s : State) (c : Ctx3) (e l w : Nat) (q : Query) : State × Build :=
  match startItem s c q e with
  | (t, none) => (t, .poisoned)
  | (t, some (st, p)) =>
    let f := firstList t c q e st
    let x := { buildSearch0 c e l w q with list := f.2.1, poison := p + f.2.2 }
    match buildRounds c q ((shCap c.desc + 1) * (l + 2)) f.1 x with
    | none => (s, .notReady)
    | some (u, y) => (countItems u y.poison, .found (((sortBy offerLe y.offers).take (shDegree c.desc)).map (·.loc)))

/-! ### The local index (R148) -/

/-- Whether a row's base carries the UPPER flag: none where its record reads poisoned. -/
def baseUpper (s : State) (c : Ctx3) (loc : Nat) (used : Bool) : State × Option Bool :=
  let r := baseRecord s c loc used
  (r.1, r.2.map (fun b => (getLE b 21 1).testBit 0))

/-- Whether a row's base is that of a never-used row: none where a word read for it is poisoned, which is consumed where the row is the
update's own (R527). -/
def baseUnused (s : State) (c : Ctx3) (loc : Nat) (used : Bool) : State × Option Bool :=
  let a := shPage c.desc 20 + loc * 8
  let r := if used then rdC s a 8 else rdB s a 8
  if r.2.2 then (r.1, none)
  else if ofBytes r.2.1 != noId then (r.1, some false)
  else let u := baseUpper r.1 c loc used; (u.1, u.2.map (fun b => !b))

/-- The lowest never-used local index from `n` on; a row that reads poisoned is not never-used. -/
def lowestUnused (c : Ctx3) : Nat → State → Nat → State × Option Nat
  | 0, s, _ => (s, none)
  | f + 1, s, n =>
    if (newer s c.sk n).isSome then lowestUnused c f s (n + 1)
    else match baseUnused s c n false with
      | (t, some true) => (t, some n)
      | (t, _) => lowestUnused c f t (n + 1)

/-- What a named LOCAL comes to (R148). -/
inductive LocalRes where
  | take
  | malformed
  | poisoned
  deriving DecidableEq, Repr

/-- The check of a named LOCAL at the current epoch: a never-used row, or one deleted by a committed DEATH without UPPER. -/
def namedLocal (s : State) (c : Ctx3) (loc e : Nat) : State × LocalRes :=
  let judge (t : State) : State × LocalRes :=
    match rowRecord t c loc e with
    | (t, none) => (t, .poisoned)
    | (t, some b) => (t, if recDeath b ≤ e && !((getLE b 21 1).testBit 0) then .take else .malformed)
  match newer s c.sk loc with
  | some v => if decide (v.vfrom > e) && (v.birth || v.death) then (s, .malformed) else judge s
  | none =>
    match baseUnused s c loc true with
    | (t, none) => (t, .poisoned)
    | (t, some true) => (t, .take)
    | (t, some false) => judge t

/-! ### INSERT (R146–R151) -/

/-- Bytes of an insert block (R147). -/
def blockLen (r : List Byte) (nnbr : Nat) : Nat := roundUp (8 + 8 * ixCols r + 4 * nnbr) 16 + ixDims r * vecElem r

/-- The contents of an insert block: attributes, given neighbours, the vector's bytes. -/
structure Block where
  attrs : List Nat
  nbrs : List Nat
  vec : List Byte
  deriving DecidableEq, Repr

/-- The contents of an insert block from its bytes. -/
def blockOf (r : List Byte) (nnbr : Nat) (b : List Byte) : Block :=
  ⟨(List.range (ixCols r)).map (fun j => getLE b (8 + 8 * j) 8),
   (List.range nnbr).map (fun i => getLE b (8 + 8 * ixCols r + 4 * i) 4),
   b.drop (roundUp (8 + 8 * ixCols r + 4 * nnbr) 16)⟩

/-- Whether a block's bytes obey R147 (the bytes between and the attribute values) and its neighbours are in range and distinct (R150). -/
def blockOk (c : Ctx3) (nnbr : Nat) (b : List Byte) : Bool :=
  let x := blockOf c.reg nnbr b
  let n := 8 + 8 * ixCols c.reg + 4 * nnbr
  zeroAt b 4 4 && zeroAt b n (roundUp n 16 - n)
    && (List.range (ixCols c.reg)).all (fun j => immOk c.reg j (x.attrs.getD j 0))
    && x.nbrs.all (fun n => decide (n < shCap c.desc)) && noRepeats x.nbrs

/-- The entries of a neighbour list with their place in the order: key and ID, those without a key after all others; with how many of them read
poisoned (one at or beyond CAPACITY is not read; log entry 36). -/
def rankNbrs (c : Ctx3) (q : Query) (e new : Nat) (newKey : Nat × Nat) : List Nat → State → State × List (Nat × (Nat × Nat)) × Nat
  | [], s => (s, [], 0)
  | n :: ns, s =>
    if n = new then
      let r := rankNbrs c q e new newKey ns s
      (r.1, (n, newKey) :: r.2.1, r.2.2)
    else
      let a := approxOf s c q n e
      let r := rankNbrs c q e new newKey ns a.1
      (r.1, (n, orderOf a.2) :: r.2.1, r.2.2 + (match a.2 with | .poisoned => b2n (decide (n < shCap c.desc)) | _ => 0))

/-- The best DEGREE of a list with the new item (R151), and the poisoned entries. -/
def bestNbrs (s : State) (c : Ctx3) (q : Query) (e new : Nat) (newKey : Nat × Nat) (cur : List Nat) : State × List Nat × Nat :=
  let r := rankNbrs c q e new newKey (cur.filter (· != new) ++ [new]) s
  (r.1, ((sortBy (fun (a b : Nat × (Nat × Nat)) => keyLe a.2 b.2) r.2.1).take (shDegree c.desc)).map (·.1), r.2.2)

/-- A record with its neighbour list replaced. -/
def withNbrs (c : Ctx3) (b : List Byte) (ns : List Nat) : List Byte :=
  putAt (putLE b 20 1 ns.length) 32
    ((List.range (shDegree c.desc)).flatMap (fun i => toBytes 4 (ns.getD i 0xFFFFFFFF)))

/-- The newer version on which an update writes a row: the pending one, else a fresh one over the record. -/
def verBase (s : State) (sk loc e : Nat) (rec0 : List Byte) : RowVer :=
  match newer s sk loc with
  | some v => if v.vfrom > e then v else ⟨e + 1, rec0, none, none, false, false⟩
  | none => ⟨e + 1, rec0, none, none, false, false⟩

/-- Whether a row is never used as a backlink sees it (R148, R151): a row whose item ID alone reads poisoned is not. -/
def neverUsed (s : State) (c : Ctx3) (j : Nat) : State × Bool :=
  if (newer s c.sk j).isSome || decide (j ≥ shCap c.desc) then (s, false)
  else let u := baseUnused s c j false; (u.1, u.2 = some true)

/-- The backlink of one forward neighbour (R151): the row to write, if any. The list is judged as a reader at the current epoch reads
it; a version that is pending takes the new item into its own list. -/
def backlink (s : State) (c : Ctx3) (book : List Byte) (e new id : Nat) (code : List Byte) (norm j : Nat) :
    State × Option (Nat × RowVer) :=
  let u := neverUsed s c j
  if u.2 then (u.1, none)
  else match rowRecord u.1 c j e with
    | (t, none) => (countItems t 1, none)
    | (t, some b) =>
      let q := asQuery c book (recVec c b)
      let key := (approxKey c q code norm, id)
      let n := bestNbrs t c q e new key (recNbrs b)
      let t := countItems n.1 n.2.2
      if !(n.2.1.contains new) || n.2.1 = recNbrs b then (t, none)
      else
        let v := verBase t c.sk j e b
        let p := bestNbrs t c q (e + 1) new key (recNbrs v.record)
        (t, some (j, { v with record := withNbrs c v.record p.2.1 }))

/-- The backlinks of all forward neighbours. -/
def backlinks (c : Ctx3) (book : List Byte) (e new id : Nat) (code : List Byte) (norm : Nat) : List Nat → State → State × List (Nat × RowVer)
  | [], s => (s, [])
  | j :: js, s =>
    let a := backlink s c book e new id code norm j
    let r := backlinks c book e new id code norm js a.1
    (r.1, (match a.2 with | some x => [x] | none => []) ++ r.2)

/-- The new row (R149) over what its local index holds. -/
def newRow (s : State) (c : Ctx3) (e loc id : Nat) (blk : Block) (fwd : List Nat) (code : List Byte) (norm : Nat) : Nat × RowVer :=
  let head := toBytes 8 id ++ toBytes 6 (e + 1) ++ toBytes 6 noDeath ++ toBytes 1 fwd.length ++ toBytes 3 0 ++ toBytes 4 norm ++ toBytes 4 loc
    ++ (List.range (shDegree c.desc)).flatMap (fun i => toBytes 4 (fwd.getD i 0xFFFFFFFF)) ++ blk.vec
  let v := verBase s c.sk loc e []
  (loc, { v with record := fitBytes (recBytes c.reg c.desc) head, data := some ⟨id, code, norm, blk.attrs⟩, birth := true, death := false })

/-- Whether the fields of an INSERT are in range (R146). -/
def insertOk (c : Ctx3) (w : Work) : Bool :=
  let given := w.f 27 1 = 1
  decide (w.f 27 1 < 2) && zeroAt w.desc 29 3 && zeroAt w.desc 40 24 && w.f 16 8 != noId && w.f 32 8 % 64 = 0
    && (w.f 12 4 = 0xFFFFFFFF || decide (w.f 12 4 < shCap c.desc))
    && (if given then w.f 24 2 = 0 && w.f 26 1 = 0 && decide (1 ≤ w.f 28 1) && decide (w.f 28 1 ≤ shDegree c.desc)
        else w.f 28 1 = 0 && decide (shDegree c.desc ≤ w.f 24 2) && decide (w.f 24 2 ≤ 4096) && decide (1 ≤ w.f 26 1) && decide (w.f 26 1 ≤ 16))

/-- Whether what an INSERT needs of its shard lies on a page whose lender does not answer: the codebook, and for a build search the hot
entry ENTRY. The access ends TIMEOUT, and the INSERT with it (R342, R155). -/
def insertSilent (s : State) (c : Ctx3) (build : Bool) : Bool :=
  (ixCode c.reg = 1 && nrSilent s (shPage c.desc 28) (256 * ixDims c.reg * 2))
    || (build && shTop c.desc != 0 && nrSilent s (shLevel c.desc (shTop c.desc) + shEntry c.desc * 128) 128)

/-- The rows of an INSERT once its local index and block are known. A build search that must wait holds the epoch it started at (R145). -/
def insertRows (s : State) (c : Ctx3) (e loc : Nat) (w : Work) (blk : Block) (fwd0 : Option (List Nat)) (held : Option Nat) : State × Plan :=
  let v := vecVals (ixVfmt c.reg) (ixDims c.reg) blk.vec
  if insertSilent s c (w.f 27 1 = 0 && fwd0.isNone) then (s, .fail .timeout)
  else match readBook s c with
  | (t, none) => (t, .fail .poisoned)
  | (t, some book) =>
    let fwd : State × Build :=
      if w.f 27 1 = 1 then (t, .found blk.nbrs)
      else match fwd0 with
        | some l => (t, .found l)
        | none => buildSearch t c (held.getD e) (w.f 24 2) (w.f 26 1) (asQuery c book v)
    match fwd with
    | (t, .poisoned) => (t, .fail .poisoned)
    | (t, .notReady) => (t, .wait [.ready] none (some (held.getD e)))
    | (t, .found l) =>
      let norm := if ixDist c.reg = 1 then norm32 (needsWide (ixVfmt c.reg) (ixVfmt c.reg)) v else 0
      let code := encodeItem c book v
      if !(l.all (fun j => recReady t c j e)) then (t, .wait [.ready] (some l) none)
      else
        let b := backlinks c book e loc (w.f 16 8) code norm l t
        match planRows b.1 c.sk e (newRow b.1 c e loc (w.f 16 8) blk l code norm :: b.2) (some l) loc with
        | .wait ws f g => (t, .wait ws f g)
        | p => (b.1, p)

/-- Whether the item-ID entry of an update's own row lies on a page whose lender does not answer (R342). -/
def rowSilent (s : State) (c : Ctx3) (loc e : Nat) : Bool :=
  (newerData s c.sk loc e).isNone && nrSilent s (shPage c.desc 20 + loc * 8) 8

/-- What an INSERT comes to now. -/
def planInsert (s : State) (c : Ctx3) (e : Nat) (w : Work) (fwd : Option (List Nat)) (held : Option Nat) : State × Plan :=
  let nn := w.f 28 1
  if ixTenant c.reg != w.tenant || !(inWindow s w.tenant (w.f 32 8) (blockLen c.reg nn)) then (s, .fail .accessDenied)
  else if !(insertOk c w) then (s, .fail .malformed)
  else
    let r := rdC s (w.f 32 8) (blockLen c.reg nn)
    if nrSilent s (w.f 32 8) (blockLen c.reg nn) then (r.1, .fail .timeout)
    else if r.2.2 then (r.1, .fail .poisoned)
    else
      let blk := blockOf c.reg nn r.2.1
      if !(blockOk c nn r.2.1) then (r.1, .fail .malformed)
      else if w.f 12 4 = 0xFFFFFFFF then
        match lowestUnused c (shCap c.desc) r.1 0 with
        | (t, none) => (t, .fail .tableFull)
        | (t, some loc) => if blk.nbrs.contains loc then (t, .fail .malformed) else insertRows t c e loc w blk fwd held
      else if blk.nbrs.contains (w.f 12 4) then (r.1, .fail .malformed)
      else if rowSilent r.1 c (w.f 12 4) e then (r.1, .fail .timeout)
      else if !(recReady r.1 c (w.f 12 4) e) then (r.1, .wait [.ready] fwd held)
      else match namedLocal r.1 c (w.f 12 4) e with
        | (t, .malformed) => (t, .fail .malformed)
        | (t, .poisoned) => (t, .fail .poisoned)
        | (t, .take) => insertRows t c e (w.f 12 4) w blk fwd held

/-! ### DELETE (R153, R154) -/

/-- What a DELETE comes to now. -/
def planDelete (s : State) (c : Ctx3) (e : Nat) (w : Work) : State × Plan :=
  let loc := w.f 12 4
  if ixTenant c.reg != w.tenant then (s, .fail .accessDenied)
  else if !(zeroAt w.desc 24 40) || decide (loc ≥ shCap c.desc) then (s, .fail .malformed)
  else if rowSilent s c loc (e + 1) then (s, .fail .timeout)
  else if !(recReady s c loc (e + 1)) then (s, .wait [.ready] none none)
  else match itemId s c loc (e + 1) with
    | (t, none) => (t, .fail .poisoned)
    | (t, some id) =>
      if id != w.f 16 8 || id = noId then (t, .fail .malformed)
      else match rowRecord t c loc (e + 1) with
        | (t, none) => (t, .fail .poisoned)
        | (t, some b) =>
          if recDeath b != noDeath then (t, .write [] loc)
          else
            let v := verBase t c.sk loc e b
            (t, planRows t c.sk e [(loc, { v with record := putLE v.record 14 6 (e + 1), death := true })] none loc)

/-! ### Running an update -/

/-- Whether a row wait is for a fold. -/
def isFold : RowWait → Bool
  | .fold _ => true
  | _ => false

/-- Forget that an update waits. -/
def dropUpd (s : State) (work : Nat) : State := modSrch s (fun r => { r with updates := mdel r.updates work })

/-- An update ends without a trace (R137). -/
def failUpdate (s : State) (w : Work) (st : Status) : State :=
  let s := if st = .tableFull then bump s Reg.srcUpdTableFull else s
  complete (dropUpd s w.id) w st

/-- The plan of an update of a hosted shard. -/
def planUpdate (s : State) (h : Shard) (c : Ctx3) (w : Work) (u : Option Upd) : State × Plan :=
  if w.cls = 2 then planInsert s c h.epoch w (u.bind (·.forward)) (u.bind (·.build)) else planDelete s c h.epoch w

/-- The versions of an update are written, and it completes OK (R137, R155): an INSERT's LOCAL_OUT first, since an update whose block cannot
be written ends with that status and leaves no trace. -/
def writeRows (s : State) (sk : Nat) (w : Work) (rows : List (Nat × RowVer)) (out : Nat) : State :=
  let ins := w.cls = 2
  let o := if ins then nrWrite s (w.f 32 8) (toBytes 4 out) [] else (s, none)
  match o with
  | (t, some st) => failUpdate t w st
  | (t, none) =>
    let t := rows.foldl (fun a r => putVersion a sk r.1 r.2) t
    let t := if rows.isEmpty then t
             else modShard t sk (fun x => { x with ins := x.ins + b2n ins, dels := x.dels + b2n (!ins) })
    complete (dropUpd t w.id) w .ok (res := if ins then toBytes 4 out else [])

/-- Carry an update as far as it goes now (R137): it ends, waits, or writes all its pending versions and completes OK. -/
def runUpdate (s : State) (w : Work) : State :=
  let sk := shardKey (w.f 8 2) (w.f 10 2)
  match ctxOf s sk with
  | none => failUpdate s w .fenced
  | some (h, c) =>
    if h.detaching.isSome then failUpdate s w .fenced
    else
      let u := mget s.srch.updates w.id
      match planUpdate s h c w u with
      | (t, .fail st) => failUpdate t w st
      | (t, .wait ws fwd bld) =>
        let fold := ws.any isFold
        let was := match u with | some x => x.fold | none => false
        let counted := match u with | some x => x.counted | none => false
        let t := if fold && !counted then bump t Reg.srcUpdWaits else t
        let since := match u with | some x => if fold && !was then tickOf t else x.since | none => tickOf t
        beginWork (modSrch t (fun r => { r with updates := mput r.updates w.id ⟨since, fold, fold || counted, fwd, bld⟩ })) w.id
      | (t, .write rows out) => writeRows t sk w rows out

/-- INSERT (R146–R152). -/
def insert (work : Nat) (s : State) : State := onWork s work 2 runUpdate

/-- DELETE (R153). -/
def delete (work : Nat) (s : State) : State := onWork s work 3 runUpdate

/-- UPDATE_PREPARE_COMPLETE (R137): a waiting update goes on; it stays waiting while a row cannot take a version. -/
def updatePrepareComplete (work : Nat) (s : State) : State :=
  match workOf s work with
  | some w => if mhas s.srch.updates work then runUpdate s w else s
  | none => s

/-! ### Commits (R142–R144) -/

/-- Whether an event is a commit of a shard. -/
def isCommitOf (sk : Nat) (e : SchedEvt) : Bool :=
  match e.kind with
  | .commit index shard => shardKey index shard = sk
  | _ => false

/-- COMMIT (R143): checked, then a schedule entry is taken. -/
def commit (work : Nat) (s : State) : State :=
  onWork s work 4 (fun s w =>
    let index := w.f 8 2
    let shard := w.f 10 2
    match mget s.srch.indexes index with
    | none => complete s w .malformed
    | some r =>
      let st := firstOf .ok
        [(!(zeroAt w.desc 12 4) || !(zeroAt w.desc 32 32) || w.f 24 8 % 16 != 0 || tickFar s (w.f 16 8), .malformed),
         (!(inWindow s w.tenant (w.f 24 8) 16) || ixTenant r != w.tenant, .accessDenied),
         (!(mhas s.srch.shards (shardKey index shard)), .fenced),
         (tickNear s (w.f 16 8), .timeout)]
      if st != .ok then complete s w st
      else if schedFull s then schedRefuse s w
      else schedAdd s (.commit index shard) (w.f 16 8) w)

/-- A commit at a tick is prepared (R42, R142): the pending versions that no prepared commit applies are fixed for it, and the updates
prepared so far counted with it. -/
def fixShard (s : State) (sk tick : Nat) : State :=
  match mget s.srch.shards sk with
  | none => s
  | some h =>
    let s := modSrch s (fun r => { r with versions := r.versions.map (fun v =>
      if v.1 / 2 ^ 32 = sk && decide (v.2.vfrom > h.epoch) && v.2.fixed.isNone then (v.1, { v.2 with fixed := some tick }) else v) })
    let have0 := h.fixed.find? (fun f => f.1 = tick)
    let mine := match have0 with | some f => (f.2.1, f.2.2) | none => (0, 0)
    modShard s sk (fun x => { x with ins := 0, dels := 0,
                                     fixed := x.fixed.filter (fun f => f.1 != tick) ++ [(tick, mine.1 + x.ins, mine.2 + x.dels)] })

/-- A pending version after a commit at `tick` has advanced the epoch to `e` (R142). -/
def commitVersion (e tick : Nat) (v : RowVer) : RowVer :=
  if v.vfrom < e then v
  else if v.fixed = some tick then { v with fixed := none, birth := false, death := false }
  else
    let b := if v.birth then putLE v.record 8 6 (e + 1) else v.record
    let b := if v.death then putLE b 14 6 (e + 1) else b
    { v with vfrom := e + 1, record := b }

/-- The commit record (R143). -/
def commitRecord (epoch : Nat) (merged : Bool) (ins dels : Nat) : List Byte :=
  toBytes 6 epoch ++ toBytes 1 (b2n merged) ++ toBytes 1 0 ++ toBytes 4 ins ++ toBytes 4 dels

/-- Every commit of a shard at a tick is applied at once (R43, R142–R144): the epoch advances by one, each writes its record and
completes. Where a detach of the shard has been accepted they wait for its completion, which ends them FENCED (R97). -/
def commitAt (s : State) (sk tick : Nat) : State :=
  let mine := s.bow.sched.filter (fun e => isCommitOf sk e && e.tick = tick)
  let free (s : State) := schedFree s (fun e => isCommitOf sk e && e.tick = tick)
  match mget s.srch.shards sk with
  | none => mine.foldl (fun t e => completeId t e.work .fenced) (free s)
  | some h0 =>
    if h0.detaching.isSome then s
    else
      let s := free (if mine.any (fun e => !e.prepared) then fixShard s sk tick else s)
      let h := (mget s.srch.shards sk).getD h0
      let n := (h.fixed.filter (fun f => f.1 = tick)).foldl (fun (a : Nat × Nat) f => (a.1 + f.2.1, a.2 + f.2.2)) (0, 0)
      if h.epoch + 1 = 2 ^ 48 - 1 then
        let s := modShard s sk (fun x => { x with fixed := x.fixed.filter (fun f => f.1 != tick), ins := x.ins + n.1, dels := x.dels + n.2 })
        let s := modSrch s (fun r => { r with versions := r.versions.map (fun v =>
          if v.1 / 2 ^ 32 = sk && v.2.fixed = some tick then (v.1, { v.2 with fixed := none }) else v) })
        mine.foldl (fun t e => completeId t e.work .malformed) s
      else
        let e1 := h.epoch + 1
        let s := modShard s sk (fun x => { x with epoch := e1, fixed := x.fixed.filter (fun f => f.1 != tick) })
        let s := modSrch s (fun r => { r with versions := r.versions.map (fun v =>
          if v.1 / 2 ^ 32 = sk && decide (v.2.vfrom > h.epoch) then (v.1, commitVersion e1 tick v.2) else v) })
        let b := commitRecord e1 (decide (mine.length > 1)) n.1 n.2
        mine.foldl (fun t e =>
          match workOf t e.work with
          | some w => completeWith t w (w.f 24 8) b .ok
          | none => t) s

/-! ### Folds and retirement (R136, R138, R139) -/

/-- Write a record over its base (R136): none where it cannot be written now. -/
def writeRecord (s : State) (c : Ctx3) (loc : Nat) (b : List Byte) : Option State :=
  let p := recPlace c.reg c.desc loc
  if shRecDram c.desc then nrTry s (shPage c.desc 36 + p.1 * 4096 + p.2) b
  else match recArea s c.sk with
    | none => some s
    | some a =>
      (List.range (ceilDiv (p.2 + b.length) 4096)).foldl (fun (o : Option State) i =>
        o.bind (fun t => areaWrite t a (p.1 + i) (if i = 0 then p.2 else 0) ((b.drop (4096 * i - (if i = 0 then 0 else p.2))).take 4096) []))
        (some s)

/-- The addresses and bytes of the other parts of a row (R136). -/
def rowParts (c : Ctx3) (loc : Nat) (d : RowData) : List (Nat × List Byte) :=
  [(shPage c.desc 20 + loc * 8, toBytes 8 d.id), (shPage c.desc 24 + loc * codeBytes c.reg, d.code)]
    ++ (if ixDist c.reg = 1 then [(shPage c.desc 32 + loc * 4, toBytes 4 d.norm)] else [])
    ++ (List.range (ixCols c.reg)).map (fun j => let w := colWidth c.reg j; (shCol c.desc j + loc * w, toBytes w (d.attrs.getD j 0)))

/-- Write the other parts of a row over their bases (R136): none where one cannot be written now. -/
def writeParts (s : State) (c : Ctx3) (loc : Nat) (d : RowData) : Option State :=
  (rowParts c loc d).foldl (fun (o : Option State) p => o.bind (fun t => nrTry t p.1 p.2)) (some s)

/-- Copy a newer version over the base and free its entry (R136): none, and the entry stays, where a part cannot be written now. -/
def foldRow (s : State) (c : Ctx3) (loc : Nat) (v : RowVer) : Option State :=
  ((writeRecord s c loc v.record).bind (fun t => match v.data with | some d => writeParts t c loc d | none => some t)).map (fun t =>
    modSrch t (fun r => { r with versions := mdel r.versions (rowKey c.sk loc) }))

/-- ROW_FOLD (R136): a committed version folds once no admitted reader holds an older epoch. -/
def rowFold (index shard loc : Nat) (s : State) : State :=
  let sk := shardKey index shard
  match ctxOf s sk, newer s sk loc with
  | some (h, c), some v =>
    if v.vfrom ≤ h.epoch && !(foldBlocked s sk v.vfrom) then (foldRow s c loc v).getD s else s
  | _, _ => s

/-- Readers are ended EPOCH_RETIRED with no entries (R138, R139). -/
def retire (s : State) (xs : List (Nat × SSearch)) : State :=
  xs.foldl (fun t x => failSearch (bump t Reg.srcUpdForced) x.1 .epochRetired) s

/-- Every reader of a shard below an epoch is ended (R138, R139): shard searches EPOCH_RETIRED; build searches are restarted at the current
epoch. -/
def retireBelow (s : State) (sk e : Nat) : State :=
  let bs := buildsBelow s sk e
  let now := match mget s.srch.shards sk with | some h => h.epoch | none => 0
  let s := modSrch s (fun r => { r with updates := r.updates.map (fun u =>
    if bs.contains u.1 then (u.1, { u.2 with build := some now }) else u) })
  retire s (readersBelow s sk e)

/-- FORCED_RETIREMENT (R138): an update that has waited RETIRE_WAIT ticks for a fold. -/
def forcedRetirement (work : Nat) (s : State) : State :=
  match workOf s work, mget s.srch.updates work with
  | some w, some u =>
    let rw := getF s Reg.srcUpdCtrlRetireWait
    if !u.fold || rw = 0 || decide (tickOf s < u.since + rw) then s
    else match ctxOf s (shardKey (w.f 8 2) (w.f 10 2)) with
      | none => s
      | some (h, c) =>
        match (planUpdate s h c w (some u)).2 with
        | .wait ws _ _ =>
          let v := maxD 0 (ws.map (fun x => match x with | .fold v => v | _ => 0))
          retireBelow s c.sk v
        | _ => s
  | _, _ => s

/-- Whether a reader blocks a fold (R139). -/
def blocksFold (s : State) (x : SSearch) : Bool :=
  let sk := shardKey x.index x.shard
  match mget s.srch.shards sk with
  | some h => admittedS x && (versionsOf s sk).any (fun v => decide (v.2.vfrom ≤ h.epoch) && decide (x.epoch < v.2.vfrom))
  | none => false

/-- VERSION_PRESSURE_RETIRE (R139): one repetition. -/
def versionPressureRetire (s : State) : State :=
  let low := getF s Reg.srcUpdCtrlVerLow
  if low = 0 || decide (verEntries - s.srch.versions.length ≥ low) then s
  else
    let xs := s.srch.searches.filter (fun x => blocksFold s x.2)
    match xs.foldl (fun (b : Option SSearch) x =>
      match b with
      | none => some x.2
      | some y => if x.2.order < y.order then some x.2 else some y) none with
    | none => s
    | some x => retireBelow s (shardKey x.index x.shard) (x.epoch + 1)

/-! ### ADMIN commands on indexes and shards -/

/-- INDEX_REGISTER (R93). -/
def indexRegister (work : Nat) (s : State) : State :=
  onAdmin s work 0x08 48 false (fun s w b =>
    let r := b.take 48
    if !(adminMay w (ixTenant r)) then complete s w .accessDenied
    else if !(indexOk s r) || mhas s.srch.indexes (getLE r 0 2) then complete s w .malformed
    else if s.srch.indexes.length ≥ 256 then complete (bump s Reg.srcRefuseTableFull) w .tableFull
    else complete (modSrch s (fun x => { x with indexes := mput x.indexes (getLE r 0 2) r })) w .ok)

/-- INDEX_DEREGISTER (R428). -/
def indexDeregister (work : Nat) (s : State) : State :=
  onAdmin s work 0x09 8 false (fun s w b =>
    let i := getLE b 0 2
    match mget s.srch.indexes i with
    | none => complete s w .malformed
    | some r =>
      if !(adminMay w (ixTenant r)) then complete s w .accessDenied
      else if !(zeroAt b 2 6) then complete s w .malformed
      else if s.srch.shards.any (fun h => h.1 / 65536 = i) then complete s w .busy
      else complete (modSrch s (fun x => { x with indexes := mdel x.indexes i })) w .ok)

/-- SHARD_ATTACH (R95, R96, R141). -/
def shardAttach (work : Nat) (s : State) : State :=
  onAdmin s work 0x0A 200 false (fun s w b =>
    let d := b.take 192
    let sk := shardKey (getLE d 0 2) (getLE d 2 2)
    let epoch := getLE b 192 6
    match mget s.srch.indexes (getLE d 0 2) with
    | none => complete s w .malformed
    | some r =>
      if !(adminMay w (ixTenant r)) then complete s w .accessDenied
      else if mhas s.srch.shards sk || !(shardOk s r d) || epoch = 2 ^ 48 - 1 || !(zeroAt b 198 2) then complete s w .malformed
      else if s.srch.shards.length ≥ 4096 then complete (bump s Reg.srcRefuseTableFull) w .tableFull
      else complete (modSrch s (fun x => { x with shards := mput x.shards sk ⟨d, epoch, none, 0, 0, []⟩ })) w .ok)

/-- The descriptors in flight that update a shard. -/
def updatesOf (s : State) (sk : Nat) : List Work :=
  s.host.work.filter (fun w => (w.cls = 2 || w.cls = 3) && shardKey (w.f 8 2) (w.f 10 2) = sk)

/-- A shard's admissions and updates end (R97): waiting shard searches and updates complete FENCED, pending versions are discarded. -/
def endShard (s : State) (sk : Nat) (work : Nat) : State :=
  let s := modShard s sk (fun x => { x with detaching := some work })
  let waiting := s.srch.searches.filter (fun x => !(admittedS x.2) && shardKey x.2.index x.2.shard = sk)
  let s := waiting.foldl (fun t x => failSearch t x.1 .fenced) s
  let s := (updatesOf s sk).foldl (fun t w => failUpdate t w .fenced) s
  let e := match mget s.srch.shards sk with | some h => h.epoch | none => 0
  let s := modSrch s (fun r => { r with versions := r.versions.filter (fun v => !(v.1 / 2 ^ 32 = sk && decide (v.2.vfrom > e))) })
  modShard s sk (fun x => { x with ins := 0, dels := 0, fixed := [] })

/-- SHARD_DETACH (R97). -/
def shardDetach (work : Nat) (s : State) : State :=
  onAdmin s work 0x0B 8 false (fun s w b =>
    let sk := shardKey (getLE b 0 2) (getLE b 2 2)
    match mget s.srch.indexes (getLE b 0 2) with
    | none => complete s w .malformed
    | some r =>
      if !(zeroAt b 4 4) then complete s w .malformed
      else if !(adminMay w (ixTenant r)) then complete s w .accessDenied
      else match mget s.srch.shards sk with
        | none => complete s w .fenced
        | some h =>
          if h.detaching.isSome then complete s w .busy
          else beginWork (endShard s sk work) work)

/-- Fold every version that a shard still has: none where a record cannot be written now. -/
def foldAll (s : State) (c : Ctx3) : Option State :=
  (versionsOf s c.sk).foldl (fun (o : Option State) v => o.bind (fun t => foldRow t c v.1 v.2)) (some s)

/-- SHARD_DETACH_COMPLETE (R97): after the last admitted shard search; the shard's COMMITs that wait complete FENCED (R143). -/
def shardDetachComplete (index shard : Nat) (s : State) : State :=
  let sk := shardKey index shard
  match ctxOf s sk with
  | none => s
  | some (h, c) =>
    match h.detaching with
    | none => s
    | some work =>
      if s.srch.searches.any (fun x => admittedS x.2 && shardKey x.2.index x.2.shard = sk) then s
      else match foldAll s c with
        | none => s
        | some t =>
          let evs := t.bow.sched.filter (isCommitOf sk)
          let t := schedFree t (isCommitOf sk)
          let t := evs.foldl (fun a e => completeId a e.work .fenced) t
          let t := modSrch t (fun r => { r with shards := mdel r.shards sk })
          completeId t work .ok h.epoch

end Sys2Proof.Machine
end

