-- ==== Sys2Proof/Machine/KettleOps.lean ====
section
/-! DEFINITION. The kettles (R282–R299): micro-programs and their check, what each micro-op does, jobs and their parts. -/
namespace Sys2Proof.Machine

/-! ### Micro-ops (R288–R290) -/

/-- OP of a micro-op. -/
def kOp (w : Nat) : Nat := bits w 58 6
/-- D. -/
def kD (w : Nat) : Nat := bits w 54 4
/-- A. -/
def kA (w : Nat) : Nat := bits w 50 4
/-- B. -/
def kB (w : Nat) : Nat := bits w 46 4
/-- W. -/
def kW (w : Nat) : Nat := bits w 44 2
/-- MOD. -/
def kMod (w : Nat) : Nat := bits w 40 4
/-- LEN. -/
def kLen (w : Nat) : Nat := bits w 32 8
/-- IMM. -/
def kImm (w : Nat) : Nat := bits w 0 32

/-- Whether the fields a micro-op does not use are zero: flags for D, A, B, W, MOD, LEN, IMM that it uses. -/
def kUnused (w : Nat) (d a b wd md len imm : Bool) : Bool :=
  (d || kD w = 0) && (a || kA w = 0) && (b || kB w = 0) && (wd || kW w = 0) && (md || kMod w = 0) && (len || kLen w = 0)
    && (imm || kImm w = 0)

/-- Whether a micro-op's encoding is one the table allows (R289, R290). -/
def kLegal (w : Nat) : Bool :=
  match kOp w with
  | 0x00 => kUnused w false false false false false false false
  | 0x01 => kUnused w true true false false false false false && decide (kA w < 4)
  | 0x02 => kUnused w true false false false false false false
  | 0x03 => kUnused w true false false true true false true && decide (kMod w < 2)
  | 0x04 => kUnused w true false false true false false true && decide (kImm w ≤ 22)
  | 0x05 => kUnused w true false false false false false true && decide (kD w < 8) && decide (kImm w ≤ 22)
  | 0x06 => kUnused w true true false false false false true && decide (kD w < 8) && decide (kA w < 8)
  | 0x08 => kUnused w true true true true true false false && decide (kD w < 4) && decide (kMod w % 8 ≤ 5)
  | 0x09 => kUnused w true true true true true false false && decide (kD w < 4) && decide (kMod w ≤ 2)
  | 0x0A => kUnused w true true true false false false false && decide (kD w < 4) && decide (kA w < 4) && decide (kB w < 4)
  | 0x0B => kUnused w true true true false false false false && decide (kD w < 4) && decide (kA w < 4) && decide (kB w < 4)
  | 0x0C => kUnused w true true false false false false false && decide (kD w < 4) && decide (kA w < 4)
  | 0x10 => kUnused w true true true true false false false
  | 0x11 => kUnused w true true true true false false false
  | 0x12 => kUnused w true true false true true false false && decide (kW w < 3) && decide (kMod w < 4)
  | 0x18 => kUnused w true true false false true false false && decide (kA w < 8) && decide (kMod w < 2)
  | 0x19 => kUnused w true true false false true false false && decide (kMod w ≤ 4)
  | 0x1C => kUnused w false true false true false false false && decide (kA w < 4)
  | 0x1D => kUnused w true true true true true false false && decide (kA w < 4) && decide (kMod w ≤ 8)
              && (if kMod w ≤ 5 then decide (kD w < 2) else kD w = 0)
  | 0x1E => kUnused w true true false false false false true && decide (kA w < 4)
  | 0x20 => kUnused w false false false false true true true && decide (kMod w < 2) && decide (1 ≤ kLen w)
              && (kMod w = 0 || decide (kImm w ≤ 22))
  | 0x3F => kUnused w false false false false false false false
  | _ => false

/-- The nesting of LOOP bodies along the whole program, and whether END is reached outside every body (R290). `ends` are the last micro-ops
of the bodies open at `pc`, innermost first; `seen` whether an END outside every body stands before it. -/
def kNest (p : List Nat) : Nat → Nat → List Nat → Bool → Bool
  | 0, _, _, seen => seen
  | f + 1, pc, ends, seen =>
    let w := p.getD pc 0
    let loop : Bool := kOp w = 0x20
    let last := pc + kLen w
    if loop && (decide (last > 255) || decide (ends.length ≥ 4) || ends.any (fun e => decide (last > e))) then false
    else kNest p f (pc + 1) ((if loop then last :: ends else ends).filter (fun e => e != pc)) (seen || (kOp w = 0x3F && ends.isEmpty))

/-- Whether a program passes its check (R290). -/
def kProgOk (p : List Nat) : Bool := p.length = 256 && p.all kLegal && kNest p 256 0 [] false

/-- The micro-ops of a 2 KiB program. -/
def kProg (bs : List Byte) : List Nat := (chunksOf 8 256 bs).map ofBytes

/-- The cost of a micro-op in kcycles (R289); `sib` where the kettle reads a sibling's bank group. -/
def kCost (w : Nat) (sib : Bool) : Nat :=
  match kOp w with
  | 0x01 => if sib then 4 else 1 | 0x1D => if sib then 4 else 1 | 0x18 => 2 | 0x1E => 8 | _ => 1

/-- COUNT of a LOOP (R289). -/
def kCount (w : Nat) (params : List Nat) : Nat := if kMod w % 2 = 0 then kImm w else params.getD (kImm w) 0 % 2 ^ 32

/-- The cost of the micro-ops issued from `pc` to before `stop`, and whether END is among them. A body costs its micro-ops on every pass. -/
def kSpan (p params : List Nat) (sib : Bool) : Nat → Nat → Nat → Nat × Bool
  | 0, _, _ => (0, true)
  | f + 1, pc, stop =>
    if pc ≥ stop then (0, false)
    else
      let w := p.getD pc 0
      if kOp w = 0x3F then (1, true)
      else if kOp w = 0x20 then
        let b := kSpan p params sib f (pc + 1) (pc + 1 + kLen w)
        if b.2 then (1 + b.1, true)
        else
          let r := kSpan p params sib f (pc + 1 + kLen w) stop
          (1 + kCount w params * b.1 + r.1, r.2)
      else
        let r := kSpan p params sib f (pc + 1) stop
        (kCost w sib + r.1, r.2)

/-! ### Sites and kettles -/

/-- A kettle site with nothing in it. -/
def ksiteNew : KSite := ⟨[], [], [], [], [], 0, false, 0, 0⟩
/-- A site. -/
def ksiteOf (s : State) (site : Nat) : KSite := (mget s.kettle site).getD ksiteNew
/-- Store a site. -/
def setKsite (s : State) (site : Nat) (x : KSite) : State := { s with kettle := mput s.kettle site x }
/-- Update a site. -/
def modKsite (s : State) (site : Nat) (f : KSite → KSite) : State := setKsite s site (f (ksiteOf s site))

/-- Whether a kettle is fenced (R299). -/
def kFenced (s : State) (site k : Nat) : Bool :=
  if k < 64 then (getF s (Reg.ktlFence0Fence.ix (site - 4))).testBit k else (getF s (Reg.ktlFence1Fence.ix (site - 4))).testBit (k - 64)

/-- Whether every kettle of a site is fenced. -/
def kAllFenced (s : State) (site : Nat) : Bool := (List.range 128).all (fun k => kFenced s site k)

/-- MODE of a site (R294); 3 acts as 2. -/
def kMode (s : State) (site : Nat) : Nat := min 2 (getF s (Reg.ktlCtrlMode.ix (site - 4)))

/-- Pseudo-channels computing at once in shared mode (R301). -/
def kSharedPcs (s : State) (site : Nat) : Nat := min 8 (max 1 (getF s (Reg.ktlCtrlSharedPcs.ix (site - 4))))

/-- The program of a number (R283): firmware's are checked as LOAD's are, and one that fails is not there (R290). -/
def kProgram (s : State) (site n : Nat) : Option (List Nat) :=
  if n < 8 then (if kProgOk (Config.builtinProgram n) then some (Config.builtinProgram n) else none) else mget (ksiteOf s site).progs n

/-- Whether a pseudo-channel is in direct mode (R298). -/
def kDirect (s : State) (site pc : Nat) : Bool := flagF s (Reg.ktlCtrlDirect.ix (site - 4)) || (ksiteOf s site).pcdir.testBit pc

/-- The kettle that runs the part of kettle `k` (R299): itself, or its lowest-numbered unfenced sibling. -/
def kRunner (s : State) (site k : Nat) : Option Nat :=
  if !(kFenced s site k) then some k
  else ((List.range 4).map (fun i => k / 4 * 4 + i)).find? (fun i => !(kFenced s site i))

/-- The in-frame line n_K of a kettle (R276). -/
def kLine (k : Nat) : Nat := k / 4 + 32 * (k % 4)

/-- The byte offset of stream position `p` in its area (R286). -/
def kOffset (k p : Nat) : Nat := p / 16 * 65536 + (kLine k + 128 * (p % 16 / 8)) * 256 + p % 8 * 32

/-! ### Scratch and the command area, as the controller lays them out (R277, R283, R285; log entry 24) -/

/-- Scratch units of a kettle's bank group. -/
def scratchUnits : Nat := 16384
/-- Scratch units of a frame list. -/
def listUnits (n : Nat) : Nat := ceilDiv (4 * n) 32
/-- The scratch unit at which list `i` begins. -/
def listBase (j : KJob) (i : Nat) : Nat := sumNat ((j.lists.take i).map (fun l => listUnits l.length))
/-- The scratch unit of the lookup table. -/
def lutBase (j : KJob) : Nat := listBase j j.lists.length
/-- The scratch unit of OUTPUT. -/
def outBase (j : KJob) : Nat := lutBase j + ceilDiv (2 * j.lut.length) 32
/-- The scratch unit of PMAP. -/
def pmapBase (j : KJob) : Nat := outBase j + j.outUnits

/-- A base unit and a capacity as CW6 and CW7 hold them, 14 bits each; one beyond scratch stays beyond it. -/
def areaWord (base cap : Nat) : Nat := min 16383 base + min 16383 cap * 2 ^ 14

/-- CW2–CW31 of a job (R285): streams, OUTPUT, PMAP, lookup table, parameters. -/
def kettleWords (j : KJob) : List Nat :=
  (List.range 4).map (fun i => min 16383 (listBase j i) + (j.lists.getD i []).length % 2 ^ 20 * 2 ^ 14)
    ++ [areaWord (outBase j) j.outUnits, areaWord (pmapBase j) j.pmapUnits, min 16383 (lutBase j) + j.lutM % 256 * 2 ^ 14]
    ++ (List.range 23).map (fun i => j.params.getD i 0 % 2 ^ 64)

/-- The key of a unit of a kettle's scratch. -/
def unitKey (k u : Nat) : Nat := k * scratchUnits + u

/-- The frame lists and the lookup table as a job's controller writes them into a kettle's scratch (R283, R285). -/
def scratchOf (j : KJob) (k : Nat) : SMap KReg :=
  let units (base w : Nat) (l : List Nat) : SMap KReg :=
    let per := 256 / w
    let n := ceilDiv l.length per
    ((List.range n).zip (chunksOf per n l)).map (fun p => (unitKey k (base + p.1), ⟨packBits w p.2, false, false⟩))
  (((List.range j.lists.length).flatMap (fun i => units (listBase j i) 32 (j.lists.getD i []))) ++ units (lutBase j) 16 j.lut).filter
    (fun e => decide (e.1 < unitKey (k + 1) 0))

/-- The scratch of a site with what a job's controller writes for kettle `k`; the rest of that scratch is undefined from here on. -/
def layScratch (m : SMap KReg) (j : KJob) (k : Nat) : SMap KReg :=
  (scratchOf j k).foldl (fun m e => mput m e.1 e.2) (m.filter (fun e => e.1 / scratchUnits != k))

/-- A kettle at GO (R287): every register zero, tags clear; the command area as written. -/
def kettleNew (j : KJob) (owner expiry : Nat) (direct : Bool) : Kettle :=
  ⟨[], [], [], j.prog + 2 ^ 8 + j.id % 2 ^ 16 * 2 ^ 16, 0, kettleWords j, 0, [], [], 0, [false, false], 0, 0, true, owner, expiry, direct⟩

/-- A word of the command area (R285). -/
def Kettle.cw (x : Kettle) (i : Nat) : Nat := if i = 0 then x.cw0 else if i = 1 then x.cw1 else x.cws.getD (i - 2) 0
/-- PARAM `i`. -/
def Kettle.param (x : Kettle) (i : Nat) : Nat := x.cw (9 + i)
/-- Base unit of an area of CW6 or CW7. -/
def areaBase (w : Nat) : Nat := bits w 0 14
/-- Capacity in units of an area of CW6 or CW7. -/
def areaCap (w : Nat) : Nat := bits w 14 14
/-- Whether an area lies in scratch (R290). -/
def areaOk (w : Nat) : Bool := decide (areaBase w + areaCap w ≤ scratchUnits)

/-- A k register. -/
def Kettle.kr (x : Kettle) (i : Nat) : KReg := (mget x.k i).getD ⟨0, false, false⟩
/-- An a register. -/
def Kettle.ar (x : Kettle) (i : Nat) : Nat := (mget x.a i).getD 0
/-- A mask. -/
def Kettle.mr (x : Kettle) (i : Nat) : Nat := (mget x.m i).getD 0
/-- Write a k register. -/
def Kettle.wk (x : Kettle) (i : Nat) (v : KReg) : Kettle := { x with k := mput x.k i v }
/-- Write a mask. -/
def Kettle.wm (x : Kettle) (i v : Nat) : Kettle := { x with m := mput x.m i v }
/-- RESULT of CW1 (R285). -/
def Kettle.result (x : Kettle) : Nat := bits x.cw1 1 3
/-- Whether DONE is set. -/
def Kettle.isDone (x : Kettle) : Bool := x.cw1.testBit 0

/-! ### Lanes (R287) -/

/-- The width of a lane. -/
def laneW (w : Nat) : Nat := 8 * 2 ^ w
/-- The number of lanes. -/
def laneN (w : Nat) : Nat := 32 / 2 ^ w
/-- Lane `i` of a register value. -/
def kLane (v w i : Nat) : Nat := bits v (laneW w * i) (laneW w)
/-- A register value from its lanes. -/
def kLanes (w : Nat) (f : Nat → Nat) : Nat := packBits (laneW w) ((List.range (laneN w)).map f)
/-- Whether lane `i` lies in a poisoned half. -/
def kBadLane (r : KReg) (w i : Nat) : Bool := if i < laneN w / 2 then r.t0 else r.t1
/-- A lane operation; tags are ORed by half (R291). -/
def kZip (w : Nat) (a b : KReg) (f : Nat → Nat → Nat) : KReg :=
  ⟨kLanes w (fun i => f (kLane a.val w i) (kLane b.val w i)), a.t0 || b.t0, a.t1 || b.t1⟩

/-- A comparison condition of CMP (R289). -/
def kCond (c : Nat) (signed : Bool) (n a b : Nat) : Bool :=
  let lt (a b : Nat) : Bool := if signed then decide (sx n a < sx n b) else decide (a < b)
  match c with
  | 0 => a = b | 1 => a != b | 2 => lt a b | 3 => !(lt b a) | 4 => lt b a | _ => !(lt a b)

/-- A condition of TST: 0 ANY, 1 ALL, 2 NONE. -/
def kTest (c a b : Nat) : Bool := match c with | 0 => (a &&& b) != 0 | 1 => (a &&& b) = b | _ => (a &&& b) = 0

/-- A mask from a test of each lane; a lane in a poisoned half gives 0 (R291). -/
def kMask (w : Nat) (a b : KReg) (f : Nat → Nat → Bool) : Nat :=
  maskOf (laneN w) (fun i => !(kBadLane a w i) && !(kBadLane b w i) && f (kLane a.val w i) (kLane b.val w i))

/-! ### Streams and outputs -/

/-- What a micro-op needs around the kettle: its site, the number of its lookup table's entries, the program in its store, and the value
that an undefined unit of scratch reads as. -/
structure KEnv where
  site : Nat
  lut : Nat
  prog : List Nat
  fv : Nat
  deriving DecidableEq, Repr

/-- A kettle with the scratch of its site. -/
structure KRun where
  x : Kettle
  sc : SMap KReg
  deriving DecidableEq, Repr

/-- The unit of the reserved range at the top of scratch that shows the command area and the program store in direct mode (R298): word w of
the command area at byte 8w of the range, the program at bytes 2,048 to 4,095; none below the range. -/
def directUnit (e : KEnv) (x : Kettle) (u : Nat) : Option Nat :=
  let i := u - (scratchUnits - 128)
  if !x.direct || u < scratchUnits - 128 then none
  else if i < 8 then some (packBits 64 ((List.range 4).map (fun w => x.cw (4 * i + w))))
  else if 64 ≤ i then some (packBits 64 ((List.range 4).map (fun w => e.prog.getD (4 * (i - 64) + w) 0)))
  else none

/-- A unit of the scratch that a part uses, its own kettle's (R277). -/
def scratchAt (e : KEnv) (r : KRun) (u : Nat) : KReg :=
  match directUnit e r.x u with
  | some v => ⟨v, false, false⟩
  | none => (mget r.sc (unitKey r.x.owner u)).getD ⟨e.fv % 2 ^ 256, false, false⟩

/-- A 256-bit word of a stream (R286, R291, R311) as two 128-bit words, corrected in the register, with their addresses where they are
poisoned; none where the stream is not configured or exhausted, or its list is beyond scratch. -/
def kStream (s : State) (e : KEnv) (r : KRun) (i : Nat) : Option (KReg × List Nat) :=
  let p := (mget r.x.pos i).getD 0
  let l := r.x.cw (2 + i)
  let u := bits l 0 14 + p / 16 / 8
  if p / 16 ≥ bits l 14 20 || u ≥ scratchUnits then none
  else
    let frame := bits (scratchAt e r u).val (32 * (p / 16 % 8)) 20
    let w := (frame * 65536 + kOffset r.x.owner p % 65536) / 16
    let a := seenWord s e.site w
    let b := seenWord s e.site (w + 1)
    let t0 := isBad (classify a)
    let t1 := isBad (classify b)
    some (⟨ofBytes (wordData a ++ wordData b), t0, t1⟩, (if t0 then [w] else []) ++ (if t1 then [w + 1] else []))

/-- A stream word has been read: position, poison bits, CW1.POISONED and RESULT (R285, R291). -/
def kTake (x : Kettle) (i : Nat) (r : KReg) : Kettle :=
  let p := (mget x.pos i).getD 0
  let n := b2n r.t0 + b2n r.t1
  let c := setBits x.cw1 40 16 (satTo 16 (bits x.cw1 40 16 + n))
  { x with pos := mput x.pos i (p + 1), lastP := if i = 0 then p else x.lastP, lastT := [r.t0, r.t1],
           cw1 := if n != 0 && bits c 1 3 = 0 then setBits c 1 3 1 else c }

/-- A unit of scratch after bits `o` to `o + n` of an area, holding value `v`, reach it; `halves` are the 128-bit halves of `v` that carry
poison. What the area held before bit `o` stays. -/
def appendUnit (old : KReg) (u o n v : Nat) (halves : List Nat) : KReg :=
  let lo := 256 * u
  let keep := if lo < o then old.val % 2 ^ (o - lo) else 0
  let new := (if o ≤ lo then v / 2 ^ (lo - o) else v * 2 ^ (o - lo)) % 2 ^ 256
  let bad (i : Nat) : Bool := halves.any (fun h => decide (o + 128 * h < lo + 128 * (i + 1)) && decide (lo + 128 * i < min (o + n) (o + 128 * (h + 1))))
  ⟨keep + new, (decide (lo < o) && old.t0) || bad 0, (decide (lo + 128 < o) && old.t1) || bad 1⟩

/-- Bits appended to an area of scratch from bit `o` on. -/
def appendBits (e : KEnv) (r : KRun) (base o n v : Nat) (halves : List Nat) : SMap KReg :=
  ((List.range (ceilDiv (o % 256 + n) 256)).map (· + o / 256)).foldl (fun m u =>
    mput m (unitKey r.x.owner (base + u)) (appendUnit (scratchAt e { r with sc := m } (base + u)) u o n v halves)) r.sc

/-- Append `n` bits of `v` to OUTPUT; `halves` are the halves of a stored register that carry poison. Beyond the capacity nothing is
appended and RESULT is OVERFLOW (R292). -/
def kAppend (e : KEnv) (r : KRun) (n v : Nat) (halves : List Nat) : KRun :=
  let x := r.x
  if x.result = 3 then r
  else if x.outBits + n > areaCap (x.cw 6) * 256 then { r with x := { x with cw1 := setBits x.cw1 1 3 3 } }
  else ⟨{ x with outBits := x.outBits + n, cw1 := setBits x.cw1 16 24 (ceilDiv (x.outBits + n) 256) },
        appendBits e r (areaBase (x.cw 6)) x.outBits n v halves⟩

/-- Append poison bits to PMAP. -/
def kAppendMap (e : KEnv) (r : KRun) (bs : List Bool) : KRun :=
  let x := r.x
  if x.result = 3 then r
  else if x.mapBits + bs.length > areaCap (x.cw 7) * 256 then { r with x := { x with cw1 := setBits x.cw1 1 3 3 } }
  else ⟨{ x with mapBits := x.mapBits + bs.length },
        appendBits e r (areaBase (x.cw 7)) x.mapBits bs.length (packBits 1 (bs.map b2n)) []⟩

/-- What a micro-op comes to: the kettle and its scratch after it, with words streamed and the addresses of those that were poisoned; or a
fault (R290). -/
inductive KAct where
  | go (r : KRun) (words : Nat) (bad : List Nat)
  | fault
  deriving DecidableEq, Repr

/-- BITS and the output of FILT: lane bits to OUTPUT, the poison bits of the last word read to PMAP. -/
def kBits (e : KEnv) (r : KRun) (w mask : Nat) : Option KRun :=
  if !(areaOk (r.x.cw 6)) || !(areaOk (r.x.cw 7)) then none
  else some (kAppendMap e (kAppend e r (laneN w) (mask % 2 ^ laneN w) []) r.x.lastT)

/-- FILT (R289). -/
def kFilt (s : State) (e : KEnv) (r : KRun) (w : Nat) : KAct :=
  match kStream s e r (kA w) with
  | none => .fault
  | some (v, bad) =>
    let b := r.x.kr (kB w)
    let m := if kMod w ≤ 5 then kMask (kW w) v b (kCond (kMod w) (kD w % 2 = 1) (laneW (kW w)))
             else kMask (kW w) v b (kTest (kMod w - 6))
    match kBits e { r with x := kTake r.x (kA w) v } (kW w) m with
    | some y => .go y 1 bad
    | none => .fault

/-- EMIT (R289, R291). -/
def kEmit (e : KEnv) (r : KRun) (w : Nat) : KAct :=
  if !(areaOk (r.x.cw 6)) then .fault
  else
    let v := r.x.kr (kD w)
    let ls := (List.range 8).filter (fun i => (r.x.mr (kA w)).testBit i && !(kBadLane v 2 i))
    .go (ls.foldl (fun r i => kAppend e r 64 (r.x.lastP % 2 ^ 24 + (kImm w + i) % 256 * 2 ^ 24 + kLane v.val 2 i * 2 ^ 32) []) r) 0 []

/-- The lookup-table entry of a subspace and a code (R285). -/
def lutAt (e : KEnv) (r : KRun) (m c : Nat) : Nat :=
  let i := m * 256 + c
  bits (scratchAt e r (bits (r.x.cw 8) 0 14 + i / 16)).val (16 * (i % 16)) 16

/-- TLU (R289): 16 codes of one half of kA through the lookup table. -/
def kTlu (e : KEnv) (r : KRun) (w : Nat) : KAct :=
  let m := bits (r.x.cw 8) 14 8 + 1
  if e.lut = 0 || decide (bits (r.x.cw 8) 0 14 + ceilDiv (2 * e.lut) 32 > scratchUnits) then .fault
  else
    let h := kMod w
    let src := r.x.kr (kA w)
    let v := kLanes 1 (fun i => lutAt e r ((r.x.ar (kA w) + 16 * h + i) % m) (kLane src.val 0 (16 * h + i)))
    let t := if h = 0 then src.t0 else src.t1
    .go { r with x := r.x.wk (kD w) ⟨v, t, t⟩ } 0 []

/-- GSUM (R289). -/
def kGsum (x : Kettle) (w : Nat) : Kettle :=
  let src := x.kr (kA w)
  let n := 2 ^ kMod w
  let live (j : Nat) : Bool := decide (n * (j + 1) ≤ 16)
  let sum (j : Nat) := if live j then sumNat ((List.range n).map (fun i => kLane src.val 1 (n * j + i))) else 0
  let bad (j : Nat) : Bool := live j && (List.range n).any (fun i => kBadLane src 1 (n * j + i))
  x.wk (kD w) ⟨kLanes 2 sum, (List.range 4).any bad, (List.range 4).any (fun j => bad (j + 4))⟩

/-- WIDEN (R289). -/
def kWiden (x : Kettle) (w : Nat) : Kettle :=
  let src := x.kr (kA w)
  let h := kMod w % 2
  let n := laneW (kW w)
  let ext (v : Nat) := if kMod w / 2 = 1 then ux (2 * n) (sx n v) else v
  let t := if h = 0 then src.t0 else src.t1
  x.wk (kD w) ⟨kLanes (kW w + 1) (fun i => ext (kLane src.val (kW w) (laneN (kW w) / 2 * h + i))), t, t⟩

/-- IADDS (R289): saturated lanes are counted in SAT. -/
def kAdds (x : Kettle) (w : Nat) : Kettle :=
  let n := laneW (kW w)
  let a := x.kr (kA w)
  let b := x.kr (kB w)
  let f (p q : Nat) := clampI (-(2 ^ (n - 1) : Nat), (2 ^ (n - 1) : Nat) - 1) (sx n p + sx n q)
  let r := kZip (kW w) a b (fun p q => ux n (f p q).1)
  let sat := sumNat ((List.range (laneN (kW w))).map (fun i => (f (kLane a.val (kW w) i) (kLane b.val (kW w) i)).2))
  { x.wk (kD w) r with cw1 := setBits x.cw1 56 8 (satTo 8 (bits x.cw1 56 8 + sat)) }

/-- The effect of a micro-op on its kettle (R289, R291). LOOP and END act on the order of issue (`kNext`). -/
def kAct (s : State) (e : KEnv) (r : KRun) (w : Nat) : KAct :=
  let x := r.x
  let a := x.kr (kA w)
  let b := x.kr (kB w)
  let on (y : Kettle) : KAct := .go { r with x := y } 0 []
  match kOp w with
  | 0x01 => match kStream s e r (kA w) with
            | some (v, bad) => .go { r with x := (kTake x (kA w) v).wk (kD w) v } 1 bad
            | none => .fault
  | 0x02 => if !(areaOk (x.cw 6)) then .fault
            else let v := x.kr (kD w)
                 .go (kAppend e r 256 v.val ((if v.t0 then [0] else []) ++ (if v.t1 then [1] else []))) 0 []
  | 0x03 => let v := if kMod w % 2 = 1 then ux 64 (sx 32 (kImm w)) else kImm w
            on (x.wk (kD w) ⟨kLanes (kW w) (fun _ => v % 2 ^ laneW (kW w)), false, false⟩)
  | 0x04 => on (x.wk (kD w) ⟨kLanes (kW w) (fun _ => x.param (kImm w) % 2 ^ laneW (kW w)), false, false⟩)
  | 0x05 => on { x with a := mput x.a (kD w) (x.param (kImm w) % 2 ^ 32) }
  | 0x06 => on { x with a := mput x.a (kD w) ((x.ar (kA w) + kImm w) % 2 ^ 32) }
  | 0x08 => on (x.wm (kD w) (kMask (kW w) a b (kCond (kMod w % 8) (kMod w / 8 = 1) (laneW (kW w)))))
  | 0x09 => on (x.wm (kD w) (kMask (kW w) a b (kTest (kMod w))))
  | 0x0A => on (x.wm (kD w) (x.mr (kA w) &&& x.mr (kB w)))
  | 0x0B => on (x.wm (kD w) (x.mr (kA w) ||| x.mr (kB w)))
  | 0x0C => on (x.wm (kD w) (2 ^ 32 - 1 - x.mr (kA w) % 2 ^ 32))
  | 0x10 => on (x.wk (kD w) (kZip (kW w) a b (fun p q => (p + q) % 2 ^ laneW (kW w))))
  | 0x11 => on (kAdds x w)
  | 0x12 => on (kWiden x w)
  | 0x18 => kTlu e r w
  | 0x19 => on (kGsum x w)
  | 0x1C => match kBits e r (kW w) (x.mr (kA w)) with | some y => .go y 0 [] | none => .fault
  | 0x1D => kFilt s e r w
  | 0x1E => kEmit e r w
  | 0x20 => if kCount w (x.cws.drop 7) = 0 || kCount w (x.cws.drop 7) > 2 ^ 24 then .fault else on x
  | _ => on x

/-- The end of the bodies that end on a micro-op, innermost first. -/
def kLoopEnd (pc : Nat) : List KLoop → Nat × List KLoop
  | [] => (pc + 1, [])
  | l :: ls => if l.last = pc then (if l.left > 0 then (l.first, { l with left := l.left - 1 } :: ls) else kLoopEnd pc ls) else (pc + 1, l :: ls)

/-- Where a kettle goes after a micro-op. -/
def kNext (params : List Nat) (x : Kettle) (w : Nat) : Kettle :=
  if kOp w = 0x3F then { x with cw1 := setBit x.cw1 0 true, running := false }
  else if kOp w = 0x20 then
    { x with pc := x.pc + 1, loops := ⟨x.pc + 1, x.pc + kLen w, kCount w params - 1⟩ :: x.loops }
  else
    let r := kLoopEnd x.pc x.loops
    { x with pc := r.1, loops := r.2 }

/-- A part stops at a fault (R290). -/
def kFault (x : Kettle) : Kettle :=
  { x with cw1 := setBit (setBits (setBits x.cw1 1 3 2) 4 8 x.pc) 0 true, running := false }

/-! ### Parts of a job -/

/-- The job of a site that has started. -/
def kJobOn (x : KSite) : Option KJob := x.jobs.find? (·.started)
/-- Update a job. -/
def modJob (x : KSite) (id : Nat) (f : KJob → KJob) : KSite := { x with jobs := x.jobs.map (fun j => if j.id = id then f j else j) }

/-- A part starts on a kettle (R283, R285, R299): its program is loaded where it is not resident, its scratch and command area are written,
and GO is set. -/
def kStartPart (s : State) (site id runner owner : Nat) : State :=
  let x := ksiteOf s site
  match x.jobs.find? (fun j => j.id = id) with
  | none => s
  | some j =>
    let s := if runner != owner then bump s (Reg.ktlSharedSibling.ix (site - 4)) else s
    let res := match kProgram s site j.prog with | some p => mput x.resident runner (j.prog, p) | none => x.resident
    let x := { x with
      kettles := mput x.kettles runner (kettleNew j owner (expiryOf s Reg.fwToMediaKettle) (kDirect s site (owner / 4))),
      resident := res, scratch := layScratch x.scratch j owner }
    setKsite s site (modJob x id (fun j => { j with todo := j.todo.filter (· != owner), active := j.active ++ [(runner, owner)] }))

/-- A part that no unfenced sibling can run completes FENCED (R299). -/
def kFencedPart (s : State) (site id owner : Nat) : State :=
  modKsite s site (fun x => modJob x id (fun j => { j with todo := j.todo.filter (· != owner), codes := j.codes ++ [5] }))

/-- Whether a part of a job runs inside the full-mode window: direct mode runs its parts as in shared mode (R294). -/
def kWindowed (s : State) (site : Nat) (j : KJob) (owner : Nat) : Bool := j.full && !(kDirect s site (owner / 4))

/-- The pseudo-channels that compute for a job outside its window. -/
def kSharedBusy (s : State) (site : Nat) (j : KJob) : List Nat :=
  ((j.active.filter (fun a => !j.full || (mget (ksiteOf s site).kettles a.1).any (·.direct))).map (fun a => a.1 / 4)).foldl sinsert []

/-- Start what parts may start (R294–R296, R299): those of the window while it is open; the others in ascending order of pseudo-channel, at
most SHARED_PCS at a time; each kettle's own part before a fenced sibling's. -/
def kStartParts (s : State) (site id : Nat) : State :=
  (List.range 128).foldl (fun (s : State) k =>
    match (ksiteOf s site).jobs.find? (fun j => j.id = id) with
    | none => s
    | some j =>
      if !(j.todo.contains k) then s
      else match kRunner s site k with
        | none => kFencedPart s site id k
        | some r =>
          let busy := kSharedBusy s site j
          let room : Bool := if kWindowed s site j k then (ksiteOf s site).window
            else busy.contains (k / 4) || decide (busy.length < kSharedPcs s site)
          let free : Bool := !(j.active.any (fun a => a.1 = r)) && (r = k || !(j.todo.contains r))
          if room && free then kStartPart s site id r k else s) s

/-- Words streamed by kettles are counted in units of 2^16, poisoned words one by one (R301). -/
def kCountWords (s : State) (site words pois : Nat) : State :=
  let n := (ksiteOf s site).frac + words
  let s := modKsite s site (fun x => { x with frac := n % 2 ^ 16 })
  bumpBy (bumpBy s (Reg.ktlWordsStreamed.ix (site - 4)) (n / 2 ^ 16)) (Reg.ktlWordsPoisoned.ix (site - 4)) pois

/-- The bits that a part appended to an area, as the controller collects them from its scratch, with the poisoned 128-bit words. -/
def collectBits (x : KSite) (owner area n : Nat) : List Bool × List Nat :=
  let unit (u : Nat) : KReg := (mget x.scratch (unitKey owner (areaBase area + u))).getD ⟨0, false, false⟩
  ((List.range n).map (fun i => (unit (i / 256)).val.testBit (i % 256)),
   (List.range (ceilDiv n 128)).filter (fun h => if h % 2 = 0 then (unit (h / 2)).t0 else (unit (h / 2)).t1))

/-- What a part gave (R286, R292). -/
def partOut (x : KSite) (y : Kettle) : KOut :=
  let o := collectBits x y.owner (y.cw 6) y.outBits
  ⟨y.owner, y.cw1, o.1, o.2, (collectBits x y.owner (y.cw 7) y.mapBits).1⟩

/-- A part has ended with a result code; what it gave is kept for the job's completion. -/
def kEndPart (s : State) (site id runner code : Nat) : State :=
  modKsite s site (fun x =>
    let o : List KOut := match mget x.kettles runner with
      | some y => [partOut x y]
      | none => []
    modJob { x with kettles := mdel x.kettles runner } id (fun j =>
      { j with active := j.active.filter (fun a => a.1 != runner), codes := j.codes ++ [code], outs := j.outs ++ o }))

/-- The parts of a job, those that a test names, whose DONE reads 1 end (R295, R296). -/
def kReap (s : State) (site : Nat) (j : KJob) (p : Kettle → Bool) : State :=
  j.active.foldl (fun s a => match mget (ksiteOf s site).kettles a.1 with
    | some y => if y.isDone && p y then kEndPart s site j.id a.1 y.result else s
    | none => s) s

/-- A kettle is fenced by firmware (R453). -/
def kFenceSet (s : State) (site k : Nat) : State :=
  if k < 64 then let f := Reg.ktlFence0Fence.ix (site - 4); setF s f (setBit (getF s f) k true)
  else let f := Reg.ktlFence1Fence.ix (site - 4); setF s f (setBit (getF s f) (k - 64) true)

/-- A part abandoned or overrun is counted, and its kettle fenced when its count in one window reaches K_TH (R453). -/
def autoKettle (s : State) (site k : Nat) : State :=
  let r := autoCount s (0x10000 + 128 * (site - 4) + k)
  if flagF s Reg.fwCtrlAutoKettle && decide (r.2 ≥ getF s Reg.fwAutoKTh) && !(kFenced s site k) then autoFenced (kFenceSet r.1 site k) else r.1

/-- A part that has timed out or overrun is counted (R295, R296). -/
def kLate (s : State) (site runner : Nat) : State := autoKettle (bump s (Reg.ktlJobsTimeout.ix (site - 4))) site runner

/-- A part is abandoned: its kettle reset, counted (R295, R296). -/
def kAbandon (s : State) (site id runner : Nat) : State := kLate (kEndPart s site id runner 4) site runner

/-- The status of a job from the results of its parts (R284). -/
def kStatus (codes : List Nat) : Status :=
  firstOf .ok [(codes.contains 2, .malformed), (codes.contains 5, .fenced), (codes.contains 4, .timeout), (codes.contains 3, .tableFull),
    (codes.contains 1, .poisonSkipped)]

/-- The local index that an element of an area names in a column (R286): `k` the kettle, `p` the stream position, `i` the lane of a value of
`w` bytes. None where the frame holds no page of the column. -/
def colElem (s : State) (c : Ctx3) (site col : Nat) (frames : List Nat) (k p i : Nat) : Option Nat :=
  let w := colWidth c.reg col
  match s.tiers.home.find? (fun e => e.2.home = .t2 site (frames.getD (p / 16) 0)) with
  | none => none
  | some e =>
    let a := e.1 * 65536 + kOffset k p % 65536 + i * w
    if shCol c.desc col ≤ a && decide ((a - shCol c.desc col) / w < shCap c.desc) then some ((a - shCol c.desc col) / w) else none

/-- What the parts of a pre-scan job gave, by local index (R286, R291): the lanes of each word of stream 0 in the order that FILT and BITS
append them, 2 for a lane in a poisoned half. A part whose outputs are not one of each per stream word gives nothing. -/
def scanBits (s : State) (c : Ctx3) (site col : Nat) (j : KJob) (outs : List KOut) : List (Nat × Nat) :=
  let n := 32 / max 1 (colWidth c.reg col)
  let frames := j.lists.getD 0 []
  outs.flatMap (fun o =>
    if o.out.length != 16 * frames.length * n || o.pmap.length != 32 * frames.length then []
    else (List.range (16 * frames.length)).flatMap (fun p => (List.range n).filterMap (fun i =>
      (colElem s c site col frames o.owner p i).map (fun loc =>
        (loc, if o.pmap.getD (2 * p + (if i < n / 2 then 0 else 1)) false then 2 else b2n (o.out.getD (p * n + i) false))))))

/-- A pre-scan's traversal engine collects a job's outputs (R286, R291). -/
def collectScan (s : State) (site id place : Nat) (j : KJob) (outs : List KOut) : State :=
  match searchOf s id with
  | none => s
  | some x =>
    match ctxOf s (shardKey x.index x.shard), (filterOps x.filter)[place]? with
    | some (_, c), some o => if opCol o.op then scanCollect s id place (scanBits s c site o.col j outs) else s
    | _, _ => s

/-- A job's result goes to its requester (R284): a shard search whose pre-scan failed does the scan itself. -/
def kAnswer (s : State) (site : Nat) (req : Option (Nat × Nat)) (job : Nat) (st : Status) (j : Option KJob) : State :=
  let outs := match j with | some k => if st = .ok || st = .poisonSkipped then k.outs else [] | none => []
  let s := emit s (.kettleDone req job st.code outs)
  match req with
  | none => s
  | some (id, place) =>
    if st = .ok || st = .poisonSkipped then
      let s : State := match j with | some k => collectScan s site id place k outs | none => s
      let more : Bool := s.kettle.any (fun x => x.2.jobs.any (fun k => k.req.any (fun q => q.1 = id) && (x.1 != site || k.id != job)))
      if more then s else kettleScanned s id true
    else kettleScanned s id false

/-! ### Commands -/

/-- KETTLE_JOB (R282, R284, R294): refused TABLE_FULL at the 65th, FENCED where the site cannot run it, MALFORMED where no program has
the number (log entry 25), else queued. -/
def kettleJob (site : Nat) (req : Option (Nat × Nat)) (prog : Nat) (lists : List (List Nat)) (lut : List Nat) (lutM : Nat) (params : List Nat)
    (outUnits pmapUnits : Nat) (s : State) : State :=
  if !(ringUp s) then s
  else
    let x := ksiteOf s site
    if !(isKettleSite s.part site) || kAllFenced s site || kMode s site = 0 || s.fw.fencedSites.testBit site
        || s.fw.draining = some site then
      kAnswer s site req x.nextJob .fenced none
    else if x.jobs.length ≥ 64 then kAnswer (bump s (Reg.ktlJobsRefused.ix (site - 4))) site req x.nextJob .tableFull none
    else if (kProgram s site prog).isNone then kAnswer s site req x.nextJob .malformed none
    else
      let j : KJob := ⟨x.nextJob, req, prog, (lists.take 4).map (fun l => l.map (· % 2 ^ 20)), lut, lutM % 256, (params.take 23).map (· % 2 ^ 64), outUnits,
        pmapUnits, false, false, List.range 128, [], [], []⟩
      setKsite s site { x with jobs := x.jobs ++ [j], nextJob := x.nextJob + 1 }

/-- The duration D of a part (R297): part start, program load, stream starts, micro-ops. -/
def kDuration (s : State) (site : Nat) (j : KJob) (runner owner : Nat) (resident : Bool) : Nat :=
  let p := (kProgram s site j.prog).getD []
  64 + (if resident then 0 else 256) + 40 * (j.lists.filter (fun l => !l.isEmpty)).length
    + (kSpan p j.params (runner != owner) 2048 0 256).1

/-- Whether a program is resident in a kettle (R297). -/
def kResident (s : State) (site runner prog : Nat) : Bool :=
  match mget (ksiteOf s site).resident runner, kProgram s site prog with
  | some r, some p => r = (prog, p)
  | _, _ => false

/-- The kettles whose parts would run in a full-mode window. -/
def windowOwners (s : State) (site : Nat) : List Nat := (List.range 128).filter (fun k => !(kDirect s site (k / 4)))

/-- Whether every part of a job that would run in a window keeps within its limit (R296). -/
def kFits (s : State) (site : Nat) (j : KJob) : Bool :=
  (windowOwners s site).all (fun k => match kRunner s site k with
    | some r => decide (kDuration s site j r k (r != k || kResident s site r j.prog) ≤ 9216)
    | none => true)

/-- KETTLE_JOB_START (R282, R294–R296): the head job starts when none runs, in the mode in force; a job too long for a window runs
shared; over the power cap queued jobs wait (R476). -/
def kettleJobStart (site : Nat) (s : State) : State :=
  let x := ksiteOf s site
  match x.jobs with
  | [] => s
  | j :: _ =>
    if !(ringUp s) || (kJobOn x).isSome || flagF s Reg.rstPowerCapped then s
    else if kMode s site = 0 then
      setKsite s site (modJob x j.id (fun j => { j with started := true, todo := [], codes := [5] }))
    else
      let want : Bool := kMode s site = 2 && !(windowOwners s site).isEmpty
      let full : Bool := want && kFits s site j
      let s := if want && !full then bump s (Reg.ktlSharedDemoted.ix (site - 4)) else s
      let s := setKsite s site { modJob x j.id (fun j => { j with started := true, full := full }) with window := full, scratch := [] }
      kStartParts s site j.id

/-- KETTLE_POLL (R295): the parts outside a window whose DONE reads 1 end, and further parts start. -/
def kettlePoll (site : Nat) (s : State) : State :=
  match kJobOn (ksiteOf s site) with
  | some j => kStartParts (kReap s site j (fun y => !j.full || y.direct)) site j.id
  | none => s

/-- FULL_WINDOW_END (R296): every CW1 is read; a part of the window that is not done, or has not begun, has overrun. -/
def fullWindowEnd (site : Nat) (s : State) : State :=
  match kJobOn (ksiteOf s site) with
  | some j =>
    if !j.full || !(ksiteOf s site).window then s
    else
      let s := kReap s site j (fun y => !y.direct)
      match kJobOn (ksiteOf s site) with
      | none => s
      | some k =>
        let s := (k.active.filter (fun a => (mget (ksiteOf s site).kettles a.1).any (fun y => !y.direct))).foldl (fun s a => kAbandon s site j.id a.1) s
        let left := k.todo.filter (kWindowed s site k)
        let s := left.foldl (fun s o => match kRunner s site o with | some r => kLate s site r | none => s) s
        modKsite s site (fun x => modJob { x with window := false } j.id (fun y =>
          { y with todo := y.todo.filter (fun o => !(left.contains o)),
                   codes := y.codes ++ left.map (fun o => if (kRunner s site o).isSome then 4 else 5) }))
  | none => s

/-- KETTLE_JOB_COMPLETE (R284, R292): its parts have all ended; an overflow discards every output. -/
def kettleJobComplete (site : Nat) (s : State) : State :=
  match kJobOn (ksiteOf s site) with
  | some j =>
    if !j.todo.isEmpty || !j.active.isEmpty || (ksiteOf s site).window then s
    else
      let st := kStatus j.codes
      let s := modKsite s site (fun x => { x with jobs := x.jobs.filter (fun k => k.id != j.id) })
      let s := bump s (Reg.ktlJobsDone.ix (site - 4))
      let s := if st = .tableFull then bump s (Reg.ktlJobsRefused.ix (site - 4)) else s
      kAnswer s site j.req j.id st (some j)
  | none => s

/-- KETTLE_PARITY_ERROR (R298): the pseudo-channel stays in direct mode until the next reset. -/
def kettleParityError (site pc : Nat) (s : State) : State :=
  if isKettleSite s.part site && decide (pc < 32) then modKsite s site (fun x => { x with pcdir := setBit x.pcdir pc true }) else s

/-- KETTLE_OP_TIMEOUT (R295, R444): a part still running is abandoned. -/
def kettleOpTimeout (site runner : Nat) (s : State) : State :=
  match kJobOn (ksiteOf s site), mget (ksiteOf s site).kettles runner with
  | some j, some y =>
    if (!j.full || y.direct) && y.running && decide (tickOf s ≥ y.expiry) then kStartParts (kAbandon s site j.id runner) site j.id
    else s
  | _, _ => s

/-- A micro-op on a kettle whose program is at it: its effect, or the fault that stops the part; each poisoned word that it reads is consumed
(R291, R309). In a full-mode window a sibling's part starts as the kettle's own ends (R296, R299). -/
def kettleOp (op site runner : Nat) (s : State) : State :=
  let k := ksiteOf s site
  match kJobOn k, mget k.kettles runner, mget k.resident runner with
  | some j, some x, some (_, prog) =>
    let w := prog.getD x.pc 0
    if !x.running || kOp w != op then s
    else
      let r : Kettle × SMap KReg × Nat × List Nat := match kAct s ⟨site, j.lut.length, prog, Config.freeNat s.fresh⟩ ⟨x, k.scratch⟩ w with
        | .go y n bad => (kNext (y.x.cws.drop 7) y.x w, y.sc, n, bad)
        | .fault => (kFault x, k.scratch, 0, [])
      let s := modKsite { s with fresh := s.fresh + 1 } site (fun k => { k with kettles := mput k.kettles runner r.1, scratch := r.2.1 })
      let s := kCountWords s site r.2.2.1 r.2.2.2.length
      let s := r.2.2.2.foldl (fun s a => consume s 0 site a) s
      if j.full && r.1.isDone && !x.direct then kStartParts (kReap s site j (fun y => !y.direct)) site j.id else s
  | _, _, _ => s

/-- KNOP. -/
def knop (site kettle : Nat) (s : State) : State := kettleOp 0x00 site kettle s
/-- LDS. -/
def lds (site kettle : Nat) (s : State) : State := kettleOp 0x01 site kettle s
/-- STO. -/
def sto (site kettle : Nat) (s : State) : State := kettleOp 0x02 site kettle s
/-- LDI. -/
def ldi (site kettle : Nat) (s : State) : State := kettleOp 0x03 site kettle s
/-- LDC. -/
def ldc (site kettle : Nat) (s : State) : State := kettleOp 0x04 site kettle s
/-- ALD. -/
def ald (site kettle : Nat) (s : State) : State := kettleOp 0x05 site kettle s
/-- AADD. -/
def aadd (site kettle : Nat) (s : State) : State := kettleOp 0x06 site kettle s
/-- CMP. -/
def cmp (site kettle : Nat) (s : State) : State := kettleOp 0x08 site kettle s
/-- TST. -/
def tst (site kettle : Nat) (s : State) : State := kettleOp 0x09 site kettle s
/-- MAND. -/
def mand (site kettle : Nat) (s : State) : State := kettleOp 0x0A site kettle s
/-- MOR. -/
def mor (site kettle : Nat) (s : State) : State := kettleOp 0x0B site kettle s
/-- MNOT. -/
def mnot (site kettle : Nat) (s : State) : State := kettleOp 0x0C site kettle s
/-- IADD. -/
def iadd (site kettle : Nat) (s : State) : State := kettleOp 0x10 site kettle s
/-- IADDS. -/
def iadds (site kettle : Nat) (s : State) : State := kettleOp 0x11 site kettle s
/-- WIDEN. -/
def widen (site kettle : Nat) (s : State) : State := kettleOp 0x12 site kettle s
/-- TLU. -/
def tlu (site kettle : Nat) (s : State) : State := kettleOp 0x18 site kettle s
/-- GSUM. -/
def gsum (site kettle : Nat) (s : State) : State := kettleOp 0x19 site kettle s
/-- BITS. -/
def kbits (site kettle : Nat) (s : State) : State := kettleOp 0x1C site kettle s
/-- FILT. -/
def filt (site kettle : Nat) (s : State) : State := kettleOp 0x1D site kettle s
/-- EMIT. -/
def kemit (site kettle : Nat) (s : State) : State := kettleOp 0x1E site kettle s
/-- KETTLE_LOOP. -/
def kettleLoop (site kettle : Nat) (s : State) : State := kettleOp 0x20 site kettle s
/-- END. -/
def kettleEnd (site kettle : Nat) (s : State) : State := kettleOp 0x3F site kettle s

end Sys2Proof.Machine
end

