-- ==== Sys2Proof/Machine/Sha.lean ====
section
/-! DEFINITION. SHA-384 (FIPS 180-4), which the image HASH (R254), the firmware packages (R489) and the measurements (R496) use: a
message as bytes, 1,024-bit blocks of 64-bit words, most significant byte first. -/
namespace Sys2Proof.Machine

/-- The whole part of the `k`-th root of `n`, below `2 ^ w`: its bits from the highest down. -/
def rootFloor (k n w : Nat) : Nat :=
  (List.range w).foldr (fun i r => if (r + 2 ^ i) ^ k ≤ n then r + 2 ^ i else r) 0
/-- The first 64 bits of the fraction of the `k`-th root of `p`, a number below 512. -/
def rootBits (k p : Nat) : Nat := rootFloor k (p * 2 ^ (64 * k)) 69 % 2 ^ 64
/-- The first 80 primes: no smaller prime than 23 divides one below 410 but itself. -/
def shaPrimes : List Nat :=
  ((List.range 410).drop 2).filter (fun p => [2, 3, 5, 7, 11, 13, 17, 19].all (fun q => p = q || p % q ≠ 0))
/-- The 80 round constants: the fractions of the cube roots of the first 80 primes. -/
def shaK : List Nat := shaPrimes.map (rootBits 3)
/-- The initial hash value of SHA-384: the fractions of the square roots of the ninth to sixteenth primes. -/
def sha384Init : List Nat := ((shaPrimes.drop 8).take 8).map (rootBits 2)

/-- Rotate a 64-bit word right. -/
def rotr64 (x n : Nat) : Nat := x >>> n ||| (x <<< (64 - n)) % 2 ^ 64
/-- The number in bytes, most significant first. -/
def ofBytesBE (bs : List Byte) : Nat := bs.foldl (fun a b => 256 * a + b.toNat) 0
/-- The 64-bit words of a block. -/
def shaWords (bs : List Byte) : List Nat := (chunksOf 8 16 bs).map ofBytesBE

/-- The message schedule: each new word from the last sixteen, newest first. -/
def shaSchedule : Nat → List Nat → List Nat
  | 0, ws => ws
  | n + 1, ws =>
    let w2 := ws.getD 1 0
    let w7 := ws.getD 6 0
    let w15 := ws.getD 14 0
    let w16 := ws.getD 15 0
    let s0 := rotr64 w15 1 ^^^ rotr64 w15 8 ^^^ w15 >>> 7
    let s1 := rotr64 w2 19 ^^^ rotr64 w2 61 ^^^ w2 >>> 6
    shaSchedule n ((s1 + w7 + s0 + w16) % 2 ^ 64 :: ws)

/-- One round over the eight working variables. -/
def shaRound (v : List Nat) (k w : Nat) : List Nat :=
  let g (i : Nat) := v.getD i 0
  let s1 := rotr64 (g 4) 14 ^^^ rotr64 (g 4) 18 ^^^ rotr64 (g 4) 41
  let ch := (g 4 &&& g 5) ^^^ ((2 ^ 64 - 1 - g 4) &&& g 6)
  let t1 := g 7 + s1 + ch + k + w
  let s0 := rotr64 (g 0) 28 ^^^ rotr64 (g 0) 34 ^^^ rotr64 (g 0) 39
  let maj := (g 0 &&& g 1) ^^^ (g 0 &&& g 2) ^^^ (g 1 &&& g 2)
  [(t1 + s0 + maj) % 2 ^ 64, g 0, g 1, g 2, (g 3 + t1) % 2 ^ 64, g 4, g 5, g 6]

/-- One block. -/
def shaBlock (h : List Nat) (bs : List Byte) : List Nat :=
  let ws := (shaSchedule 64 (shaWords bs).reverse).reverse
  let v := (shaK.zip ws).foldl (fun v p => shaRound v p.1 p.2) h
  (h.zip v).map (fun p => (p.1 + p.2) % 2 ^ 64)

/-- Bytes of a number, most significant first. -/
def toBytesBE (n v : Nat) : List Byte := (toBytes n v).reverse

/-- The padded message. -/
def shaPad (bs : List Byte) : List Byte :=
  let n := bs.length
  bs ++ [0x80] ++ zeros ((240 - (n + 1) % 128) % 128) ++ toBytesBE 16 (8 * n)

/-- SHA-384 of a message: 48 bytes. -/
def sha384 (bs : List Byte) : List Byte :=
  let p := shaPad bs
  (((chunksOf 128 (p.length / 128 + 1) p).foldl shaBlock sha384Init).flatMap (toBytesBE 8)).take 48

/-- HMAC with SHA-384 (R494), the key at most one block of 128 bytes. -/
def hmac384 (key msg : List Byte) : List Byte :=
  let k := fitBytes 128 key
  sha384 (k.map (· ^^^ 0x5C) ++ sha384 (k.map (· ^^^ 0x36) ++ msg))

/-- Order of the curve brainpoolP384r1, which the spec names and does not write out (log entry 74). -/
def brainpoolOrder : Nat :=
  0x8cb91e82a3386d280f5d6f7e50e641df152f7109ed5456b31f166e6cac0425a7cf3ab6af6b7fc3103b883202e9046565
/-- Order of the curve NIST P-384, which the spec names and does not write out (log entry 74). -/
def p384Order : Nat := 2 ^ 384 - 0x389cb27e0bc8d220a7e5f24db74f58851313e695333ad68d

/-- A private scalar derived from a secret and a label (R494): the HMAC under the secret of the label, read with the most
significant byte first (log entry 74), modulo the order less one, plus one. -/
def deriveScalar (secret label : List Byte) (order : Nat) : Nat :=
  ofBytesBE (hmac384 secret label) % (order - 1) + 1

end Sys2Proof.Machine
end

