-- ==== Sys2Proof/Machine/Trace.lean ====
section
/-! DEFINITION. The image container and the check of its issue trace (R205, R206, R208, R222, R254–R256, R266). -/
namespace Sys2Proof.Machine

/-! ### Header and sections (R254, R255) -/

/-- A section: type, offset, length. -/
structure Sec where
  ty : Nat
  off : Nat
  len : Nat
  deriving DecidableEq, Repr

/-- NSECT. -/
def imNsect (b : List Byte) : Nat := getLE b 6 2
/-- LENGTH. -/
def imLength (b : List Byte) : Nat := getLE b 8 4
/-- NUMSIG. -/
def imNumsig (b : List Byte) : Nat := getLE b 12 2
/-- PART. -/
def imPart (b : List Byte) : Nat := getLE b 14 2
/-- VARIANT. -/
def imVariant (b : List Byte) : Nat := getLE b 16 1
/-- PORTABLE. -/
def imPortable (b : List Byte) : Bool := (getLE b 17 1).testBit 0
/-- NSTATS. -/
def imNstats (b : List Byte) : Nat := getLE b 18 2
/-- BUDGET. -/
def imBudget (b : List Byte) : Nat := getLE b 20 4

/-- The section table. -/
def imSecs (b : List Byte) : List Sec :=
  (List.range (imNsect b)).map (fun i => ⟨getLE b (128 + 16 * i) 1, getLE b (132 + 16 * i) 4, getLE b (136 + 16 * i) 4⟩)

/-- Whether a section-table entry's reserved bytes are zero. -/
def secZero (b : List Byte) (i : Nat) : Bool := zeroAt b (129 + 16 * i) 3 && zeroAt b (140 + 16 * i) 4

/-- Whether sections lie apart from one another and their types are distinct. -/
def secsApart : List Sec → Bool
  | [] => true
  | x :: xs => xs.all (fun y => x.ty != y.ty && (decide (x.off + x.len ≤ y.off) || decide (y.off + y.len ≤ x.off))) && secsApart xs

/-- Whether MAGIC, VERSION, LENGTH, the section table and the reserved bytes are as R254 and R255 state. -/
def headerShape (b : List Byte) : Bool :=
  getLE b 0 4 = 0x56414E31 && getLE b 4 2 = 1 && decide (2 ≤ imNsect b) && decide (imNsect b ≤ 8)
    && decide (256 ≤ imLength b) && decide (imLength b ≤ 2 ^ 30) && decide (getLE b 17 1 < 2) && decide (imNstats b ≤ 4096)
    && zeroAt b 24 8 && zeroAt b 80 48 && (List.range (imNsect b)).all (secZero b) && secsApart (imSecs b)
    && (imSecs b).all (fun x => decide (1 ≤ x.ty) && decide (x.ty ≤ 8) && x.off % 16 = 0 && decide (128 + 16 * imNsect b ≤ x.off)
         && decide (x.off + x.len ≤ imLength b))
    && (imSecs b).any (fun x => x.ty = 1) && (imSecs b).any (fun x => x.ty = 2)

/-- The bytes of the section of a type, none where the image has none. -/
def secBytes (b : List Byte) (ty : Nat) : Option (List Byte) :=
  ((imSecs b).find? (fun x => x.ty = ty)).map (fun x => (b.drop x.off).take x.len)

/-- Whether the HASH is the image's (R254). -/
def hashOk (b : List Byte) : Bool := sha384 (putAt b 32 (zeros 48)) = (b.drop 32).take 48

/-- CELLMAP. -/
def imBlocks (b : List Byte) : Nat := getLE ((secBytes b 1).getD []) 0 8

/-- The cells of the held blocks, ascending. -/
def heldCells (mask : Nat) : List Nat := (setBitsOf 64 mask).flatMap (fun l => (List.range 16).map (fun c => 16 * l + c))

/-! ### CODE, LINKS, STAGING, CONST (R204, R206, R208, R255) -/

/-- A CODE entry: cell, ENTRY, bundles. -/
structure CodeEnt where
  cell : Nat
  entry : Nat
  code : List Nat
  deriving DecidableEq, Repr

/-- A CODE entry at place i, where it is as R255 states. -/
def codeEnt (b : List Byte) (i : Nat) : Option CodeEnt :=
  let e := (b.drop (16 * i)).take 16
  let n := getLE e 4 2
  let off := getLE e 8 4
  if e.length = 16 && zeroAt e 6 2 && zeroAt e 12 4 && decide (1 ≤ n) && decide (n ≤ 4096) && decide (off + 16 * n ≤ b.length)
      && decide (getLE e 2 2 < n) then
    some ⟨getLE e 0 2, getLE e 2 2, (chunksOf 16 n ((b.drop off).take (16 * n))).map ofBytes⟩
  else none

/-- The CODE section for the held cells: one entry for each, in any order. -/
def codeEnts (b : List Byte) (cells : List Nat) : Option (List CodeEnt) :=
  let es := (List.range cells.length).map (codeEnt b)
  if es.all (·.isSome) then
    let l := es.filterMap id
    if cells.all (fun c => (l.filter (fun e => e.cell = c)).length = 1) then some l else none
  else none

/-- A router entry. -/
def routerEnt (e : List Byte) : Router := ⟨getLE e 0 2, getLE e 2 1, getLE e 3 1, getLE e 4 4, getLE e 8 4, getLE e 12 4⟩

/-- Whether the neighbour on a link is a cell of the image. -/
def linkHeld (rows : Nat) (cells : List Nat) (cell dir : Nat) : Bool :=
  match meshNext rows cell dir with
  | some n => cells.contains n
  | none => false

/-- Whether a router entry names a cell of the image and links that stay inside it (R205). -/
def routerOk (rows : Nat) (cells : List Nat) (r : Router) : Bool :=
  cells.contains r.cell && decide (r.out < 4) && decide (r.src ≤ 4) && linkHeld rows cells r.cell r.out
    && (r.src = 0 || linkHeld rows cells r.cell (r.src - 1))

/-- A window table entry (R206). -/
def winEnt (e : List Byte) : Win := ⟨getLE e 0 2, getLE e 2 2, getLE e 4 1, false, 0, none⟩

/-- Whether a window-table entry is as R206 states. -/
def winOk (e : List Byte) : Bool :=
  let w := winEnt e
  zeroAt e 5 3 && (w.dir = 0xFF || ((w.dir = 0 || w.dir = 1) && decide (1 ≤ w.lines) && decide (w.lines ≤ 1024) && decide (w.base + w.lines ≤ 2048)))

/-- Whether the windows of a cell lie apart. -/
def winsApart : List Win → Bool
  | [] => true
  | x :: xs => xs.all (fun y => x.dir = 0xFF || y.dir = 0xFF || decide (x.base + x.lines ≤ y.base) || decide (y.base + y.lines ≤ x.base))
      && winsApart xs

/-- A window that is not used. -/
def winNone : Win := ⟨0, 0, 0xFF, false, 0, none⟩

/-- The windows of the cell at a place of the STAGING section, none where its table fails R206; without the section none is used. -/
def cellWins (b : Option (List Byte)) (i : Nat) : Option (List Win) :=
  match b with
  | none => some (List.replicate 4 winNone)
  | some b =>
    let es := (List.range 4).map (fun k => (b.drop (32 * i + 8 * k)).take 8)
    let ws := es.map winEnt
    if es.all (fun e => e.length = 8 && winOk e) && winsApart ws then some ws else none

/-- A staging entry. -/
def stageEnt (e : List Byte) : StageEnt :=
  ⟨getLE e 0 2, getLE e 2 1, getLE e 4 4, getLE e 8 8, getLE e 16 4, getLE e 20 2, getLE e 24 4, sx 32 (getLE e 28 4)⟩

/-- Whether a staging entry is as R208 states. -/
def stageOk (wins : SMap (List Win)) (b : List Byte) : Bool :=
  let e := stageEnt b
  match mget wins e.cell with
  | none => false
  | some ws =>
    let w := ws.getD e.win winNone
    decide (e.win < 4) && w.dir != 0xFF && zeroAt b 3 1 && zeroAt b 22 2 && decide (1 ≤ e.count) && e.addr % 16 = 0 && e.rowlen % 16 = 0
      && decide (1 ≤ e.rows) && decide (e.rows * e.rowlen ≤ w.lines * 256) && e.stride % 16 = 0 && getLE b 28 4 % 16 = 0

/-- The entries of a CONST section (R255): cell, SRAM byte address, bytes; none where one is not as stated. -/
def constEnts (cells : List Nat) : Nat → List Byte → Option (List (Nat × Nat × List Byte))
  | 0, b => if b.isEmpty then some [] else none
  | f + 1, b =>
    if b.isEmpty then some []
    else
      let cell := getLE b 0 2
      let addr := getLE b 4 4
      let n := getLE b 8 4
      if b.length < 16 + n || !(zeroAt b 2 2) || !(zeroAt b 12 4) || addr % 16 != 0 || n % 16 != 0 || addr + n > 0x80000
          || !(cells.contains cell) then none
      else (constEnts cells f (b.drop (16 + n))).map (fun l => (cell, addr, (b.drop 16).take n) :: l)

/-! ### TENSORS (R73, R266) -/

/-- Whether an SRAM word lies outside a cell's windows. -/
def outsideWins (ws : List Win) (a : Nat) : Bool :=
  !(ws.any (fun w => w.dir != 0xFF && decide (w.base ≤ a / 256) && decide (a / 256 < w.base + w.lines)))

/-- Whether an initial scale is positive and finite (R73). -/
def initOk (b : Nat) : Bool := match f32 b with | .fin neg n _ => !neg && n != 0 | _ => false

/-- Whether a TENSORS entry is as R266 states: FMT is a code of R62 and INIT a scale of R73 in either mode. -/
def tensorOk (mask : Nat) (wins : SMap (List Win)) (b : List Byte) : Bool :=
  decide (tnSet b < 16) && decide (tnMode b ≤ 1) && decide (1 ≤ tnH b) && decide (tnH b ≤ 16) && decide (tnM b ≤ 7) && zeroAt b 5 3
    && zeroAt b 24 8 && (tnBlocks b &&& mask) = tnBlocks b && decide (1 ≤ tnFmt b) && decide (tnFmt b ≤ 10) && initOk (tnInit b)
    && (if tnMode b = 0 then tnAddr b = 0
        else decide (4 ≤ tnFmt b) && tnAddr b % 16 = 0 && decide (tnAddr b < 0x80000)
          && wins.all (fun c => !(cellIn (tnBlocks b) c.1) || outsideWins c.2 (tnAddr b)))

/-- Whether no statistics set of one cell belongs to two entries. -/
def setsApart : List (List Byte) → Bool
  | [] => true
  | x :: xs => xs.all (fun y => tnSet x != tnSet y || (tnBlocks x &&& tnBlocks y) = 0) && setsApart xs

/-! ### The issue trace (R205) -/

/-- How a cell's trace ends: with a STOP, with a bundle that faults ILLEGAL whatever its data, beyond BUDGET, or outside its code. -/
inductive TEnd where
  | stop | fault | long | left
  deriving DecidableEq, Repr

/-- The bundles that a cell issues in a step, with their repetitions, one an issue cycle. -/
def traceCell (code : List Nat) : Nat → Seq → List (Nat × Nat) × TEnd
  | 0, _ => ([], .long)
  | f + 1, q =>
    let b := code.getD q.pc 0
    if q.pc > 4095 then ([(0, 0)], .fault)
    else if q.pc ≥ code.length then ([], .left)
    else if !(bundleLegal b) || (q.rep = 0 && isLoop b && !(loopOk q b)) || (q.rep = 0 && isJump b && !(jumpOk q b (code.getD (q.pc + 1) 0))) then
      ([(0, 0)], .fault)
    else
      let n := seqNext q b
      if n.stopped then ([(b, q.rep)], .stop)
      else
        let r := traceCell code f n
        ((b, q.rep) :: r.1, r.2)

/-- A cell of the image at load: its bundles by issue cycle and its windows. -/
structure TCell where
  cell : Nat
  items : List (Nat × Nat)
  wins : List Win
  deriving DecidableEq, Repr

/-- The links that a cell's SEND names in an issue cycle. -/
def sentDirs (c : TCell) (t : Nat) : Nat :=
  match c.items[t]? with
  | some (b, n) => if bEn b 1 && slotOp 1 b n = 9 then bits (slotX b) 10 4 else 0
  | none => 0

/-- The link of a cell's RECV in an issue cycle. -/
def recvDir (c : TCell) (t : Nat) : Option Nat :=
  match c.items[t]? with
  | some (b, n) => if bEn b 1 && slotOp 1 b n = 10 then some (bits (slotX b) 12 2) else none
  | none => none

/-- One issue cycle of the links: flits arriving later, and whether every condition of R205 held. -/
def linkCycle (rows : Nat) (cells : List TCell) (links : List Router) (a : List (Nat × Nat × Nat) × Bool) (t : Nat) :
    List (Nat × Nat × Nat) × Bool :=
  let here := (a.1.filter (fun f => f.1 = t)).map (·.2)
  let act := links.filter (fun r => r.active t)
  let outs := act.map (fun r => (r.cell, r.out))
  let once : Bool := outs.all (fun o => (outs.filter (fun p => p = o)).length = 1)
  let taken : Bool := here.all (fun f => act.any (fun r => r.cell = f.1 && r.src = f.2 + 1)
    || cells.any (fun c => c.cell = f.1 && recvDir c t = some f.2))
  let recvOk : Bool := cells.all (fun c => match recvDir c t with | some d => here.contains (c.cell, d) | none => true)
  let sendOk : Bool := cells.all (fun c => (setBitsOf 4 (sentDirs c t)).all (fun d => act.any (fun r => r.cell = c.cell && r.out = d && r.src = 0)))
  let go (r : Router) : Bool := if r.src = 0 then cells.any (fun c => c.cell = r.cell && (sentDirs c t).testBit r.out) else here.contains (r.cell, r.src - 1)
  let new := (act.filter go).filterMap (fun r => (meshNext rows r.cell r.out).map (fun n => (t + 2, n, opposite r.out)))
  (a.1.filter (fun f => decide (f.1 > t)) ++ new, a.2 && once && taken && recvOk && sendOk)

/-- Whether the link schedule holds over the whole trace: no flit is left untaken. -/
def linksOk (rows : Nat) (cells : List TCell) (links : List Router) (n : Nat) : Bool :=
  let r := (List.range n).foldl (linkCycle rows cells links) ([], true)
  r.2 && r.1.isEmpty

/-- The line of an X-slot access at a fixed address (R251): VLDA and VSTA, and with s0 for the base VLD, VST, SLD and SST; none where there is
no such access, or its address lies beyond the SRAM. -/
def fixedLine (w op rep : Nat) : Option Nat :=
  let off := sx 10 (bits w 0 10)
  let a : Option Int :=
    if op = 3 || op = 4 then some (256 * (bits w 0 11 + rep : Nat))
    else if (op = 5 || op = 6) && bits w 11 5 = 0 then some (if w.testBit 10 then 0 else 256 * off)
    else if (op = 7 || op = 8) && bits w 10 5 = 0 then some (8 * off)
    else none
  a.bind (fun x => if 0 ≤ x && x ≤ sramTop then some (x.toNat / 256) else none)

/-- One issue cycle of a cell's windows: who owns them, and whether no access at a fixed address met one that the Ring owns. -/
def winCycle (ws : List Win × Bool) (i : Nat × Nat) : List Win × Bool :=
  let w := slotX i.1
  if !(bEn i.1 1) then ws
  else match slotOp 1 i.1 i.2 with
    | 1 => (modAt ws.1 (bits w 0 2) (fun y => { y with own := true }), ws.2)
    | 2 => (modAt ws.1 (bits w 0 2) (fun y => { y with own := false }), ws.2)
    | op => match fixedLine w op i.2 with
      | some l => (ws.1, ws.2 && !(ringOwned ws.1 l))
      | none => ws

/-- Whether a cell's accesses at fixed addresses keep to windows it owns, over the first step and those after it (R205, R264). -/
def winsOk (c : TCell) : Bool :=
  let one := c.items.foldl winCycle (winsAtLaunch c.wins, true)
  (c.items.foldl winCycle one).2

end Sys2Proof.Machine
end

