-- ==== Sys2Proof/Machine/Images.lean ====
section
/-! DEFINITION. Images, launches and role profiles as commands (R257–R274): LOAD, UNLOAD, RUN, STOP_RUN, WITHDRAW, ROLE, the launch, and
the Bow's preparation of an event (R42). -/
namespace Sys2Proof.Machine

/-! ### LOAD (R258, R259) -/

/-- The parts of an image that R205 and the section layouts check, and the loaded image they give. -/
def imageParts (s : State) (b : List Byte) (tenant : Nat) : Option Image :=
  let mask := imBlocks b
  let cells := heldCells mask
  let rows := 4 * blockRows s.part
  let stg := secBytes b 4
  let nw := 32 * cells.length
  match codeEnts ((secBytes b 2).getD []) cells, constEnts cells (b.length / 16 + 1) ((secBytes b 5).getD []) with
  | some code, some consts =>
    let wins := (List.range cells.length).map (fun i => (cells.getD i 0, cellWins stg i))
    if wins.any (fun w => w.2.isNone) then none
    else
      let wt : SMap (List Win) := wins.map (fun w => (w.1, w.2.getD []))
      let lnk := (secBytes b 3).getD []
      let links := (chunksOf 16 (lnk.length / 16 + 1) lnk).map routerEnt
      let sb := (stg.getD []).drop nw
      let ses := chunksOf 32 (sb.length / 32 + 1) sb
      let tb := (secBytes b 6).getD []
      let ts := chunksOf 32 (tb.length / 32 + 1) tb
      let kb := (secBytes b 8).getD []
      let ks := (chunksOf 2048 8 kb).map kProg
      let traces := code.map (fun e => (e, traceCell e.code (imBudget b + 1) ⟨e.entry, 0, [], none, false⟩))
      let tcs := traces.map (fun t => (⟨t.1.cell, t.2.1, (mget wt t.1.cell).getD []⟩ : TCell))
      let longest := maxD 0 (traces.map (fun t => t.2.1.length))
      let ok : Bool := ((secBytes b 1).getD []).length = 8 && lnk.length % 16 = 0 && links.all (routerOk rows cells) && sb.length % 32 = 0
        && ses.all (stageOk wt) && tb.length = 32 * imNstats b && ts.all (tensorOk mask wt) && setsApart ts
        && kb.length % 2048 = 0 && decide (kb.length ≤ 16384) && ks.all kProgOk
        && traces.all (fun t => t.2.2 = .stop || t.2.2 = .fault) && longest = imBudget b
        && tcs.all winsOk && linksOk rows tcs links longest
      if !ok then none
      else
        let mk (c : Nat) : Option (Nat × Cell) := (code.find? (fun e => e.cell = c)).map (fun e =>
          let k0 := coreNew ((mget wt c).getD [])
          let k := (consts.filter (fun x => x.1 = c)).foldl (fun k x => putWords k (x.2.1 / 16) x.2.2 (fun _ => false)) k0
          (c, ⟨e.entry, e.code, [], k, k, [], false⟩))
        some ⟨tenant, mask, imNumsig b, imBudget b, cells.filterMap mk, links, ses.map stageEnt, ts, ks, 0, 0, [], [], none, none, none⟩
  | _, _ => none

/-- Whether PART and VARIANT name this part (R2, R258). -/
def partOk (s : State) (b : List Byte) : Bool :=
  (imPart b = 0 || imPart b = bits (partId s.part) 0 16) && (imVariant b = 0 || imVariant b = bits (partId s.part) 16 8)
    && ((secBytes b 8).isNone || hasKettles s.part)

/-- Whether NUMSIG and PORTABLE are as R52, R256 and R258 ask. -/
def sigOk (s : State) (b : List Byte) : Bool :=
  (imNumsig b = nativeSig s.part || imNumsig b = 0x138) && (!(imPortable b) || (imNumsig b = 0x138 && decide (imBlocks b < 2 ^ 56)))

/-- Whether the running firmware carries the traversal microprograms that an image names (R258). -/
def traversalOk (b : List Byte) : Bool :=
  let t := (secBytes b 7).getD []
  t.length % 4 = 0 && (chunksOf 4 (t.length / 4 + 1) t).all (fun e => match Config.traversalVersion (getLE e 0 2) with
    | some v => decide (getLE e 2 2 ≤ v)
    | none => false)

/-- What the checks of a LOAD come to: a status with its REASON, or the image. -/
inductive LoadRes where
  | refuse (st : Status) (reason : Nat)
  | accept (x : Image)
  deriving DecidableEq, Repr

/-- The checks of R258 from REASON 0x02 on; `bad` where a word of the image read as poisoned. -/
def checkImage (s : State) (b : List Byte) (tenant : Nat) (bad : Bool) : LoadRes :=
  if !(headerShape b) then .refuse .malformed 2
  else if bad || !(hashOk b) then .refuse .malformed 3
  else if !(partOk s b) then .refuse .malformed 4
  else if !(sigOk s b) then .refuse .malformed 5
  else if !(traversalOk b) then .refuse .malformed 6
  else match imageParts s b tenant with
    | none => .refuse .malformed 7
    | some x =>
      if (heldBlocks s &&& x.blocks) != 0 then .refuse .busy 8
      else if (setBitsOf 64 x.blocks).any (fun l => (physOf s l).isNone) then .refuse .fenced 9
      else .accept x

/-- The load record (R259). -/
def loadRecord (st : Status) (reason slot mask budget : Nat) : List Byte :=
  toBytes 1 st.code ++ toBytes 1 reason ++ toBytes 1 slot ++ toBytes 1 0 ++ toBytes 8 mask ++ toBytes 4 budget

/-- A LOAD fails (R259, R274): counted, its record written with SLOT 0xFF where the record lies in the window. The REASON of TABLE_FULL
is not stated (log entry 6). -/
def failLoad (s : State) (w : Work) (rec_ : Nat) (st : Status) (reason : Nat) : State :=
  let b := loadRecord st reason 0xFF 0 0
  let s := bump s Reg.fltImagesRefused
  if inWindow s w.tenant rec_ 16 && rec_ % 16 = 0 then completeWith s w rec_ b st 0 reason
  else complete s w st 0 reason

/-- The kettle programs of an image go into every kettle site's table (R283). -/
def loadPrograms (s : State) (slot : Nat) (ps : List (List Nat)) : State :=
  if ps.isEmpty then s
  else [4, 5, 6, 7].foldl (fun s site => modKsite s site (fun k =>
    { k with progs := ((List.range ps.length).zip ps).foldl (fun m p => mput m (8 + 8 * slot + p.1) p.2) k.progs })) s

/-- LOAD (R258, R259): the checks in their order, then the image takes the lowest free slot. It waits for the crossings after a Felt-only
reset (R468). -/
def load (work : Nat) (s : State) : State :=
  if s.bow.align.isSome && s.bow.alignFelt then s
  else onAdminF s work 0x20 16 false (fun s => bump s Reg.fltImagesRefused) (fun s w op =>
    let a := getLE op 0 8
    let rec_ := getLE op 8 8
    if s.felt.images.length ≥ 16 then let r := freeVal s; failLoad r.1 w rec_ .tableFull (r.2 % 256)
    else if !(inWindow s w.tenant a 128) || !(inWindow s w.tenant rec_ 16) then failLoad s w rec_ .accessDenied 1
    else
      let h := rdW s a 128
      let n := imLength h.2.bytes
      if !(inWindow h.1 w.tenant a n) then failLoad h.1 w rec_ .accessDenied 1
      else if a % 16 != 0 || rec_ % 16 != 0 || n < 256 || n > 2 ^ 30 then failLoad h.1 w rec_ .malformed 2
      else
        let r := rdW h.1 a n
        let bad : Bool := r.2.bad || r.2.timeout
        let s := if r.2.bad then consumeNr r.1 (r.2.first a) else r.1
        let fenced := applyFences s
        match checkImage fenced r.2.bytes w.tenant bad with
        | .refuse st reason => failLoad (if reason ≥ 8 then fenced else s) w rec_ st reason
        | .accept x =>
          match mfree fenced.felt.images 16 with
          | none => let r := freeVal s; failLoad r.1 w rec_ .tableFull (r.2 % 256)
          | some slot =>
            let b := loadRecord .ok 0 slot x.blocks x.budget
            completeWith (loadPrograms (setImage fenced slot x) slot x.kettle) w rec_ b .ok)

/-! ### UNLOAD, STOP_RUN (R260, R269) -/

/-- The image of a slot that a tenant may act on (R260): none where the slot is empty or another tenant's. -/
def ownImage (s : State) (w : Work) (slot : Nat) : Option Image :=
  match imageOf s slot with
  | some x => if adminMay w x.tenant then some x else none
  | none => none

/-- UNLOAD (R260): at once, or once the run that it stops has completed; BUSY where one waits already (log entry 27). -/
def unload (work : Nat) (s : State) : State :=
  onAdmin s work 0x21 1 false (fun s w op =>
    let slot := getLE op 0 1
    match ownImage s w slot with
    | none => complete s w .malformed
    | some x =>
      if x.unload.isSome then complete s w .busy
      else match x.run with
        | none => complete (dropImage s slot) w .ok
        | some r => beginWork (setImage s slot { x with unload := some w.id, run := some { r with stopReq := true } }) w.id)

/-- STOP_RUN (R269): the run ends at the first boundary that closes a step. -/
def stopRun (work : Nat) (s : State) : State :=
  onAdmin s work 0x22 1 false (fun s w op =>
    let slot := getLE op 0 1
    match ownImage s w slot with
    | none => complete s w .malformed
    | some x => complete (setImage s slot { x with run := x.run.map (fun r => { r with stopReq := true }) }) w .ok)

/-! ### RUN (R261, R262, R265) -/

/-- A step-word table entry: source, cell, SRAM address. -/
def wordEnt (b : List Byte) : Nat × Nat × Nat := (getLE b 0 8, getLE b 8 2, getLE b 12 4)

/-- Whether a step-word table entry is as R265 states. -/
def wordOk (x : Image) (b : List Byte) : Bool :=
  let e := wordEnt b
  e.1 % 8 = 0 && zeroAt b 10 2 && e.2.2 % 16 = 0 && decide (e.2.2 < 0x80000)
    && (match mget x.cells e.2.1 with | some c => outsideWins c.base.wins e.2.2 | none => false)

/-- Whether every byte that a staging entry reaches from a data base lies in a tenant's window (R208): the extremes of a linear walk. -/
def stageIn (s : State) (tenant base : Nat) (e : StageEnt) : Bool :=
  let lastN : Int := (e.count - 1 : Nat) * e.astep
  let lastJ : Int := ((e.rows - 1) * e.stride : Nat)
  let lo : Int := (base + e.addr : Nat) + min 0 lastN
  let hi : Int := (base + e.addr + e.rowlen : Nat) + max 0 lastN + lastJ
  e.rowlen = 0 || (decide (0 ≤ lo) && inWindow s tenant lo.toNat (hi - lo).toNat)

/-- Whether the fields of a RUN descriptor are in range (R261, R262). -/
def runShape (x : Image) (w : Work) : Bool :=
  zeroAt w.desc 9 7 && w.f 24 4 != 0 && w.f 32 8 % 16 = 0 && w.f 40 8 % 64 = 0 && w.f 48 2 != 0 && decide (w.f 50 1 ≤ 8) && zeroAt w.desc 51 5
    && w.f 56 8 % 16 = 0 && (w.f 50 1 != 0 || w.f 56 8 = 0) && decide (w.f 24 4 * 1800 ≥ x.budget + 128)

/-- The status of a RUN before its Bow and table checks (R262); `es` are its step-word entries. -/
def runStatus (s : State) (w : Work) (slot : Nat) (es : Option (List (List Byte))) : Status :=
  match imageOf s slot with
  | none => .malformed
  | some x =>
    if x.tenant != w.tenant || !(runShape x w) || (match es with | some l => !(l.all (wordOk x)) | none => false) then .malformed
    else if !(inWindow s w.tenant (w.f 40 8) (w.f 48 2 * (64 + 32 * x.tensors.length))) || es.isNone
        || (es.getD []).any (fun e => !(inWindow s w.tenant (wordEnt e).1 8)) || x.staging.any (fun e => !(stageIn s w.tenant (w.f 32 8) e)) then
      .accessDenied
    else if x.run.isSome then .busy
    else if tickFar s (w.f 16 8) then .malformed
    else if tickNear s (w.f 16 8) then .timeout
    else .ok

/-- The run that a RUN descriptor asks for. -/
def runNew (w : Work) (es : List (List Byte)) : Run :=
  { work := w.id, launch := w.f 16 8, period := w.f 24 4, steps := w.f 28 4, base := w.f 32 8, records := w.f 40 8, ring := w.f 48 2,
    words := es.map wordEnt, launched := false, step := 0, start := w.f 16 8, inStep := false, late := 0, stall := 0, skipped := 0,
    overrun := false, bound := w.f 16 8, capped := false, stopReq := false, lastStop := 0, hist := [], scale := [], fault := none }

/-- RUN (R261, R262): checked in the order of R262's table; one that passes takes a schedule entry and holds its slot. -/
def run (work : Nat) (s : State) : State :=
  onWork s work 7 (fun s w =>
    let slot := w.f 8 1
    let n := w.f 50 1
    let inside : Bool := n = 0 || inWindow s w.tenant (w.f 56 8) (16 * n)
    let r := if inside && decide (n ≤ 8) then rdW s (w.f 56 8) (16 * n) else (s, ⟨[], [], false⟩)
    let es := if inside then some (chunksOf 16 8 r.2.bytes) else none
    let st := runStatus r.1 w slot (if r.2.bad || r.2.timeout then some [] else es)
    if st != .ok && !(r.2.bad && st != .malformed && st != .accessDenied) then complete r.1 w st
    else if r.2.bad then complete (consumeNr r.1 (r.2.first (w.f 56 8))) w .poisoned
    else if r.2.timeout then complete r.1 w .timeout
    else if r.1.bow.st != .synced then complete (bump r.1 Reg.tckStatusMissedRun) w .notSynchronised
    else if schedFull r.1 then schedRefuse r.1 w
    else schedAdd (modImage r.1 slot (fun x => { x with run := some (runNew w (es.getD [])) })) (.launch slot) (w.f 16 8) w)

/-! ### The Bow's events (R42, R43) -/

/-- The first fills of a launch (R207, R209): the windows as at launch, transfer 0 of every inbound window begun. -/
def startFills (x : Image) : Image :=
  let cells := x.cells.map (fun c => (c.1, c.2.both (fun k => { k with wins := winsAtLaunch k.wins })))
  let ts : List Xfer := cells.flatMap (fun c =>
    ((List.range 4).filter (fun w => (c.2.base.win w).dir = 0)).map (fun w => ⟨c.1, w, 0, false⟩))
  { x with cells := cells, xfers := liveXfers x.staging ts }

/-- A scheduled event is prepared (R42, R142, R262). -/
def prepareEvent (s : State) (e : SchedEvt) : State :=
  let s := modBow s (fun b => { b with sched := b.sched.map (fun f => if f = e then { f with prepared := true } else f) })
  match e.kind with
  | .launch slot => modImage s slot startFills
  | .commit index shard => fixShard s (shardKey index shard) e.tick
  | .gate _ _ => s

/-- EVENT_PREPARE (R42): four ticks before its tick, the earliest event not yet prepared. -/
def eventPrepare (s : State) : State :=
  match schedFirst s (fun e => !e.prepared) with
  | none => s
  | some t =>
    if tickOf s + 4 < t then s
    else match s.bow.sched.find? (fun e => !e.prepared && e.tick = t) with
      | some e => prepareEvent s e
      | none => s

/-- Whether an event launches a slot. -/
def isLaunchOf (slot : Nat) (e : SchedEvt) : Bool := match e.kind with | .launch i => i = slot | _ => false

/-- Drop the run of a slot that did not launch. -/
def dropRun (s : State) (slot : Nat) : State := modImage s slot (fun x => { x with run := none, xfers := [] })

/-- A launch that cannot start completes NOT_SYNCHRONISED and is counted; its image stays loaded (R39, R262). -/
def missLaunch (s : State) (slot : Nat) (e : SchedEvt) : State :=
  let waits := (imageOf s slot).bind (·.unload)
  let s := completeId (bump (dropRun (schedFree s (fun f => f = e)) slot) Reg.tckStatusMissedRun) e.work .notSynchronised
  match waits with
  | some w => completeId (dropImage s slot) w .ok
  | none => s

/-- The launch of an event takes place (R43, R52, R54): step 0 starts, and block segments are numbered from 0. -/
def doLaunch (s : State) (slot : Nat) (e : SchedEvt) : State :=
  let s := if e.prepared then s else prepareEvent s e
  let s := schedFree s (fun f => isLaunchOf slot f && f.tick = e.tick)
  match imageOf s slot with
  | none => s
  | some x =>
    let s := setF s Reg.idNumsigLast x.numsig
    let s := { s with twin := { s.twin with
        blockWords := s.twin.blockWords.filter (fun b => !(x.blocks.testBit b.1)),
        blockSeg := s.twin.blockSeg.filter (fun b => !(x.blocks.testBit b.1)) } }
    startStep (setImage s slot { x with run := x.run.map (fun r => { r with launched := true }) }) slot

/-- An image launch at its tick (R43, R39): its first bundle issues, or its RUN completes NOT_SYNCHRONISED. -/
def launchEvent (s : State) (e : SchedEvt) : State :=
  match e.kind with
  | .launch slot => if s.bow.st = .synced then doLaunch s slot e else missLaunch s slot e
  | _ => s

/-- WITHDRAW (R262): before its preparation tick an event is removed and its descriptor completes FENCED; later it is BUSY. A descriptor
that holds no schedule entry is MALFORMED (log entry 28). -/
def withdraw (work : Nat) (s : State) : State :=
  onAdmin s work 0x23 8 false (fun s w op =>
    let q := getLE op 0 2
    if !(zeroAt op 2 2) then complete s w .malformed
    else if !(adminMay w (queueTenant q)) then complete s w .accessDenied
    else match s.bow.sched.find? (fun e => e.queue = q && e.seq = getLE op 4 4) with
      | none => complete s w .malformed
      | some e =>
        if e.prepared || decide (tickOf s + 4 ≥ e.tick) then complete s w .busy
        else
          let s := schedFree s (fun f => f = e)
          let s := match e.kind with
            | .launch slot =>
              let waits := (imageOf s slot).bind (·.unload)
              let s := completeId (dropRun s slot) e.work .fenced
              match waits with
              | some u => completeId (dropImage s slot) u .ok
              | none => s
            | _ => completeId s e.work .fenced
          complete s w .ok)

/-! ### Role profiles (R272, R273, R326) -/

/-- The batt store held for Felt staging, in MiB, under a profile (R272, R326). -/
def stageMib (profile : Nat) (twin : Bool) : Nat :=
  let n := if profile = 1 then 96 else if profile = 2 then 32 else 64
  if twin then min n 56 else n

/-- FLT_ROLE.STAGE_MIB after a change of profile or of twin mode. -/
def setStage (s : State) : State := trimStaged (setF s Reg.fltRoleStageMib (stageMib (getF s Reg.fltRoleProfile) (flagF s Reg.tckTwinCtrlEn)))

/-- ROLE (R273). -/
def role (work : Nat) (s : State) : State :=
  onAdmin s work 0x24 16 false (fun s w op =>
    let p := getLE op 0 1
    let t := getLE op 8 8
    if p > 2 || !(zeroAt op 1 7) || tickNear s t || tickFar s t then complete s w .malformed
    else if s.felt.role.isSome then complete s w .busy
    else
      let s := modFelt s (fun f => { f with role := some (p, t, w.id) })
      beginWork (setF (setF (setF s Reg.fltRolePending 1) Reg.fltRoleNext p) Reg.fltRoleTickTick t) w.id)

/-- ROLE_APPLY (R273): after class 6 of its tick. -/
def roleApply (s : State) : State :=
  match s.felt.role with
  | none => s
  | some (p, t, work) =>
    if tickOf s < t then s
    else
      let s := modFelt s (fun f => { f with role := none })
      completeId (setStage (setF (setF (setF s Reg.fltRoleProfile p) Reg.fltRolePending 0) Reg.fltRoleNext 0)) work .ok

end Sys2Proof.Machine
end

