-- ==== Sys2Proof/Machine/Tick.lean ====
section
/-! DEFINITION. What a tick of the clock does when no command waits (R29, R37). -/
namespace Sys2Proof.Machine

/-- The phase error after a tick of slewing (R37): at most 16/16 ns toward zero. -/
def slew (p : Int) : Int := if p > 16 then p - 16 else if p < -16 then p + 16 else 0

/-- Whether the core clocks run: VDD_MGMT present, not tripped, start-up past the PLLs (R23, R469, R477). -/
def clocksRun (s : State) : Bool := s.power.vddMgmt && !s.power.tripped && decide (getF s Reg.rstStatusStep ≥ 4)

/-- One tick passes: the Crown's time advances, the controllers serve what they hold (log entry 90) and, where the clocks run, the count
advances; the slew goes on (log entry 3). -/
def tickIdle (s : State) : State :=
  let s := { s with now := s.now + 1, dram := { s.dram with queued := [] } }
  if clocksRun s then { s with bow := { s.bow with count := (s.bow.count + 1) % 2 ^ 64, phase := slew s.bow.phase } } else s

end Sys2Proof.Machine
end

