-- ==== Sys2Proof/Machine/Abort.lean ====
section
/-! DEFINITION. Ending the work of one descriptor wherever it stands (R57, R445–R447): the engine's own entries are freed and the
descriptor completes with a status. -/
namespace Sys2Proof.Machine

/-- A SEARCH's own entries are freed: its coordination, its local shard searches, its merge. -/
def dropCoord (s : State) (work : Nat) : State :=
  match s.srch.coords.find? (fun x => x.2.work = work) with
  | none => s
  | some (cid, _) =>
    let mine := s.srch.searches.filter (fun x => x.2.node.isNone && x.2.ref / 1024 = cid)
    let s := mine.foldl (fun t x => freeSearch t x.1) s
    modSrch s (fun r => { r with coords := mdel r.coords cid, merges := r.merges.filter (· != cid) })

/-- A RUN ends: a running one with its FINAL record, one that waits for its launch without. -/
def abortRun (s : State) (w : Work) (st : Status) : State :=
  let slot := w.f 8 1
  match (imageOf s slot).bind (·.run) with
  | none => complete s w st
  | some r =>
    if r.work != w.id then complete s w st
    else if r.launched then endRun s slot st 0
    else complete (dropRun (schedFree s (fun e => isLaunchOf slot e && e.work = w.id)) slot) w st

/-- An RMA operation ends. -/
def abortRma (s : State) (w : Work) (st : Status) : State :=
  match s.brim.ops.find? (fun o => o.2.work = w.id) with
  | some o => endOp s o.1 st
  | none => complete s w st

/-- End the work of a descriptor in flight with a status. An ADMIN command, a COMMIT or a GATE_LIST in the schedule table leaves its
event there and completes. -/
def abortWork (s : State) (w : Work) (st : Status) : State :=
  match w.cls with
  | 1 => complete (dropCoord s w.id) w st
  | 2 => failUpdate s w st
  | 3 => failUpdate s w st
  | 5 =>
    if st = .timeout then gatherTimeout s w
    else complete (modCard s (fun c => { c with waiting := c.waiting.filter (· != w.id) })) w st
  | 6 => match mget s.card.scatters w.id with
    | some x => endScatter s w x st
    | none => complete s w st
  | 7 => abortRun s w st
  | 0x10 => abortRma s w st
  | 0x11 => abortRma s w st
  | 0x12 => abortRma s w st
  | 0x13 => abortRma s w st
  | 0x20 => complete (modFlash s (fun f => { f with waitw := f.waitw.filter (fun x => x.req != 2 ^ 32 + w.id),
                                                    reads := f.reads.filter (fun x => x.req != 2 ^ 32 + w.id) })) w st
  | _ => complete s w st

/-- End every descriptor in flight of a tenant. -/
def abortTenant (s : State) (tenant : Nat) (st : Status) : State :=
  (s.host.work.filter (fun w => w.tenant = tenant)).foldl (fun t w => match workOf t w.id with
    | some x => abortWork t x st
    | none => t) s

end Sys2Proof.Machine
end

