-- ==== Sys2Proof/Machine/CrownCore.lean ====
section
/-! DEFINITION. The Crown's event log in boot flash (R482, R483) and the records that resets and power loss make it write. -/
namespace Sys2Proof.Machine

/-- Update the Crown. -/
def modCrown (s : State) (f : Crown → Crown) : State := { s with crown := f s.crown }

/-- Entries that the log's partition holds (R482): 128 sectors of 128 entries. -/
def logRoom : Nat := 16384

/-- One entry is written to the boot flash (R483): a full ring first loses the sector with its oldest entries. -/
def logPut (l : List CrownEvt) (e : CrownEvt) : List CrownEvt :=
  (if l.length ≥ logRoom then l.drop 128 else l) ++ [e]

/-- EVENT_LOG_WRITE (R483): the oldest buffered entry reaches the boot flash. -/
def eventLogWrite (s : State) : State :=
  match s.crown.buffer with
  | [] => s
  | e :: r => if s.power.vddMgmt then modCrown s (fun c => { c with buffer := r, log := logPut c.log e }) else s

/-- The whole buffer is written (R483). -/
def logAll (s : State) : State :=
  modCrown s (fun c => { c with buffer := [], log := c.buffer.foldl logPut c.log })

/-- A trigger of a failure record (R499), by its place in that rule's list from 0: it starts a capture, or is recorded in the one that
runs. -/
def triggerCapture (s : State) (i : Nat) : State :=
  modCrown s (fun c => { c with capture := some (c.capture.getD 0 ||| 2 ^ i) })

end Sys2Proof.Machine
end

