-- ==== Sys2Proof/Machine/Twin.lean ====
section
/-! DEFINITION. Lock-step twins (R53–R60): pairing, digests sent and received, comparison points, divergence, a lost link. -/
namespace Sys2Proof.Machine

/-- Update the twin part of the state. -/
def modTwin (s : State) (f : Twin → Twin) : State := { s with twin := f s.twin }

/-- LAG (R61): values outside 16–256 are clamped where the value is used; it reads back as written (log entry 77). -/
def twinLag (s : State) : Nat := min 256 (max 16 (getF s Reg.tckTwinCtrlLag))

/-- Whether port 15 is trained to the twin (R53). -/
def twinUp (s : State) : Bool := portUp s 15 && portRole s 15 = 2

/-- Twin mode is set or cleared (R53, R60): PAIRING until port 15 is trained to the twin. -/
def twinEnSet (s : State) (v : Nat) : State :=
  let s := setF s Reg.tckTwinCtrlEn v
  let st := if v = 0 then 0 else if s.twin.st = 3 || s.twin.st = 2 then s.twin.st else if twinUp s then 2 else 1
  let s := if st = 0 then { s with twin := { twinReset with held := s.twin.held, judged := s.twin.judged } }
    else modTwin s (fun t => { t with st := st, linked := t.linked || twinUp s })
  setStage s

/-- Release held completions to their rings: twin mode no longer holds them. -/
def releaseHeld (s : State) (hs : List (Nat × Comp × List SegId)) : State :=
  hs.foldl (fun s h => pushComp s h.1 false h.2.1) s

/-- TCK_TWIN_CTRL is written (R53, R61): EN, ACTION, HOLD, TENANT, LAG. Completions held are released where twin mode ends. -/
def twinCtrlSet (s : State) (v : Nat) : State :=
  let s := setF (setF s Reg.tckTwinCtrlAction (bits v 1 1)) Reg.tckTwinCtrlHold (bits v 2 1)
  let s := setF (setF s Reg.tckTwinCtrlTenant (bits v 8 9)) Reg.tckTwinCtrlLag (bits v 24 9)
  let s := twinEnSet s (bits v 0 1)
  if s.twin.st = 0 then releaseHeld (modTwin s (fun t => { t with held := [] })) s.twin.held else s

/-- The comparison begins once port 15 is trained to the twin (R53). -/
def twinPair (s : State) : State :=
  if !(twinUp s) then s else modTwin s (fun t => { t with linked := true, st := if t.st = 1 then 2 else t.st })

/-- The 24-byte entry of a digest (R55). -/
def digestBytes (d : Digest) : List Byte :=
  toBytes 1 d.id.kind ++ toBytes 1 d.id.block ++ toBytes 2 d.id.queue ++ toBytes 4 d.id.seq ++ toBytes 4 d.id.seg ++ zeros 4
    ++ toBytes 8 d.crc

/-- The frame of a tick's digests (R55): a 32-byte header, TICK in bytes 7:0 and the entry count in bytes 11:8 (log entry 78), and the
entries. -/
def twinFrame (tick : Nat) (ds : List Digest) : List Byte :=
  toBytes 8 tick ++ toBytes 4 ds.length ++ zeros 20 ++ ds.flatMap digestBytes

/-- The entries of a received frame, with the check bytes that the twin would give for each (none where it holds them no more). -/
def frameDigests (tick : Nat) (frame : List Byte) (checks : List (List Nat)) : List Digest :=
  (((chunksOf 24 (getLE frame 8 4) (frame.drop 32)).zip (List.range (getLE frame 8 4))).filter (fun e => e.1.length = 24)).map (fun e =>
    ⟨⟨getLE e.1 0 1, getLE e.1 1 1, getLE e.1 2 2, getLE e.1 4 4, getLE e.1 8 4⟩, getLE e.1 16 8, tick, checks.getD e.2 []⟩)

/-- TWIN_FRAME_SEND (R55): the digests of the segments completed in one tick, the earliest whose digests have not been sent, or this tick
where none is left. -/
def twinFrameSend (s : State) : State :=
  let s := twinPair s
  if s.twin.st = 2 && twinUp s then
    let tick := (s.twin.unsent.map (·.tick)).foldl min (tickOf s)
    let ds := s.twin.unsent.filter (fun d => d.tick = tick)
    emit (modTwin s (fun t => { t with unsent := t.unsent.filter (fun d => d.tick != tick) }))
      (.twinFrame (twinFrame tick ds) (ds.map (·.chk)))
  else s

/-- TWIN (R55): a frame of the twin's digests has arrived. -/
def twin (frame : List Byte) (checks : List (List Nat)) (s : State) : State :=
  let s := twinPair s
  if s.twin.st = 2 && twinUp s then modTwin s (fun t => { t with peer := t.peer ++ frameDigests (tickOf s) frame checks }) else s

/-- The first word at which check bytes differ; 0x1FF where none does or they are no longer held (R56). -/
def firstDiff (s : State) (own peer : Digest) : Nat :=
  if tickOf s > own.tick + 8 then 0x1FF
  else match findIdx (fun (p : Nat × Nat) => p.1 != p.2) (own.chk.zip peer.chk) with
    | some i => i
    | none => 0x1FF

/-- The first divergence is recorded (R56, R57); later ones are only counted until DIVERGED is cleared. -/
def recordDiff (s : State) (d : Digest) (kind word : Nat) : State :=
  if flagF s Reg.tckTwinStatusDiverged then s
  else
    let s := setF (setF s Reg.tckTwinStatusDiverged 1) Reg.tckTwinTickTick d.tick
    let s := setF (setF (setF s Reg.tckTwinWhereKind kind) Reg.tckTwinWhereBlock d.id.block) Reg.tckTwinWhereQueue d.id.queue
    setF (setF (setF s Reg.tckTwinWhereSeg d.id.seg) Reg.tckTwinWhereWord word) Reg.tckTwinSeqSeq d.id.seq

/-- A held completion after a comparison: released once all its segments have matched, FENCED where one has diverged (R58). -/
def settleHeld (s : State) (matched bad : List SegId) : State :=
  let hs := s.twin.held.map (fun h => (h.1, h.2.1, h.2.2.filter (fun i => !(matched.contains i))))
  let keep := hs.filter (fun h => !h.2.2.isEmpty && !(h.2.2.any (bad.contains ·)))
  let out := hs.filter (fun h => h.2.2.isEmpty || h.2.2.any (bad.contains ·))
  let s := modTwin s (fun t => { t with held := keep })
  out.foldl (fun s h => pushComp s h.1 false
    (if h.2.2.isEmpty then h.2.1 else { h.2.1 with status := Status.fenced.code })) s

/-- What ACTION asks for after a divergence or a lost link (R57, R59): with ACTION 1 the running images halt and the compared tenant's
descriptors complete FENCED. -/
def twinAct (s : State) : State :=
  if !(flagF s Reg.tckTwinCtrlAction) then s
  else
    let held := s.twin.held
    let s := triggerCapture (modTwin s (fun t => { t with st := 3, held := [] })) 4
    let s := (s.felt.images.map (·.1)).foldl (fun s i =>
      if ((imageOf s i).bind (·.run)).any (·.launched) then endRun s i .fenced 0 else s) s
    let s := abortTenant s (getF s Reg.tckTwinCtrlTenant) .fenced
    held.foldl (fun s h => pushComp s h.1 false { h.2.1 with status := Status.fenced.code }) s

/-- A comparison point (R56–R58): every segment of which both digests are held is compared, in the order the node completed them; a
segment whose twin digest is more than LAG ticks behind is late. There is one in each tick (R41, R43). -/
def comparisonPoint (s : State) : State :=
  let s := modTwin (twinPair s) (fun t => { t with judged := tickOf s + 1 })
  if s.twin.st != 2 || !(twinUp s) then s
  else
    let find (d : Digest) : Option Digest := s.twin.peer.find? (fun p => p.id = d.id)
    let late (d : Digest) : Bool := match find d with
      | some p => decide (p.tick > d.tick + twinLag s)
      | none => decide (tickOf s > d.tick + twinLag s)
    let judged := s.twin.own.filter (fun d => (find d).isSome || late d)
    let same := judged.filter (fun d => !(late d) && (find d).map (·.crc) = some d.crc)
    let diff := judged.filter (fun d => late d || (find d).map (·.crc) != some d.crc)
    let ids := judged.map (·.id)
    let s := modTwin s (fun t => { t with own := t.own.filter (fun d => !(ids.contains d.id)), peer := t.peer.filter (fun d => !(ids.contains d.id)) })
    let s := diff.foldl (fun s d =>
      if late d then recordDiff s d 3 0x1FF
      else match find d with
        | some p => recordDiff (bump s Reg.tckTwinStatusMismatches) d d.id.kind (firstDiff s d p)
        | none => s) s
    let s := settleHeld s (same.map (·.id)) (diff.map (·.id))
    if diff.isEmpty then s else twinAct s

/-- The comparison of the segments held ends with a lost link (R59): no divergence is recorded for them, their completions that waited are
FENCED as for a divergence (R58), and STATE is PAIRING until the twin is back (R53; log entry 79). -/
def twinUnpair (s : State) : State :=
  let held := s.twin.held
  let s := modTwin s (fun t => { t with st := if t.st = 2 then 1 else t.st, own := [], peer := [], unsent := [], held := [] })
  held.foldl (fun s h => pushComp s h.1 false { h.2.1 with status := Status.fenced.code }) s

/-- TWIN_LINK_LOST (R59): port 15 has lost the twin. The event's code and severity are not in the table of R484 (log entry 6). -/
def twinLinkLost (s : State) : State :=
  if !(flagF s Reg.tckTwinCtrlEn) || s.twin.st = 0 || twinUp s || !s.twin.linked then s
  else
    let s := setF (modTwin s (fun t => { t with linked := false })) Reg.tckTwinStatusLinkLost 1
    let r := freeVal s
    twinUnpair (twinAct (crownEventOpen r.1 (r.2 % 2 ^ 16) (r.2 / 2 ^ 16 % 4)))

end Sys2Proof.Machine
end

