-- ==== Sys2Proof/Machine/Bow.lean ====
section
/-! DEFINITION. The Bow (R29–R45): TICK_SYNC frames, adoption, changes of state, crossing alignment, and the time gates of the brim
ports (R436), which its schedule table moves. -/
namespace Sys2Proof.Machine

/-! ### Gates (R436) -/

/-- The length of a gate list's cycle. -/
def gateCycle (l : List GateEnt) : Nat := sumNat (l.map (·.dur))

/-- The entry in force at an offset into the cycle. -/
def gateEntryAt : List GateEnt → Nat → Nat → Nat
  | [], _, i => i - 1
  | e :: es, off, i => if off < e.dur then i else gateEntryAt es (off - e.dur) (i + 1)

/-- TS_PGATEp shows an entry of a port's list; packets that wait and may now start do so. -/
def gateShow (s : State) (port : Nat) (g : GateList) : State :=
  let m := match g.ents[g.cur]? with | some e => e.mask ||| 0x80 | none => 0xFF
  let s := modHost s (fun h => { h with gates := mput h.gates port g })
  let s := setF (setF s (Reg.tsPgateMask.ix port) m) (Reg.tsPgateEntry.ix port) g.cur
  let s := setF (setF s (Reg.tsPgateList.ix port) (b2n (!g.ents.isEmpty))) (Reg.tsPgateCycle.ix port) (gateCycle g.ents)
  drainPort s port

/-- The entry of a list that took over at `tick`, at the current count. -/
def gateCur (s : State) (tick : Nat) (l : List GateEnt) : Nat :=
  if gateCycle l = 0 then 0 else gateEntryAt l ((tickOf s - tick) % gateCycle l) 0

/-- The port and list of a gate event. -/
def gateOf (e : SchedEvt) : Option (Nat × List GateEnt) :=
  match e.kind with
  | .gate p l => some (p, l)
  | _ => none

/-- Whether an event changes the gates of a port. -/
def isGateOf (port : Nat) (e : SchedEvt) : Bool := (gateOf e).map (·.1) = some port

/-- The gate lists of a port for a tick take over (R43, R436): the one submitted last stands, the others complete superseded. -/
def gateAt (s : State) (port tick : Nat) : State :=
  let mine := s.bow.sched.filter (fun e => isGateOf port e && e.tick = tick)
  let s := schedFree s (fun e => isGateOf port e && e.tick = tick)
  let s := match mine.getLast?.bind gateOf with
    | some (_, l) => gateShow s port ⟨tick, l, gateCur s tick l⟩
    | none => s
  ((List.range mine.length).zip mine).foldl (fun s x => completeId s x.2.work .ok 0 0 (decide (x.1 + 1 < mine.length))) s

/-- Entries of a GATE_LIST operand. -/
def gateEnts (bs : List Byte) (n : Nat) : List GateEnt := (chunksOf 8 n bs).map (fun e => ⟨getLE e 0 4, getLE e 4 1⟩)

/-- Whether the entries are in range. -/
def gateEntsOk (bs : List Byte) (n : Nat) : Bool :=
  (chunksOf 8 n bs).all (fun e => decide (1 ≤ getLE e 0 4) && decide (getLE e 0 4 ≤ 2 ^ 24) && zeroAt e 5 3)

/-- GATE_LIST (R436): an ADMIN command of tenant 0 that takes a schedule entry. -/
def gateList (work : Nat) (s : State) : State :=
  onAdmin s work 0x50 16 true (fun s w op =>
    let port := getLE op 0 1
    let n := getLE op 1 1
    let t := getLE op 8 8
    if port > 15 || n > 64 || !(zeroAt op 2 6) || w.opLen < 16 + 8 * n then complete s w .malformed
    else if !(inWindow s w.tenant w.opAddr (16 + 8 * n)) then complete s w .accessDenied
    else
      let r := rdW s (w.opAddr + 16) (8 * n)
      if r.2.timeout then complete r.1 w .timeout
      else if r.2.bad then complete (consumeNr r.1 (r.2.first (w.opAddr + 16))) w .poisoned
      else if !(gateEntsOk r.2.bytes n) || tickFar r.1 t then complete r.1 w .malformed
      else if tickNear r.1 t then complete r.1 w .timeout
      else if schedFull r.1 then schedRefuse r.1 w
      else schedAdd r.1 (.gate port (gateEnts r.2.bytes n)) t w)

/-- GATE_ENTRY_CHANGE (R436): the entry in force at the current count. -/
def gateEntryChange (port : Nat) (s : State) : State :=
  match mget s.host.gates port with
  | some g =>
    let c := gateCur s g.tick g.ents
    if tickOf s < g.tick || c = g.cur then s else gateShow s port { g with cur := c }
  | none => s

/-! ### Changes of state (R35) -/

/-- TCK_STATUS as it reads (R61). -/
def tckStatusWord (s : State) : Nat :=
  s.bow.st.code + s.bow.why.code * 2 ^ 4 + ux 16 s.bow.phase * 2 ^ 32
    + rawReg s [Reg.tckStatusStateChg, Reg.tckStatusJumped, Reg.tckStatusBadFrames, Reg.tckStatusMissedRun]

/-- The Bow takes a state: STATE_CHG and an event mark a change (R35, R484). LOST_WHY is set on the way to LOST and then stays (log entry
35). A lost reference also writes a CXL record (R412). -/
def bowTo (s : State) (st : BowSt) (why : LostWhy) : State :=
  if s.bow.st = st then s
  else
    let s := modBow s (fun b => { b with st := st, why := if st = .lost then why else b.why, missed := 0 })
    let s := setF s Reg.tckStatusStateChg 1
    let s := crownEvent s 0x0101 0 (tckStatusWord s)
    if st = .lost then cxlEvent s 0 false 0x0101 (tckStatusWord s) else s

/-- A frame that is discarded or ignored is counted (R31, R36). -/
def badFrame (s : State) : State := bump s Reg.tckStatusBadFrames

/-! ### Adoption (R37, R38) -/

/-- Scrub budgets are refilled (R318). -/
def scrubRefill (s : State) : State :=
  { s with integ := { s.integ with budget := (List.range 4).map (fun n => (n, atLeast1 s (Reg.intScrubRate.ix n))) } }

/-! ### The classes of a tick edge (R43)

Commands bring the events of an edge in any order, and may leave some out: an event of a class first does what is due of the classes and
places before it. -/

/-- The boundaries of an image's run that its count has reached and that are not dealt with. -/
def dueBounds (s : State) (img : Nat) : Nat :=
  match (imageOf s img).bind (·.run) with
  | some r => if r.launched && decide (r.period > 0) then (tickOf s - r.bound) / r.period else 0
  | none => 0

/-- Whether the Bow applies no scheduled event: a warm reset is being prepared (R466), or the node flushes or is halted (R374). -/
def bowRests (s : State) : Bool := s.power.warmPend || s.power.flushing || s.power.halted

/-- The ticks at which a shard's commits, or a port's lists, are due, in order. -/
def dueTicks (s : State) (p : SchedEvt → Bool) : List Nat :=
  if bowRests s then [] else
  ((s.bow.sched.filter (fun e => p e && decide (e.tick ≤ tickOf s))).map (·.tick)).foldl sinsert []

/-- Class 1: the comparison point of the tick, where it is still to come. -/
def edgeComparison (s : State) : State := if s.twin.judged ≤ tickOf s then comparisonPoint s else s

/-- Class 2 for the image slots that a test names, in ascending order: their boundaries. -/
def edgeSteps (s : State) (p : Nat → Bool) : State :=
  ((s.felt.images.map (·.1)).filter p).foldl (fun s i => (List.range (dueBounds s i)).foldl (fun s _ => oneBoundary i s) s) s

/-- Class 3 for the shards that a test names, in ascending order: their commits. -/
def edgeCommits (s : State) (p : Nat → Bool) : State :=
  ((s.srch.shards.map (·.1)).filter p).foldl (fun s sk => (dueTicks s (isCommitOf sk)).foldl (fun s t => commitAt s sk t) s) s

/-- Class 4 for the ports that a test names, in ascending order: their gate lists. -/
def edgeGates (s : State) (p : Nat → Bool) : State :=
  ((List.range 16).filter p).foldl (fun s p => (dueTicks s (isGateOf p)).foldl (fun s t => gateAt s p t) s) s

/-- The place of a launch among those due: after every one of an earlier tick, a lower queue, or the same and submitted before. -/
def insertLaunch (e : SchedEvt) : List SchedEvt → List SchedEvt
  | [] => [e]
  | x :: xs => if e.tick < x.tick || (e.tick = x.tick && decide (e.queue < x.queue)) then e :: x :: xs else x :: insertLaunch e xs

/-- Whether an event is a launch. -/
def isLaunch (e : SchedEvt) : Bool := match e.kind with | .launch _ => true | _ => false

/-- Class 5: the launches due, in the order of R43. -/
def dueLaunches (s : State) : List SchedEvt :=
  if bowRests s then [] else
  (s.bow.sched.filter (fun e => isLaunch e && decide (e.tick ≤ tickOf s))).foldl (fun l e => insertLaunch e l) []

/-- What is due of the classes 1 to `k`, `k` at most 4. -/
def edgeUpTo (s : State) (k : Nat) : State :=
  let s := edgeComparison s
  let s := if 2 ≤ k then edgeSteps s (fun _ => true) else s
  let s := if 3 ≤ k then edgeCommits s (fun _ => true) else s
  if 4 ≤ k then edgeGates s (fun _ => true) else s

/-- STEP_BOUNDARY (R43, R263): the next boundary of an image, after those of lower slots. -/
def stepBoundary (img : Nat) (s : State) : State := oneBoundary img (edgeSteps (edgeUpTo s 1) (fun i => decide (i < img)))

/-- EPOCH_COMMIT (R43, R142): the first tick of a shard's commits that is due, after those of the shards before it. -/
def epochCommit (index shard : Nat) (s : State) : State :=
  let sk := shardKey index shard
  let s := edgeCommits (edgeUpTo s 2) (fun k => decide (k < sk))
  match schedFirst s (isCommitOf sk) with
  | some t => if decide (t ≤ tickOf s) && !(bowRests s) then commitAt s sk t else s
  | none => s

/-- GATE_LIST_TAKEOVER (R43, R436): the first tick of a port's lists that is due, after those of the ports before it. -/
def gateListTakeover (port : Nat) (s : State) : State :=
  let s := edgeGates (edgeUpTo s 3) (fun p => decide (p < port))
  match schedFirst s (isGateOf port) with
  | some t => if decide (t ≤ tickOf s) && !(bowRests s) then gateAt s port t else s
  | none => s

/-- IMAGE_LAUNCH (R39, R43): the launch of an image that is due, after the launches before it. -/
def imageLaunch (slot : Nat) (s : State) : State :=
  match s.bow.sched.find? (isLaunchOf slot) with
  | none => s
  | some e =>
    if decide (tickOf s < e.tick) || bowRests s then s
    else
      let s := edgeUpTo s 4
      ((dueLaunches s).takeWhile (fun f => !(isLaunchOf slot f)) ++ [e]).foldl launchEvent s

/-- The firmware work of the step boundaries of a tick, after its class 6 (R43): skew migration (R194). -/
def boundaryWork (s : State) : State :=
  if s.bow.edgeWork then skewMigrate (modBow s (fun b => { b with edgeWork := false })) else s

/-- SCRUB_PACING (R43, R318): class 6, the last of its tick. -/
def scrubPacing (s : State) : State :=
  let s := edgeUpTo s 4
  boundaryWork (scrubRefill ((dueLaunches s).foldl launchEvent s))

/-- Every scheduled event whose tick a forward adoption skipped is applied at its edge, in the class order of R43; launches complete
NOT_SYNCHRONISED (R38). -/
def applySkipped (s : State) : State :=
  let s := edgeUpTo s 4
  boundaryWork (scrubRefill ((dueLaunches s).foldl (fun s e => match e.kind with
    | .launch slot => missLaunch s slot e
    | _ => s) s))

/-- Adoption (R37): the frame's edge, `ago` ticks back, carries `count`; the rest of the offset, in units of 1/16 ns, is slewed. -/
def adopt (s : State) (count ago : Nat) (offset : Int) : State :=
  let now : Nat := (count + ago) % 2 ^ 64
  let diff : Int := (now : Int) - (s.bow.count : Int)
  let s := modBow s (fun b => { b with count := now, phase := offset })
  let s := setF s Reg.tckJumpDiff (ux 64 diff)
  let s := if diff = 0 then s else setF s Reg.tckStatusJumped 1
  if diff > 0 then applySkipped s else s

/-! ### Frames (R30–R36) -/

/-- CRC-16 of ITU-T V.41 over bytes, each most significant bit first (log entry 8). -/
def crc16 (bs : List Byte) : Nat :=
  bs.foldl (fun c b => (List.range 8).foldl (fun c i =>
    let d := (2 * c) % 65536
    if (c.testBit 15) != (b.toNat.testBit (7 - i)) then d ^^^ 0x1021 else d) c) 0xFFFF

/-- TYPE of a frame (R30). -/
def frType (f : Nat) : Nat := bits f 8 8
/-- COUNT of a frame. -/
def frCount (f : Nat) : Nat := bits f 16 64
/-- Whether a frame's CRC and TYPE are right (R31). -/
def frOk (f : Nat) : Bool := bits f 80 16 = crc16 (toBytes 9 (bits f 8 72)) && (frType f = 1 || frType f = 2)

/-- A CHECK frame is missing (R31, R35). -/
def checkMissed (s : State) : State :=
  if s.bow.st != .synced then s
  else
    let s := modBow s (fun b => { b with missed := b.missed + 1 })
    if s.bow.missed ≥ atLeast1 s Reg.tckCtrlCheckMiss then bowTo s .lost .checkMissing else s

/-- A valid frame (R35, R36): adoption from FREE and LOST, again from ADOPTED where it differs, confirmation, contradiction. A CHECK frame
that agrees while SYNCED shows the phase error of its edge, which the trim then removes (R32; log entry 80). -/
def validFrame (s : State) (check : Bool) (count ago : Nat) (offset : Int) : State :=
  let same : Bool := (count + ago) % 2 ^ 64 = s.bow.count
  match s.bow.st with
  | .free => if flagF s Reg.tckCtrlSyncEn then bowTo (adopt s count ago offset) .adopted .none else s
  | .lost => if flagF s Reg.tckCtrlSyncEn then bowTo (adopt s count ago offset) .adopted .none else s
  | .adopted =>
    if !same then adopt s count ago offset
    else if check && decide (s.bow.phase.natAbs ≤ 16) then bowTo s .synced .none
    else s
  | .synced =>
    if check then (if same then modBow s (fun b => { b with missed := 0, phase := offset }) else bowTo s .lost .mismatch)
    else if same then s else badFrame s

/-- A TICK_SYNC frame has been sampled (R29–R31). `frame` is its 96 bits, `ago` the ticks since the edge of its bit 0, `offset` the
phase between that edge and the nearest local one in 1/16 ns. TICK_REF is present, or no frame is sampled. -/
def takeFrame (s : State) (sentCheck : Bool) (frame ago : Nat) (offset : Int) : State :=
  if !(clocksRun s) || bits frame 0 8 != 0xD5 then s
  else
    let s := modBow s (fun b => { b with refPresent := true })
    if !(frOk frame) then (if sentCheck then checkMissed (badFrame s) else badFrame s)
    else validFrame s (frType frame = 2) (frCount frame) ago offset

/-- LOAD_FRAME (R36): a frame that the distributor sent as LOAD. -/
def loadFrame (frame ago : Nat) (offset : Int) (s : State) : State := takeFrame s false frame ago offset

/-- CHECK_FRAME (R35): a frame that the distributor sent as CHECK. -/
def checkFrame (frame ago : Nat) (offset : Int) (s : State) : State := takeFrame s true frame ago offset

/-- SYNC_EN_WRITE (R35, R61): an RWL field; a write of 0 takes the Bow to FREE. -/
def syncEnSet (s : State) (v : Nat) : State :=
  let s := setF s Reg.tckCtrlSyncEn v
  if v = 0 then bowTo s .free .none else s

/-- TICK_REF_LOST (R35): no rising edge within 300 ns. -/
def tickRefLost (s : State) : State :=
  let s := modBow s (fun b => { b with refPresent := false })
  if s.bow.st = .adopted || s.bow.st = .synced then bowTo s .lost .refMissing else s

/-- PHASE_LOST (R32, R35): the phase error, `phase` in 1/16 ns, has been beyond 1.0 ns on 16 consecutive ticks. -/
def phaseLost (phase : Int) (s : State) : State :=
  if s.bow.st = .synced && decide (phase.natAbs > 16) then bowTo (modBow s (fun b => { b with phase := phase })) .lost .phase else s

/-- CHECK_MISSING (R31, R35): a CHECK frame that was due has not come. -/
def checkMissing (s : State) : State := checkMissed s

/-! ### Crossing alignment (R45) -/

/-- A crossing alignment is asked for: at the first tick edge whose count is a multiple of 16 and at least 16 ticks on. -/
def alignAsk (s : State) (felt : Bool) : State :=
  modBow s (fun b => { b with align := some (roundUp (b.count + 16) 16), alignFelt := felt })

/-- CROSSING_ALIGNMENT (R45): it has taken place at the edge chosen, whose count TCK_XALIGN records. -/
def crossingAlignment (s : State) : State :=
  match s.bow.align with
  | some t =>
    if tickOf s ≥ t then
      setF (modBow s (fun b => { b with align := none, alignFelt := false })) Reg.tckXalignCount t
    else s
  | none => s

/-! ### Meters (R433) -/

/-- METER_REFILL (R433): every meter that is on. -/
def meterRefill (s : State) : State :=
  modHost s (fun h => { h with meters := h.meters.map (fun m =>
    let fabric : Bool := decide (m.1 ≥ 512)
    (m.1, meterFill s fabric (m.1 % 512) m.2)) })

/-- A meter is written (R433): both buckets are filled to capacity. -/
def meterSet (s : State) (fabric : Bool) (t v : Nat) : State :=
  let put (a b c d : Fld) : State :=
    setF (setF (setF (setF s (a.ix t) v) (b.ix t) (v / 2 ^ 16)) (c.ix t) (v / 2 ^ 32)) (d.ix t) (v / 2 ^ 48)
  let s := if fabric then put Reg.tsFpolCir Reg.tsFpolCbs Reg.tsFpolPir Reg.tsFpolPbs
    else put Reg.tsHpolCir Reg.tsHpolCbs Reg.tsHpolPir Reg.tsHpolPbs
  modHost s (fun h => { h with meters := mdel h.meters (meterKey fabric t) })

end Sys2Proof.Machine
end

