-- ==== Sys2Proof/Machine/CellCmds.lean ====
section
/-! DEFINITION. The cell instructions as commands (R222–R253): image, cell, what the read of the bundle meets in the instruction store (0 clean,
1 corrected, 2 uncorrectable), and for a load the upsets its SRAM words meet (word from the first, class). Each is its slot's operation
of `actC`, `actM`, `actV` or `actX`, run by `cellOp`. -/
namespace Sys2Proof.Machine

/-- CNOP (R232): C slot, operation 0x00. -/
def cellCnop (img cell ecc : Nat) (s : State) : State := cellOp img cell ecc [] 0 0x00 s
/-- ADD (R232): C slot, operation 0x01. -/
def cellAdd (img cell ecc : Nat) (s : State) : State := cellOp img cell ecc [] 0 0x01 s
/-- SUB (R232): C slot, operation 0x02. -/
def cellSub (img cell ecc : Nat) (s : State) : State := cellOp img cell ecc [] 0 0x02 s
/-- AND (R232): C slot, operation 0x03. -/
def cellAnd (img cell ecc : Nat) (s : State) : State := cellOp img cell ecc [] 0 0x03 s
/-- OR (R232): C slot, operation 0x04. -/
def cellOr (img cell ecc : Nat) (s : State) : State := cellOp img cell ecc [] 0 0x04 s
/-- XOR (R232): C slot, operation 0x05. -/
def cellXor (img cell ecc : Nat) (s : State) : State := cellOp img cell ecc [] 0 0x05 s
/-- SHL (R232): C slot, operation 0x06. -/
def cellShl (img cell ecc : Nat) (s : State) : State := cellOp img cell ecc [] 0 0x06 s
/-- SHR (R232): C slot, operation 0x07. -/
def cellShr (img cell ecc : Nat) (s : State) : State := cellOp img cell ecc [] 0 0x07 s
/-- SAR (R232): C slot, operation 0x08. -/
def cellSar (img cell ecc : Nat) (s : State) : State := cellOp img cell ecc [] 0 0x08 s
/-- MUL (R232): C slot, operation 0x09. -/
def cellMul (img cell ecc : Nat) (s : State) : State := cellOp img cell ecc [] 0 0x09 s
/-- MINS (R232): C slot, operation 0x0A. -/
def cellMins (img cell ecc : Nat) (s : State) : State := cellOp img cell ecc [] 0 0x0A s
/-- MAXS (R232): C slot, operation 0x0B. -/
def cellMaxs (img cell ecc : Nat) (s : State) : State := cellOp img cell ecc [] 0 0x0B s
/-- ADDI (R232): C slot, operation 0x10. -/
def cellAddi (img cell ecc : Nat) (s : State) : State := cellOp img cell ecc [] 0 0x10 s
/-- ANDI (R232): C slot, operation 0x11. -/
def cellAndi (img cell ecc : Nat) (s : State) : State := cellOp img cell ecc [] 0 0x11 s
/-- ORI (R232): C slot, operation 0x12. -/
def cellOri (img cell ecc : Nat) (s : State) : State := cellOp img cell ecc [] 0 0x12 s
/-- LDI0 (R232): C slot, operation 0x13. -/
def cellLdi0 (img cell ecc : Nat) (s : State) : State := cellOp img cell ecc [] 0 0x13 s
/-- LDI1 (R232): C slot, operation 0x14. -/
def cellLdi1 (img cell ecc : Nat) (s : State) : State := cellOp img cell ecc [] 0 0x14 s
/-- LDI2 (R232): C slot, operation 0x15. -/
def cellLdi2 (img cell ecc : Nat) (s : State) : State := cellOp img cell ecc [] 0 0x15 s
/-- LDI3 (R232): C slot, operation 0x16. -/
def cellLdi3 (img cell ecc : Nat) (s : State) : State := cellOp img cell ecc [] 0 0x16 s
/-- LOOP (R232): C slot, operation 0x20. -/
def cellLoop (img cell ecc : Nat) (s : State) : State := cellOp img cell ecc [] 0 0x20 s
/-- JUMP (R232): C slot, operation 0x21. -/
def cellJump (img cell ecc : Nat) (s : State) : State := cellOp img cell ecc [] 0 0x21 s
/-- STSEL (R232): C slot, operation 0x22. -/
def cellStsel (img cell ecc : Nat) (s : State) : State := cellOp img cell ecc [] 0 0x22 s
/-- MNOP (R236): M slot, operation 0x00. -/
def cellMnop (img cell ecc : Nat) (s : State) : State := cellOp img cell ecc [] 3 0x00 s
/-- MMA (R236): M slot, operation 0x01. -/
def cellMma (img cell ecc : Nat) (s : State) : State := cellOp img cell ecc [] 3 0x01 s
/-- MCLR (R236): M slot, operation 0x02. -/
def cellMclr (img cell ecc : Nat) (s : State) : State := cellOp img cell ecc [] 3 0x02 s
/-- MRD (R236): M slot, operation 0x03. -/
def cellMrd (img cell ecc : Nat) (s : State) : State := cellOp img cell ecc [] 3 0x03 s
/-- MWR (R236): M slot, operation 0x04. -/
def cellMwr (img cell ecc : Nat) (s : State) : State := cellOp img cell ecc [] 3 0x04 s
/-- VNOP (R238): V slot, operation 0x00. -/
def cellVnop (img cell ecc : Nat) (s : State) : State := cellOp img cell ecc [] 2 0x00 s
/-- VADD (R238): V slot, operation 0x01. -/
def cellVadd (img cell ecc : Nat) (s : State) : State := cellOp img cell ecc [] 2 0x01 s
/-- VSUB (R238): V slot, operation 0x02. -/
def cellVsub (img cell ecc : Nat) (s : State) : State := cellOp img cell ecc [] 2 0x02 s
/-- VMUL (R238): V slot, operation 0x03. -/
def cellVmul (img cell ecc : Nat) (s : State) : State := cellOp img cell ecc [] 2 0x03 s
/-- VFMA (R238): V slot, operation 0x04. -/
def cellVfma (img cell ecc : Nat) (s : State) : State := cellOp img cell ecc [] 2 0x04 s
/-- VFNMA (R238): V slot, operation 0x05. -/
def cellVfnma (img cell ecc : Nat) (s : State) : State := cellOp img cell ecc [] 2 0x05 s
/-- VMIN (R238): V slot, operation 0x06. -/
def cellVmin (img cell ecc : Nat) (s : State) : State := cellOp img cell ecc [] 2 0x06 s
/-- VMAX (R238): V slot, operation 0x07. -/
def cellVmax (img cell ecc : Nat) (s : State) : State := cellOp img cell ecc [] 2 0x07 s
/-- VCMP (R238): V slot, operation 0x08. -/
def cellVcmp (img cell ecc : Nat) (s : State) : State := cellOp img cell ecc [] 2 0x08 s
/-- VIADD (R238): V slot, operation 0x10. -/
def cellViadd (img cell ecc : Nat) (s : State) : State := cellOp img cell ecc [] 2 0x10 s
/-- VISUB (R238): V slot, operation 0x11. -/
def cellVisub (img cell ecc : Nat) (s : State) : State := cellOp img cell ecc [] 2 0x11 s
/-- VIMUL (R238): V slot, operation 0x12. -/
def cellVimul (img cell ecc : Nat) (s : State) : State := cellOp img cell ecc [] 2 0x12 s
/-- VAND (R238): V slot, operation 0x13. -/
def cellVand (img cell ecc : Nat) (s : State) : State := cellOp img cell ecc [] 2 0x13 s
/-- VOR (R238): V slot, operation 0x14. -/
def cellVor (img cell ecc : Nat) (s : State) : State := cellOp img cell ecc [] 2 0x14 s
/-- VXOR (R238): V slot, operation 0x15. -/
def cellVxor (img cell ecc : Nat) (s : State) : State := cellOp img cell ecc [] 2 0x15 s
/-- VSHL (R238): V slot, operation 0x16. -/
def cellVshl (img cell ecc : Nat) (s : State) : State := cellOp img cell ecc [] 2 0x16 s
/-- VSHR (R238): V slot, operation 0x17. -/
def cellVshr (img cell ecc : Nat) (s : State) : State := cellOp img cell ecc [] 2 0x17 s
/-- VSEL (R238): V slot, operation 0x18. -/
def cellVsel (img cell ecc : Nat) (s : State) : State := cellOp img cell ecc [] 2 0x18 s
/-- VBC (R238): V slot, operation 0x19. -/
def cellVbc (img cell ecc : Nat) (s : State) : State := cellOp img cell ecc [] 2 0x19 s
/-- VGET (R238): V slot, operation 0x1A. -/
def cellVget (img cell ecc : Nat) (s : State) : State := cellOp img cell ecc [] 2 0x1A s
/-- VPUT (R238): V slot, operation 0x1B. -/
def cellVput (img cell ecc : Nat) (s : State) : State := cellOp img cell ecc [] 2 0x1B s
/-- VROT (R238): V slot, operation 0x1C. -/
def cellVrot (img cell ecc : Nat) (s : State) : State := cellOp img cell ecc [] 2 0x1C s
/-- PSET (R238): V slot, operation 0x1D. -/
def cellPset (img cell ecc : Nat) (s : State) : State := cellOp img cell ecc [] 2 0x1D s
/-- PGET (R238): V slot, operation 0x1E. -/
def cellPget (img cell ecc : Nat) (s : State) : State := cellOp img cell ecc [] 2 0x1E s
/-- VCVT (R238): V slot, operation 0x20. -/
def cellVcvt (img cell ecc : Nat) (s : State) : State := cellOp img cell ecc [] 2 0x20 s
/-- VRSC (R238): V slot, operation 0x22. -/
def cellVrsc (img cell ecc : Nat) (s : State) : State := cellOp img cell ecc [] 2 0x22 s
/-- VAMAX (R238): V slot, operation 0x25. -/
def cellVamax (img cell ecc : Nat) (s : State) : State := cellOp img cell ecc [] 2 0x25 s
/-- VQENC (R238): V slot, operation 0x26. -/
def cellVqenc (img cell ecc : Nat) (s : State) : State := cellOp img cell ecc [] 2 0x26 s
/-- VQDEC (R238): V slot, operation 0x27. -/
def cellVqdec (img cell ecc : Nat) (s : State) : State := cellOp img cell ecc [] 2 0x27 s
/-- XCLR (R238): V slot, operation 0x30. -/
def cellXclr (img cell ecc : Nat) (s : State) : State := cellOp img cell ecc [] 2 0x30 s
/-- XDOT (R238): V slot, operation 0x31. -/
def cellXdot (img cell ecc : Nat) (s : State) : State := cellOp img cell ecc [] 2 0x31 s
/-- XSUM (R238): V slot, operation 0x32. -/
def cellXsum (img cell ecc : Nat) (s : State) : State := cellOp img cell ecc [] 2 0x32 s
/-- XSQD (R238): V slot, operation 0x33. -/
def cellXsqd (img cell ecc : Nat) (s : State) : State := cellOp img cell ecc [] 2 0x33 s
/-- XDOTQ_QI8 (R238): V slot, operation 0x34. -/
def cellXdotqQi8 (img cell ecc : Nat) (s : State) : State := cellOp img cell ecc [] 2 0x34 s
/-- XDOTQ_QI4 (R238): V slot, operation 0x35. -/
def cellXdotqQi4 (img cell ecc : Nat) (s : State) : State := cellOp img cell ecc [] 2 0x35 s
/-- XRND (R238): V slot, operation 0x38. -/
def cellXrnd (img cell ecc : Nat) (s : State) : State := cellOp img cell ecc [] 2 0x38 s
/-- XGET (R238): V slot, operation 0x39. -/
def cellXget (img cell ecc : Nat) (s : State) : State := cellOp img cell ecc [] 2 0x39 s
/-- XADD (R238): V slot, operation 0x3A. -/
def cellXadd (img cell ecc : Nat) (s : State) : State := cellOp img cell ecc [] 2 0x3A s
/-- XNOP (R250): X slot, operation 0x00 of the X slot in the order of `slotOp`. -/
def cellXnop (img cell ecc : Nat) (s : State) : State := cellOp img cell ecc [] 1 0x00 s
/-- WREL (R250): X slot, operation 0x01 of the X slot in the order of `slotOp`. -/
def cellWrel (img cell ecc : Nat) (s : State) : State := cellOp img cell ecc [] 1 0x01 s
/-- WGIVE (R250): X slot, operation 0x02 of the X slot in the order of `slotOp`. -/
def cellWgive (img cell ecc : Nat) (s : State) : State := cellOp img cell ecc [] 1 0x02 s
/-- VLDA (R250): X slot, operation 0x03 of the X slot in the order of `slotOp`. -/
def cellVlda (img cell ecc : Nat) (ups : List (Nat × Nat)) (s : State) : State := cellOp img cell ecc ups 1 0x03 s
/-- VSTA (R250): X slot, operation 0x04 of the X slot in the order of `slotOp`. -/
def cellVsta (img cell ecc : Nat) (s : State) : State := cellOp img cell ecc [] 1 0x04 s
/-- VLD (R250): X slot, operation 0x05 of the X slot in the order of `slotOp`. -/
def cellVld (img cell ecc : Nat) (ups : List (Nat × Nat)) (s : State) : State := cellOp img cell ecc ups 1 0x05 s
/-- VST (R250): X slot, operation 0x06 of the X slot in the order of `slotOp`. -/
def cellVst (img cell ecc : Nat) (s : State) : State := cellOp img cell ecc [] 1 0x06 s
/-- SLD (R250): X slot, operation 0x07 of the X slot in the order of `slotOp`. -/
def cellSld (img cell ecc : Nat) (ups : List (Nat × Nat)) (s : State) : State := cellOp img cell ecc ups 1 0x07 s
/-- SST (R250): X slot, operation 0x08 of the X slot in the order of `slotOp`. -/
def cellSst (img cell ecc : Nat) (s : State) : State := cellOp img cell ecc [] 1 0x08 s
/-- SEND (R250): X slot, operation 0x09 of the X slot in the order of `slotOp`. -/
def cellSend (img cell ecc : Nat) (s : State) : State := cellOp img cell ecc [] 1 0x09 s
/-- RECV (R250): X slot, operation 0x0A of the X slot in the order of `slotOp`. -/
def cellRecv (img cell ecc : Nat) (s : State) : State := cellOp img cell ecc [] 1 0x0A s
/-- STOP (R225): the cell stops after this bundle. -/
def cellStop (img cell ecc : Nat) (s : State) : State := cellOp img cell ecc [] 4 0x00 s

end Sys2Proof.Machine
end

