-- ==== Sys2Proof/Machine/DramCmds.lean ====
section
/-! DEFINITION. Commands of the DRAM controllers and of the Fuller (R278–R281, R310–R323, R526): reads and writes with the upsets that
strike, refresh, scrub visits, the integrity log's POP. -/
namespace Sys2Proof.Machine

/-- Update the integrity part of the state. -/
def modInteg (s : State) (f : Integrity → Integrity) : State := { s with integ := f s.integ }

/-- Whether a site is trained and in service (R457, R469). -/
def siteUp (s : State) (site : Nat) : Bool := ringUp s && decide (site < 8) && !(siteFenced s site)

/-- Bytes of a site's frames (R275). -/
def siteBytes (s : State) (site : Nat) : Nat := siteFrames s.part site * 65536

/-- Upsets strike stored codewords: word, position, the bits that flip. A line never written has nothing stored (R311). -/
def strike (s : State) (site : Nat) (ups : List (Nat × Nat × Nat)) : State :=
  ups.foldl (fun s u =>
    if isWritten s site (u.1 / 16) && decide (u.2.1 < 18) then
      putRaw s site u.1 (modAt (rawWord s site u.1) u.2.1 (fun b => b ^^^ (u.2.2 % 256)))
    else s) s

/-- A map word is found with an error (R310, R314), none where it is lost already. Its word address is not one of the frames', so it is open
(log entry 6). -/
def mapHit (s : State) (site line err : Nat) : State :=
  if err = 0 || mapBad s site line then s
  else
    let r := freeVal s
    if err < beyond then logCorrected (bump r.1 Reg.intDramCorrected) 0 (err - 1) site r.2
    else
      let s := { r.1 with dram := { r.1.dram with badMap := sinsert r.1.dram.badMap (mapKey site line) } }
      intLog (bump s Reg.intMapMapFail) 5 0 0x1F site r.2

/-- The map words of the lines from `line` to `last` are read for an access (R310, R311): `errs` are those that read with an error, counted
from the first; none is read where its frame's summary bit is clear. -/
def readMap (s : State) (site line last : Nat) (errs : List (Nat × Nat)) : State :=
  errs.foldl (fun s e =>
    let l := (line / 128 + e.1) * 128
    if l ≤ last && frameWritten s site (l / 256) then mapHit s site l e.2 else s) s

/-- A request finds `waiting` outstanding requests at its controller (R278, R300): at 1,024 it waits a cycle, counted. -/
def arriveAt (s : State) (site waiting : Nat) : State :=
  let s := { s with dram := { s.dram with queued := mput s.dram.queued site (min 1024 waiting) } }
  if waiting ≥ 1024 then bump s (Reg.mcRmwWaits.ix site) else s

/-- DRAM_READ (R279): requester `req` reads `len` bytes at byte `addr` of a site's frames. A fenced site answers FENCED (R20). -/
def dramReadCmd (req site addr len : Nat) (ups : List (Nat × Nat × Nat)) (mapErr : List (Nat × Nat)) (waiting : Nat) (s : State) : State :=
  if !(siteUp s site) then emit s (.failed req addr Status.fenced.code)
  else
    let n := wordSpan addr len
    let s := readMap (strike (arriveAt s site waiting) site ups) site (addr / 256) ((addr + len - 1) / 256) mapErr
    let r := dramRead s site (addr / 16) n
    emit r.1 (.dramData req site addr (((r.2.flatMap (·.data)).drop (addr % 16)).take len)
      ((List.range n).filter (fun i => (r.2.getD i ⟨[], false⟩).pois)))

/-- The node-range address of a byte of a site, where a page is homed there. -/
def nodeAddr (s : State) (site addr : Nat) : Option Nat :=
  (s.tiers.home.find? (fun e => match e.2.home with | .t2 i f => i = site && f = addr / 65536 | _ => false)).map
    (fun e => e.1 * 65536 + addr % 65536)

/-- DRAM_WRITE (R279, R312, R315): `pois` are the poisoned words, numbered from the first touched. A write that touches a watch word
wakes its queue (R419). -/
def dramWriteCmd (req site addr : Nat) (bytes : List Byte) (pois : List Nat) (ups : List (Nat × Nat × Nat)) (mapErr : List (Nat × Nat))
    (waiting : Nat) (s : State) : State :=
  if !(siteUp s site) then emit s (.failed req addr Status.fenced.code)
  else
    let s := readMap (strike (arriveAt s site waiting) site ups) site (addr / 256) ((addr + bytes.length - 1) / 256) mapErr
    let s := dramWrite s site addr bytes pois
    let s := match nodeAddr s site addr with
      | some a => wakeScan s a bytes.length
      | none => s
    emit s (.dramPlaced req site addr)

/-- Whether a site is at or above HOT_C (R280, R480). -/
def siteHot (s : State) (site : Nat) : Bool :=
  decide (s.crown.temps.getD (64 + site) 0 ≥ (16 * getF s (Reg.mcCtrlHotC.ix site) : Nat))

/-- REFRESH (R280, R281): controllers refresh trained stacks, through a warm reset as well. -/
def refresh (site pc : Nat) (s : State) : State :=
  if decide (site < 8) && decide (pc < 32) && !(siteFenced s site) && s.power.vddMgmt && !s.power.tripped
      && (decide (getF s Reg.rstStatusStep ≥ 5) || decide (s.power.fromStep = 2)) then
    emit s (.refresh site pc (siteHot s site))
  else s

/-- LOG_POP (R323): the oldest entry of the integrity log is removed. -/
def logPop (s : State) : State := modInteg s (fun i => { i with log := i.log.drop 1 })

/-! ### The Fuller (R317–R320) -/

/-- The lines of a site that a scrubber walks: frames, then map rows of one bit per line. -/
def scrubLines (s : State) (site : Nat) : Nat := siteFrames s.part site * 256 + siteFrames s.part site * 256 / 2048

/-- A scrubber's position by key: 0–3 lines visited in the pass, 16 + site the next line of a site, 32 + n where scrubber n goes on. -/
def scrubAt (s : State) (k : Nat) : Nat := (mget s.integ.pos k).getD 0

/-- Set a scrubber's position. -/
def scrubSet (s : State) (k v : Nat) : State := modInteg s (fun i => { i with pos := mput i.pos k v })

/-- A scrubber visits one word of a DRAM line (R319). -/
def scrubWord (s : State) (site word : Nat) : State :=
  match classify (seenWord s site word) with
  | .corrected _ =>
    let w := correctWord (seenWord s site word)
    let s := putRaw (readWord s site word).1 site word w
    modInteg s (fun i => { i with passCorr := mput i.passCorr site ((mget i.passCorr site).getD 0 + 1) })
  | _ => (readWord s site word).1

/-- A scrubber visits a line of a site: a frame's line, or a map row whose 16 words cover 2,048 lines each. `ups` strike the line first
(word, position, bits); on a map row an entry's bits are 1 for an error at its position, else UNCORRECTABLE. -/
def scrubDram (s : State) (site line : Nat) (ups : List (Nat × Nat × Nat)) : State :=
  let frames := siteFrames s.part site * 256
  if line < frames then
    let s := countLineRead (strike s site (ups.map (fun u => (line * 16 + u.1 % 16, u.2.1, u.2.2)))) site line
    (List.range 16).foldl (fun s i => scrubWord s site (line * 16 + i)) s
  else ups.foldl (fun s u =>
    let l := ((line - frames) * 16 + u.1 % 16) * 128
    let fixes : Bool := u.2.2 = 1 && decide (u.2.1 < 18) && !(mapBad s site l)
    let s := mapHit s site l (if u.2.2 = 1 then u.2.1 + 1 else beyond)
    if fixes then modInteg s (fun i => { i with passCorr := mput i.passCorr site ((mget i.passCorr site).getD 0 + 1) }) else s)
    (bump s (Reg.mcReadsLines.ix site))

/-- The sites of a DRAM scrubber that still have lines to visit, in rotation. -/
def scrubSites (s : State) (n : Nat) : List Nat :=
  let r := scrubAt s (32 + n)
  ((List.range 4).map (fun i => 4 * n + (r + i) % 4)).filter (fun i => !(siteFenced s i) && decide (scrubAt s (16 + i) < scrubLines s i))

/-- A pass ends (R320): counted; a site over CE_THRESH is logged. -/
def scrubPass (s : State) (n : Nat) (sites : List Nat) : State :=
  let s := bump s (Reg.intScrubPasses.ix n)
  let t := getF s Reg.intCtrlCeThresh
  let s := sites.foldl (fun s i =>
    let s := if t != 0 && decide ((mget s.integ.passCorr i).getD 0 > t) then
        let r := freeVal s
        crownEventOpen (intLog r.1 6 0 0x1F i r.2) 0x0402 1
      else s
    scrubSet (modInteg s (fun x => { x with passCorr := mdel x.passCorr i })) (16 + i) 0) s
  scrubSet (scrubSet s n 0) (32 + n) 0

/-- One visit of a DRAM scrubber (R317): a frame with nothing written is passed over whole. -/
def scrubSite (s : State) (n : Nat) (ups : List (Nat × Nat × Nat)) : State :=
  let all := (List.range 4).map (fun i => 4 * n + i)
  match scrubSites s n with
  | [] => scrubPass s n all
  | i :: _ =>
    let line := scrubAt s (16 + i)
    let clear : Bool := decide (line < siteFrames s.part i * 256) && !(frameWritten s i (line / 256))
    let s := if clear then s else scrubDram s i line ups
    let s := scrubSet (scrubSet s (16 + i) (if clear then (line / 256 + 1) * 256 else line + 1)) (32 + n) ((i + 1) % 4)
    let s := scrubSet s n (scrubAt s n + 1)
    if (scrubSites s n).isEmpty then scrubPass s n all else s

/-- A word that scrubber 2 or 3 did not find clean (R319): `cls` 1 corrected, else UNCORRECTABLE. -/
def scrubHit (s : State) (place unit addr cls pos : Nat) : State :=
  let c := if place = 1 then Reg.fltEccCorrected else Reg.intBattCorrected
  let u := if place = 1 then Reg.fltEccUncorrected else Reg.intBattUncorrected
  if cls = 1 then logCorrected (bump s c) place pos unit addr
  else
    let s := intLog (bump (bump s u) Reg.intPoisonWritten) 2 place 0x1F unit addr
    if place = 1 then autoBlock s unit else s

/-- The first line from index `i` on of the SRAM of a block that no image holds: block × 32,768 + position × 2,048 + line. -/
def scrubFree (s : State) : Nat → Nat → Nat
  | 0, i => i
  | f + 1, i =>
    if i / 32768 < 72 && (setBitsOf 64 (heldBlocks s)).any (fun l => physOf s l = some (i / 32768)) then scrubFree s f ((i / 32768 + 1) * 32768)
    else i

/-- One visit of scrubber 2 (cell SRAM of blocks held by no image) or 3 (batt store). -/
def scrubSram (s : State) (n : Nat) (ups : List (Nat × Nat × Nat)) : State :=
  let i := if n = 2 then scrubFree s 72 (scrubAt s 34) else scrubAt s 35
  let total := if n = 2 then 72 * 32768 else 524288
  if i ≥ total then scrubPass s n []
  else
    let s := ups.foldl (fun s u =>
      if n = 2 then scrubHit s 1 (i / 32768) (i / 2048 % 16 * 32768 + i % 2048 * 16 + u.1 % 16) u.2.1 u.2.2
      else scrubHit (if u.2.1 = 1 then s else poisonStaged s i (u.1 % 16)) 2 0 (i * 16 + u.1 % 16) u.2.1 u.2.2) s
    let s := scrubSet (scrubSet s (32 + n) (i + 1)) n (scrubAt s n + 1)
    if (if n = 2 then scrubFree s 72 (i + 1) else i + 1) ≥ total then scrubPass s n [] else s

/-- SCRUB_LINE_VISIT (R318, R319): within the budget of the tick. `ups` are what strikes the line: for DRAM word, position, bits; for
SRAM word, class (1 corrected, 2 UNCORRECTABLE), position corrected. -/
def scrubLineVisit (n : Nat) (ups : List (Nat × Nat × Nat)) (s : State) : State :=
  let b := (mget s.integ.budget n).getD 0
  if !(ringUp s) || n > 3 || b = 0 || !(flagF s (Reg.intScrubEn.ix n)) then s
  else
    let s := modInteg s (fun i => { i with budget := mput i.budget n (b - 1) })
    if n < 2 then scrubSite s n ups else scrubSram s n ups

/-- A controller's request within its site's stack; a word beyond it does not exist (R275, R276). -/
def inStack (s : State) (site addr len : Nat) (k : State) : Host.Outcome State Fault Refusal :=
  if siteUp s site && decide (addr + len > siteBytes s site) then .fault (.noSuchWord site (addr / 16)) else .next k

/-- DRAM_READ (R279). -/
def dramReadAt (req site addr len : Nat) (ups : List (Nat × Nat × Nat)) (mapErr : List (Nat × Nat)) (waiting : Nat) (s : State) :
    Host.Outcome State Fault Refusal :=
  inStack s site addr len (dramReadCmd req site addr len ups mapErr waiting s)

/-- DRAM_WRITE (R279). -/
def dramWriteAt (req site addr : Nat) (bytes : List Byte) (pois : List Nat) (ups : List (Nat × Nat × Nat)) (mapErr : List (Nat × Nat))
    (waiting : Nat) (s : State) : Host.Outcome State Fault Refusal :=
  inStack s site addr bytes.length (dramWriteCmd req site addr bytes pois ups mapErr waiting s)

end Sys2Proof.Machine
end

