-- ==== Sys2Proof/Machine/FlashCmds.lean ====
section
/-! DEFINITION. Commands of the flash store (R351–R376): areas, writes and reads, programs, garbage collection, folding, patrol,
checkpoints, rebuilds, the mount, timeouts and fences, power loss. -/
namespace Sys2Proof.Machine

/-! ### Requests (R359, R360, R366) -/

/-- Whether requests to the store wait: OFF before the mount begins, or MOUNTING (R372). -/
def flashWaits (s : State) : Bool := s.flash.st = 0 || s.flash.st = 1

/-- KIND and NAME of the metadata of an FLU (R355, R364): a tier unit, or a unit of the area that holds it. -/
def fluKind (s : State) (flu : Nat) : Option (Nat × Nat) :=
  if flu < 4 * rangePages s then some (1, 0)
  else (s.flash.areas.find? (fun a => decide (a.2.first ≤ flu) && decide (flu < a.2.first + ceilDiv a.2.pages 4))).map
    (fun a => (a.2.kind + 1, a.2.name))

/-- Whether an area holds the records of an attached shard (R357). -/
def arBusy (s : State) (a : Area) : Bool := a.kind = 1 && mhas s.srch.shards a.name

/-- Whether an FLU holds record pages of an attached shard, which only the fold writes (R358). -/
def fluHeld (s : State) (flu : Nat) : Bool :=
  s.flash.areas.any (fun a => arBusy s a.2 && decide (a.2.first ≤ flu) && decide (flu < a.2.first + ceilDiv a.2.pages 4))

/-- A write of one read unit (R360): none where it must wait for room, or behind an earlier write to its FLU (R359). -/
def tryWrite (s : State) (flu ru : Nat) (r : RUnit) : Option State :=
  if writeWaits s flu then none
  else match fluKind s flu with
    | some (k, n) => fluWriteRu s flu k n ru r
    | none => none

/-- Whether one more mapped FLU would exceed LOGICAL (R355). -/
def noLogical (s : State) (flu : Nat) : Bool := !(mhas s.flash.map flu) && decide (mappedFlus s ≥ s.flash.logical)

/-- The address a flash request is answered under: FLU and read unit. -/
def ruAddr (flu ru : Nat) : Nat := flu * 16384 + ru * 4096

/-- A write waits (R360). -/
def waitWrite (s : State) (req flu ru : Nat) (r : RUnit) : State :=
  modFlash s (fun f => { f with waitw := f.waitw ++ [⟨f.nextReq, req, flu, ru, r, none, expiryOf s Reg.fwToMediaFlash, false⟩], nextReq := f.nextReq + 1 })

/-- FLASH_WRITE (R360): requester `req` writes read unit `ru` of an FLU, `pois` the poison bitmap. -/
def flashWrite (req flu ru : Nat) (bytes : List Byte) (pois : Nat) (s : State) : State :=
  let r : RUnit := ⟨bytes.take 4096, pois % 2 ^ 256⟩
  if !(ringUp s) || s.power.flushing || ru > 3 || (fluKind s flu).isNone || fluHeld s flu then s
  else if flashWaits s then waitWrite s req flu ru r
  else if !(flashWritable s) then emit s (.failed req (ruAddr flu ru) Status.timeout.code)
  else if noLogical s flu then emit s (.failed req (ruAddr flu ru) Status.tableFull.code)
  else match tryWrite s flu ru r with
    | some t => emit t (.placed req (ruAddr flu ru))
    | none => waitWrite s req flu ru r

/-- A waiting request has left: an area command whose last page it was completes. -/
def writeDone (s : State) (x : FReq) (st : Status) : State :=
  if x.req < 2 ^ 32 then emit s (if st = .ok then .placed x.req (ruAddr x.flu x.ru) else .failed x.req (ruAddr x.flu x.ru) st.code)
  else if st != .ok then
    completeId (modFlash s (fun f => { f with waitw := f.waitw.filter (fun y => y.req != x.req) })) (x.req - 2 ^ 32) st
  else if s.flash.waitw.any (fun y => y.req = x.req) then s
  else completeId s (x.req - 2 ^ 32) .ok

/-- Data of a flash read reaches its requester: poisoned words arrive from flash (R323). -/
def answerRead (s : State) (req flu ru : Nat) (r : RUnit) : State :=
  let ps := setBitsOf 256 r.pois
  emit (bumpBy s Reg.intPoisonCarried ps.length) (.data req (ruAddr flu ru) (fitBytes 4096 r.data) ps)

/-- A read whose turn has come is answered from the map or the write cache, or goes to flash. -/
def serveRead (s : State) (x : FReq) : State :=
  match mget s.flash.map x.flu with
  | none => answerRead s x.req x.flu x.ru ruZero
  | some pu =>
    if mhas s.flash.cache pu then answerRead s x.req x.flu x.ru (fluRu s x.flu x.ru)
    else modFlash s (fun f => { f with reads := f.reads ++ [{ x with data := fluRu s x.flu x.ru, pu := some pu, issued := !(puBlocked s pu) }] })

/-- Whether a read waits for its turn: behind a write to its FLU that came before it (R359), or for the mount (R372). -/
def readWaits (s : State) (x : FReq) : Bool := flashWaits s || s.flash.waitw.any (fun w => w.flu = x.flu && decide (w.id < x.id))

/-- The reads that wait for their turn and whose turn has come are served, in order of arrival (R359). -/
def serveReads (s : State) : State :=
  let due (x : FReq) : Bool := x.pu.isNone && decide (x.req < 2 ^ 32) && !(readWaits s x)
  (s.flash.reads.filter due).foldl serveRead (modFlash s (fun f => { f with reads := f.reads.filter (fun x => !(due x)) }))

/-- FLASH_WRITE_RESUME (R360): the oldest waiting write is taken once room exists; one that the flash-operation timeout has caught fails,
and so does a page of an AREA_WRITE whose shard has attached meanwhile (R358). Reads that came after it have their turn. -/
def flashWriteResume (s : State) : State :=
  match s.flash.waitw with
  | [] => s
  | x :: r =>
    let drop := modFlash s (fun f => { f with waitw := r })
    if s.power.flushing || flashWaits s then s
    else if fluHeld s x.flu then serveReads (if x.req < 2 ^ 32 then drop else writeDone (bump drop Reg.fshRefuseBusy) x .busy)
    else if x.expiry ≤ tickOf s || !(flashWritable s) then serveReads (writeDone drop x .timeout)
    else if noLogical s x.flu then serveReads (writeDone drop x .tableFull)
    else match (fluKind s x.flu).bind (fun k => fluWriteRu drop x.flu k.1 k.2 x.ru x.data) with
      | some t => serveReads (writeDone t x .ok)
      | none => if (fluKind s x.flu).isNone then serveReads drop else s

/-- Read units that have gone weak since (R365): physical unit, read unit, and the step at which its next read ends. -/
def weaken (s : State) (weak : List (Nat × Nat × Nat)) : State :=
  modFlash s (fun f => { f with weak := weak.foldl (fun m w => mput m (4 * w.1 + w.2.1) w.2.2) f.weak })

/-- FLASH_READ (R359, R355): zeros where nothing is mapped, the write cache at once; a unit on flash is read, waits on a lost die, for a
write that came before it, or for the mount. `weak` are the read units that have gone weak since. -/
def flashRead (req flu ru : Nat) (weak : List (Nat × Nat × Nat)) (s : State) : State :=
  if !(ringUp s) || s.power.flushing || ru > 3 then s
  else
    let s := weaken s weak
    let x : FReq := ⟨s.flash.nextReq, req, flu, ru, ruZero, none, expiryOf s Reg.fwToMediaFlash, false⟩
    let s := modFlash s (fun f => { f with nextReq := f.nextReq + 1 })
    if readWaits s x then modFlash s (fun f => { f with reads := f.reads ++ [x] })
    else if !(flashReadable s) then s
    else serveRead s x

/-- A read ends at a step of R365; a rebuilt unit is relocated, and step 4 needs the other units of the row. -/
def finishRead (s : State) (x : FReq) (pu step : Nat) : State :=
  let s := modFlash s (fun f => { f with reads := f.reads.filter (fun y => y.id != x.id), tries := mdel f.tries x.id })
  if s.flash.lost.contains pu then answerRead (countStep s pu 5) x.req x.flu x.ru ruLost
  else if step = 5 || (step = 4 && !(rowWhole s pu)) then answerRead (endStep s pu x.ru 5) x.req x.flu x.ru ruLost
  else answerRead (endStep s pu x.ru step) x.req x.flu x.ru x.data

/-- FLASH_READ_COMPLETE (R365): the decode of a read unit ends at a step. A read issued before its die was fenced completes (R369). -/
def flashReadComplete (id step : Nat) (s : State) : State :=
  match s.flash.reads.find? (fun x => x.id = id) with
  | some x =>
    match x.pu with
    | some pu =>
      if !(flashReadable s) || s.power.flushing || step = 0 || step > 5 || (puBlocked s pu && !x.issued) then s else finishRead s x pu step
    | none => s
  | none => if flashReadable s && !s.power.flushing then bump s Reg.fwRecoverLateDropped else s

/-! ### Areas (R356, R357) -/

/-- NAME and KIND of an area command's operand block. -/
def arName (op : List Byte) : Nat := getLE op 0 4
/-- KIND. -/
def arKind (op : List Byte) : Nat := getLE op 4 1
/-- Whether KIND and the reserved bytes are right. -/
def arShape (op : List Byte) : Bool := (arKind op = 1 || arKind op = 2) && zeroAt op 5 3

/-- An area command is refused; TABLE_FULL and BUSY are counted (R377). -/
def areaFail (s : State) (w : Work) (st : Status) : State :=
  let s := match st with
    | .tableFull => bump s Reg.fshRefuseTableFull
    | .busy => bump s Reg.fshRefuseBusy
    | _ => s
  complete s w st

/-- An ADMIN command on the flash store waits until its mount is complete (R372). -/
def onFlash (s : State) (id cmd len : Nat) (k : State → Work → List Byte → State) : State :=
  if flashWaits s || s.power.flushing then s else onAdmin s id cmd len false k

/-- The lowest free extent of `n` area FLUs (R356). -/
def freeExtent (s : State) (n : Nat) : Option Nat :=
  let as := s.flash.areas.map (fun a => (a.2.first, a.2.first + ceilDiv a.2.pages 4))
  let starts := sortBy (fun (a b : Nat) => decide (a ≤ b)) (2 ^ 30 :: as.map (·.2))
  starts.find? (fun c => decide (c + n ≤ 2 ^ 30 + s.flash.logical) && as.all (fun a => decide (c + n ≤ a.1) || decide (a.2 ≤ c)))

/-- Unmap the FLUs of an extent (R356). -/
def unmapRange (s : State) (first n : Nat) : State :=
  (s.flash.map.filter (fun m => decide (first ≤ m.1) && decide (m.1 < first + n))).foldl (fun s m => fluUnmap s m.1) s

/-- AREA_CREATE (R356, R357). -/
def areaCreate (work : Nat) (s : State) : State :=
  onFlash s work 0x30 16 (fun s w op =>
    let pages := getLE op 8 8
    if !(arShape op) || pages = 0 || pages > 2 ^ 32 || mhas s.flash.areas (arName op) then areaFail s w .malformed
    else match (if s.flash.areas.length ≥ 8192 then none else freeExtent s (ceilDiv pages 4)) with
      | none => areaFail s w .tableFull
      | some first =>
        if !(flashWritable s) then areaFail s w .timeout
        else complete (modFlash (unmapRange s first (ceilDiv pages 4)) (fun f => { f with
          areas := mput f.areas (arName op) ⟨arName op, arKind op, w.tenant, first, pages⟩ })) w .ok)

/-- The area an operand block names, with its KIND. -/
def arOf (s : State) (op : List Byte) : Option Area :=
  match mget s.flash.areas (arName op) with
  | some a => if a.kind = arKind op then some a else none
  | none => none

/-- AREA_DELETE (R356, R357). -/
def areaDelete (work : Nat) (s : State) : State :=
  onFlash s work 0x31 8 (fun s w op =>
    match arOf s op with
    | none => areaFail s w .malformed
    | some a =>
      if !(zeroAt op 5 3) then areaFail s w .malformed
      else if !(adminMay w a.tenant) then areaFail s w .accessDenied
      else if arBusy s a then areaFail s w .busy
      else if !(flashWritable s) then areaFail s w .timeout
      else
        complete (modFlash (unmapRange s a.first (ceilDiv a.pages 4)) (fun f => { f with areas := mdel f.areas a.name, noSpace := false })) w .ok)

/-- First page, page count and node-range address of AREA_WRITE and AREA_READ. -/
def arFirst (op : List Byte) : Nat := getLE op 8 8
/-- Page count. -/
def arCount (op : List Byte) : Nat := getLE op 16 8
/-- Node-range address. -/
def arAddr (op : List Byte) : Nat := getLE op 24 8

/-- The checks that AREA_WRITE and AREA_READ share (R357), for the area they name. -/
def arMove (s : State) (w : Work) (op : List Byte) : Option Status :=
  match arOf s op with
  | none => some .malformed
  | some a =>
    if !(zeroAt op 5 3) || arAddr op % 4096 != 0 || decide (arFirst op + arCount op > a.pages) then some .malformed
    else if !(adminMay w a.tenant) || !(inWindow s w.tenant (arAddr op) (4096 * arCount op)) then some .accessDenied
    else none

/-- FLUs of a page range that are not mapped yet. -/
def arNew (s : State) (a : Area) (first count : Nat) : Nat :=
  if count = 0 then 0
  else ((List.range ((first + count - 1) / 4 - first / 4 + 1)).filter (fun j => !(mhas s.flash.map (a.first + first / 4 + j)))).length

/-- One page of an AREA_WRITE: taken into the write cache, or waiting (R360); `none` where its lender does not answer. -/
def arPage (s : State) (w : Work) (a : Area) (page addr : Nat) : Option State :=
  let r := nrRead s addr 4096
  if r.2.timeout then none
  else
    let u : RUnit := ⟨r.2.bytes, maskOf 256 (fun i => r.2.pois.contains i)⟩
    let s := bumpBy r.1 Reg.intPoisonCarried r.2.pois.length
    let x := areaFlu a page
    some (match tryWrite s x.1 x.2 u with
      | some t => t
      | none => waitWrite s (2 ^ 32 + w.id) x.1 x.2 u)

/-- AREA_WRITE (R356, R357): OK once all its pages are in the write cache. -/
def areaWriteCmd (work : Nat) (s : State) : State :=
  onFlash s work 0x32 32 (fun s w op =>
    match arMove s w op, arOf s op with
    | some st, _ => areaFail s w st
    | none, none => areaFail s w .malformed
    | none, some a =>
      if arBusy s a then areaFail s w .busy
      else if decide (mappedFlus s + arNew s a (arFirst op) (arCount op) > s.flash.logical) then areaFail s w .tableFull
      else if !(flashWritable s) then areaFail s w .timeout
      else
        let r := (List.range (arCount op)).foldl (fun (t : Option State) i =>
          t.bind (fun t => arPage t w a (arFirst op + i) (arAddr op + 4096 * i))) (some s)
        match r with
        | none => areaFail s w .timeout
        | some t => if t.flash.waitw.any (fun x => x.req = 2 ^ 32 + w.id) then beginWork t w.id else complete t w .ok)

/-- Place pages read from an area (R357, R308); the first status that is not OK ends it. -/
def arPlace (a : Area) (first addr : Nat) : Nat → Nat → State → State × Option Status
  | 0, _, s => (s, none)
  | n + 1, i, s =>
    let x := areaFlu a (first + i)
    let s := recoverFlu s x.1 [x.2]
    let u := fluRu s x.1 x.2
    let ps := setBitsOf 256 u.pois
    let r := nrWrite (bumpBy s Reg.intPoisonCarried ps.length) (addr + 4096 * i) (fitBytes 4096 u.data) ps
    match r.2 with
    | some st => (r.1, some st)
    | none => arPlace a first addr n (i + 1) r.1

/-- AREA_READ (R356, R357): it waits while a page lies on a lost die (R366), and its rows are then rebuilt first. -/
def areaReadCmd (work : Nat) (s : State) : State :=
  onFlash s work 0x33 32 (fun s w op =>
    match arMove s w op, arOf s op with
    | some st, _ => areaFail s w st
    | none, none => areaFail s w .malformed
    | none, some a =>
      if !(flashWritable s) then areaFail s w .timeout
      else
        let req := 2 ^ 32 + w.id
        let s := modFlash s (fun f => { f with reads := f.reads.filter (fun x => x.req != req) })
        let late := (List.range (arCount op)).filter (fun i => !(areaReady s a (arFirst op + i)))
        if late.isEmpty then
          let r := arPlace a (arFirst op) (arAddr op) (arCount op) 0 s
          match r.2 with
          | some st => areaFail r.1 w st
          | none => complete r.1 w .ok
        else
          modFlash s (fun f => { f with
            reads := f.reads ++ late.map (fun i =>
              let x := areaFlu a (arFirst op + i)
              ⟨f.nextReq + i, req, x.1, x.2, ruZero, mget f.map x.1, expiryOf s Reg.fwToMediaFlash, false⟩), nextReq := f.nextReq + arCount op }))

/-! ### The log: programs, garbage collection, folding (R361–R363) -/

/-- BAND_ROW_PROGRAM (R361): a row whose data units are all present is issued, while every die of it is in service (R369). -/
def bandRowProgram (band row : Nat) (s : State) : State :=
  match mget s.flash.bands band with
  | some b =>
    if flashWritable s && decide (row < bandPages s b) && !(b.done.contains row) && !(b.busy.contains row) && rowFull s band b row
        && b.members.all (fun m => dieServes s m.ch m.die) then
      modFlash s (fun f => { f with bands := mput f.bands band { b with busy := sinsert b.busy row } })
    else s
  | none => s

/-- A block is retired (R361). -/
def retireBlk (s : State) (b : Blk) : State :=
  if s.flash.retired.contains (blkKey b) then s
  else bump (modFlash s (fun f => { f with retired := sinsert f.retired (blkKey b) })) Reg.fshRefuseRetired

/-- The valid programmed units of retired blocks are relocated (R361); one that finds no room now is relocated at a later program or
collection. -/
def clearRetired (s : State) : State :=
  (relocateAll s false ((s.flash.units.filter (fun u => s.flash.retired.contains (puBlk u.1) && puValid s u.1)).map (·.1))).1

/-- Blocks of a band have failed: they are retired, the band is written no further, and the units in rows not yet programmed are relocated
(R361). -/
def retireBlocks (s : State) (id : Nat) (failed : List Nat) : State :=
  match mget s.flash.bands id with
  | none => s
  | some b =>
    let s := failed.foldl (fun s m => match b.members[m]? with | some x => retireBlk s x | none => s) s
    let s := modFlash s (fun f => { f with openBand := if f.openBand = some id then none else f.openBand,
                                           openNative := if f.openNative = some id then none else f.openNative })
    let rows := (List.range (bandPages s b)).filter (fun r => !(b.done.contains r) && !(b.busy.contains r))
    (rows.flatMap (fun r => (dataMembers id b r).map (bandPu b r))).foldl rehome s

/-- FLASH_PROGRAM_COMPLETE (R361, R362): the program of a row of a band, or with no row the erase of the band, completes; `failed` are
the members whose block failed. A unit programmed on a die fenced meanwhile is rebuilt (R369, R370). An erase waits for the reads issued to the band (R359). -/
def flashProgramComplete (band : Nat) (row : Option Nat) (failed : List Nat) (s : State) : State :=
  match mget s.flash.bands band with
  | none => s
  | some b =>
    if !(flashWritable s) then s
    else match row with
      | some r =>
        if !(b.busy.contains r) then s
        else
          let s := programRow s band r
          let gone := (List.range b.members.length).filter (fun m => b.members[m]?.any (fun x => !(dieServes s x.ch x.die)))
          let s := modFlash s (fun f => { f with rebuild := f.rebuild ++ (gone.map (fun m => (band, r, m))).filter (fun x => !(f.rebuild.contains x)) })
          clearRetired (if failed.isEmpty then s else retireBlocks s band failed)
      | none =>
        if !b.erasing || s.flash.reads.any (fun x => x.pu.any (fun pu => (b.members.map blkKey).contains (puBlk pu))) then s
        else
          let s := failed.foldl (fun s m => match b.members[m]? with | some x => retireBlk s x | none => s) s
          modFlash (dropBand s band) (fun f => { f with noSpace := false, rebuild := f.rebuild.filter (fun r => r.1 != band) })

/-- Whether a band is closed: not a frontier, nothing in the write cache or being programmed or erased. -/
def bandClosed (s : State) (id : Nat) (b : Band) : Bool :=
  s.flash.openBand != some id && s.flash.openNative != some id && b.busy.isEmpty && !b.erasing
    && !((bandPus s id b).any (fun pu => mhas s.flash.cache pu))

/-- Whether free blocks fall below twice the blocks of one band on some die (R362). -/
def gcNeeded (s : State) : Bool :=
  (List.range 32).any (fun c => (usableDies s c).any (fun d => decide ((freeBlocks s c d).length < 2)))

/-- The band with the fewest valid units, lowest number on a tie (R362). -/
def gcVictim (s : State) : Option (Nat × Band) :=
  (s.flash.bands.filter (fun b => bandClosed s b.1 b.2)).foldl (fun (a : Option (Nat × Band)) b =>
    match a with
    | none => some b
    | some x => if (bandValid s b.1 b.2).length < (bandValid s x.1 x.2).length then some b else some x) none

/-- Move a band's valid units to a frontier; once none is left its blocks are erased. -/
def emptyBand (s : State) (id : Nat) (b : Band) (native : Bool) : State × Nat :=
  let r := relocateAll s native (bandValid s id b)
  if (bandValid r.1 id b).isEmpty then
    (modFlash r.1 (fun f => { f with bands := mmod f.bands id (fun x => { x with erasing := true }) }), r.2)
  else r

/-- GARBAGE_COLLECTION (R362). -/
def garbageCollection (s : State) : State :=
  if !(flashWritable s) || !(gcNeeded s) then s
  else match gcVictim s with
    | some (id, b) => let r := emptyBand s id b false; clearRetired (bumpBy r.1 Reg.fshRelocGc r.2)
    | none => clearRetired s

/-- SLC_FOLD (R363): an SLC band is copied to native-mode bands. -/
def slcFold (band : Nat) (s : State) : State :=
  match mget s.flash.bands band with
  | some b => if flashWritable s && b.slc && bandClosed s band b then (emptyBand s band b true).1 else s
  | none => s

/-! ### Patrol (R367) -/

/-- The mapped programmed units on dies in service, ascending. -/
def patrolUnits (s : State) : List Nat :=
  (s.flash.units.map (·.1)).filter (fun pu => puValid s pu && !(dieOff s (puDie pu / 64) (puDie pu % 64)) && !(chDown s (puDie pu / 64)))

/-- The band of a physical unit. -/
def bandOfPu (s : State) (pu : Nat) : Option Band := (s.flash.bands.find? (fun b => (b.2.members.map blkKey).contains (puBlk pu))).map (·.2)

/-- Whether a patrolled unit is relocated. -/
def refreshes (s : State) (pu pct : Nat) (steps : List Nat) : Bool :=
  decide (pct > min 100 (getF s Reg.fshCtrlRefreshPct)) || steps.any (fun x => decide (x > 1))
    || (match bandOfPu s pu with | some b => decide (tickOf s > b.first + s.flash.geom.retention) | none => false)

/-- A pass of the patrol ends (R367): it is counted, and the next begins at the lowest unit. -/
def patrolWrap (s : State) : State :=
  bump (setF (modFlash s (fun f => { f with patrolPos := 0 })) Reg.fshPatrolPosition 0) Reg.fshPatrolPasses

/-- One unit is patrolled: each read unit ends at its step of R365, and the unit is relocated where R367 says so. -/
def patrolUnit (s : State) (pu pct : Nat) (steps : List Nat) : State :=
  let s := modFlash s (fun f => { f with patrolPos := pu + 1, patrolCnt := f.patrolCnt + 1 })
  let s := setF s Reg.fshPatrolPosition (getF s Reg.fshPatrolPosition + 1)
  let fresh := refreshes s pu pct steps
  let s := ((List.range 4).zip steps).foldl (fun s x =>
    let st := if x.2 = 4 && !(rowWhole s pu) then 5 else x.2
    if st = 5 then loseRu (countStep s pu 5) pu x.1 else countStep s pu st) s
  if fresh then
    match relocate s pu false with
    | some t => bump t Reg.fshRelocRefreshed
    | none => s
  else s

/-- PATROL_READ (R367): the next unit is read. `steps` are the steps of R365 its read units needed, `pct` the bit errors corrected in
percent of the hard-decision capability. A pass ends with its last unit, or when none is left at or beyond its position. -/
def patrolRead (steps : List Nat) (pct : Nat) (s : State) : State :=
  let win := tickOf s / 1000
  let s := if s.flash.patrolWin = win then s else modFlash s (fun f => { f with patrolWin := win, patrolCnt := 0 })
  if !(flashWritable s) || decide (s.flash.patrolCnt ≥ getF s Reg.fshCtrlPatrolRate) then s
  else match (patrolUnits s).find? (fun pu => decide (s.flash.patrolPos ≤ pu)) with
    | none => if s.flash.patrolPos = 0 then s else patrolWrap s
    | some pu =>
      let last : Bool := !((patrolUnits s).any (fun x => decide (x > pu)))
      let s := patrolUnit s pu pct steps
      if last then patrolWrap s else s

/-! ### Checkpoints and rebuilds (R370, R371) -/

/-- CHECKPOINT_WRITE (R371): a segment of the map is written; its deltas are covered. -/
def checkpointWrite (segment : Nat) (s : State) : State := if flashWritable s then ckptSegment s segment else s

/-- The row that is rebuilt next: one that a read waits for comes first (R366). -/
def rebuildNext (s : State) : Option (Nat × Nat × Nat) :=
  let puOfRow (r : Nat × Nat × Nat) : Option Nat := (mget s.flash.bands r.1).map (fun b => bandPu b r.2.1 r.2.2)
  let wanted (pu : Nat) : Bool := s.flash.reads.any (fun x => x.pu = some pu) || s.flash.wanted.contains pu
  match s.flash.rebuild.find? (fun r => match puOfRow r with | some pu => wanted pu | none => false) with
  | some r => some r
  | none => s.flash.rebuild.head?

/-- The lost unit of a row is reconstructed and written to the frontier. A row that has lost two units cannot be:
both read as poisoned. Without space the rebuild stops with NOSPACE. -/
def rebuildRow (s : State) : State :=
  if !(flashReadable s) || s.power.flushing then s
  else match rebuildNext s with
    | none => s
    | some (id, row, m) =>
      let drop (t : State) := modFlash t (fun f => { f with
        rebuild := f.rebuild.filter (fun r => r != (id, row, m)),
        wanted := match mget f.bands id with | some b => f.wanted.filter (· != bandPu b row m) | none => f.wanted })
      match mget s.flash.bands id with
      | none => drop s
      | some b =>
        let pu := bandPu b row m
        let rest := (List.range b.members.length).filter (· != m)
        let bad := rest.filter (fun k => !(mhas s.flash.units (bandPu b row k)) || s.flash.lost.contains (bandPu b row k)
          || s.flash.rebuild.contains (id, row, k))
        if s.flash.lost.contains pu then drop s
        else if !bad.isEmpty then
          let pus := pu :: (bad.map (bandPu b row)).filter (fun p => mhas s.flash.units p)
          modFlash s (fun f => { f with lost := pus.foldl sinsert f.lost,
                                        rebuild := f.rebuild.filter (fun r => !(r.1 = id && r.2.1 = row)) })
        else if !(puValid s pu) then bump (drop s) Reg.fshRebuildDone
        else match mget s.flash.units pu with
          | none => drop s
          | some u =>
            match (if flashWritable s then placeUnit s u.flu u.kind u.name (rowXor s b row rest) false else none) with
            | some t => bump (modFlash (drop t) (fun f => { f with noSpace := false })) Reg.fshRebuildDone
            | none => if cacheFull s || !(flashWritable s) then s else modFlash s (fun f => { f with noSpace := true })

/-- ROW_REBUILD (R370): the next row is rebuilt, and node-range accesses that waited for it are served (R366). -/
def rowRebuild (s : State) : State :=
  let t := rebuildRow s
  if t.flash.rebuild = s.flash.rebuild then t else resumeWaits t

/-! ### Mount (R352–R354, R372) -/

/-- The rate a channel runs at (R353). -/
def mountRate (s : State) (p : MountPar) (c : Nat) : Nat :=
  let t := p.trained.getD c 0
  if p.present.getD c 0 = 0 then 0
  else if t = 2 then (if p.fast && getF s Reg.fshCtrlRateMax != 0 then 2 else 1)
  else min t 3

/-- The dies of a channel: LUN l of target t is die 4t + l (R354). -/
def mountDies (p : MountPar) (c : Nat) : Nat :=
  maskOf 64 (fun d => (p.present.getD c 0).testBit (d / 4) && decide (d % 4 < min 4 (max 1 p.luns)))

/-- Channels with at least two usable dies (R354). -/
def goodChannels (s : State) : Nat := ((List.range 32).filter (fun c => decide ((usableDies s c).length ≥ 2))).length

/-- All usable dies. -/
def dieCount (s : State) : Nat := sumNat ((List.range 32).map (fun c => (usableDies s c).length))

/-- LOGICAL (R355): 7/8 of the data units of the store. -/
def mountLogical (s : State) : Nat :=
  let n := dieCount s * s.flash.geom.blocks * s.flash.geom.pages
  let w := (bandChannels s).length
  7 * (n - n / max 1 w) / 8

/-- The map that checkpoints and deltas on flash give, without the tier range (R372); a unit never programmed is not mapped. -/
def coldMap (s : State) : SMap Nat :=
  (s.flash.kept.foldl (fun m d => if d.2 = unmapped then mdel m d.1 else mput m d.1 d.2) s.flash.ckpt).filter
    (fun m => decide (m.1 ≥ 2 ^ 30) && mhas s.flash.units m.2)

/-- FSH_FLUSH shows the last flush (R377): KIND 1 without its marker where a power-loss flush was cut off. -/
def showFlush (s : State) : State :=
  let put (k d t m : Nat) := setF (setF (setF (setF s Reg.fshFlushKind k) Reg.fshFlushDone d) Reg.fshFlushTicks t) Reg.fshFlushMib m
  match s.flash.marker with
  | some (k, t, m) => put k 1 t m
  | none => put (if s.flash.flushStart = 0 then 0 else 1) 0 0 0

/-- The store forgets what was in the DRAM that a cold reset lost. -/
def coldStore (s : State) : State :=
  modFlash s (fun f => { f with
    cache := [], deltas := [], openBand := none, openNative := none,
    bands := f.bands.map (fun b => (b.1, { b.2 with busy := [] })) })

/-- The rows on dies that the mount cannot use are lost with them (R353, R366, R370). -/
def lostAtMount (s : State) : State :=
  let dies := s.flash.bands.flatMap (fun b => b.2.members.map (fun m => (m.ch, m.die)))
  (dies.filter (fun d => !(dieServes s d.1 d.2))).foldl (fun t d => loseDie t d.1 d.2) s

/-- FLASH_MOUNT (R352–R355, R372, R375): the channels are trained and the map is kept or rebuilt; STATE reads MOUNTING. -/
def flashMount (p : MountPar) (s : State) : State :=
  if s.flash.st != 0 || getF s Reg.rstStatusStep < 5 || !s.power.vddMgmt || s.power.tripped || s.power.halted then s
  else
    let s := (List.range 32).foldl (fun s c =>
      setF (setF s (Reg.fshChPresent.ix c) (p.present.getD c 0)) (Reg.fshChRate.ix c) (mountRate s p c)) s
    let s := (List.range p.unmatched).foldl (fun s _ => let r := freeVal s; crownEventOpen r.1 (r.2 % 2 ^ 16) (r.2 / 2 ^ 16 % 4)) s
    let s := modFlash s (fun f => { f with
      geom := ⟨(List.range 32).map (mountDies p), p.pages, p.slcPages, p.blocks, p.retention, p.rated⟩ })
    let s := setF (setF (setF s Reg.fshGeomPlanes p.planes) Reg.fshGeomBits p.bits) Reg.fshGeomBlockPages p.pages
    let s := setF (setF s Reg.fshGeomQual p.qual) Reg.fshGeomDies (dieCount s)
    let cold : Bool := s.flash.cold || p.mapErr
    let s := showFlush (if cold then coldStore s else s)
    let s := if cold && s.flash.marker.isNone && decide (s.flash.seq > 0) then
        crownEvent s 0x0501 2 (rawReg s [Reg.fshFlushKind, Reg.fshFlushDone, Reg.fshFlushTicks, Reg.fshFlushMib]) else s
    let s := modFlash s (fun f => { f with
      st := 1, logical := mountLogical s, map := if cold then coldMap s else f.map, cold := false, flushStart := 0,
      rebuild := [], testing := [], tries := [], weak := [], wanted := [], patrolPos := 0, noSpace := false })
    lostAtMount (modFlash s (fun f => { f with slcB := slcTarget s }))

/-- MOUNT_COMPLETE (R372, R354): READY, or FAILED with too few dies; requests that waited are served, each FLU's in order of arrival
(R359). -/
def mountComplete (s : State) : State :=
  if s.flash.st != 1 then s
  else
    let s := modFlash s (fun f => { f with st := if goodChannels s ≥ 31 then 2 else 5 })
    if s.flash.st = 2 then serveReads s
    else
      let ws := s.flash.waitw
      serveReads (ws.foldl (fun s x => writeDone s x .timeout) (modFlash s (fun f => { f with waitw := [] })))

/-! ### Timeouts, suspect dies and fences (R368, R369) -/

/-- A die becomes suspect (R368): counted, logged, its rows wait for their rebuild. -/
def suspect (s : State) (ch die : Nat) : State :=
  let s := setF s (Reg.fshDsuspSuspect.ix ch) (getF s (Reg.fshDsuspSuspect.ix ch) ||| 2 ^ die)
  crownEventOpen (bump (loseDie s ch die) (Reg.fshChTimeouts.ix ch)) 0x0502 1

/-- A move whose flash write to the destination has failed is abandoned (R333). -/
def failedMove (s : State) (slot : Nat) : State :=
  match mget s.tiers.moves slot with
  | some m => (match m.dst with | .t4 _ => resumeWaits (abandonMove s slot) | _ => s)
  | none => s

/-- FLASH_OP_TIMEOUT (R368): operation `op` (the number of a read; from 2^32 on the write of the move in that entry of the move
table, which fails with its last try, R333) on a die has not completed. The target is
reset; where the bus failed its check, `rate` is what the channel retrains at. After RETRIES reissues the die is suspect, and a
read is recovered by step 4 of R365. -/
def flashOpTimeout (ch die op : Nat) (rate : Option Nat) (s : State) : State :=
  let rd := s.flash.reads.find? (fun x => x.id = op)
  let early : Bool := match rd, mget s.tiers.moves (op - 2 ^ 32) with
    | some x, _ => decide (tickOf s < x.expiry)
    | none, some m => decide (op ≥ 2 ^ 32) && decide (tickOf s < m.start + atLeast1 s Reg.fwToMediaFlash)
    | none, none => false
  if !(flashReadable s) || s.power.flushing || !((usableDies s ch).contains die) || early then s
  else
    let s := match rate with
      | some r =>
        let t := setF s (Reg.fshChRate.ix ch) r
        if r % 4 = 0 then (usableDies s ch).foldl (fun t d => loseDie t ch d) t else t
      | none => s
    let n := (mget s.flash.tries op).getD 0
    if n < getF s Reg.fshCtrlRetries then modFlash s (fun f => { f with tries := mput f.tries op (n + 1) })
    else
      let s := suspect (modFlash s (fun f => { f with tries := mdel f.tries op })) ch die
      let s := if op ≥ 2 ^ 32 then failedMove s (op - 2 ^ 32) else s
      match rd with
      | some x => match x.pu with
        | some pu => finishRead s x pu 4
        | none => s
      | none => s

/-- A die loses its fence: it is tested before it returns to service (R369). -/
def startTest (s : State) (ch die : Nat) : State :=
  if (getF s (Reg.fshDfenceFence.ix ch)).testBit die || flagF s (Reg.fshChFence.ix ch) then s
  else modFlash s (fun f => { f with testing := f.testing.filter (· != (ch, die)) ++ [(ch, die)] })

/-- The dies of a channel that the mount found. -/
def foundDies (s : State) (ch : Nat) : List Nat := setBitsOf 64 (s.flash.geom.dies.getD ch 0)

/-- FSH_DFENCEc is written (R369): a die newly fenced is lost, one no longer fenced is tested. -/
def dfenceSet (s : State) (ch v : Nat) : State :=
  let old := getF s (Reg.fshDfenceFence.ix ch)
  let gone := (foundDies s ch).filter (fun d => v.testBit d && !(old.testBit d))
  let back := (foundDies s ch).filter (fun d => !(v.testBit d) && old.testBit d)
  let t := setF s (Reg.fshDfenceFence.ix ch) v
  let t := (gone.filter (fun d => (usableDies s ch).contains d)).foldl (fun t d => loseDie t ch d) t
  back.foldl (fun t d => startTest t ch d) t

/-- FSH_CHc.FENCE is written (R369): with it all the channel's dies. -/
def chFenceSet (s : State) (ch v : Nat) : State :=
  let old := getF s (Reg.fshChFence.ix ch)
  let t := setF s (Reg.fshChFence.ix ch) v
  if v % 2 = 1 && old = 0 then (usableDies s ch).foldl (fun t d => loseDie t ch d) t
  else if v % 2 = 0 && old = 1 then (foundDies s ch).foldl (fun t d => startTest t ch d) t
  else t

/-- DIE_RETURN_TEST_DONE (R369): a die that passes returns empty, once its rows are rebuilt; one that fails is suspect. -/
def dieReturnTestDone (ch die : Nat) (ok : Bool) (s : State) : State :=
  if !(s.flash.testing.contains (ch, die)) || (rowsOnDie s ch die).any (fun r => s.flash.rebuild.contains r) then s
  else
    let s := modFlash s (fun f => { f with testing := f.testing.filter (· != (ch, die)) })
    let sus := getF s (Reg.fshDsuspSuspect.ix ch)
    if ok then
      let s := setF s (Reg.fshDsuspSuspect.ix ch) (sus - (if sus.testBit die then 2 ^ die else 0))
      modFlash s (fun f => { f with units := f.units.filter (fun u => puDie u.1 != dieKey ch die) })
    else setF s (Reg.fshDsuspSuspect.ix ch) (sus ||| 2 ^ die)

/-! ### Power loss and flushes (R373–R376, R466) -/

/-- MiB of cache and deltas that a flush programs; how a part of a MiB is counted is open (log entry 6). -/
def flushMib (s : State) : State × Nat :=
  let n := s.flash.cache.length * 16384 + s.flash.deltas.length * 8
  if n % 2 ^ 20 = 0 then (s, n / 2 ^ 20) else let r := freeVal s; (r.1, n / 2 ^ 20 + r.2 % 2)

/-- Every incomplete row of the write cache is padded with zero units (R374 step 3, R364). -/
def padRow (s : State) (id : Nat) (b : Band) (row : Nat) : State :=
  ((dataMembers id b row).filter (fun m => (unitAt s (bandPu b row m)).isNone)).foldl (fun t m =>
    modFlash t (fun f => { f with cache := mput f.cache (bandPu b row m) ⟨[], 0, f.seq, 0, 0⟩, seq := f.seq + 1 })) s

/-- The whole write cache is programmed with padding and parity, and the uncovered deltas (R374 steps 3 and 4). -/
def flushStore (s : State) : State :=
  let s := s.flash.bands.foldl (fun s p =>
    let rows := (List.range (bandPages s p.2)).filter (fun r =>
      !(p.2.done.contains r) && (dataMembers p.1 p.2 r).any (fun m => mhas s.flash.cache (bandPu p.2 r m)))
    rows.foldl (fun s r => programRow (padRow s p.1 p.2 r) p.1 r) s) s
  let s := (List.range (ceilDiv (s.flash.deltas.length * 8) 16384)).foldl (fun t i => logMeta t 5 i) s
  modFlash s (fun f => { f with kept := f.kept ++ f.deltas, deltas := [], openBand := none, openNative := none })

/-- The flush marker is programmed (R364, R374): KIND, ticks, MiB. -/
def putMarker (s : State) (kind ticks mib : Nat) : State :=
  modFlash (logMeta s 6 0) (fun f => { f with marker := some (kind, min 65535 ticks, mib % 1024) })

end Sys2Proof.Machine
end

