-- ==== Sys2Proof/Machine/HostCmds.lean ====
section
/-! DEFINITION. The host's side (R408–R438, R511): functions and tenant contexts, queues, fetching, interrupts, sampling, PERST. -/
namespace Sys2Proof.Machine

/-! ### Functions and contexts (R413–R416) -/

/-- Whether a tenant's context is open (R413). -/
def ctxOpen (s : State) (t : Nat) : Bool := t = 0 || mhas s.host.ctxs t

/-- Whether a function is enabled: the physical one, or a virtual one under SR-IOV. -/
def fnEnabled (s : State) (fn : Nat) : Bool := fn = 0 || (s.host.vfEnable && decide (fn ≤ s.host.numVfs))

/-- QE_FSTAT of a function changes: entry 8 of a virtual function (R430). -/
def fstatChanged (s : State) (fn : Nat) : State := if fn = 0 then s else msixRaise s fn 8

/-- A register field that lies in the function page of a tenant. -/
def inPage (t key : Nat) : Bool :=
  decide (pageBase + t * 0x10000 ≤ key / 64) && decide (key / 64 < pageBase + (t + 1) * 0x10000)

/-- One pin of a watch word's page is taken or released (R417, R423). -/
def watchPin (s : State) (addr : Nat) (up : Bool) : State :=
  let p := pageNo addr
  let e := pageEnt s p
  setEnt s p { e with pins := if up then e.pins + 1 else e.pins - 1 }

/-- The interrupt settings of a slot read zero once it is empty (R439). -/
def clearSlot (s : State) (q : Nat) : State :=
  setF (setF (setF (setF s (slotF Reg.qeQirqIrqEn q) 0) (slotF Reg.qeQirqSample q) 0) (slotF Reg.qeQirqCount q) 0) (slotF Reg.qeQirqTicks q) 0

/-- A queue is gone: its watch word is released, its page loses the pin, the slot is free (R423). -/
def freeQueue (s : State) (q : Nat) : State :=
  match queueOf s q with
  | none => s
  | some x =>
    clearSlot (watchPin (modHost s (fun h => { h with queues := mdel h.queues q, wakes := h.wakes.filter (· != q) })) x.watch false) q

/-- A function-level reset of a function (R416): its queues are destroyed with no completion written, its page and MSI-X table are
reset, and its admitted descriptors run on with their completions discarded. -/
def flr (s : State) (fn : Nat) : State :=
  let mine := (s.host.queues.map (·.1)).filter (fun q => queueTenant q = fn)
  let lost := sumNat (mine.map (fun q => match queueOf s q with | some x => x.waitc.length | none => 0))
    + (s.twin.held.filter (fun h => mine.contains h.1)).length
  let s := bumpBy s Reg.qeHosterrCqDrop lost
  let s := { s with twin := { s.twin with held := s.twin.held.filter (fun h => !(mine.contains h.1)) } }
  let s := mine.foldl freeQueue s
  let s := modHost s (fun h => { h with
    work := h.work.map (fun w => if mine.contains w.queue then { w with orphan := true } else w),
    msix := mdel h.msix fn, qcmdBusy := mdel h.qcmdBusy fn })
  { s with flds := s.flds.filter (fun f => !(inPage fn f.1)) }

/-- FUNCTION_LEVEL_RESET (R416). -/
def functionLevelReset (fn : Nat) (s : State) : State := if fnEnabled s fn && fn < 512 then flr s fn else s

/-- VF_ENABLE (R416): VF Enable set, or NumVFs raised; each function finds its context as it was left. -/
def vfEnable (numVfs : Nat) (s : State) : State :=
  if numVfs = 0 || numVfs > 511 || (s.host.vfEnable && decide (numVfs < s.host.numVfs)) then s
  else modHost s (fun h => { h with vfEnable := true, numVfs := numVfs })

/-- VF_DISABLE (R416): VF Enable cleared (0), or NumVFs lowered; each function removed is reset. -/
def vfDisable (numVfs : Nat) (s : State) : State :=
  if !s.host.vfEnable || decide (numVfs ≥ s.host.numVfs) then s
  else
    let gone := (List.range (s.host.numVfs - numVfs)).map (fun i => numVfs + 1 + i)
    modHost (gone.foldl flr s) (fun h => { h with vfEnable := numVfs != 0, numVfs := numVfs })

/-- PERST_ASSERT (R511): the link is down while CXL_PERST_N is low. -/
def perstAssert (s : State) : State := modHost s (fun h => { h with perstLow := true, linkUp := false })

/-- PERST_RELEASE (R511): every function as under a function-level reset; the port then trains, from step 8 on. -/
def perstRelease (s : State) : State :=
  if !s.host.perstLow then s
  else
    let fns := 0 :: (List.range s.host.numVfs).map (· + 1)
    let s := modHost (fns.foldl flr s) (fun h => { h with perstLow := false })
    if txOn s then modHost s (fun h => { h with linkUp := true }) else s

/-! ### TENANT_OPEN and TENANT_CLOSE (R414, R415) -/

/-- Whether a window overlaps an open one. -/
def windowTaken (s : State) (base pages : Nat) : Bool :=
  s.host.ctxs.any (fun c => decide (base < c.2.base + c.2.pages) && decide (c.2.base < base + pages))

/-- TENANT_OPEN (R414). -/
def tenantOpen (work : Nat) (s : State) : State :=
  onAdmin s work 1 16 true (fun s w op =>
    let fn := getLE op 0 2
    let base := getLE op 8 4
    let pages := getLE op 12 4
    if !(zeroAt op 2 6) || fn = 0 || fn > 511 || !(fnEnabled s fn) || ctxOpen s fn || pages = 0 || pages > 2 ^ 28
        || base + pages > rangePages s || windowTaken s base pages then complete s w .malformed
    else if s.host.ctxs.length ≥ 511 then complete s w .noContext
    else fstatChanged (complete (modHost s (fun h => { h with ctxs := mput h.ctxs fn ⟨base, pages⟩ })) w .ok fn) fn)

/-- Whether a tenant holds an object that keeps its context open (R415). -/
def tenantBusy (s : State) (t : Nat) : Bool :=
  s.host.queues.any (fun q => queueTenant q.1 = t) || s.srch.indexes.any (fun x => ixTenant x.2 = t)
    || s.card.tables.any (fun x => tbTenant x.2.reg = t) || s.felt.images.any (fun x => x.2.tenant = t)
    || s.flash.areas.any (fun a => a.2.tenant = t) || s.brim.regions.any (fun r => r.2.tenant = t)

/-- Every page charged to a tenant is released, as by MOVE RELEASE (R415, R349). -/
def releasePages (s : State) (t : Nat) : State :=
  ((s.tiers.home.filter (fun e => e.2.tenant = t)).map (·.1)).foldl (fun s p =>
    let s := settle s p
    setEnt (releaseHome (dropStaged s (p * 65536) 65536) p (pageEnt s p).home) p zeroEnt) s

/-- TENANT_CLOSE (R415). -/
def tenantClose (work : Nat) (s : State) : State :=
  onAdmin s work 2 8 true (fun s w op =>
    let fn := getLE op 0 2
    if !(zeroAt op 2 6) || fn = 0 || fn > 511 || !(ctxOpen s fn) then complete s w .malformed
    else if tenantBusy s fn then complete s w .busy
    else fstatChanged (complete (modHost (releasePages s fn) (fun h => { h with ctxs := mdel h.ctxs fn })) w .ok) fn)

/-! ### Queues (R417–R423) -/

/-- STATUS of QE_QCMD. -/
def qcmdStatus (s : State) (fn : Nat) (st : Status) : State := setF s (Reg.qeQcmdStatus.pg fn) st.code

/-- Settings for CREATE: the five QE_QNEW_ registers. -/
def qnew (s : State) (fn : Nat) (f : Fld) : Nat := getF s (f.pg fn)

/-- Whether the settings for CREATE are in range and aligned, the watch word free (R417). -/
def qnewOk (s : State) (fn : Nat) : Bool :=
  let sl := qnew s fn Reg.qeQnewSqLog2
  let cl := qnew s fn Reg.qeQnewCqLog2
  let wa := qnew s fn Reg.qeQnewWatchAddr
  decide (1 ≤ sl) && decide (sl ≤ 16) && decide (1 ≤ cl) && decide (cl ≤ 16)
    && qnew s fn Reg.qeQnewSqBase % 64 = 0 && qnew s fn Reg.qeQnewCqBase % 32 = 0 && wa % 8 = 0
    && qnew s fn Reg.qeQnewHeadAddr % 16 = 0 && !(s.host.queues.any (fun q => q.2.watch = wa))

/-- Whether the rings and words for CREATE lie in the tenant's window (R417). -/
def qnewIn (s : State) (fn : Nat) : Bool :=
  inWindow s fn (qnew s fn Reg.qeQnewSqBase) (64 * 2 ^ qnew s fn Reg.qeQnewSqLog2)
    && inWindow s fn (qnew s fn Reg.qeQnewCqBase) (32 * 2 ^ qnew s fn Reg.qeQnewCqLog2)
    && inWindow s fn (qnew s fn Reg.qeQnewWatchAddr) 8 && inWindow s fn (qnew s fn Reg.qeQnewHeadAddr) 16

/-- The watch word's page homed in T2 (R417): none where a frame cannot be had. -/
def watchHome (s : State) (addr : Nat) : Option State :=
  let s := settle (homeCheck (mayRetry s (pageNo addr)) (pageNo addr)) (pageNo addr)
  match (pageEnt s (pageNo addr)).home with
  | .t2 .. => some s
  | .zero => allocT2 (seekFrame s (tenantOfPage s (pageNo addr))) (pageNo addr)
  | _ => moveToT2 (seekFrame s (pageEnt s (pageNo addr)).tenant) (pageNo addr) none

/-- A new queue with the settings of QE_QNEW_ (R417). -/
def queueNew (s : State) (fn : Nat) : Queue :=
  { sqBase := qnew s fn Reg.qeQnewSqBase, sqLog2 := qnew s fn Reg.qeQnewSqLog2, cqBase := qnew s fn Reg.qeQnewCqBase,
    cqLog2 := qnew s fn Reg.qeQnewCqLog2, watch := qnew s fn Reg.qeQnewWatchAddr, headw := qnew s fn Reg.qeQnewHeadAddr,
    head := 0, tail := 0, defer := false, done := 0, cqHead := 0, waitc := [], irqN := 0, irqFirst := 0, held := none, marks := [],
    destroying := false }

/-- The interrupt settings of a slot as CREATE leaves them. -/
def slotIrq (s : State) (fn q : Nat) : State :=
  setF (setF (setF (setF s (slotF Reg.qeQirqIrqEn q) (qnew s fn Reg.qeQnewIrqIrqEn)) (slotF Reg.qeQirqSample q)
    (qnew s fn Reg.qeQnewIrqSample)) (slotF Reg.qeQirqCount q) (qnew s fn Reg.qeQnewIrqCount)) (slotF Reg.qeQirqTicks q)
    (qnew s fn Reg.qeQnewIrqTicks)

/-- Whether QE_QCMD of a function is busy (R423): OP is then ignored and counted. -/
def qcmdBusy (s : State) (fn : Nat) : Bool := mhas s.host.qcmdBusy fn

/-- QUEUE_CREATE (R417), a write of CREATE to QE_QCMD of a function. -/
def queueCreate (fn : Nat) (s : State) : State :=
  if !(portOpen s) || !(fnEnabled s fn) || fn > 511 then s
  else if qcmdBusy s fn then bump s Reg.qeHosterrCmd
  else if !(ctxOpen s fn) then qcmdStatus (bump s Reg.qeRefuseNoContext) fn .noContext
  else match (List.range 8).find? (fun i => (queueOf s (8 * fn + i)).isNone) with
    | none => qcmdStatus (bump s Reg.qeRefuseTableFull) fn .tableFull
    | some slot =>
      let wa := qnew s fn Reg.qeQnewWatchAddr
      if !(qnewOk s fn) then qcmdStatus s fn .malformed
      else if !(qnewIn s fn) then qcmdStatus s fn .accessDenied
      else match (if (pageEnt s (pageNo wa)).pins ≥ 255 then none else watchHome s wa) with
        | none => qcmdStatus (bump s Reg.qeRefuseTableFull) fn .tableFull
        | some t =>
          let q := 8 * fn + slot
          let t := watchPin (modHost t (fun h => { h with queues := mput h.queues q (queueNew s fn) })) wa true
          let t := setF (qcmdStatus (slotIrq t fn q) fn .ok) (Reg.qeQcmdRslot.pg fn) slot
          fstatChanged t fn

/-- QUEUE_DESTROY (R423), a write of DESTROY with SLOT to QE_QCMD of a function: the queue stops fetching. -/
def queueDestroy (fn slot : Nat) (s : State) : State :=
  if !(portOpen s) || !(fnEnabled s fn) || fn > 511 then s
  else if qcmdBusy s fn then bump s Reg.qeHosterrCmd
  else
    let s := setF s (Reg.qeQcmdSlot.pg fn) slot
    let q := 8 * fn + slot % 8
    match queueOf s q with
    | none => qcmdStatus s fn .malformed
    | some _ =>
      let s := modQueue s q (fun x => { x with destroying := true })
      setF (modHost s (fun h => { h with qcmdBusy := mput h.qcmdBusy fn (slot % 8) })) (Reg.qeQcmdBusy.pg fn) 1

/-- Whether fetched descriptors of a queue have yet to complete (R423). -/
def queueOpenWork (s : State) (q : Nat) : Bool :=
  s.host.work.any (fun w => w.queue = q && !w.orphan) || s.twin.held.any (fun h => h.1 = q)

/-- QUEUE_DESTROY_DONE (R423): every fetched descriptor has completed; completions that do not fit the ring are discarded. -/
def queueDestroyDone (fn : Nat) (s : State) : State :=
  match mget s.host.qcmdBusy fn with
  | none => s
  | some slot =>
    let q := 8 * fn + slot
    if queueOpenWork s q then s
    else
      let s := drainCq true 4096 s q
      let s := freeQueue s q
      let s := setF (modHost s (fun h => { h with qcmdBusy := mdel h.qcmdBusy fn })) (Reg.qeQcmdBusy.pg fn) 0
      fstatChanged (qcmdStatus s fn .ok) fn

/-- Marks above the head (R438). -/
def liveMarks (x : Queue) : List Mark :=
  x.marks.filter (fun m => decide (1 ≤ (m.tail + 2 ^ 32 - x.head) % 2 ^ 32) && decide ((m.tail + 2 ^ 32 - x.head) % 2 ^ 32 ≤ (x.tail + 2 ^ 32 - x.head) % 2 ^ 32))

/-- A mark for an accepted tail (R438): a ninth replaces the newest mark's tail and keeps its tick. -/
def addMark (ms : List Mark) (tail tick : Nat) : List Mark :=
  if ms.length < 8 then ms ++ [⟨tail, tick⟩] else ms.take 7 ++ ((ms.drop 7).take 1).map (fun m => ⟨tail, m.tick⟩)

/-- A tail is accepted (R419). -/
def acceptTail (s : State) (q t : Nat) : State :=
  let sample := flagF s (slotF Reg.qeQirqSample q)
  modQueue s q (fun x =>
    let y := { x with tail := t }
    { y with marks := if sample then addMark (liveMarks y) t (tickOf s) else y.marks })

/-- WATCH_WORD_WAKE (R419): the queue engine reads the word after a write that touched it. -/
def watchWordWake (queue : Nat) (s : State) : State :=
  if !(ringUp s) || !(s.host.wakes.contains queue) then s
  else
    let s := modHost s (fun h => { h with wakes := h.wakes.filter (· != queue) })
    match queueOf s queue with
    | none => s
    | some x =>
      let r := nrRead s x.watch 8
      let t := getLE r.2.bytes 0 4
      if r.2.timeout then s
      else if r.2.bad then consumeNr r.1 (r.2.first x.watch)
      else if decide ((t + 2 ^ 32 - x.tail) % 2 ^ 32 ≤ (t + 2 ^ 32 - x.head) % 2 ^ 32) && decide ((t + 2 ^ 32 - x.head) % 2 ^ 32 ≤ 2 ^ x.sqLog2)
      then acceptTail r.1 queue t
      else bump r.1 Reg.qeHosterrTail

/-! ### Fetching (R420, R424, R428, R429, R434) -/

/-- Whether the queue engine may visit a queue (R420, R421, R423, R57). -/
def mayVisit (s : State) (q : Nat) (x : Queue) : Bool :=
  x.head != x.tail && !x.destroying && x.held.isNone && decide (x.waitc.length < 64)
    && !(s.twin.st = 3 && queueTenant q = getF s Reg.tckTwinCtrlTenant)

/-- The queue that rotation visits next. -/
def visitNext (s : State) : Option Nat :=
  let qs := (s.host.queues.filter (fun q => mayVisit s q.1 q.2)).map (·.1)
  match qs.find? (fun q => decide (s.host.lastVisit < q)) with
  | some q => some q
  | none => qs.head?

/-- A fetched descriptor's record. -/
def workNew (s : State) (q seq : Nat) (d : List Byte) : Work :=
  ⟨s.host.nextId, queueTenant q, q, seq, getLE d 0 1, getLE d 4 4, (getLE d 1 1).testBit 0, d, tickOf s, expiryOf s Reg.fwToDescDesc, false, false⟩

/-- A descriptor is fetched (R420, R424, R425, R428): it joins the descriptors in flight; one whose class, header or ADMIN command is
undefined, or that is poisoned (`bad`, its first poisoned word), completes at once. -/
def fetchOne (s : State) (q : Nat) (d : List Byte) (bad : Option Nat) : State :=
  match queueOf s q with
  | none => s
  | some x =>
    let w := workNew s q x.head d
    let s := modQueue s q (fun x =>
      let y := { x with head := (x.head + 1) % 2 ^ 32, defer := false, held := if bad.isNone && holdsQueue w.cls then some w.id else none }
      { y with marks := liveMarks y })
    let s := modHost s (fun h => { h with work := h.work ++ [w], nextId := h.nextId + 1 })
    match bad with
    | some b => complete (consumeNr s b) w .poisoned
    | none => if !(classKnown w.cls) || !(headerOk d) || (w.cls = 0x20 && !(adminKnown w.cmd)) then complete s w .malformed
    else s

/-- A visit (R420): meter the head descriptor, fetch it unless it is deferred, up to BURST times. Over the cap only ADMIN is fetched
(R476). -/
def visitLoop : Nat → State → Nat → State
  | 0, s, _ => s
  | f + 1, s, q =>
    match queueOf s q with
    | none => s
    | some x =>
      if !(mayVisit s q x) then s
      else
        let a := x.sqBase + (x.head % 2 ^ x.sqLog2) * 64
        let r := nrRead s a 64
        if r.2.timeout || (flagF s Reg.rstPowerCapped && getLE r.2.bytes 0 1 != 0x20) then s
        else
          let m := meterTake s false (queueTenant q) 1000
          match m.2 with
          | .red => bump (modQueue m.1 q (fun x => { x with defer := true })) Reg.tsHstatRed
          | c =>
            let s := if c = .yellow then bump m.1 Reg.tsHstatYellow else m.1
            let r := nrRead s a 64
            visitLoop f (fetchOne r.1 q r.2.bytes (if r.2.bad then some (r.2.first a) else none)) q

/-- QUEUE_VISIT (R420, R418): after the burst the count of descriptors fetched is written to the SQ head word. -/
def queueVisit (s : State) : State :=
  if !(ringUp s) || s.power.warmPend || s.power.flushing then s
  else match visitNext s with
    | none => s
    | some q =>
      let old := (queueOf s q).map (·.head)
      let s := modHost s (fun h => { h with lastVisit := q })
      let s := visitLoop (atLeast1 s Reg.qeCtrlBurst) s q
      match queueOf s q with
      | some x => if some x.head = old then s else nrPut s x.headw (toBytes 8 x.head)
      | none => s

/-! ### Completions and interrupts (R421, R431) -/

/-- CQ_HEAD_READ (R421): at a tick edge while completions of the queue wait for ring space. -/
def cqHeadRead (queue : Nat) (s : State) : State :=
  match queueOf s queue with
  | some x =>
    if !(ringUp s) || s.power.flushing || x.waitc.isEmpty then s
    else drainCq false (x.waitc.length + 1) (readCqHead s queue) queue
  | none => s

/-- IRQ_COALESCE_TIMEOUT (R431): TICKS ticks have passed since the first completion that no interrupt has reported. -/
def irqCoalesceTimeout (queue : Nat) (s : State) : State :=
  match queueOf s queue with
  | some x =>
    let t := getF s (slotF Reg.qeQirqTicks queue)
    if flagF s (slotF Reg.qeQirqIrqEn queue) && t != 0 && x.irqN != 0 && decide (tickOf s ≥ x.irqFirst + t) then fireIrq s queue else s
  | none => s

/-- MSIX_UNMASK (R431, PCIe): MSI-X of a function is enabled, its function mask is cleared, or the mask of one entry; what its pending
bits hold is sent. -/
def msixUnmask (fn : Nat) (entry : Option Nat) (s : State) : State :=
  if !(fnEnabled s fn) || fn > 511 then s
  else
    let m := msixOf s fn
    match entry with
    | none => (List.range 9).foldl (fun s e => msixFlush s fn e) (setMsix s fn { m with enabled := true, fmask := false })
    | some e => if e > 8 then s else msixFlush (setMsix s fn { m with ents := mput m.ents e { m.ent e with masked := false } }) fn e

/-! ### Sampling (R438) -/

/-- DELAY of a queue (R438). -/
def queueDelay (s : State) (x : Queue) : Nat :=
  if x.head = x.tail then 0 else match (liveMarks x).head? with | some m => tickOf s - m.tick | none => 0

/-- The 16 bytes of a sample. -/
def sampleBytes (s : State) (q : Nat) (x : Queue) : List Byte :=
  toBytes 8 (tickOf s) ++ toBytes 2 q ++ toBytes 2 (min 65535 ((x.tail + 2 ^ 32 - x.head) % 2 ^ 32)) ++ toBytes 4 (min (2 ^ 32 - 1) (queueDelay s x))

/-- A sample is written, or dropped and counted where the ring is full or lies outside the node range. -/
def sampleOne (s : State) (q : Nat) (x : Queue) : State :=
  let wr := getF s Reg.tsSamplePtrWr
  let n := 2 ^ (min 20 (max 4 (getF s Reg.tsSampleLog2)))
  let a := getF s Reg.tsSampleBase + (wr % n) * 16
  if (wr + 2 ^ 32 - getF s Reg.tsSamplePtrRd) % 2 ^ 32 < n && inWindow s 0 a 16 then
    setF (nrPut s a (sampleBytes s q x)) Reg.tsSamplePtrWr (wr + 1)
  else bump s Reg.tsCtrlDropped

/-- QUEUE_SAMPLE (R438): at a tick edge whose count is a multiple of PERIOD. -/
def queueSample (s : State) : State :=
  if !(ringUp s) || s.power.flushing || !(flagF s Reg.tsCtrlSampleEn) || tickOf s % atLeast1 s Reg.tsCtrlPeriod != 0 then s
  else s.host.queues.foldl (fun s q => if flagF s (slotF Reg.qeQirqSample q.1) then sampleOne s q.1 q.2 else s) s

end Sys2Proof.Machine
end

