-- ==== Sys2Proof/Machine/RegView.lean ====
section
/-! DEFINITION. What every register reads (R10, R11, R521–R525): fields that the model stores, and read-only fields that show other
state. -/
namespace Sys2Proof.Machine

/-- A quantity in units of `d`; whether a part of a unit counts as one is open (log entry 6). -/
def showUnits (n d : Nat) : Nat := n / d + b2n (n % d != 0 && Config.roundsUp n d)

/-- The base field of a register run is `f`. -/
def isF (f g : Fld) : Bool := f.off = g.off && f.lo = g.lo

/-- The first value of a list whose field is the one asked for. -/
def pickF (f : Fld) : List (Fld × (Unit → Nat)) → Option Nat
  | [] => none
  | (g, v) :: r => if isF f g then some (v ()) else pickF f r

/-- ID_ and RST_ fields (R2, R52, R478). -/
def viewId (s : State) (f : Fld) : Option Nat :=
  pickF f [(Reg.idPartPart, fun _ => partId s.part % 2 ^ 16), (Reg.idPartVariant, fun _ => partId s.part / 2 ^ 16 % 2 ^ 8),
    (Reg.idPartBlocks, fun _ => partId s.part / 2 ^ 24 % 2 ^ 8), (Reg.idPartKsites, fun _ => partId s.part / 2 ^ 32 % 2 ^ 8),
    (Reg.idNumsigNative, fun _ => nativeSig s.part), (Reg.rstCtrlPinCold, fun _ => b2n s.crown.pinCold)]

/-- TCK_ fields (R61). -/
def viewTck (s : State) (f : Fld) : Option Nat :=
  pickF f [(Reg.tckCountCount, fun _ => tickOf s), (Reg.tckStatusState, fun _ => s.bow.st.code),
    (Reg.tckStatusLostWhy, fun _ => s.bow.why.code), (Reg.tckStatusPhase, fun _ => ux 16 s.bow.phase),
    (Reg.tckSchedUsed, fun _ => s.bow.sched.length), (Reg.tckTwinStatusState, fun _ => s.twin.st),
    (Reg.tckTwinStatusRole, fun _ => b2n (getF s Reg.rstStrapTwin = 2))]

/-- SRC_, SEL_ and CRD_ fields (R132, R168, R169, R196). A merge and a Carder's descriptor are whole commands here, so no tree and no
Carder but one with a SCATTER shows busy. -/
def viewSearch (s : State) (f : Fld) : Option Nat :=
  pickF f [(Reg.srcStatusActive, fun _ => (s.srch.searches.filter (fun x => x.2.phase != .waiting)).length),
    (Reg.srcStatusWaiting, fun _ => (s.srch.searches.filter (fun x => x.2.phase = .waiting)).length),
    (Reg.srcStatusShards, fun _ => s.srch.shards.length), (Reg.srcStatusIndexes, fun _ => s.srch.indexes.length),
    (Reg.srcVerUsed, fun _ => s.srch.versions.length), (Reg.selStatusWaiting, fun _ => s.srch.merges.length),
    (Reg.crdStatusActive, fun _ => 2 ^ min 8 (s.card.scatters.filter (fun x => x.2.begun)).length - 1),
    (Reg.crdStatusWaiting, fun _ => s.card.waiting.length + (s.card.scatters.filter (fun x => !x.2.begun)).length),
    (Reg.crdStatusTables, fun _ => s.card.tables.length), (Reg.crdStatusPins, fun _ => s.card.pins.length)]

/-- Spares of a block-column (R221): usable blocks beyond the part's rows. -/
def sparesOf (s : State) (j : Nat) : Nat := (usable s j).length - blockRows s.part

/-- FLT_ fields (R221, R274). -/
def viewFlt (s : State) (f : Fld) (i : Nat) : Option Nat :=
  match pickF f [(Reg.fltCapEnabled, fun _ => partBlocks s.part), (Reg.fltCapRows, fun _ => blockRows s.part),
    (Reg.fltDefectDefect, fun _ => s.felt.defect % 2 ^ 64), (Reg.fltBlkHiDefectHi, fun _ => s.felt.defect / 2 ^ 64 % 2 ^ 8),
    (Reg.fltBlkHiPending, fun _ => maskOf 8 (fencePending s)),
    (Reg.fltBlkHiSpares, fun _ => sumNat ((List.range 8).map (fun j => (sparesOf s j % 4) * 4 ^ j))),
    (Reg.fltBlkHiShort, fun _ => maskOf 8 (fun j => decide ((usable s j).length < blockRows s.part))),
    (Reg.fltBusyHeld, fun _ => heldBlocks s),
    (Reg.fltImagesLoaded, fun _ => maskOf 16 (fun k => mhas s.felt.images k)),
    (Reg.fltImagesRunning, fun _ => maskOf 16 (fun k => ((imageOf s k).bind (·.run)).isSome))] with
  | some v => some v
  | none => if f.off = Reg.fltMapBlock0.off then some ((physOf s (8 * i + f.lo / 8)).getD 0xFF) else none

/-- MC_ and KTL_ fields (R300, R301). -/
def viewMc (s : State) (f : Fld) (i : Nat) : Option Nat :=
  pickF f [(Reg.mcCapFrames, fun _ => siteFrames s.part i), (Reg.mcCapKettles, fun _ => b2n (isKettleSite s.part i)),
    (Reg.mcStatusQueued, fun _ => (mget s.dram.queued i).getD 0), (Reg.mcStatusHot, fun _ => b2n (siteHot s i)),
    (Reg.mcStatusWindow, fun _ => b2n (ksiteOf s i).window), (Reg.mcStatusFenced, fun _ => b2n (siteFenced s i)),
    (Reg.ktlPcdirDirect, fun _ => maskOf 32 (kDirect s (4 + i))), (Reg.ktlStatusQueued, fun _ => (ksiteOf s (4 + i)).jobs.length),
    (Reg.ktlStatusWindow, fun _ => b2n (ksiteOf s (4 + i)).window),
    (Reg.ktlStatusRunning, fun _ =>
      (((ksiteOf s (4 + i)).kettles.filter (fun k => k.2.running)).foldl (fun l k => sinsert l (k.1 / 4)) []).length)]

/-- The oldest entry of the integrity log. -/
def intOldest (s : State) : IntEnt := s.integ.log.headD ⟨0, 0, 0, 0, 0, 0⟩

/-- INT_ fields (R323). -/
def viewInt (s : State) (f : Fld) (i : Nat) : Option Nat :=
  pickF f [(Reg.intScrubposLine, fun _ => scrubAt s i), (Reg.intLogStatusCount, fun _ => s.integ.log.length),
    (Reg.intLogTickTick, fun _ => (intOldest s).tick), (Reg.intLogEntryKind, fun _ => (intOldest s).kind),
    (Reg.intLogEntryPlace, fun _ => (intOldest s).place), (Reg.intLogEntryPos, fun _ => (intOldest s).pos),
    (Reg.intLogEntryUnit, fun _ => (intOldest s).unit), (Reg.intLogEntryAddr, fun _ => (intOldest s).addr)]

/-- Pages at which a test of the home holds. -/
def pagesAt (s : State) (p : PageEnt → Bool) : Nat := (s.tiers.home.filter (fun e => p e.2)).length

/-- Whether a home is a frame of a site. -/
def homeOn (site : Nat) (h : Home) : Bool := match h with | .t2 i _ => i = site | _ => false

/-- Whether a home is LENT. -/
def isLent (h : Home) : Bool := match h with | .lent .. => true | _ => false

/-- TIR_ fields (R350). -/
def viewTir (s : State) (f : Fld) (i : Nat) : Option Nat :=
  pickF f [(Reg.tirRangeReserved, fun _ => 2 * homeFrames s), (Reg.tirPoolPool, fun _ => poolFrames s), (Reg.tirPoolFree, fun _ => poolFree s), (Reg.tirPoolMoves, fun _ => s.tiers.moves.length),
    (Reg.tirSiteFree, fun _ => freeFrames s i), (Reg.tirSitePages, fun _ => pagesAt s (fun e => homeOn i e.home)),
    (Reg.tirSiteLent, fun _ => (s.tiers.lentOut.filter (fun l => l.2.site = i && l.2.borrower.isSome)).length),
    (Reg.tirLendLent, fun _ => lentNow s), (Reg.tirBorrowPages, fun _ => pagesAt s (fun e => isLent e.home)),
    (Reg.tirTenUseT2, fun _ => t2Count s i), (Reg.tirTenUseAll, fun _ => pagesAt s (fun e => e.tenant = i && e.home != .zero))]

/-- FSH_ fields (R377). -/
def viewFsh (s : State) (f : Fld) : Option Nat :=
  pickF f [(Reg.fshStatusState, fun _ => s.flash.st), (Reg.fshStatusRebuild, fun _ => b2n (!s.flash.rebuild.isEmpty)),
    (Reg.fshStatusNospace, fun _ => b2n s.flash.noSpace), (Reg.fshStatusWidth, fun _ => (bandChannels s).length),
    (Reg.fshSpaceLogical, fun _ => s.flash.logical), (Reg.fshSpaceMapped, fun _ => mappedFlus s),
    (Reg.fshSlcTargetGib, fun _ => if s.flash.st = 0 then 0 else showUnits s.flash.slcB (2 ^ 30)),
    (Reg.fshSlcUsedGib, fun _ => showUnits (slcHeld s) (2 ^ 30)), (Reg.fshSlcReserveMib, fun _ => showUnits (min (2 ^ 30) (erasedSlc s)) (2 ^ 20)),
    (Reg.fshMapDeltaKib, fun _ => showUnits (s.flash.deltas.length * 8) 1024), (Reg.fshMapCacheKib, fun _ => s.flash.cache.length * 16),
    (Reg.fshMapFrames, fun _ => flashFrames s), (Reg.fshRebuildPending, fun _ => s.flash.rebuild.length),
    (Reg.fshRefuseRetired, fun _ => s.flash.retired.length)]

/-- Ports in a state. -/
def portsIn (s : State) (st : Nat) : Nat := maskOf 16 (fun p => portSt s p = st)

/-- BRM_ and RMA_ fields (R406, R407). -/
def viewBrm (s : State) (f : Fld) : Option Nat :=
  pickF f [(Reg.brmUpUp, fun _ => portsIn s 2), (Reg.brmUpQuar, fun _ => portsIn s 3), (Reg.brmUpFenced, fun _ => portsIn s 4),
    (Reg.rmaStatusRegions, fun _ => s.brim.regions.length), (Reg.rmaStatusOutstanding, fun _ => s.brim.ops.length),
    (Reg.rmaStatusReasm, fun _ => s.brim.reasm.length), (Reg.rmaStatusAtomics, fun _ => s.brim.atomics.length)]

/-- BASE, PAGES or OPEN of a tenant's window (R440). -/
def winBase (s : State) (t : Nat) : Nat := match mget s.host.ctxs t with | some c => c.base | none => 0
/-- PAGES. -/
def winPages (s : State) (t : Nat) : Nat :=
  if t = 0 then rangePages s else match mget s.host.ctxs t with | some c => c.pages | none => 0

/-- A value of a queue's slot, zero where it is empty (R439). -/
def slotShow (s : State) (q : Nat) (g : Queue → Nat) : Nat := match queueOf s q with | some x => g x | none => 0

/-- QE_ fields of the function page of tenant `t`, slot `i`, and of the queue engine (R439, R440). -/
def viewQe (s : State) (f : Fld) (t i : Nat) : Option Nat :=
  let q := 8 * t + i
  pickF f [(Reg.qeFstatTenant, fun _ => t), (Reg.qeFstatOpen, fun _ => b2n (ctxOpen s t)),
    (Reg.qeFstatQueues, fun _ => maskOf 8 (fun k => (queueOf s (8 * t + k)).isSome)),
    (Reg.qeQcmdBusy, fun _ => b2n (qcmdBusy s t)),
    (Reg.qeQsqBase, fun _ => slotShow s q (·.sqBase)), (Reg.qeQsqLog2, fun _ => slotShow s q (·.sqLog2)),
    (Reg.qeQcqBase, fun _ => slotShow s q (·.cqBase)), (Reg.qeQcqLog2, fun _ => slotShow s q (·.cqLog2)),
    (Reg.qeQwatchAddr, fun _ => slotShow s q (·.watch)), (Reg.qeQheadAddr, fun _ => slotShow s q (·.headw)),
    (Reg.qeQstatHead, fun _ => slotShow s q (·.head)), (Reg.qeQstatDone, fun _ => slotShow s q (·.done)),
    (Reg.qeQtailTail, fun _ => slotShow s q (·.tail)), (Reg.qeQtailDefer, fun _ => slotShow s q (fun x => b2n x.defer)),
    (Reg.qeQtailCqfull, fun _ => slotShow s q (fun x => b2n (!x.waitc.isEmpty))),
    (Reg.qeFwinBase, fun _ => winBase s t), (Reg.qeFwinPages, fun _ => winPages s t), (Reg.qeFwinOpen, fun _ => b2n (ctxOpen s t)),
    (Reg.qeStatusContexts, fun _ => s.host.ctxs.length + 1), (Reg.qeStatusQueues, fun _ => s.host.queues.length),
    (Reg.qeWinBase, fun _ => winBase s i), (Reg.qeWinPages, fun _ => winPages s i), (Reg.qeWinOpen, fun _ => b2n (ctxOpen s i))]

/-- Pages still on a draining site, and the pinned ones among them (R456). -/
def drainPages (s : State) (site : Nat) : Nat := pagesAt s (fun e => homeOn site e.home)
/-- Pinned pages on a site. -/
def drainPinned (s : State) (site : Nat) : Nat := pagesAt s (fun e => homeOn site e.home && e.pins != 0)

/-- Frames of a site that hold pages, lent frames or frames of the firmware still to be moved (R456). -/
def drainLeft (s : State) (site : Nat) : Nat := (usedFrames s site).length

/-- FW_STACK.STATE (R456, R461): REFUSED is stored; a drain in progress shows how far it is. -/
def drainState (s : State) : Nat :=
  match s.fw.draining with
  | none => getF s Reg.fwStackState
  | some site =>
    if drainLeft s site = 0 then 2
    else if drainPages s site != 0 && drainPages s site = drainPinned s site && drainLeft s site = drainPages s site then 3
    else 1

/-- VERSION of a package (R489). -/
def pkgVersion (b : List Byte) : Nat := getLE b 4 4

/-- The package of a firmware slot, where R490 found it valid. -/
def slotPkg (s : State) (k : Nat) : Option (List Byte) :=
  match mget s.crown.slots k with
  | some x => if x.valid then some x.bytes else none
  | none => none

/-- VERSION of a slot; 0 where it is invalid (R502). -/
def slotVersion (s : State) (k : Nat) : Nat := match slotPkg s k with | some b => pkgVersion b | none => 0

/-- The package that runs. -/
def runPkg (s : State) : List Byte := match mget s.crown.slots s.crown.running with | some x => x.bytes | none => []

/-- FW_ fields (R461). -/
def viewFw (s : State) (f : Fld) : Option Nat :=
  pickF f [(Reg.fwStatusSlot, fun _ => s.crown.running), (Reg.fwStatusVersion, fun _ => pkgVersion (runPkg s)),
    (Reg.fwStackState, fun _ => drainState s), (Reg.fwStackFenced, fun _ => s.fw.fencedSites),
    (Reg.fwStackUnfencePending, fun _ => s.fw.unfencePend),
    (Reg.fwStackPages, fun _ => match s.fw.draining with | some i => drainPages s i | none => 0),
    (Reg.fwStackPinned, fun _ => match s.fw.draining with | some i => min 255 (drainPinned s i) | none => 0),
    (Reg.fwJobAttached, fun _ => b2n s.crown.attach.isSome), (Reg.fwJobBusy, fun _ => b2n s.fw.jobCmd.isSome),
    (Reg.fwJobGen, fun _ => match s.crown.attach with | some (_, g) => g | none => 0),
    (Reg.fwJobId, fun _ => match s.crown.attach with | some (i, _) => i | none => 0),
    (Reg.fwClosedValid, fun _ => b2n s.crown.closed.isSome),
    (Reg.fwClosedCause, fun _ => match s.crown.closed with | some (_, _, c) => c | none => 0),
    (Reg.fwClosedGen, fun _ => match s.crown.closed with | some (_, g, _) => g | none => 0),
    (Reg.fwClosedId, fun _ => match s.crown.closed with | some (i, _, _) => i | none => 0)]

/-- The hottest of readings from number `a` on, lowest number on a tie: reading and number. -/
def hottest (ts : List Int) (a n : Nat) : Int × Nat :=
  (List.range n).foldl (fun (b : Int × Nat) i => if (ts.getD (a + i) 0) > b.1 then (ts.getD (a + i) 0, i) else b) (ts.getD a 0, 0)

/-- The record with the newest capture. -/
def newestFrec (s : State) : Nat :=
  ((s.crown.frecs.foldl (fun (b : Option (Nat × Nat)) r => match b with
    | some x => if r.2.seq > x.2 then some (r.1, r.2.seq) else b
    | none => some (r.1, r.2.seq)) none).map (·.1)).getD 0

/-- A thermal point, a site temperature or a rail as the Crown last read it. -/
def railOf (s : State) (m : Nat) : Nat × Nat := s.crown.rails.getD m (0, 0)

/-- CRN_STATUS.STATE (R502). -/
def crnState (s : State) : Nat :=
  if s.crown.transfer.isSome then 3 else if s.crown.recovery then 2 else if getF s Reg.rstStatusStep = 1 then 0 else 1

/-- CRN_ fields (R502). -/
def viewCrn (s : State) (f : Fld) (i : Nat) : Option Nat :=
  let d := hottest s.crown.temps 0 64
  let m := hottest s.crown.temps 64 8
  match pickF f [(Reg.crnStatusState, fun _ => crnState s), (Reg.crnStatusSlot, fun _ => s.crown.running),
    (Reg.crnStatusPending, fun _ => b2n s.crown.pend.isSome), (Reg.crnStatusRoot, fun _ => getLE (runPkg s) 12 1),
    (Reg.crnStatusRootRevoked, fun _ => b2n s.crown.rootRevoked), (Reg.crnStatusOwners, fun _ => maskOf 4 (fun k => mhas s.crown.owners k)),
    (Reg.crnFwverSlotA, fun _ => slotVersion s 0), (Reg.crnFwverSlotB, fun _ => slotVersion s 1),
    (Reg.crnTmaxDie, fun _ => ux 16 d.1), (Reg.crnTmaxDiePt, fun _ => d.2), (Reg.crnTmaxSite, fun _ => ux 16 m.1),
    (Reg.crnTmaxSiteNo, fun _ => m.2), (Reg.crnLogNextSeq, fun _ => s.crown.nextSeq), (Reg.crnLogCount, fun _ => s.crown.log.length),
    (Reg.crnFrecValid, fun _ => maskOf 8 (fun k => mhas s.crown.frecs k)),
    (Reg.crnFrecHeld, fun _ => maskOf 8 (fun k => (mget s.crown.frecs k).any (·.held))),
    (Reg.crnFrecBusy, fun _ => b2n s.crown.capture.isSome), (Reg.crnFrecNewest, fun _ => newestFrec s),
    (Reg.crnRailMv, fun _ => (railOf s i).1), (Reg.crnRailAmp, fun _ => (railOf s i).2),
    (Reg.crnRailWatt, fun _ => showUnits ((railOf s i).1 * (railOf s i).2) 4000)] with
  | some v => some v
  | none =>
    if f.off = Reg.crnSvnFused0.off then some ((mget s.crown.fuses (8 * i + f.lo / 8)).getD 0)
    else if f.off = Reg.crnTempT0.off then some (ux 16 (s.crown.temps.getD (4 * i + f.lo / 16) 0))
    else none

/-- A read-only field that shows other state: none where the field is stored. -/
def roView (s : State) (f : Fld) (t i : Nat) : Option Nat :=
  let m := f.off / 0x100000
  if f.off ≥ pageBase then viewQe s f t i
  else if f.off < 0x20000 then viewId s f
  else if f.off < 0x38000 then viewTck s f
  else if m = 0 then viewCrn s f i
  else if m = 1 then viewQe s f t i
  else if m = 3 || m = 4 || m = 5 then viewSearch s f
  else if m = 6 then viewFlt s f i
  else if m = 8 || m = 9 then viewMc s f i
  else if m = 10 then viewInt s f i
  else if m = 11 then viewTir s f i
  else if m = 12 then viewFsh s f
  else if m = 13 || m = 14 then viewBrm s f
  else if m = 15 then viewFw s f
  else none

/-- A field of register `i` of a run as it reads; `t` the tenant of a function page. Write-only fields read zero (R10). -/
def fieldVal (s : State) (f : Fld) (t i : Nat) : Nat :=
  match f.ty with
  | .wo => 0
  | .ro => match roView s f t i with
    | some v => v % 2 ^ f.wid
    | none => getF s ((f.pg t).ix i)
  | _ => getF s ((f.pg t).ix i)

/-- The register at an offset: its run and its number. Offsets from `pageBase` on are those of the function pages. -/
def findReg (off : Nat) : Option (RegRun × Nat × Nat) :=
  let t := if off ≥ pageBase then (off - pageBase) / 0x10000 else 0
  let o := off - t * 0x10000
  (regTable.find? (fun r => decide (r.off ≤ o) && (o - r.off) % r.stride = 0 && decide ((o - r.off) / r.stride < r.count))).map
    (fun r => (r, t, (o - r.off) / r.stride))

/-- What a register reads; an offset with none reads zero (R11). -/
def regVal (s : State) (off : Nat) : Nat :=
  match findReg off with
  | some (r, t, i) => sumNat (r.flds.map (fun f => fieldVal s f t i * 2 ^ f.lo))
  | none => 0

end Sys2Proof.Machine
end

