-- ==== Sys2Proof/Machine/ResetCore.lean ====
section
/-! DEFINITION. Resets as shared operations (R462–R468, R479, R499): what a source asks for, how work stops, what each reach keeps, the
job that a reset closes, the registers a failure record shows. -/
namespace Sys2Proof.Machine

/-- Update the reset and power part of the state. -/
def modPower (s : State) (f : Power → Power) : State := { s with power := f s.power }

/-! ### Requests (R463, R465) -/

/-- A source sets its bit (R463). -/
def setCause (s : State) (i : Nat) : State := setF s Reg.rstCauseCause (getF s Reg.rstCauseCause ||| 2 ^ i)

/-- Source `i` asks for a cold reset: it takes the place of any other request. -/
def askCold (s : State) (i : Nat) : State :=
  modPower (setCause s i) (fun p => { p with coldPend := true, warmPend := false, feltPend := false, causes := p.causes ||| 2 ^ i })

/-- Source `i` asks for a warm reset: it merges into a cold one, and in step 1 of a start-up only its bit is set. -/
def askWarm (s : State) (i : Nat) : State :=
  let s' := setCause s i
  if s.power.coldPend then modPower s' (fun p => { p with causes := p.causes ||| 2 ^ i })
  else if getF s Reg.rstStatusStep < 2 then s'
  else modPower s' (fun p => { p with
    warmPend := true, feltPend := false, causes := p.causes ||| 2 ^ i, prepStart := if p.warmPend then p.prepStart else s.now })

/-- Source `i` asks for a Felt-only reset: absorbed while a wider one is pending or start-up runs. -/
def askFelt (s : State) (i : Nat) : State :=
  let s' := setCause s i
  if s.power.coldPend || s.power.warmPend || getF s Reg.rstStatusStep != 9 then s'
  else modPower s' (fun p => { p with feltPend := true, causes := p.causes ||| 2 ^ i })

/-- Whether the node can act on a source: VDD_MGMT is there and no thermal trip holds it (R474, R477). -/
def live (s : State) : Bool := s.power.vddMgmt && !s.power.tripped

/-- Whether the power-loss flush holds resets back until its marker (R465, R376). -/
def flushHolds (s : State) : Bool := s.power.flushing

/-! ### Work stops (R374, R466) -/

/-- Work of every engine stops; no completion is written for any of it. -/
def stopWork (s : State) : State :=
  let s := modHost s (fun h => { h with
    work := [], wakes := [], queues := h.queues.map (fun q => (q.1, { q.2 with waitc := [], held := none })) })
  let s := modSrch s (fun r => { r with coords := [], searches := [], merges := [], updates := [], slots := [] })
  let s := modCard s (fun c => { c with waiting := [], scatters := [], tables := c.tables.map (fun t => (t.1, { t.2 with queue := [] })) })
  let s := modFelt s (fun f => { f with
    role := none, images := f.images.map (fun i => (i.1, { i.2 with run := none, flits := [], xfers := [], freeze := none, unload := none })) })
  let s := modBrim s (fun b => { b with ops := [], msgs := [], writes := [], reasm := [], forwards := [] })
  let s := modFlash s (fun f => { f with waitw := [], reads := [] })
  let s := modTwin s (fun t => { t with own := [], peer := [], held := [], unsent := [] })
  { modTiers (modBow s (fun b => { b with sched := [] })) (fun t => { t with waiting := [] }) with
    kettle := s.kettle.map (fun k => (k.1, { k.2 with jobs := [], kettles := [], window := false })) }

/-- Committed newer versions are folded, pending ones discarded (R466 step 3). -/
def foldCommitted (s : State) : State :=
  let s := s.srch.shards.foldl (fun s x =>
    match ctxOf s x.1 with
    | none => s
    | some (h, c) => ((versionsOf s x.1).filter (fun v => decide (v.2.vfrom ≤ h.epoch))).foldl (fun s v => (foldRow s c v.1 v.2).getD s) s) s
  modSrch s (fun r => { r with versions := [] })

/-- Every move not committed is abandoned: its page is at its source (R333). -/
def abandonMoves (s : State) : State := s.tiers.moves.foldl (fun s m => abandonMove s m.1) s

/-! ### Failure records: what they show (R500) -/

/-- The register blocks a failure record shows: ID_, RST_, TCK_, FLT_, INT_, FSH_, FW_. -/
def frecRegs : List RegRun := Reg.idTable ++ Reg.rstTable ++ Reg.tckTable ++ Reg.fltTable ++ Reg.intTable ++ Reg.fshTable ++ Reg.fwTable

/-- Whether a register has a read-only or write-one-to-clear field. -/
def frecShows (r : RegRun) : Bool := r.flds.any (fun f => f.ty = .ro || f.ty = .w1c)

/-- Offsets of the registers that a failure record shows, ascending. -/
def frecOffs : List Nat :=
  sortBy (fun (a b : Nat) => decide (a ≤ b)) ((frecRegs.filter frecShows).flatMap (fun r => (List.range r.count).map (fun i => r.off + i * r.stride))
    ++ (List.range 8).map (fun i => (Reg.mcStatusQueued.ix i).off))

/-- An event-log entry as 32 bytes (R482). -/
def CrownEvt.bytes (e : CrownEvt) : List Byte :=
  toBytes 8 e.tick ++ toBytes 1 e.bow ++ toBytes 1 e.sev ++ toBytes 2 e.code ++ toBytes 4 e.seq ++ toBytes 8 e.time ++ toBytes 8 e.data

/-- The 72 temperatures and 16 rail readings, as CRN_TEMPn and CRN_RAILm (R486). -/
def sensorBytes (s : State) : List Byte :=
  (List.range 18).flatMap (fun n => toBytes 8 (regVal s ((Reg.crnTempT0.ix n).off)))
    ++ (List.range 16).flatMap (fun m => toBytes 8 (regVal s ((Reg.crnRailMv.ix m).off)))

/-- Bytes 256 to 130,975 of a failure record (R500). -/
def frecBody (s : State) : List Byte :=
  fitBytes 65536 (frecOffs.flatMap (fun o => toBytes 4 o ++ toBytes 8 (regVal s o)))
    ++ fitBytes 32768 ((s.crown.log.drop (s.crown.log.length - 1024)).flatMap CrownEvt.bytes)
    ++ fitBytes 4096 (s.integ.log.flatMap (fun e => toBytes 8 e.tick ++ toBytes 8 e.word))
    ++ fitBytes 28320 (fitBytes 576 (sensorBytes s))

/-- A capture that a reset starts shows the registers as they were at the reset (R499). -/
def captureReset (s : State) (i : Nat) : State :=
  let body := if s.crown.capture.isSome then s.crown.snapshot else frecBody s
  modCrown (triggerCapture s i) (fun c => { c with snapshot := body })

/-! ### What every reset does to the Crown's records (R460, R491) -/

/-- The bit number of the closing reset; which of several is open (log entry 6). -/
def pickCause (s : State) : State × Nat :=
  match setBitsOf 8 s.power.causes with
  | [] => (s, 0)
  | [i] => (s, i)
  | l => let r := freeVal s; (r.1, l.getD (r.2 % l.length) 0)

/-- FW_CLOSED as a register value, the DATA of event 0x0902. -/
def closedWord (s : State) : Nat := regVal s Reg.fwClosedValid.off

/-- JOB_CLOSE (R460): an attachment turns into a closed record. -/
def closeJob (s : State) : State :=
  match s.crown.attach with
  | none => s
  | some (id, gen) =>
    let r := pickCause s
    let s := modCrown r.1 (fun c => { c with attach := none, closed := some (id, gen, r.2) })
    crownEvent s 0x0902 1 (closedWord s)

/-- A firmware transfer in progress leaves its slot invalid (R491). -/
def dropTransfer (s : State) : State :=
  match s.crown.transfer with
  | none => s
  | some t => modCrown s (fun c => { c with transfer := none, slots := mmod c.slots t.slot (fun x => { x with valid := false }) })

/-- The reset is recorded (R460, R484, R491, R499): its event, the closed job, the transfer, a failure record for a brown-out, a
watchdog, a clock failure or a lock-up. -/
def recordReset (s : State) (reach : Nat) : State :=
  let s := if s.power.causes.testBit 1 then captureReset s 2 else s
  let s := if s.power.causes.testBit 3 || s.power.causes.testBit 6 || s.power.causes.testBit 7 then captureReset s 1 else s
  let s := setF s Reg.rstStatusLastReach reach
  crownEventOpen (dropTransfer (closeJob s)) 0x0201 1

/-! ### Reach (R462, R467) -/

/-- Register fields that a warm reset keeps (R344, R462, R478, R479): CRN_, the cause bits, the brown-out bits, the strap, the rails,
RST_STATUS, and the tier fields of R344. -/
def warmKeeps (key : Nat) : Bool :=
  let off := key / 64
  let lo := key % 64
  (decide (0x38000 ≤ off) && decide (off < 0x40000)) || off = Reg.rstCauseCause.off || off = Reg.rstRailBrown.off
    || off = Reg.rstStrapCode.off || off = Reg.rstStatusStep.off
    || key = Reg.tirRangePages.key || key = Reg.tirLendersNodes.key || (off = Reg.tirLendFrames.off && lo < 42)

/-- Register fields that a cold reset keeps: all of CRN_, the cause and brown-out bits, the rails. -/
def coldKeeps (key : Nat) : Bool :=
  let off := key / 64
  (decide (0x38000 ≤ off) && decide (off < 0x40000)) || off = Reg.rstCauseCause.off || off = Reg.rstRailBrown.off
    || off = Reg.rstStatusStep.off

/-- The register fields after a reset: those kept, and reset values. -/
def keepFlds (s : State) (p : Nat → Bool) : State :=
  { s with flds := mput (s.flds.filter (fun f => p f.1)) (Reg.intScrubRate.ix 3).key 0x80 }

/-- What the host side keeps: the level of CXL_PERST_N, and the CXL event logs with their interrupt policy (log entry 32). -/
def hostAfter (h : HostIf) : HostIf := { hostReset with perstLow := h.perstLow, cxlLogs := h.cxlLogs, evtPolicy := h.evtPolicy }

/-- Fenced sites after a warm reset (R457): a READY site joins them, a drain that is not READY is abandoned. A site whose unfence is
pending stays until step 4 has trained it. -/
def fencedAfter (s : State) : Nat :=
  let ready := match s.fw.draining with
    | some i => if drainState s = 2 then 2 ^ i else 0
    | none => 0
  maskOf 8 (fun i => s.fw.fencedSites.testBit i || ready.testBit i)

/-- The flash store between a reset and its mount: OFF, with what DRAM and flash hold; fences and tests are gone. -/
def flashAfter (f : Flash) (cold : Bool) : Flash :=
  { f with st := 0, cold := cold || f.cold, waitw := [], reads := [], rebuild := [], testing := [], tries := [], noSpace := false,
           wanted := [], weak := [], patrolPos := 0, patrolWin := 0, patrolCnt := 0,
           cache := if cold then [] else f.cache, deltas := if cold then [] else f.deltas, map := if cold then [] else f.map }

/-- Ring, Felt and port blocks after a warm or cold reset; `cold` drops the DRAM and what stands in it. -/
def clearBlocks (s : State) (cold : Bool) : State :=
  let fenced := if cold then 0 else fencedAfter s
  let gone := s.fw.unfencePend
  { s with
    bow := { bowReset with refPresent := s.bow.refPresent }, twin := twinReset, integ := integReset, kettle := [],
    dram := if cold then dramReset else { s.dram with
      queued := [], cells := s.dram.cells.filter (fun c => !(gone.testBit (c.1 / 18 / 2 ^ 33))),
      written := s.dram.written.filter (fun l => !(gone.testBit (l / 2 ^ 29))),
      badMap := s.dram.badMap.filter (fun l => !(gone.testBit (l / 2 ^ 22))) },
    tiers := if cold then tiersReset else { tiersReset with
      home := s.tiers.home, lentOut := s.tiers.lentOut, lentHeld := s.tiers.lentHeld, homeBad := s.tiers.homeBad },
    host := hostAfter s.host, fw := { fwReset with fencedSites := fenced, unfencePend := if cold then 0 else gone }, srch := srchReset, card := cardReset,
    felt := { feltReset with defect := s.felt.defect }, flash := flashAfter s.flash cold, brim := brimReset }

/-- Start-up begins at a step. -/
def startAt (s : State) (step : Nat) : State :=
  let s := setF (setF (setF s Reg.rstStatusStep step) Reg.rstStatusFail 0) Reg.rstStatusStartMs 0
  let s := modCrown s (fun c => { c with recovery := false, recovered := false })
  modPower s (fun p => { p with
    warmPend := false, prepDone := false, coldPend := false, feltPend := false, causes := 0, flushing := false, halted := false,
    fellBack := false, startTick := s.now, fromStep := step, samples := [] })

/-- A drain that a warm reset finds not READY is logged (R457), as an event whose code the spec does not state (log entry 6). -/
def logDrain (s : State) : State :=
  if s.fw.draining.isSome && drainState s != 2 then let r := freeVal s; crownEventOpen r.1 (r.2 % 2 ^ 16) (r.2 / 2 ^ 16 % 4) else s

/-- A warm reset takes effect (R462): start-up begins at step 2. Committed versions stand also where the preparation did not end (R466). -/
def doWarm (s : State) : State :=
  let s := if ringUp s then foldCommitted s else s
  let s := recordReset (logDrain (abandonMoves s)) 2
  startAt (keepFlds (clearBlocks s false) warmKeeps) 2

/-- A cold reset takes effect (R462, R479): start-up begins at step 1, where the Crown re-enters its boot ROM. -/
def doCold (s : State) : State :=
  let s := recordReset s 1
  startAt (keepFlds (clearBlocks s true) coldKeeps) 1

end Sys2Proof.Machine
end

