-- ==== Sys2Proof/Machine/CrownBoot.lean ====
section
/-! DEFINITION. Firmware packages, the choice of the slot that boots and the measurements (R489–R493, R496), CFG_STRAP (R471). -/
namespace Sys2Proof.Machine
open Sys2Proof

/-! ### Packages (R489, R490) -/

/-- NCOMP. -/
def pkgComps (b : List Byte) : Nat := getLE b 13 1
/-- Entry `i` of COMPONENTS. -/
def pkgComp (b : List Byte) (i : Nat) : List Byte := (b.drop (512 + 64 * i)).take 64
/-- OFFSET and LENGTH of an entry. -/
def compRange (c : List Byte) : Nat × Nat := (getLE c 4 4, getLE c 8 4)
/-- SVN byte `i`. -/
def pkgSvn (b : List Byte) (i : Nat) : Nat := getLE b (16 + i) 1

/-- The component of a type, if the package has one. -/
def compOf (b : List Byte) (ty : Nat) : Option (List Byte) :=
  (((List.range (pkgComps b)).map (pkgComp b)).find? (fun c => getLE c 0 1 = ty)).map
    (fun c => (b.drop (compRange c).1).take (compRange c).2)

/-- Whether two components overlap. -/
def compOverlap (c d : List Byte) : Bool :=
  decide ((compRange c).1 < (compRange d).1 + (compRange d).2) && decide ((compRange d).1 < (compRange c).1 + (compRange c).2)

/-- The header checks (R490 step 1), with the two components a package must have (R489). -/
def headerGood (b : List Byte) : Bool :=
  let n := pkgComps b
  let cs := (List.range n).map (pkgComp b)
  getLE b 0 4 = 0x56465731 && getLE b 8 4 = b.length && decide (4096 ≤ b.length) && decide (b.length ≤ 2 ^ 24)
    && decide (1 ≤ n) && decide (n ≤ 16) && zeroAt b 14 2 && zeroAt b 273 47 && zeroAt b 416 96
    && cs.all (fun c => zeroAt c 1 3 && zeroAt c 12 4 && decide ((compRange c).1 + (compRange c).2 ≤ b.length))
    && (List.range n).all (fun i => (List.range i).all (fun j => !(compOverlap (cs.getD i []) (cs.getD j []))))
    && (List.range 64).all (fun i => decide (pkgSvn b i ≤ 64)) && (compOf b 1).isSome && (compOf b 2).isSome

/-- ROOT names a root key that is not revoked (R490 step 2). -/
def rootGood (s : State) (b : List Byte) : Bool := getLE b 12 1 = 1 || (getLE b 12 1 = 0 && !s.crown.rootRevoked)

/-- SIGNER_SIG and SIG (R490 step 3). -/
def sigsGood (b : List Byte) : Bool :=
  let signer := (b.drop 80).take 97
  Config.verifies (Config.rootKey (getLE b 12 1)) signer ((b.drop 177).take 96)
    && Config.verifies signer (putAt b 320 (zeros 96)) ((b.drop 320).take 96)

/-- The digest of each component (R490 step 4). -/
def digestsGood (b : List Byte) : Bool :=
  ((List.range (pkgComps b)).map (pkgComp b)).all (fun c =>
    decide (sha384 ((b.drop (compRange c).1).take (compRange c).2) = (c.drop 16).take 48))

/-- The fused count F_i. -/
def fusedOf (s : State) (i : Nat) : Nat := (mget s.crown.fuses i).getD 0

/-- No counter is rolled back (R490 step 5). -/
def svnGood (s : State) (b : List Byte) : Bool := (List.range 64).all (fun i => decide (fusedOf s i ≤ pkgSvn b i))

/-- Whether a package is valid (R490). -/
def pkgGood (s : State) (b : List Byte) : Bool := headerGood b && rootGood s b && sigsGood b && digestsGood b && svnGood s b

/-! ### Measurements (R496) -/

/-- A value of 48 bytes that the spec leaves open. -/
def freeDigest (s : State) : State × List Byte := let r := freeVal s; (r.1, toBytes 48 r.2)

/-- The measurement of a component: open where the package carries none (log entry 6). -/
def measureComp (s : State) (b : List Byte) (ty : Nat) : State × List Byte :=
  match compOf b ty with
  | some c => (s, sha384 c)
  | none => freeDigest s

/-- The 16 measurements of step 1. How the settings are laid out the spec does not say, so slot 5 is open (log entry 6). -/
def measure (s : State) (b : List Byte) : State :=
  let r := (List.range 5).foldl (fun (a : State × List (List Byte)) i =>
    let m := measureComp a.1 b (i + 1)
    (m.1, a.2 ++ [m.2])) (s, [])
  let q := freeDigest r.1
  modCrown q.1 (fun c => { c with meas := r.2 ++ [q.2] ++ List.replicate 10 (zeros 48) })

/-! ### The slot that boots (R492, R493) -/

/-- The slot step 1 tries: after a fallback the one not tried before, else PENDING, else ACTIVE. -/
def bootSlot (s : State) : Nat := if s.power.fellBack then 1 - s.crown.running else s.crown.pend.getD s.crown.active

/-- Whether the package of a slot passes R490. -/
def slotGood (s : State) (k : Nat) : Bool :=
  match mget s.crown.slots k with
  | some x => x.valid && pkgGood s x.bytes
  | none => false

/-- The characters of a label, one byte each. -/
def asciiBytes (l : String) : List Byte := l.toList.map (fun c => BitVec.ofNat 8 c.toNat)

/-- The device secret in bytes, least significant first (log entry 74). -/
def deviceSecretBytes : List Byte := toBytes 32 Config.deviceSecret.toNat

/-- The keys of step 1 (R494, R495): the device key, the alias key of the Crown firmware component that runs, and the key of SPDM. -/
def deriveKeys (s : State) (b : List Byte) : State :=
  modCrown s (fun c => { c with
    deviceKey := deriveScalar deviceSecretBytes (asciiBytes "device") brainpoolOrder
    aliasKey := deriveScalar deviceSecretBytes (sha384 ((compOf b 1).getD [])) brainpoolOrder
    spdmKey := deriveScalar deviceSecretBytes (asciiBytes "spdm") p384Order })

/-- A slot is loaded, its keys are derived and it is measured. -/
def bootFrom (s : State) (k : Nat) : State :=
  let s := modCrown s (fun c => { c with running := k })
  let b := runPkg s
  measure (deriveKeys s b) b

/-- The boot falls back (R492): event 0x0803, PENDING cleared, FALLBACK set, start-up again from step 1 with the other slot. -/
def fallBack (s : State) (k : Nat) : State :=
  let s := modCrown (crownEventOpen s 0x0803 2) (fun c => { c with pend := none, running := k })
  modPower (setF (setF s Reg.crnStatusFallback 1) Reg.rstStatusStep 1) (fun p => { p with fellBack := true })

/-- A slot that was PENDING has booted (R492): it is ACTIVE, event 0x0802. -/
def slotBooted (s : State) : State :=
  match s.crown.pend with
  | some k => crownEventOpen (modCrown s (fun c => { c with active := k, pend := none })) 0x0802 0
  | none => s

/-! ### CFG_STRAP (R471) -/

/-- Nominal voltage of each band, in tenths of a millivolt. -/
def strapNominal : List Nat :=
  [80, 106, 142, 190, 253, 338, 450, 600, 800, 1064, 1424, 1896, 2528, 3376, 4496, 6000]

/-- The band of a converter code: within 4 % of its nominal voltage, at 7,000 tenths of a millivolt over 4,096 steps. -/
def strapBand (code : Nat) : Option Nat :=
  (List.range 16).find? (fun n =>
    let v := code * 7000 * 100
    let m := strapNominal.getD n 0 * 4096
    decide (m * 96 ≤ v) && decide (v ≤ m * 104))

/-- The fields of RST_STRAP of a reading. What a reading of no valid band shows as band, BOOT, ADDR and TWIN the spec does not say
(log entry 6). -/
def readStrap (s : State) (code : Nat) : State :=
  let put (s : State) (band valid boot addr twin : Nat) : State :=
    setF (setF (setF (setF (setF (setF s Reg.rstStrapCode code) Reg.rstStrapBand band) Reg.rstStrapValid valid) Reg.rstStrapBoot boot)
      Reg.rstStrapAddr addr) Reg.rstStrapTwin twin
  match strapBand code with
  | some n =>
    if n < 12 then put s n 1 (n % 2) (n / 2 % 2) (n / 4)
    else let r := freeVal s; put r.1 n 0 (r.2 % 2) (r.2 / 2) (r.2 / 4)
  | none => let r := freeVal s; put r.1 r.2 0 (r.2 / 16) (r.2 / 32) (r.2 / 64)

end Sys2Proof.Machine
end

