-- ==== Sys2Proof/Machine/Firmware.lean ====
section
/-! DEFINITION. Firmware services (R444–R461): draining and unfencing a stack, tests of fenced units, the job attachment, descriptor
timeouts, engine resets, control-core and Crown watchdogs. -/
namespace Sys2Proof.Machine
open Sys2Proof

/-- Update the firmware's own state. -/
def modFw (s : State) (f : Fw → Fw) : State := { s with fw := f s.fw }

/-- Whether the firmware runs: step 5 of the start-up has begun it (R469), and no power loss is being handled. -/
def fwRuns (s : State) : Bool := ringUp s && !s.power.flushing && !s.power.warmPend

/-! ### FW_STACK (R456, R457) -/

/-- Whether DRAIN of a site is refused at once (R456). -/
def drainRefused (s : State) (site : Nat) : Bool :=
  siteFenced s site
    || decide (((List.range 4).filter (fun i => !(siteFenced s i) && i != site)).length < 2)
    || decide (poolFrames (modFw s (fun f => { f with draining := some site })) - siteFrames s.part site
        < sumNat ((List.range 512).map (fun t => getF s (Reg.tirTenCfgFloor.ix t))))

/-- The lent frames of a site are recalled (R342). -/
def recallSite (s : State) (site : Nat) : State :=
  trimLent s (s.tiers.lentOut.filter (fun e => e.2.site = site))

/-- DRAIN (R456). Its page moves are MOVE commands of the firmware; FW_STACK.STATE shows how far they are. -/
def drain (site : Nat) (s : State) : State :=
  if !(fwRuns s) || site > 7 then s
  else
    let s := setF s Reg.fwStackSite site
    if s.fw.draining.isSome then s
    else if drainRefused s site then setF s Reg.fwStackState 4
    else recallSite (modFw (setF s Reg.fwStackState 0) (fun f => { f with draining := some site })) site

/-- CANCEL (R456): the draining site returns to service. -/
def cancel (s : State) : State :=
  if fwRuns s then modFw (setF s Reg.fwStackState 0) (fun f => { f with draining := none }) else s

/-- UNFENCE (R457): the site waits for the next warm reset. Only a fenced site has anything to undo. -/
def unfence (site : Nat) (s : State) : State :=
  if !(fwRuns s) || site > 7 then s
  else
    let s := setF s Reg.fwStackSite site
    if siteFenced s site then modFw s (fun f => { f with unfencePend := f.unfencePend ||| 2 ^ site }) else s

/-! ### FW_TEST (R454) -/

/-- Whether KIND and UNIT name a unit of the part (R454). -/
def testUnitOk (s : State) (kind unit : Nat) : Bool :=
  match kind with
  | 1 => hasKettles s.part && decide (unit < 512)
  | 2 => decide (unit < 16)
  | 3 => decide (unit < 2048) && (foundDies s (unit / 64)).contains (unit % 64)
  | 4 => decide (unit < 72)
  | 5 => decide (unit < 4)
  | _ => false

/-- Whether a unit is fenced, as R452 fences its kind; a scrubber is with EN 0. -/
def testFenced (s : State) (kind unit : Nat) : Bool :=
  match kind with
  | 1 => kFenced s (4 + unit / 128) (unit % 128)
  | 2 => flagF s (Reg.brmPortFence.ix unit)
  | 3 => (getF s (Reg.fshDfenceFence.ix (unit / 64))).testBit (unit % 64) || flagF s (Reg.fshChFence.ix (unit / 64))
  | 4 => s.felt.fenced.testBit unit
  | _ => !(flagF s (Reg.intScrubEn.ix unit))

/-- RESULT and REASON of FW_TEST. -/
def testResult (s : State) (result reason : Nat) : State :=
  setF (setF (setF s Reg.fwTestResult result) Reg.fwTestReason reason) Reg.fwTestDetail 0

/-- START of FW_TEST (R454), on the unit that KIND and UNIT name; ignored while a test runs (log entry 30). -/
def testGo (s : State) : State :=
  let kind := getF s Reg.fwTestKind
  let unit := getF s Reg.fwTestUnit
  if getF s Reg.fwTestResult = 1 then s
  else if !(testUnitOk s kind unit) then testResult s 3 2
  else if !(testFenced s kind unit) then testResult s 3 1
  else testResult s 1 0

/-- TEST_START (R454), a write of KIND, UNIT and START. -/
def testStart (kind unit : Nat) (s : State) : State :=
  if fwRuns s then testGo (setF (setF s Reg.fwTestKind kind) Reg.fwTestUnit unit) else s

/-- TEST_COMPLETE (R454): the test found `errors` errors. -/
def testComplete (errors : Nat) (s : State) : State :=
  if getF s Reg.fwTestResult = 1 then
    setF (setF s Reg.fwTestResult (if errors = 0 then 2 else 3)) Reg.fwTestDetail (satTo 16 errors)
  else s

/-! ### Jobs (R459) -/

/-- A command of FW_JOB_CMD (R459): 1 ATTACH, 2 DETACH, 3 CLEAR; ignored while one is in progress. -/
def jobCmd (s : State) (op id gen : Nat) : State :=
  if s.fw.jobCmd.isSome || op = 0 || op > 3 then s
  else modFw s (fun f => { f with jobCmd := some (op, id % 2 ^ 32, gen % 2 ^ 16) })

/-- ATTACH (R459). -/
def attach (id gen : Nat) (s : State) : State := if fwRuns s then jobCmd s 1 id gen else s
/-- DETACH (R459). -/
def detach (s : State) : State := if fwRuns s then jobCmd s 2 0 0 else s
/-- CLEAR (R459). -/
def clear (s : State) : State := if fwRuns s then jobCmd s 3 0 0 else s

/-- The status of an ATTACH: the first of R459's table that applies. -/
def attachStatus (s : State) (id gen : Nat) : Status :=
  if gen = 0 then .malformed
  else if s.bow.st != .synced then .notSynchronised
  else if s.crown.attach.isSome then .busy
  else match s.crown.closed with
    | some (i, g, _) => if i = id && gen ≤ g then .jobClosed else .ok
    | none => .ok

/-- STATUS of FW_JOB. -/
def jobStatus (s : State) (v : Nat) : State := setF s Reg.fwJobStatus v

/-- Whether a closed record names a job. -/
def closedIs (s : State) (id : Nat) : Bool := match s.crown.closed with | some (i, _, _) => i = id | none => false

/-- JOB_RECORD_WRITTEN (R459): the Crown has recorded the command in progress (log entry 31). CLEAR while attached changes nothing; its
STATUS the spec does not state (log entry 6). -/
def jobRecordWritten (s : State) : State :=
  match s.fw.jobCmd with
  | none => s
  | some (op, id, gen) =>
    let s := modFw s (fun f => { f with jobCmd := none })
    match op with
    | 1 =>
      let st := attachStatus s id gen
      let s := jobStatus s st.code
      if st = .ok then
        modCrown s (fun c => { c with attach := some (id, gen), closed := if closedIs s id then none else c.closed })
      else s
    | 2 => jobStatus (modCrown s (fun c => { c with attach := none })) Status.ok.code
    | _ =>
      if s.crown.attach.isSome then let r := freeVal s; jobStatus r.1 (r.2 % 256)
      else jobStatus (modCrown s (fun c => { c with closed := none })) Status.ok.code

/-! ### Descriptor timeouts and engine resets (R444–R447) -/

/-- Whether a descriptor waits for a tick, so that it is not timed: a COMMIT or GATE_LIST in the schedule table, a ROLE (R444). -/
def waitsTick (s : State) (w : Work) : Bool :=
  s.bow.sched.any (fun e => e.work = w.id) || (match s.felt.role with | some (_, _, x) => x = w.id | none => false)

/-- Whether the descriptor timeout has expired (R444, R445): a RUN is not bounded by it. A COMMIT, a GATE_LIST and a ROLE complete at the
tick at which they are applied, so only the wait before it is exempt. -/
def descExpired (s : State) (w : Work) : Bool :=
  w.cls != 7 && !(waitsTick s w) && decide (tickOf s ≥ w.expiry)

/-- Work ends at its timeout; a SEARCH merges its open shard searches as TIMEOUT (R127, R445). -/
def timeoutWork (s : State) (w : Work) : State :=
  if w.cls = 1 && s.srch.coords.any (fun x => x.2.work = w.id) then searchTimeout s w.id else abortWork s w .timeout

/-- DESCRIPTOR_TIMEOUT (R445, R446): the firmware asks the engine to abort; `wedged` is the engine that does not release the work. -/
def descriptorTimeout (work : Nat) (wedged : Option Engine) (s : State) : State :=
  match workOf s work with
  | none => s
  | some w =>
    if !(fwRuns s) || !(descExpired s w) || s.fw.aborting.any (fun a => a.2.2 = work) then s
    else match wedged with
      | none => timeoutWork s w
      | some e => modFw s (fun f => { f with aborting := f.aborting ++ [(e, tickOf s, work)] })

/-- What the reset of an engine ends besides the work that wedged it (R447): the shard searches admitted on a traversal engine. -/
def engineClear (s : State) (e : Engine) : State :=
  match e with
  | .traversal n =>
    ((s.srch.searches.filter (fun x => x.2.engine = n && x.2.phase != .waiting)).map (·.1)).foldl (fun t id => failSearch t id .timeout) s
  | _ => s

/-- Whether an engine exists (R18). -/
def engineOk : Engine → Bool
  | .traversal n => decide (n < 64)
  | .tree n => decide (n < 32)
  | .carder n => decide (n < 8)

/-- ENGINE_RESET (R446, R447): an engine that has not released the work in 1,000 ticks is reset alone. -/
def engineReset (e : Engine) (s : State) : State :=
  let mine := s.fw.aborting.filter (fun a => a.1 = e)
  if !(fwRuns s) || !(engineOk e) || !(mine.any (fun a => decide (tickOf s ≥ a.2.1 + 1000))) || s.fw.inReset.any (fun x => x.1 = e) then s
  else
    let s := modFw (bump s Reg.fwRecoverEngineResets) (fun f => { f with
      aborting := f.aborting.filter (fun a => a.1 != e), inReset := f.inReset ++ [(e, tickOf s)] })
    let s := engineClear (crownEventOpen s 0x0701 1) e
    mine.foldl (fun t a => match workOf t a.2.2 with | some w => timeoutWork t w | none => t) s

/-- ENGINE_RESET_COMPLETE (R447): the engine admits work again. -/
def engineResetComplete (e : Engine) (s : State) : State :=
  modFw s (fun f => { f with inReset := f.inReset.filter (fun x => x.1 != e) })

/-! ### Watchdogs (R448, R449) -/

/-- CORE_WATCHDOG_EXPIRY (R448): the core's descriptors complete TIMEOUT, its tier moves are abandoned, and it restarts, or is left
stopped at the third expiry within the window. -/
def coreWatchdogExpiry (core : Nat) (works moves : List Nat) (s : State) : State :=
  if !(fwRuns s) || core > 15 || !((getF s Reg.fwStatusCores).testBit core) then s
  else
    let w := atLeast1 s Reg.fwAutoWindow
    let old := ((mget s.fw.expiries core).getD []).filter (fun t => decide (t + w ≥ tickOf s))
    let s := setF s Reg.fwStatusCores (setBit (getF s Reg.fwStatusCores) core false)
    let s := works.foldl (fun t i => match workOf t i with | some x => timeoutWork t x | none => t) s
    let s := moves.foldl abandonMove s
    let now := tickOf s :: old
    let s := modFw s (fun f => { f with
      expiries := mput f.expiries core now, stopped := if now.length ≥ 3 then sinsert f.stopped core else f.stopped })
    if now.length ≥ 3 then s else crownEventOpen (bump s Reg.fwRecoverCoreRestarts) 0x0701 1

/-- CORE_RESTART_COMPLETE (R448): the core runs again. -/
def coreRestartComplete (core : Nat) (s : State) : State :=
  if !(fwRuns s) || core > 15 || s.fw.stopped.contains core then s
  else setF s Reg.fwStatusCores (setBit (getF s Reg.fwStatusCores) core true)

/-- CROWN_WATCHDOG_EXPIRY (R449): a warm reset with cause watchdog. -/
def crownWatchdogExpiry (s : State) : State := if live s then askWarm s 3 else s

end Sys2Proof.Machine
end

