-- ==== Sys2Proof/Machine/ResetPower.lean ====
section
/-! DEFINITION. Reset sources, resets, start-up, power measurement, thermal trip and power loss (R24, R373–R376, R462–R481). -/
namespace Sys2Proof.Machine
open Sys2Proof

/-! ### Sources (R24, R463, R464) -/

/-- WARM_RESET_REQUEST: RST_CTRL.REQ written 1. -/
def warmResetRequest (s : State) : State := if live s && portOpen s then askWarm s 4 else s
/-- FELT_RESET_REQUEST: RST_CTRL.REQ written 2. -/
def feltResetRequest (s : State) : State := if live s && portOpen s then askFelt s 4 else s
/-- CORE_REF_LOST (R24). -/
def coreRefLost (s : State) : State := if live s then askWarm s 6 else s
/-- PORT_REF_LOST (R24). -/
def portRefLost (s : State) : State := if live s then askWarm s 6 else s
/-- DRAM_PLL_UNLOCK (R24). -/
def dramPllUnlock (s : State) : State := if live s then askCold s 6 else s
/-- CORE_DOUBLE_FAULT (R464). -/
def coreDoubleFault (s : State) : State := if live s then askWarm s 7 else s
/-- RING_DEADLOCK (R464). -/
def ringDeadlock (s : State) : State := if live s then askWarm s 7 else s

/-- RESET_N_ASSERT: RESET_N has been low for 1 µs. -/
def resetNAssert (s : State) : State :=
  let s := modPower s (fun p => { p with resetNLow := true })
  if live s then (if s.crown.pinCold then askCold s 2 else askWarm s 2) else s
/-- RESET_N_RELEASE: RESET_N rises. -/
def resetNRelease (s : State) : State := modPower s (fun p => { p with resetNLow := false })

/-! ### VDD_MGMT (R463, R474, R479, R500) -/

/-- The record that the next capture is written into (R500): the lowest empty one, or the one with the oldest SEQ that is not HELD. -/
def frecTarget (s : State) : Option Nat :=
  match (List.range 8).find? (fun r => !(mhas s.crown.frecs r)) with
  | some r => some r
  | none => ((s.crown.frecs.filter (fun r => !r.2.held)).foldl (fun (b : Option (Nat × Nat)) r => match b with
      | some x => if r.2.seq < x.2 then some (r.1, r.2.seq) else b
      | none => some (r.1, r.2.seq)) none).map (·.1)

/-- The Crown without VDD_MGMT: what the boot flash, the fuses and the settings hold stays; a capture that was being written leaves a record
that FREC_LIST reports as empty. -/
def crownCold (s : State) : Crown :=
  let c := s.crown
  { crownReset with
    log := c.log, nextSeq := (match c.log.getLast? with | some e => (e.seq + 1) % 2 ^ 32 | none => 0),
    active := c.active, pend := c.pend, pinCold := c.pinCold, rootRevoked := c.rootRevoked, owners := c.owners,
    slots := (match c.transfer with | some t => mmod c.slots t.slot (fun x => { x with valid := false }) | none => c.slots),
    fuses := c.fuses, frecSeq := c.frecSeq, attach := c.attach, closed := c.closed,
    frecs := (if c.capture.isSome then (match frecTarget s with | some r => mdel c.frecs r | none => c.frecs) else c.frecs) }

/-- VDD_MGMT_REMOVED (R474): everything ends, and THERMTRIP_N is released (R512). -/
def vddMgmtRemoved (s : State) : State :=
  if !s.power.vddMgmt then s
  else
    let t := clearBlocks (if s.power.tripped then emit s (.pin "THERMTRIP_N" true) else s) true
    { t with
      flds := fldsReset, crown := crownCold s, host := { hostReset with perstLow := s.host.perstLow },
      power := { powerReset with vddMgmt := false, resetNLow := s.power.resetNLow } }

/-- POWER_ON (R463): VDD_MGMT enters regulation; the Crown's time starts at zero, and a job that was attached is closed with cause 0
(R460). -/
def powerOn (s : State) : State :=
  if s.power.vddMgmt then s
  else
    let s := { s with now := 0, power := { powerReset with causes := 1, resetNLow := s.power.resetNLow } }
    let s := crownEventOpen (closeJob s) 0x0201 1
    modPower s (fun p => { p with causes := 0 })

/-- BROWN_OUT (R475) of a rail; that of VDD_MGMT stops the Crown with it. It ends a power-loss flush. -/
def brownOut (rail : Nat) (s : State) : State :=
  if rail > 15 || !(live s) then s
  else if rail = 0 then vddMgmtRemoved s
  else
    let s := setF s Reg.rstRailBrown (getF s Reg.rstRailBrown ||| 2 ^ rail)
    let s := crownEvent s 0x0203 2 (rawReg s [Reg.rstRailOk, Reg.rstRailBrown])
    askCold (modPower s (fun p => { p with flushing := false, halted := p.halted || p.flushing })) 1

/-! ### Resets (R462, R465, R466, R468) -/

/-- The limit of the preparation has passed (R466). -/
def prepOver (s : State) : Bool := decide (s.now ≥ s.power.prepStart + atLeast1 s Reg.rstCtrlPrepMs * 1000)

/-- Whether a node's Ring has work to prepare: start-up is complete and nothing halts it. -/
def prepares (s : State) : Bool := getF s Reg.rstStatusStep = 9 && ringUp s

/-- The flash map, write cache and uncovered deltas are flushed (R466 step 5, R377). -/
def mapFlush (s : State) (ticks : Nat) : State :=
  if s.flash.st != 2 then s
  else
    let m := flushMib s
    putMarker (flushStore m.1) 2 ticks m.2

/-- WARM_RESET_PREPARATION (R466), the five steps in order; `flushTicks` is what the flush took. -/
def warmResetPreparation (flushTicks : Nat) (s : State) : State :=
  if !(live s) || !s.power.warmPend || s.power.prepDone || s.power.flushing || !(prepares s) || prepOver s then s
  else modPower (mapFlush (abandonMoves (foldCommitted (stopWork s))) flushTicks) (fun p => { p with prepDone := true })

/-- WARM_RESET (R462): after its preparation or PREP_MS, and after a power-loss flush (R465). -/
def warmReset (s : State) : State :=
  if !(live s) || !s.power.warmPend || s.power.flushing || !(s.power.prepDone || !(prepares s) || prepOver s) then s else doWarm s

/-- COLD_RESET (R462). -/
def coldReset (s : State) : State := if !(live s) || !s.power.coldPend || s.power.flushing then s else doCold s

/-- Every run of an image ends, and the image is unloaded (R468). -/
def feltDrop (s : State) (img : Nat) : State :=
  match imageOf s img with
  | none => s
  | some x =>
    let s := match x.run with
      | none => s
      | some r => match workOf s r.work with
        | some w => abortRun s w .fenced
        | none => endRun s img .fenced 0
    match (imageOf s img).bind (·.unload) with
    | some u => completeId (dropImage s img) u .ok
    | none => dropImage s img

/-- Register fields that a Felt-only reset clears (R462): FLT_, but for the fences and a pending ROLE. -/
def feltClears (key : Nat) : Bool :=
  let m := key / 64 / 0x100000
  (m = 6 || m = 7) && key != Reg.fltFenceFence.key && key != Reg.fltBlkHiFenceHi.key
    && key != Reg.fltRolePending.key && key != Reg.fltRoleNext.key && key != Reg.fltRoleTickTick.key

/-- No micro-program is resident after a reset (R281), but that of a part which runs on through a Felt-only reset (log entry 91). -/
def dropResident (s : State) : State :=
  { s with kettle := s.kettle.map (fun k => (k.1, { k.2 with resident := k.2.resident.filter (fun r => mhas k.2.kettles r.1) })) }

/-- FELT_ONLY_RESET (R468). -/
def feltOnlyReset (s : State) : State :=
  if !(live s) || !s.power.feltPend || s.power.warmPend || s.power.coldPend || s.power.flushing || getF s Reg.rstStatusStep != 9 then s
  else
    let s := (s.felt.images.map (·.1)).foldl feltDrop s
    let s := { s with flds := s.flds.filter (fun f => !(feltClears f.1)) }
    let s := modFelt s (fun f => { f with faultImg := 0, faultCyc := 0 })
    let s := alignAsk (setStage (applyFences (dropResident s))) true
    modPower (recordReset s 3) (fun p => { p with feltPend := false, causes := 0 })

/-! ### Start-up (R469, R470) -/

/-- A start-up step cannot complete (R470): FAIL, event 0x0202, a failure record (R499). -/
def stepFail (s : State) (n : Nat) : State :=
  if getF s Reg.rstStatusFail = n then s
  else triggerCapture (crownEventOpen (setF s Reg.rstStatusFail n) 0x0202 3) 3

/-- Start-up goes on with a step. -/
def toStep (s : State) (n : Nat) : State := setF (setF s Reg.rstStatusStep n) Reg.rstStatusFail 0

/-- What the Crown finds of its records in the boot flash at step 1 (R488): settings of which both copies are unreadable take their
manufacturing defaults, job records of which both are unreadable are not held, and each loss is logged, as an event whose code the spec does
not state (log entry 6). -/
def readRecords (s : State) (p : StartPar) : State :=
  let log (s : State) : State := let r := freeVal s; crownEventOpen r.1 (r.2 % 2 ^ 16) (r.2 / 2 ^ 16 % 4)
  let s := if p.settingsBad then log (modCrown s (fun c => { c with active := 0, pend := none, pinCold := false, owners := [] })) else s
  if p.jobsBad then log (modCrown s (fun c => { c with attach := none, closed := none })) else s

/-- Step 1 (R471, R488, R490, R492, R493). -/
def step1 (s : State) (p : StartPar) : State :=
  let s := readStrap (readRecords s p) p.code
  if getF s Reg.rstStrapValid = 0 then stepFail s 1
  else if getF s Reg.rstStrapBoot = 1 then
    if s.crown.recovered then toStep (modCrown (bootFrom s 0) (fun c => { c with recovered := false })) 2
    else modCrown s (fun c => { c with recovery := true })
  else
    let k := bootSlot s
    if slotGood s k then toStep (bootFrom s k) 2
    else if s.power.fellBack then stepFail s 1
    else fallBack s k

/-- Step 2 (R473, R474): every rail monitor reads in regulation. -/
def step2 (s : State) (p : StartPar) : State :=
  if getF s Reg.rstRailOk = 2 ^ 16 - 1 then toStep s 3 else if p.late then stepFail s 2 else s

/-- Step 3: the PLLs lock and the Bow starts FREE at count 0; a failure is a cold reset, three times in succession at most. -/
def step3 (s : State) (p : StartPar) : State :=
  if p.pll then toStep (modPower { s with bow := { bowReset with refPresent := s.bow.refPresent } } (fun q => { q with pllTries := 0 })) 4
  else if !p.late then s
  else if s.power.pllTries < 3 then askCold (modPower s (fun q => { q with pllTries := q.pllTries + 1 })) 6
  else stepFail s 3

/-- Step 4: every site is trained after a cold reset, those with a pending UNFENCE after a warm one (R457); two of sites 0–3 must be in
use. -/
def step4 (s : State) (p : StartPar) : State :=
  let fenced := if s.power.fromStep = 1 then maskOf 8 (fun i => !(p.sites.testBit i))
    else maskOf 8 (fun i => s.fw.fencedSites.testBit i && !(s.fw.unfencePend.testBit i && p.sites.testBit i))
  let s := modFw s (fun f => { f with fencedSites := fenced, unfencePend := 0 })
  if ((List.range 4).filter (fun i => !(siteFenced s i))).length < 2 then stepFail s 4 else toStep s 5

/-- Step 5: the control cores run and PINS are cleared; where they do not report running, the boot falls back (R492). -/
def step5 (s : State) (p : StartPar) : State :=
  if p.cores then
    let s := modTiers s (fun t => { t with home := t.home.map (fun e => (e.1, { e.2 with pins := 0 })) })
    alignAsk (toStep (slotBooted s) 6) false
  else if !p.late then s
  else if s.power.fellBack then stepFail (setF s Reg.rstStatusStep 1) 1
  else fallBack s s.crown.running

/-- Step 6 (R45): the alignment is done. -/
def step6 (s : State) : State := if s.bow.align.isNone then toStep s 7 else s

/-- Step 7 (R214): the defect map of the fuses is applied. -/
def step7 (s : State) (p : StartPar) : State := toStep (modFelt s (fun f => { f with defect := p.defect % 2 ^ 72 })) 8

/-- The CXL link comes up, unless CXL_PERST_N is low (R511). -/
def linkUp (s : State) (p : StartPar) : State :=
  if p.link && !s.host.perstLow then modHost s (fun h => { h with linkUp := true }) else s

/-- Step 8: the ports; a link that does not come up goes on training. -/
def step8 (s : State) (p : StartPar) : State :=
  if p.link || p.late then linkUp (setF (toStep s 9) Reg.rstStatusStartMs (min 65535 (showUnits (s.now - s.power.startTick) 1000))) p
  else s

/-- STARTUP_STEP_COMPLETE (R469): the step in progress ends, or its limit passes. RESET_N low holds the node before step 2; a node with a
reset pending waits for it. -/
def startupStepComplete (p : StartPar) (s : State) : State :=
  let n := getF s Reg.rstStatusStep
  if !(live s) || s.power.coldPend || s.power.warmPend || s.power.halted || s.power.flushing
      || (s.power.resetNLow && decide (n ≤ 2)) || (getF s Reg.rstStatusFail = n && n != 2) then s
  else match n with
    | 1 => step1 s p
    | 2 => step2 s p
    | 3 => step3 s p
    | 4 => step4 s p
    | 5 => step5 s p
    | 6 => step6 s
    | 7 => step7 s p
    | 8 => step8 s p
    | 9 => linkUp s p
    | _ => s

/-! ### Rails and power (R473, R476, R480) -/

/-- Nominal voltage of each rail in units of 0.25 mV, and its tolerance in percent. -/
def railNominal : List (Nat × Nat) :=
  [(3200, 3), (2880, 3), (3200, 3), (3000, 2), (4800, 2), (4800, 3), (7200, 3), (7200, 3)] ++ List.replicate 8 (4200, 3)

/-- Whether a rail monitor reads in regulation (R473). -/
def railOk (m mv : Nat) : Bool :=
  let n := railNominal.getD m (0, 0)
  decide (n.1 * (100 - n.2) ≤ mv * 100) && decide (mv * 100 ≤ n.1 * (100 + n.2))

/-- The module's power in units of 25 µW (R480). -/
def railPower (rs : List (Nat × Nat)) : Nat := sumNat (rs.map (fun r => r.1 * r.2))

/-- The samples of the averaging window, newest first. -/
def windowOf (s : State) (w : Nat) : List Nat := (w :: s.power.samples).take (atLeast1 s Reg.rstPcapWindow)

/-- Whether a die point reads at or above TEMP_C (R476, R481). -/
def tempOver (s : State) : Bool :=
  (s.crown.temps.take 64).any (fun t => decide (t ≥ ((min 105 (getF s Reg.rstPcapTempC) * 16 : Nat) : Int)))

/-- Whether the node is over its cap (R476), over the ticks measured so far where the window is not full. -/
def overCap (s : State) (ws : List Nat) : Bool :=
  flagF s Reg.rstPcapEn && (decide (sumNat ws > max 300 (getF s Reg.rstPcapLimit) * 40000 * ws.length) || tempOver s)

/-- POWER_MEASURE (R476, R480): each tick the Crown reads the rails (units of 0.25 mV, 0.1 A). -/
def powerMeasure (rails : List (Nat × Nat)) (s : State) : State :=
  if !s.power.vddMgmt then s
  else
    let rs := (List.range 16).map (fun m => ((rails.getD m (0, 0)).1 % 65536, (rails.getD m (0, 0)).2 % 65536))
    let s := modCrown s (fun c => { c with rails := rs })
    let ws := windowOf s (railPower rs)
    let s := modPower s (fun p => { p with samples := ws })
    let s := setF s Reg.rstRailOk (maskOf 16 (fun m => railOk m (rs.getD m (0, 0)).1))
    let s := setF s Reg.rstPowerAvg (min 65535 (showUnits (sumNat ws) (40000 * ws.length)))
    let capped := overCap s ws
    let s := setF s Reg.rstPowerCapped (b2n capped)
    if capped then bump s Reg.rstPowerCapTicks else s

/-! ### Temperatures (R477, R480, R481, R512) -/

/-- The threshold of a warning in 1/16 °C. -/
def warnAt (s : State) : Int := ((min 114 (getF s Reg.crnCtrlWarnC) * 16 : Nat) : Int)

/-- A die point at or above WARN_C logs a thermal warning, at most once in 10^6 ticks. -/
def warnPoint (s : State) (i : Nat) : State :=
  let due : Bool := match mget s.crown.warned i with | some t => decide (s.now ≥ t + 10 ^ 6) | none => true
  if decide (s.crown.temps.getD i 0 ≥ warnAt s) && due then
    crownEventOpen (modCrown s (fun c => { c with warned := mput c.warned i s.now })) 0x0301 1
  else s

/-- The Crown's readings are refreshed and warnings are logged. -/
def refreshTemps (s : State) (temps : List Int) : State :=
  let ts := (List.range 72).map (fun i => sx 16 (ux 16 (temps.getD i 0)))
  (List.range 64).foldl warnPoint (modCrown s (fun c => { c with temps := ts }))

/-- Whether a die point has reached 115 °C. -/
def tripPoint (s : State) : Bool := (s.crown.temps.take 64).any (fun t => decide (t ≥ 0x730))

/-- The trip (R477, R481): the clocks stop, the trip is logged to the boot flash, a failure record is captured; THERMTRIP_N goes low. -/
def tripNow (s : State) : State :=
  let s := modPower s (fun p => { p with tripped := true, flushing := false })
  let s := logAll (crownEventOpen s 0x0302 3)
  emit (triggerCapture s 0) (.pin "THERMTRIP_N" false)

/-- SENSOR_REFRESH (R480, R481): a reading that reaches the trip is THERMAL_TRIP. -/
def sensorRefresh (temps : List Int) (s : State) : State :=
  if !s.power.vddMgmt then s
  else
    let s := refreshTemps s temps
    if tripPoint s && !s.power.tripped then tripNow s else s

/-- THERMAL_TRIP (R477): a refresh in which a die point reads 115 °C or more. -/
def thermalTrip (temps : List Int) (s : State) : State :=
  if !(live s) || !((temps.take 64).any (fun t => decide (t ≥ 0x730))) then s else tripNow (refreshTemps s temps)

/-! ### Power loss (R373–R376) -/

/-- PLOSS_GLITCH (R373): a low shorter than two ticks. -/
def plossGlitch (s : State) : State := if live s then bump s Reg.fshStatusPlossGlitch else s

/-- PLOSS_RECOGNISED (R373, R374, R376): the flush begins; a node whose store holds no dirty state halts. What its CXL record says the spec
leaves open (log entry 6). -/
def plossRecognised (s : State) : State :=
  if !(live s) || s.power.flushing || s.power.halted then s
  else
    let r := freeVal s
    let s := logAll (cxlEvent r.1 (r.2 % 4) false (r.2 / 4 % 2 ^ 16) (r.2 / 2 ^ 18))
    let ready : Bool := s.flash.st = 2
    let s := stopWork s
    if ready then
      modFlash (modPower s (fun p => { p with flushing := true })) (fun f => { f with st := 3, marker := none, flushStart := max 1 (tickOf s) })
    else modPower s (fun p => { p with halted := true })

/-- FLUSH_MARKER_WRITTEN (R374): the cache, the deltas and the marker are on flash; the node halts. -/
def flushMarkerWritten (s : State) : State :=
  if !(live s) || !s.power.flushing then s
  else
    let m := flushMib s
    let s := putMarker (flushStore m.1) 1 (tickOf s - m.1.flash.flushStart) m.2
    modPower (modFlash s (fun f => { f with st := 4 })) (fun p => { p with flushing := false, halted := true })

end Sys2Proof.Machine
end

