-- ==== Sys2Proof/Machine/Crown.lean ====
section
/-! DEFINITION. The Crown's commands over the mailbox (path 0) and over MCTP (path 1), and its failure records (R411, R412, R482–R501).
Return codes are CXL's (log entry 9); a payload that CXL or SPDM lays out and this spec does not is `Config.cxlPayload` of what it
says. -/
namespace Sys2Proof.Machine
open Sys2Proof

/-! ### Answers (R485) -/

/-- Whether a path reaches the Crown: the mailbox while the CXL link is up, MCTP while VDD_MGMT is present. -/
def crownHears (s : State) (path : Nat) : Bool := s.power.vddMgmt && (path = 1 || (path = 0 && portOpen s))

/-- Answer a command: return code and payload. -/
def answer (s : State) (path code : Nat) (payload : List Byte) : State := emit s (.reply path code payload)

/-- Success. -/
def okCode : Nat := 0
/-- Invalid Input. -/
def invalidInput : Nat := 2
/-- Unsupported. -/
def unsupported : Nat := 3
/-- Busy. -/
def busyCode : Nat := 6
/-- FW Transfer in Progress. -/
def fwInProgress : Nat := 8
/-- FW Transfer Out of Order. -/
def fwOutOfOrder : Nat := 9
/-- FW Verification Failed. -/
def fwVerifyFailed : Nat := 0xA
/-- Invalid Slot. -/
def invalidSlot : Nat := 0xB
/-- Invalid Handle. -/
def invalidHandle : Nat := 0xE
/-- Invalid Security State. -/
def invalidSecurity : Nat := 0x13

/-- A command on a path that hears it. -/
def onPath (s : State) (path : Nat) (k : State → State) : State := if crownHears s path then k s else s

/-- A command with one path of its own (R486): on the other it is Unsupported (log entry 9). -/
def onOnly (s : State) (path only : Nat) (k : State → State) : State :=
  onPath s path (fun s => if path = only then k s else answer s path unsupported [])

/-- A command whose answer is data that CXL lays out. -/
def tell (s : State) (path opcode : Nat) (content : List Byte) : State := answer s path okCode (Config.cxlPayload opcode content)

/-! ### CXL commands (R411, R412) -/

/-- IDENTIFY_MEMORY_DEVICE: the capacity is the node range. -/
def identifyMemoryDevice (path : Nat) (s : State) : State := onPath s path (fun s => tell s path 0x4000 (toBytes 8 (rangePages s)))

/-- GET_SUPPORTED_LOGS. -/
def getSupportedLogs (path : Nat) (s : State) : State := onPath s path (fun s => tell s path 0x0400 [])

/-- GET_LOG: which logs exist the spec does not say, so the return code is open (log entry 6). -/
def getLog (path : Nat) (uuid : List Byte) (offset len : Nat) (s : State) : State :=
  onPath s path (fun s =>
    let r := freeVal s
    answer r.1 path (r.2 % 2 ^ 16) (Config.cxlPayload 0x0401 (uuid ++ toBytes 4 offset ++ toBytes 4 len)))

/-- A CXL event record as content. -/
def CxlRec.bytes (r : CxlRec) : List Byte :=
  toBytes 2 r.handle ++ toBytes 1 (b2n r.general) ++ toBytes 2 r.code ++ toBytes 8 r.data ++ toBytes 8 r.time

/-- GET_EVENT_RECORDS of a log (0 Informational to 3 Fatal). -/
def getEventRecords (path sev : Nat) (s : State) : State :=
  onPath s path (fun s =>
    if sev > 3 then answer s path invalidInput []
    else
      let l := cxlLogOf s sev
      tell s path 0x0100 (toBytes 2 l.overflow ++ toBytes 8 l.firstOv ++ toBytes 8 l.lastOv ++ l.recs.flatMap CxlRec.bytes))

/-- CLEAR_EVENT_RECORDS (log entry 9): all records of a log that has overflowed, or the oldest ones by handle, in order. -/
def clearEventRecords (path sev : Nat) (all : Bool) (handles : List Nat) (s : State) : State :=
  onPath s path (fun s =>
    let l := cxlLogOf s sev
    let put (l' : CxlLog) : State := answer (modHost s (fun h => { h with cxlLogs := mput h.cxlLogs sev l' })) path okCode []
    if sev > 3 || (all && l.overflow = 0) then answer s path invalidInput []
    else if all then put { l with recs := [], overflow := 0, firstOv := 0, lastOv := 0 }
    else if (l.recs.take handles.length).map (·.handle) != handles then answer s path invalidHandle []
    else put { l with recs := l.recs.drop handles.length, overflow := 0, firstOv := 0, lastOv := 0 })

/-- GET_EVENT_INTERRUPT_POLICY. -/
def getEventInterruptPolicy (path : Nat) (s : State) : State :=
  onPath s path (fun s => tell s path 0x0102 (s.host.evtPolicy.flatMap (toBytes 1)))

/-- SET_EVENT_INTERRUPT_POLICY: one mode for each of the four logs. -/
def setEventInterruptPolicy (path : Nat) (modes : List Nat) (s : State) : State :=
  onPath s path (fun s =>
    if modes.length != 4 || modes.any (fun m => decide (m % 4 = 3)) then answer s path invalidInput []
    else answer (modHost s (fun h => { h with evtPolicy := modes.map (· % 256) })) path okCode [])

/-- GET_TIMESTAMP: zero while none was set. -/
def getTimestamp (path : Nat) (s : State) : State :=
  onPath s path (fun s => answer s path okCode (toBytes 8 (match s.crown.timeSet with | some _ => crownTime s | none => 0)))

/-- SET_TIMESTAMP (R482). -/
def setTimestamp (path value : Nat) (s : State) : State :=
  onPath s path (fun s => answer (modCrown s (fun c => { c with timeSet := some (value % 2 ^ 64, s.now) })) path okCode [])

/-- Life used in percent (R486): the larger of the mean erase count over the rated cycles and the blown fuses over all. -/
def lifeUsed (s : State) : Nat :=
  let g := s.flash.geom
  let d := dieCount s * g.blocks * g.rated
  let e := if d = 0 then 0 else showUnits (100 * sumNat (s.flash.erases.map (·.2))) d
  max e (showUnits (100 * sumNat (s.crown.fuses.map (·.2))) 4096)

/-- Health status abnormal (R486). -/
def abnormal (s : State) : Bool := getF s Reg.rstRailOk != 2 ^ 16 - 1 || getF s Reg.rstStatusFail != 0

/-- GET_HEALTH_INFO (R486). -/
def getHealthInfo (path : Nat) (s : State) : State :=
  onPath s path (fun s =>
    tell s path 0x4200 (toBytes 2 (ux 16 (hottest s.crown.temps 0 64).1) ++ toBytes 1 (lifeUsed s) ++ toBytes 1 (b2n (abnormal s))))

/-- GET_FW_INFO: running and pending slot (1 A, 2 B), their versions. -/
def getFwInfo (path : Nat) (s : State) : State :=
  onPath s path (fun s =>
    tell s path 0x0200 (toBytes 1 (s.crown.running + 1) ++ toBytes 1 (match s.crown.pend with | some k => k + 1 | none => 0)
      ++ toBytes 4 (slotVersion s 0) ++ toBytes 4 (slotVersion s 1)))

/-- UNSUPPORTED_OPCODE (R486). -/
def unsupportedOpcode (path : Nat) (s : State) : State := onPath s path (fun s => answer s path unsupported [])

/-! ### Firmware (R491–R493) -/

/-- Whether a slot runs: none does before the Crown has loaded one. -/
def slotRuns (s : State) (k : Nat) : Bool := s.crown.running = k && decide (getF s Reg.rstStatusStep ≥ 2)

/-- A part of a package is written into its slot; the first part ends what the slot held. -/
def storePart (s : State) (k offset : Nat) (bytes : List Byte) (path : Nat) : State :=
  let old := if offset = 0 then [] else match mget s.crown.slots k with | some x => x.bytes | none => []
  modCrown s (fun c => { c with
    slots := mput c.slots k ⟨old ++ bytes, false⟩, transfer := some ⟨path, k, offset + bytes.length⟩ })

/-- The last part has arrived: the package is verified (R490); in a recovery boot slot A becomes ACTIVE (R493). -/
def endTransfer (s : State) (k path : Nat) : State :=
  let s := modCrown s (fun c => { c with transfer := none })
  let b := match mget s.crown.slots k with | some x => x.bytes | none => []
  if !(pkgGood s b) then answer s path fwVerifyFailed []
  else
    let s := crownEventOpen (modCrown s (fun c => { c with slots := mput c.slots k ⟨b, true⟩ })) 0x0801 0
    let s := if s.crown.recovery && path = 1 && k = 0 then
        modCrown s (fun c => { c with active := 0, recovery := false, recovered := true }) else s
    answer s path okCode []

/-- TRANSFER_FW (R491): a part of a package for CXL slot 1 (A) or 2 (B). -/
def transferFw (path slot offset : Nat) (bytes : List Byte) (last : Bool) (s : State) : State :=
  onPath s path (fun s =>
    let k := slot - 1
    let next := match s.crown.transfer with | some t => if t.slot = k then some t.next else none | none => some 0
    if slot = 0 || slot > 2 || slotRuns s k then answer s path invalidSlot []
    else if s.crown.transfer.any (fun t => t.path != path) then answer s path fwInProgress []
    else if next != some offset then answer s path fwOutOfOrder []
    else if offset + bytes.length > 2 ^ 24 then answer s path invalidInput []
    else
      let s := storePart s k offset bytes path
      if last then endTransfer s k path else answer s path okCode [])

/-- ACTIVATE_FW (R491). -/
def activateFw (path slot : Nat) (online : Bool) (s : State) : State :=
  onPath s path (fun s =>
    if online then answer s path invalidInput []
    else if slot = 0 || slot > 2 || (slotPkg s (slot - 1)).isNone then answer s path invalidSlot []
    else answer (modCrown s (fun c => { c with pend := some (slot - 1) })) path okCode [])

/-- COMMIT_SVN (R492): every F_i rises to the running package's SVN byte. -/
def commitSvn (path : Nat) (s : State) : State :=
  onOnly s path 0 (fun s =>
    if flagF s Reg.crnStatusFallback then answer s path invalidSecurity []
    else
      let b := runPkg s
      let s := modCrown s (fun c => { c with
        fuses := (List.range 64).foldl (fun m i => if pkgSvn b i > (mget m i).getD 0 then mput m i (pkgSvn b i) else m) c.fuses })
      answer (crownEventOpen s 0x0804 0) path okCode [])

/-! ### Sensors, logs, certificates and reports (R486, R495–R497) -/

/-- GET_SENSORS. -/
def getSensors (path : Nat) (s : State) : State := onPath s path (fun s => answer s path okCode (sensorBytes s))

/-- GET_EVENT_LOG: up to `count` of the entries held with SEQ at or after `first`. -/
def getEventLog (path first count : Nat) (s : State) : State :=
  onPath s path (fun s =>
    if count = 0 || count > 64 then answer s path invalidInput []
    else
      let es := s.crown.log.filter (fun e => decide ((e.seq + 2 ^ 32 - first % 2 ^ 32) % 2 ^ 32 < 2 ^ 31))
      answer s path okCode ((es.take count).flatMap CrownEvt.bytes))

/-- GET_CERT (R495). -/
def getCert (path : Nat) (s : State) : State := onPath s path (fun s => answer s path okCode (Config.certChain s.crown.deviceKey s.crown.aliasKey s.crown.meas.flatten))

/-- FLAGS of the report. -/
def reportFlags (s : State) : Nat :=
  getF s Reg.crnStatusFallback + 2 * getF s Reg.crnStatusTestUnlocked + 4 * getF s Reg.rstStrapBoot

/-- Bytes 0 to 927 of the report (R497). -/
def reportBody (s : State) (nonce : List Byte) : List Byte :=
  toBytes 4 0x56415231 ++ toBytes 4 1024 ++ fitBytes 32 nonce ++ toBytes 8 (partId s.part) ++ fitBytes 16 Config.serial
    ++ toBytes 8 (tickOf s) ++ toBytes 1 s.bow.st.code ++ toBytes 1 s.crown.running ++ toBytes 1 (getF s Reg.rstStrapBand)
    ++ toBytes 1 (reportFlags s) ++ toBytes 4 (pkgVersion (runPkg s)) ++ (List.range 64).flatMap (fun i => toBytes 1 (fusedOf s i))
    ++ fitBytes 768 s.crown.meas.flatten ++ zeros 16

/-- GET_REPORT (R497). -/
def getReport (path : Nat) (nonce : List Byte) (s : State) : State :=
  onPath s path (fun s =>
    if nonce.length != 32 then answer s path invalidInput []
    else
      let b := reportBody s nonce
      answer s path okCode (b ++ fitBytes 96 (Config.ecdsaSign s.crown.aliasKey b)))

/-- SPDM_GET_MEASUREMENTS (R496): the 16 values. -/
def spdmGetMeasurements (path : Nat) (s : State) : State := onPath s path (fun s => answer s path okCode s.crown.meas.flatten)

/-- SPDM_KEY_EXCHANGE (R495). -/
def spdmKeyExchange (path : Nat) (request : List Byte) (s : State) : State :=
  onPath s path (fun s => answer s path okCode (Config.spdmAnswer s.crown.spdmKey s.crown.deviceKey s.crown.meas.flatten request))

/-! ### Failure records (R486, R499, R500) -/

/-- CAPTURE: CRN_FREC.CAPTURE written 1. -/
def capture (s : State) : State := if live s && portOpen s then triggerCapture s 5 else s

/-- CRN_FREC as it reads, the DATA of event 0x0901. -/
def frecWord (s : State) : Nat := regVal s Reg.crnFrecValid.off

/-- A record's bytes: how its header lays out its values the spec does not say (log entry 6). -/
def frecBytes (s : State) : State × List Byte :=
  let r := freeVal s
  let b := toBytes 256 r.2 ++ (if s.crown.snapshot.isEmpty then frecBody s else s.crown.snapshot)
  (r.1, b ++ fitBytes 96 (Config.ecdsaSign s.crown.aliasKey b))

/-- FAILURE_RECORD_WRITTEN (R500): into the record that R500 chooses; where every record is HELD it is missed. -/
def failureRecordWritten (s : State) : State :=
  match s.crown.capture with
  | none => s
  | some trig =>
    if !s.power.vddMgmt then s
    else match frecTarget s with
      | none =>
        let s := bump (modCrown s (fun c => { c with capture := none, snapshot := [] })) Reg.crnFrecMissed
        crownEvent s 0x0901 1 (frecWord s)
      | some r =>
        let b := frecBytes s
        let s := modCrown b.1 (fun c => { c with
          capture := none, snapshot := [], frecSeq := c.frecSeq + 1, frecs := mput c.frecs r ⟨c.frecSeq, trig, tickOf s, false, b.2⟩ })
        crownEvent s 0x0901 1 (frecWord s)

/-- SEQ, trigger, tick and HELD of a record; zeros of an empty one. -/
def frecEntry (s : State) (r : Nat) : List Byte :=
  match mget s.crown.frecs r with
  | some x => toBytes 4 x.seq ++ toBytes 1 x.triggers ++ toBytes 8 x.tick ++ toBytes 1 (b2n x.held)
  | none => zeros 14

/-- FREC_LIST. -/
def frecList (path : Nat) (s : State) : State := onPath s path (fun s => tell s path 0xC005 ((List.range 8).flatMap (frecEntry s)))

/-- FREC_READ. What an empty record's bytes read as the spec does not say (log entry 6). -/
def frecRead (path record offset len : Nat) (s : State) : State :=
  onPath s path (fun s =>
    if record > 7 || len > 4096 || offset + len > 131072 then answer s path invalidInput []
    else match mget s.crown.frecs record with
      | some x => answer s path okCode ((x.bytes.drop offset).take len)
      | none => let r := freeVal s; answer r.1 path okCode (toBytes len r.2))

/-- FREC_HOLD. -/
def frecHold (path record : Nat) (hold : Bool) (s : State) : State :=
  onPath s path (fun s =>
    if record > 7 then answer s path invalidInput []
    else answer (modCrown s (fun c => { c with frecs := mmod c.frecs record (fun x => { x with held := hold }) })) path okCode [])

/-! ### Nonces, owner keys and tokens (R486, R498, R501) -/

/-- GET_CHALLENGE. -/
def getChallenge (path : Nat) (s : State) : State :=
  onPath s path (fun s =>
    let r := freeVal s
    let n := toBytes 32 r.2
    answer (modCrown r.1 (fun c => { c with nonces := c.nonces ++ [⟨n, s.now⟩] })) path okCode n)

/-- Whether a nonce was handed out less than 10 s ago and not used yet. -/
def nonceGood (s : State) (n : List Byte) : Bool := s.crown.nonces.any (fun x => x.val = n && decide (s.now < x.made + 10 ^ 7))

/-- A nonce is consumed, whatever comes of its command (R498). -/
def useNonce (s : State) (n : List Byte) : State := modCrown s (fun c => { c with nonces := c.nonces.filter (fun x => x.val != n) })

/-- A command that a nonce and a signature authorise: where they do not, Invalid Security State (log entry 9). -/
def signed (s : State) (path : Nat) (nonce : List Byte) (ok : Bool) (k : State → State) : State :=
  let t := useNonce s nonce
  if nonceGood s nonce && ok then answer (k t) path okCode [] else answer t path invalidSecurity []

/-- OWNER_ENROLL (R498). -/
def ownerEnroll (path : Nat) (key : List Byte) (s : State) : State :=
  onOnly s path 0 (fun s =>
    if key.length != 97 then answer s path invalidInput []
    else match (List.range 4).find? (fun i => !(mhas s.crown.owners i)) with
      | none => answer s path busyCode []
      | some i => answer (modCrown s (fun c => { c with owners := mput c.owners i key })) path okCode [])

/-- OWNER_REVOKE (R498). -/
def ownerRevoke (path slot : Nat) (nonce sig : List Byte) (s : State) : State :=
  onPath s path (fun s =>
    if slot > 3 then answer s path invalidInput []
    else
      let ok : Bool := match mget s.crown.owners slot with | some k => Config.verifies k nonce sig | none => false
      signed s path nonce ok (fun s => modCrown s (fun c => { c with owners := mdel c.owners slot })))

/-- DEBUG_RESET (R498): a warm reset with cause debug request. -/
def debugReset (path : Nat) (nonce sig : List Byte) (s : State) : State :=
  onOnly s path 1 (fun s =>
    signed s path nonce (s.crown.owners.any (fun k => Config.verifies k.2 (nonce ++ Config.serial) sig))
      (fun s => if live s then askWarm s 5 else s))

/-- SET_SETTING (R486): PIN_COLD, with a Saunduf-signed token over the serial number and a nonce. -/
def setSetting (path : Nat) (nonce sig : List Byte) (pinCold : Bool) (s : State) : State :=
  onPath s path (fun s =>
    signed s path nonce (Config.verifies Config.tokenKey (Config.serial ++ nonce ++ [BitVec.ofNat 8 (b2n pinCold)]) sig)
      (fun s => modCrown s (fun c => { c with pinCold := pinCold })))

/-- VENDOR_UNLOCK (R501): TEST_UNLOCKED is set until power-on. -/
def vendorUnlock (path : Nat) (nonce sig : List Byte) (s : State) : State :=
  onPath s path (fun s =>
    signed s path nonce (Config.verifies Config.tokenKey (Config.serial ++ nonce) sig) (fun s => setF s Reg.crnStatusTestUnlocked 1))

end Sys2Proof.Machine
end

