-- ==== Sys2Proof/Machine/RegWrite.lean ====
section
/-! DEFINITION. Register writes through BAR0 (R10, R11, R521–R525): how a write is judged and counted, what each field does with its
bits, and the writes that the table lists by their field. -/
namespace Sys2Proof.Machine
open Sys2Proof

/-! ### Where an access goes (R521, R522, R525) -/

/-- The model's address of an offset of a function's BAR0: the physical function's page lies at 0x0010_0000, a virtual function's BAR0 is its
page alone. None beyond the BAR. -/
def barAddr (fn off : Nat) : Option Nat :=
  if fn = 0 then
    if off ≥ 0x4000000 then none else if 0x100000 ≤ off && off < 0x110000 then some (pageBase + (off - 0x100000)) else some off
  else if off < 0x10000 then some (pageBase + fn * 0x10000 + off) else none

/-- The structures that CXL 4.0 lays out, to which R11 does not apply (R522). -/
def cxlRange (a : Nat) : Bool := (decide (0x30000 ≤ a) && decide (a < 0x38000)) || (decide (0x40000 ≤ a) && decide (a < 0x50000))

/-- The MSI-X table and pending bits of a function page: the offset in the page. -/
def msixOff (a : Nat) : Option Nat :=
  if a < pageBase then none
  else
    let o := (a - pageBase) % 0x10000
    if (0x8000 ≤ o && o < 0x8090) || (0x9000 ≤ o && o < 0x9008) then some o else none

/-- The register at an address; a part without kettles has no KTL_ register. -/
def regAt (s : State) (a : Nat) : Option (RegRun × Nat × Nat) :=
  if a / 0x100000 = 9 && !(hasKettles s.part) then none else findReg a

/-! ### The MSI-X table (R430, PCIe) -/

/-- A dword of an MSI-X entry: address (low, high), data, vector control, whose bit 0 is the mask. -/
def msixDword (s : State) (fn e k v : Nat) : State :=
  let m := msixOf s fn
  let x := m.ent e
  let y : MsixEnt := match k with
    | 0 => { x with addr := setBits x.addr 0 32 v }
    | 1 => { x with addr := setBits x.addr 32 32 v }
    | 2 => { x with data := v % 2 ^ 32 }
    | _ => { x with masked := v.testBit 0 }
  msixFlush (setMsix s fn { m with ents := mput m.ents e y }) fn e

/-- A write to the MSI-X table: aligned dwords and quadwords; the pending bits are read only. -/
def msixWrite (s : State) (fn o size v : Nat) : State :=
  if o ≥ 0x9000 || !(size = 4 || size = 8) || o % size != 0 then s
  else
    let d := (o - 0x8000) / 4
    let s := msixDword s fn (d / 4) (d % 4) (v % 2 ^ 32)
    if size = 8 then msixDword s fn (d / 4) (d % 4 + 1) (v / 2 ^ 32 % 2 ^ 32) else s

/-! ### Fields (R10, R524) -/

/-- What a write of `v` to a W1C field leaves: a counter or a flag is cleared by all-ones, each bit of CAUSE and BROWN by its own one. -/
def w1cPut (s : State) (f : Fld) (v : Nat) : State :=
  if isF f Reg.rstCauseCause || isF f Reg.rstRailBrown then setF s f (getF s f - (getF s f &&& v))
  else if v = 2 ^ f.wid - 1 then setF s f 0 else s

/-- What a write-only field does (R10), of a write of the whole register `val` on function page `t`. -/
def woPut (s : State) (f : Fld) (t val : Nat) : State :=
  let v := bits val f.lo f.wid
  if isF f Reg.intLogStatusPop then (if v = 1 then logPop s else s)
  else if isF f Reg.rstCtrlReq then (if v = 1 then askWarm s 4 else if v = 2 then askFelt s 4 else s)
  else if isF f Reg.crnFrecCapture then (if v = 1 then triggerCapture s 5 else s)
  else if isF f Reg.fwStackOp then
    (if v = 1 then drain (bits val 0 3) s else if v = 2 then cancel s else if v = 3 then unfence (bits val 0 3) s else s)
  else if isF f Reg.fwTestStart then (if v = 1 then testStart (bits val 0 3) (bits val 16 11) s else s)
  else if isF f Reg.fwJobCmdOp then (if fwRuns s then jobCmd s v (bits val 32 32) (bits val 16 16) else s)
  else if isF f Reg.qeQcmdOp then (if v = 1 then queueCreate t s else if v = 2 then queueDestroy t (bits val 2 3) s else s)
  else s

/-- What a write of `val` to the register does to its field `f` that can be written: register `i` of the run, function page `t`. -/
def rwPut (s : State) (f : Fld) (t i val : Nat) : State :=
  let v := bits val f.lo f.wid
  if isF f Reg.tckCtrlSyncEn then syncEnSet s v
  else if f.off = Reg.tckTwinCtrlEn.off then (if f.lo = 0 then twinCtrlSet s val else s)
  else if isF f Reg.tirRangePages then rangeSet s v
  else if isF f Reg.tirLendFrames then lendSet s v (bits val 24 8)
  else if isF f Reg.tirTenCfgFloor then floorSet s i v
  else if isF f Reg.fshChFence then chFenceSet s i v
  else if isF f Reg.fshDfenceFence then dfenceSet s i v
  else if isF f Reg.brmPortEn then sysLost (portEnSet s i v)
  else if isF f Reg.brmPortFence then sysLost (portFenceSet s i v)
  else if isF f Reg.brmPortRole then sysLost (portUpdate (setF s (f.ix i) v) i)
  else if f.off = Reg.tsHpolCir.off then (if f.lo = 0 then meterSet s false i val else s)
  else if f.off = Reg.tsFpolCir.off then (if f.lo = 0 then meterSet s true i val else s)
  else if f.off = Reg.qeQirqIrqEn.off && (queueOf s (8 * t + i)).isNone then s
  else setF s ((f.pg t).ix i) v

/-- One field of a write. -/
def fieldPut (s : State) (f : Fld) (t i val : Nat) (locked : Bool) : State :=
  match f.ty with
  | .ro => s
  | .rw => rwPut s f t i val
  | .rwl => if locked then s else rwPut s f t i val
  | .w1c => w1cPut s ((f.pg t).ix i) (bits val f.lo f.wid)
  | .wo => woPut s f t val

/-! ### Judging a write (R11) -/

/-- Whether a write holds a one in a reserved bit of a register. -/
def rsvdOnes (r : RegRun) (val : Nat) : Bool :=
  (setBitsOf 64 val).any (fun b => !(r.flds.any (fun f => decide (f.lo ≤ b) && decide (b < f.lo + f.wid))))

/-- Whether a write would change an RWL field. -/
def lockChanges (s : State) (r : RegRun) (t i val : Nat) : Bool :=
  r.flds.any (fun f => f.ty = .rwl && bits val f.lo f.wid != getF s ((f.pg t).ix i))

/-- A write of 8 bytes to a register. -/
def regWrite (s : State) (a : Nat) (r : RegRun) (t i val : Nat) : State :=
  let locked := lockedAt s a
  let u := if rsvdOnes r val then bump s Reg.idRsvdwrRsvdWr
    else if locked && lockChanges s r t i val then bump s Reg.idRsvdwrLockedWr else s
  r.flds.foldl (fun u f => fieldPut u f t i val locked) u

/-- A write of `size` bytes at an offset of function `fn`'s BAR0 (R11): judged as a whole, counted at most once. -/
def barWrite (fn off size val : Nat) (s : State) : State :=
  if !(portOpen s) || !(fnEnabled s fn) || fn > 511 then s
  else match barAddr fn off with
    | none => s
    | some a =>
      if cxlRange a then s
      else match msixOff a with
        | some o => msixWrite s fn o size val
        | none =>
          if size < 8 then bump s Reg.idRsvdwrNarrowWr
          else if a % 8 != 0 then bump s Reg.idRsvdwrRsvdWr
          else match regAt s a with
            | none => bump s Reg.idRsvdwrRsvdWr
            | some (r, t, i) => regWrite s a r t i (val % 2 ^ 64)

/-- A byte of a function's MSI-X table or of its pending bits (R430, PCIe). -/
def msixByte (s : State) (fn o : Nat) : Nat :=
  let m := msixOf s fn
  if o ≥ 0x9000 then sumNat ((List.range 9).map (fun e => b2n (m.ent e).pending * 2 ^ e)) / 256 ^ (o % 8)
  else
    let x := m.ent ((o - 0x8000) / 16)
    (x.addr + x.data * 2 ^ 64 + b2n x.masked * 2 ^ 96) / 256 ^ (o % 16)

/-- What software reads at an offset of function `fn`'s BAR0 (R11, R430): `n` bytes, each the byte of the register or of the MSI-X structure
that holds its offset. -/
def barRead (fn off n : Nat) (s : State) : List Byte :=
  (List.range n).map (fun k =>
    match barAddr fn (off + k) with
    | some a => BitVec.ofNat 8 (match msixOff a with
      | some o => msixByte s fn o
      | none => match regAt s (a / 8 * 8) with | some _ => regVal s (a / 8 * 8) / 256 ^ (a % 8) | none => 0)
    | none => 0)

/-! ### The commands -/

/-- REGISTER_WRITE (R11). -/
def registerWrite (fn off size val : Nat) (s : State) : State := barWrite fn off size val s

/-- The value that leaves every field of the register of `f` as it is but `f` itself: what software writes back after a read, with zeros in
the fields that writing ones would clear or start. -/
def wordWith (s : State) (f : Fld) (v : Nat) : Nat :=
  match findReg f.off with
  | some (r, t, i) =>
    setBits (sumNat (r.flds.map (fun g => if g.ty = .rw || g.ty = .rwl then getF s ((g.pg t).ix i) * 2 ^ g.lo else 0))) f.lo f.wid v
  | none => 0

/-- A write of one field of a register of the physical function. -/
def fieldWrite (f : Fld) (v : Nat) (s : State) : State := barWrite 0 f.off 8 (wordWith s f v) s

/-- SYNC_EN_WRITE (R35). -/
def syncEnWrite (value : Nat) (s : State) : State := fieldWrite Reg.tckCtrlSyncEn value s
/-- LOG_POP (R323). -/
def logPopWrite (s : State) : State := fieldWrite Reg.intLogStatusPop 1 s
/-- TWIN_EN_WRITE (R53). -/
def twinEnWrite (value : Nat) (s : State) : State := fieldWrite Reg.tckTwinCtrlEn value s
/-- FLT_FENCE_WRITE (R216): FLT_FENCE, or FENCE_HI of FLT_BLK_HI. -/
def fltFenceWrite (hi : Bool) (value : Nat) (s : State) : State := fieldWrite (if hi then Reg.fltBlkHiFenceHi else Reg.fltFenceFence) value s
/-- KETTLE_FENCE_WRITE (R299): KTL_FENCE0 or KTL_FENCE1 of a site. -/
def kettleFenceWrite (site : Nat) (hi : Bool) (value : Nat) (s : State) : State :=
  if 4 ≤ site && site < 8 then fieldWrite ((if hi then Reg.ktlFence1Fence else Reg.ktlFence0Fence).ix (site - 4)) value s else s
/-- KETTLE_MODE_WRITE (R294). -/
def kettleModeWrite (site mode : Nat) (s : State) : State :=
  if 4 ≤ site && site < 8 then fieldWrite (Reg.ktlCtrlMode.ix (site - 4)) mode s else s
/-- FLASH_FENCE_WRITE (R369): FSH_CHc.FENCE, or the dies of FSH_DFENCEc. -/
def flashFenceWrite (ch : Nat) (dies : Bool) (value : Nat) (s : State) : State :=
  if ch < 32 then fieldWrite ((if dies then Reg.fshDfenceFence else Reg.fshChFence).ix ch) value s else s
/-- PORT_ENABLE_WRITE (R382). -/
def portEnableWrite (port value : Nat) (s : State) : State := if port < 16 then fieldWrite (Reg.brmPortEn.ix port) value s else s
/-- PORT_FENCE_WRITE (R389). -/
def portFenceWrite (port value : Nat) (s : State) : State := if port < 16 then fieldWrite (Reg.brmPortFence.ix port) value s else s
/-- RANGE_PAGES_WRITE (R327). -/
def rangePagesWrite (pages : Nat) (s : State) : State := fieldWrite Reg.tirRangePages pages s
/-- FLOOR_WRITE (R337). -/
def floorWrite (tenant floor : Nat) (s : State) : State :=
  if tenant < 512 then fieldWrite (Reg.tirTenCfgFloor.ix tenant) floor s else s
/-- LEND_WRITE (R341): FRAMES and SITES. -/
def lendWrite (frames sites : Nat) (s : State) : State := barWrite 0 Reg.tirLendFrames.off 8 (frames % 2 ^ 21 + sites % 2 ^ 8 * 2 ^ 24) s
/-- METER_WRITE (R433): TS_HPOLt, or TS_FPOLt. -/
def meterWrite (fabric : Bool) (tenant value : Nat) (s : State) : State :=
  if tenant < 512 then barWrite 0 ((if fabric then Reg.tsFpolCir else Reg.tsHpolCir).ix tenant).off 8 value s else s

end Sys2Proof.Machine
end

