-- ==== Sys2Proof/Machine/Meanings.lean ====
section
/-! DEFINITION. The meaning of each command: its operation of the family files, which always answers a next state (a command whose
conditions the node does not meet is answered by a status, a NAK or a counter, or changes nothing: log entry 2). -/
namespace Sys2Proof.Machine

/-- REGISTER_WRITE (R11). -/
def execRegisterWrite (fn : Nat) (off : Nat) (size : Nat) (val : Nat) (s : State) : Host.Outcome State Fault Refusal :=
  .next (registerWrite fn off size val s)

/-- SYNC_EN_WRITE (R35). -/
def execSyncEnWrite (value : Nat) (s : State) : Host.Outcome State Fault Refusal :=
  .next (syncEnWrite value s)

/-- LOG_POP (R323). -/
def execLogPop (s : State) : Host.Outcome State Fault Refusal :=
  .next (logPopWrite s)

/-- QUEUE_CREATE (R417). -/
def execQueueCreate (fn : Nat) (s : State) : Host.Outcome State Fault Refusal :=
  .next (queueCreate fn s)

/-- QUEUE_DESTROY (R423). -/
def execQueueDestroy (fn : Nat) (slot : Nat) (s : State) : Host.Outcome State Fault Refusal :=
  .next (queueDestroy fn slot s)

/-- QUEUE_DESTROY_DONE (R423). -/
def execQueueDestroyDone (fn : Nat) (s : State) : Host.Outcome State Fault Refusal :=
  .next (queueDestroyDone fn s)

/-- WARM_RESET_REQUEST (R463). -/
def execWarmResetRequest (s : State) : Host.Outcome State Fault Refusal :=
  .next (warmResetRequest s)

/-- FELT_RESET_REQUEST (R463). -/
def execFeltResetRequest (s : State) : Host.Outcome State Fault Refusal :=
  .next (feltResetRequest s)

/-- DRAIN (R456). -/
def execDrain (site : Nat) (s : State) : Host.Outcome State Fault Refusal :=
  .next (drain site s)

/-- CANCEL (R456). -/
def execCancel (s : State) : Host.Outcome State Fault Refusal :=
  .next (cancel s)

/-- UNFENCE (R457). -/
def execUnfence (site : Nat) (s : State) : Host.Outcome State Fault Refusal :=
  .next (unfence site s)

/-- TEST_START (R454). -/
def execTestStart (kind : Nat) (unit : Nat) (s : State) : Host.Outcome State Fault Refusal :=
  .next (testStart kind unit s)

/-- TEST_COMPLETE (R454). -/
def execTestComplete (errors : Nat) (s : State) : Host.Outcome State Fault Refusal :=
  .next (testComplete errors s)

/-- ATTACH (R459). -/
def execAttach (id : Nat) (gen : Nat) (s : State) : Host.Outcome State Fault Refusal :=
  .next (attach id gen s)

/-- DETACH (R459). -/
def execDetach (s : State) : Host.Outcome State Fault Refusal :=
  .next (detach s)

/-- CLEAR (R459). -/
def execClear (s : State) : Host.Outcome State Fault Refusal :=
  .next (clear s)

/-- JOB_RECORD_WRITTEN (R459). -/
def execJobRecordWritten (s : State) : Host.Outcome State Fault Refusal :=
  .next (jobRecordWritten s)

/-- CAPTURE (R499). -/
def execCapture (s : State) : Host.Outcome State Fault Refusal :=
  .next (capture s)

/-- FAILURE_RECORD_WRITTEN (R500). -/
def execFailureRecordWritten (s : State) : Host.Outcome State Fault Refusal :=
  .next (failureRecordWritten s)

/-- FLT_FENCE_WRITE (R216). -/
def execFltFenceWrite (hi : Bool) (value : Nat) (s : State) : Host.Outcome State Fault Refusal :=
  .next (fltFenceWrite hi value s)

/-- KETTLE_FENCE_WRITE (R299). -/
def execKettleFenceWrite (site : Nat) (hi : Bool) (value : Nat) (s : State) : Host.Outcome State Fault Refusal :=
  .next (kettleFenceWrite site hi value s)

/-- KETTLE_MODE_WRITE (R294). -/
def execKettleModeWrite (site : Nat) (mode : Nat) (s : State) : Host.Outcome State Fault Refusal :=
  .next (kettleModeWrite site mode s)

/-- FLASH_FENCE_WRITE (R369). -/
def execFlashFenceWrite (ch : Nat) (dies : Bool) (value : Nat) (s : State) : Host.Outcome State Fault Refusal :=
  .next (flashFenceWrite ch dies value s)

/-- DIE_RETURN_TEST_DONE (R369). -/
def execDieReturnTestDone (ch : Nat) (die : Nat) (ok : Bool) (s : State) : Host.Outcome State Fault Refusal :=
  .next (dieReturnTestDone ch die ok s)

/-- PORT_ENABLE_WRITE (R382). -/
def execPortEnableWrite (port : Nat) (value : Nat) (s : State) : Host.Outcome State Fault Refusal :=
  .next (portEnableWrite port value s)

/-- PORT_FENCE_WRITE (R389). -/
def execPortFenceWrite (port : Nat) (value : Nat) (s : State) : Host.Outcome State Fault Refusal :=
  .next (portFenceWrite port value s)

/-- RANGE_PAGES_WRITE (R327). -/
def execRangePagesWrite (pages : Nat) (s : State) : Host.Outcome State Fault Refusal :=
  .next (rangePagesWrite pages s)

/-- FLOOR_WRITE (R337). -/
def execFloorWrite (tenant : Nat) (floor : Nat) (s : State) : Host.Outcome State Fault Refusal :=
  .next (floorWrite tenant floor s)

/-- LEND_WRITE (R341). -/
def execLendWrite (frames : Nat) (sites : Nat) (s : State) : Host.Outcome State Fault Refusal :=
  .next (lendWrite frames sites s)

/-- TWIN_EN_WRITE (R53). -/
def execTwinEnWrite (value : Nat) (s : State) : Host.Outcome State Fault Refusal :=
  .next (twinEnWrite value s)

/-- METER_WRITE (R433). -/
def execMeterWrite (fabric : Bool) (tenant : Nat) (value : Nat) (s : State) : Host.Outcome State Fault Refusal :=
  .next (meterWrite fabric tenant value s)

/-- MSIX_UNMASK (R431). -/
def execMsixUnmask (fn : Nat) (entry : Option Nat) (s : State) : Host.Outcome State Fault Refusal :=
  .next (msixUnmask fn entry s)

/-- HOST_MEM_READ (R410). -/
def execHostMemRead (span : Span) (met : Met) (s : State) : Host.Outcome State Fault Refusal :=
  .next (hostMemRead span.addr span.len met.homeBad met.path s)

/-- HOST_MEM_WRITE (R410). -/
def execHostMemWrite (addr : Nat) (data : HostData) (met : Met) (s : State) : Host.Outcome State Fault Refusal :=
  .next (hostMemWrite addr data.bytes data.pois met.homeBad met.path s)

/-- WATCH_WORD_WAKE (R419). -/
def execWatchWordWake (queue : Nat) (s : State) : Host.Outcome State Fault Refusal :=
  .next (watchWordWake queue s)

/-- QUEUE_VISIT (R420). -/
def execQueueVisit (s : State) : Host.Outcome State Fault Refusal :=
  .next (queueVisit s)

/-- CQ_HEAD_READ (R421). -/
def execCqHeadRead (queue : Nat) (s : State) : Host.Outcome State Fault Refusal :=
  .next (cqHeadRead queue s)

/-- IRQ_COALESCE_TIMEOUT (R431). -/
def execIrqCoalesceTimeout (queue : Nat) (s : State) : Host.Outcome State Fault Refusal :=
  .next (irqCoalesceTimeout queue s)

/-- FUNCTION_LEVEL_RESET (R416). -/
def execFunctionLevelReset (fn : Nat) (s : State) : Host.Outcome State Fault Refusal :=
  .next (functionLevelReset fn s)

/-- VF_DISABLE (R416). -/
def execVfDisable (numVfs : Nat) (s : State) : Host.Outcome State Fault Refusal :=
  .next (vfDisable numVfs s)

/-- PERST_ASSERT (R511). -/
def execPerstAssert (s : State) : Host.Outcome State Fault Refusal :=
  .next (perstAssert s)

/-- PERST_RELEASE (R511). -/
def execPerstRelease (s : State) : Host.Outcome State Fault Refusal :=
  .next (perstRelease s)

/-- IDENTIFY_MEMORY_DEVICE (R411). -/
def execIdentifyMemoryDevice (path : Nat) (s : State) : Host.Outcome State Fault Refusal :=
  .next (identifyMemoryDevice path s)

/-- GET_SUPPORTED_LOGS (R411). -/
def execGetSupportedLogs (path : Nat) (s : State) : Host.Outcome State Fault Refusal :=
  .next (getSupportedLogs path s)

/-- GET_LOG (R411). -/
def execGetLog (path : Nat) (uuid : List Byte) (offset : Nat) (len : Nat) (s : State) : Host.Outcome State Fault Refusal :=
  .next (getLog path uuid offset len s)

/-- GET_EVENT_RECORDS (R412). -/
def execGetEventRecords (path : Nat) (sev : Nat) (s : State) : Host.Outcome State Fault Refusal :=
  .next (getEventRecords path sev s)

/-- CLEAR_EVENT_RECORDS (R412). -/
def execClearEventRecords (path : Nat) (sev : Nat) (all : Bool) (handles : List Nat) (s : State) : Host.Outcome State Fault Refusal :=
  .next (clearEventRecords path sev all handles s)

/-- GET_EVENT_INTERRUPT_POLICY (R411). -/
def execGetEventInterruptPolicy (path : Nat) (s : State) : Host.Outcome State Fault Refusal :=
  .next (getEventInterruptPolicy path s)

/-- SET_EVENT_INTERRUPT_POLICY (R411). -/
def execSetEventInterruptPolicy (path : Nat) (modes : List Nat) (s : State) : Host.Outcome State Fault Refusal :=
  .next (setEventInterruptPolicy path modes s)

/-- GET_TIMESTAMP (R411). -/
def execGetTimestamp (path : Nat) (s : State) : Host.Outcome State Fault Refusal :=
  .next (getTimestamp path s)

/-- SET_TIMESTAMP (R482). -/
def execSetTimestamp (path : Nat) (value : Nat) (s : State) : Host.Outcome State Fault Refusal :=
  .next (setTimestamp path value s)

/-- GET_HEALTH_INFO (R486). -/
def execGetHealthInfo (path : Nat) (s : State) : Host.Outcome State Fault Refusal :=
  .next (getHealthInfo path s)

/-- GET_FW_INFO (R411). -/
def execGetFwInfo (path : Nat) (s : State) : Host.Outcome State Fault Refusal :=
  .next (getFwInfo path s)

/-- TRANSFER_FW (R491). -/
def execTransferFw (path : Nat) (slot : Nat) (offset : Nat) (bytes : List Byte) (last : Bool) (s : State) : Host.Outcome State Fault Refusal :=
  .next (transferFw path slot offset bytes last s)

/-- ACTIVATE_FW (R491). -/
def execActivateFw (path : Nat) (slot : Nat) (online : Bool) (s : State) : Host.Outcome State Fault Refusal :=
  .next (activateFw path slot online s)

/-- UNSUPPORTED_OPCODE (R486). -/
def execUnsupportedOpcode (path : Nat) (s : State) : Host.Outcome State Fault Refusal :=
  .next (unsupportedOpcode path s)

/-- GET_SENSORS (R486). -/
def execGetSensors (path : Nat) (s : State) : Host.Outcome State Fault Refusal :=
  .next (getSensors path s)

/-- GET_EVENT_LOG (R486). -/
def execGetEventLog (path : Nat) (first : Nat) (count : Nat) (s : State) : Host.Outcome State Fault Refusal :=
  .next (getEventLog path first count s)

/-- GET_CERT (R495). -/
def execGetCert (path : Nat) (s : State) : Host.Outcome State Fault Refusal :=
  .next (getCert path s)

/-- GET_REPORT (R497). -/
def execGetReport (path : Nat) (nonce : List Byte) (s : State) : Host.Outcome State Fault Refusal :=
  .next (getReport path nonce s)

/-- COMMIT_SVN (R492). -/
def execCommitSvn (path : Nat) (s : State) : Host.Outcome State Fault Refusal :=
  .next (commitSvn path s)

/-- FREC_LIST (R486). -/
def execFrecList (path : Nat) (s : State) : Host.Outcome State Fault Refusal :=
  .next (frecList path s)

/-- FREC_READ (R486). -/
def execFrecRead (path : Nat) (record : Nat) (offset : Nat) (len : Nat) (s : State) : Host.Outcome State Fault Refusal :=
  .next (frecRead path record offset len s)

/-- FREC_HOLD (R486). -/
def execFrecHold (path : Nat) (record : Nat) (hold : Bool) (s : State) : Host.Outcome State Fault Refusal :=
  .next (frecHold path record hold s)

/-- GET_CHALLENGE (R486). -/
def execGetChallenge (path : Nat) (s : State) : Host.Outcome State Fault Refusal :=
  .next (getChallenge path s)

/-- OWNER_ENROLL (R498). -/
def execOwnerEnroll (path : Nat) (key : List Byte) (s : State) : Host.Outcome State Fault Refusal :=
  .next (ownerEnroll path key s)

/-- OWNER_REVOKE (R498). -/
def execOwnerRevoke (path : Nat) (slot : Nat) (nonce : List Byte) (sig : List Byte) (s : State) : Host.Outcome State Fault Refusal :=
  .next (ownerRevoke path slot nonce sig s)

/-- DEBUG_RESET (R498). -/
def execDebugReset (path : Nat) (nonce : List Byte) (sig : List Byte) (s : State) : Host.Outcome State Fault Refusal :=
  .next (debugReset path nonce sig s)

/-- SET_SETTING (R486). -/
def execSetSetting (path : Nat) (nonce : List Byte) (sig : List Byte) (pinCold : Bool) (s : State) : Host.Outcome State Fault Refusal :=
  .next (setSetting path nonce sig pinCold s)

/-- VENDOR_UNLOCK (R501). -/
def execVendorUnlock (path : Nat) (nonce : List Byte) (sig : List Byte) (s : State) : Host.Outcome State Fault Refusal :=
  .next (vendorUnlock path nonce sig s)

/-- SPDM_GET_MEASUREMENTS (R496). -/
def execSpdmGetMeasurements (path : Nat) (s : State) : Host.Outcome State Fault Refusal :=
  .next (spdmGetMeasurements path s)

/-- SEARCH (R127). -/
def execSearch (work : Nat) (s : State) : Host.Outcome State Fault Refusal :=
  .next (search work s)

/-- INSERT (R146). -/
def execInsert (work : Nat) (s : State) : Host.Outcome State Fault Refusal :=
  .next (insert work s)

/-- DELETE (R153). -/
def execDelete (work : Nat) (s : State) : Host.Outcome State Fault Refusal :=
  .next (delete work s)

/-- UPDATE_PREPARE_COMPLETE (R137). -/
def execUpdatePrepareComplete (work : Nat) (s : State) : Host.Outcome State Fault Refusal :=
  .next (updatePrepareComplete work s)

/-- COMMIT (R143). -/
def execCommit (work : Nat) (s : State) : Host.Outcome State Fault Refusal :=
  .next (commit work s)

/-- GATHER (R176). -/
def execGather (work : Nat) (s : State) : Host.Outcome State Fault Refusal :=
  .next (gather work s)

/-- GATHER_ADMIT (R178). -/
def execGatherAdmit (s : State) : Host.Outcome State Fault Refusal :=
  .next (gatherAdmit s)

/-- SCATTER (R185). -/
def execScatter (work : Nat) (s : State) : Host.Outcome State Fault Refusal :=
  .next (scatter work s)

/-- SCATTER_START (R187). -/
def execScatterStart (work : Nat) (s : State) : Host.Outcome State Fault Refusal :=
  .next (scatterStart work s)

/-- SCATTER_ROW_RESUME (R190). -/
def execScatterRowResume (work : Nat) (s : State) : Host.Outcome State Fault Refusal :=
  .next (scatterRowResume work s)

/-- RUN (R262). -/
def execRun (work : Nat) (s : State) : Host.Outcome State Fault Refusal :=
  .next (run work s)

/-- MOVE (R349). -/
def execMove (work : Nat) (grants : List (Nat × Nat)) (s : State) : Host.Outcome State Fault Refusal :=
  .next (moveDesc work grants s)

/-- RMA_WRITE (R398). -/
def execRmaWrite (work : Nat) (s : State) : Host.Outcome State Fault Refusal :=
  .next (rmaWrite work s)

/-- RMA_READ (R398). -/
def execRmaRead (work : Nat) (s : State) : Host.Outcome State Fault Refusal :=
  .next (rmaRead work s)

/-- RMA_FETCH_ADD (R399). -/
def execRmaFetchAdd (work : Nat) (s : State) : Host.Outcome State Fault Refusal :=
  .next (rmaFetchAdd work s)

/-- RMA_COMPARE_SWAP (R399). -/
def execRmaCompareSwap (work : Nat) (s : State) : Host.Outcome State Fault Refusal :=
  .next (rmaCompareSwap work s)

/-- RMA_FLUSH (R398). -/
def execRmaFlush (work : Nat) (s : State) : Host.Outcome State Fault Refusal :=
  .next (rmaFlush work s)

/-- RMA_WAIT (R400). -/
def execRmaWait (work : Nat) (s : State) : Host.Outcome State Fault Refusal :=
  .next (rmaWait work s)

/-- WAIT_RELEASE (R400). -/
def execWaitRelease (work : Nat) (s : State) : Host.Outcome State Fault Refusal :=
  .next (waitRelease work s)

/-- TENANT_OPEN (R414). -/
def execTenantOpen (work : Nat) (s : State) : Host.Outcome State Fault Refusal :=
  .next (tenantOpen work s)

/-- TENANT_CLOSE (R415). -/
def execTenantClose (work : Nat) (s : State) : Host.Outcome State Fault Refusal :=
  .next (tenantClose work s)

/-- INDEX_REGISTER (R93). -/
def execIndexRegister (work : Nat) (s : State) : Host.Outcome State Fault Refusal :=
  .next (indexRegister work s)

/-- INDEX_DEREGISTER (R428). -/
def execIndexDeregister (work : Nat) (s : State) : Host.Outcome State Fault Refusal :=
  .next (indexDeregister work s)

/-- SHARD_ATTACH (R95). -/
def execShardAttach (work : Nat) (s : State) : Host.Outcome State Fault Refusal :=
  .next (shardAttach work s)

/-- SHARD_DETACH (R97). -/
def execShardDetach (work : Nat) (s : State) : Host.Outcome State Fault Refusal :=
  .next (shardDetach work s)

/-- SHARD_DETACH_COMPLETE (R97). -/
def execShardDetachComplete (index : Nat) (shard : Nat) (s : State) : Host.Outcome State Fault Refusal :=
  .next (shardDetachComplete index shard s)

/-- TABLE_REGISTER (R170). -/
def execTableRegister (work : Nat) (s : State) : Host.Outcome State Fault Refusal :=
  .next (tableRegister work s)

/-- TABLE_DEREGISTER (R428). -/
def execTableDeregister (work : Nat) (s : State) : Host.Outcome State Fault Refusal :=
  .next (tableDeregister work s)

/-- PIN (R193). -/
def execPin (work : Nat) (s : State) : Host.Outcome State Fault Refusal :=
  .next (pin work s)

/-- UNPIN (R193). -/
def execUnpin (work : Nat) (s : State) : Host.Outcome State Fault Refusal :=
  .next (unpin work s)

/-- LOAD (R258). -/
def execLoad (work : Nat) (s : State) : Host.Outcome State Fault Refusal :=
  .next (load work s)

/-- UNLOAD (R260). -/
def execUnload (work : Nat) (s : State) : Host.Outcome State Fault Refusal :=
  .next (unload work s)

/-- STOP_RUN (R269). -/
def execStopRun (work : Nat) (s : State) : Host.Outcome State Fault Refusal :=
  .next (stopRun work s)

/-- WITHDRAW (R262). -/
def execWithdraw (work : Nat) (s : State) : Host.Outcome State Fault Refusal :=
  .next (withdraw work s)

/-- ROLE (R273). -/
def execRole (work : Nat) (s : State) : Host.Outcome State Fault Refusal :=
  .next (role work s)

/-- AREA_CREATE (R356). -/
def execAreaCreate (work : Nat) (s : State) : Host.Outcome State Fault Refusal :=
  .next (areaCreate work s)

/-- AREA_DELETE (R356). -/
def execAreaDelete (work : Nat) (s : State) : Host.Outcome State Fault Refusal :=
  .next (areaDelete work s)

/-- AREA_WRITE (R357). -/
def execAreaWrite (work : Nat) (s : State) : Host.Outcome State Fault Refusal :=
  .next (areaWriteCmd work s)

/-- AREA_READ (R357). -/
def execAreaRead (work : Nat) (s : State) : Host.Outcome State Fault Refusal :=
  .next (areaReadCmd work s)

/-- REGION_REGISTER (R393). -/
def execRegionRegister (work : Nat) (s : State) : Host.Outcome State Fault Refusal :=
  .next (regionRegister work s)

/-- REGION_DEREGISTER (R395). -/
def execRegionDeregister (work : Nat) (s : State) : Host.Outcome State Fault Refusal :=
  .next (regionDeregister work s)

/-- REGION_DEREGISTER_DONE (R395). -/
def execRegionDeregisterDone (slot : Nat) (s : State) : Host.Outcome State Fault Refusal :=
  .next (regionDeregisterDone slot s)

/-- GATE_LIST (R436). -/
def execGateList (work : Nat) (s : State) : Host.Outcome State Fault Refusal :=
  .next (gateList work s)

/-- LOAD_FRAME (R36). -/
def execLoadFrame (frame : Nat) (ago : Nat) (offset : Int) (s : State) : Host.Outcome State Fault Refusal :=
  .next (loadFrame frame ago offset s)

/-- CHECK_FRAME (R35). -/
def execCheckFrame (frame : Nat) (ago : Nat) (offset : Int) (s : State) : Host.Outcome State Fault Refusal :=
  .next (checkFrame frame ago offset s)

/-- TICK_REF_LOST (R35). -/
def execTickRefLost (s : State) : Host.Outcome State Fault Refusal :=
  .next (tickRefLost s)

/-- PHASE_LOST (R35). -/
def execPhaseLost (phase : Int) (s : State) : Host.Outcome State Fault Refusal :=
  .next (phaseLost phase s)

/-- CHECK_MISSING (R35). -/
def execCheckMissing (s : State) : Host.Outcome State Fault Refusal :=
  .next (checkMissing s)

/-- CROSSING_ALIGNMENT (R45). -/
def execCrossingAlignment (s : State) : Host.Outcome State Fault Refusal :=
  .next (crossingAlignment s)

/-- EVENT_PREPARE (R42). -/
def execEventPrepare (s : State) : Host.Outcome State Fault Refusal :=
  .next (eventPrepare s)

/-- COMPARISON_POINT (R56). -/
def execComparisonPoint (s : State) : Host.Outcome State Fault Refusal :=
  .next (edgeComparison s)

/-- STEP_BOUNDARY (R263). -/
def execStepBoundary (img : Nat) (s : State) : Host.Outcome State Fault Refusal :=
  .next (stepBoundary img s)

/-- EPOCH_COMMIT (R142). -/
def execEpochCommit (index : Nat) (shard : Nat) (s : State) : Host.Outcome State Fault Refusal :=
  .next (epochCommit index shard s)

/-- GATE_LIST_TAKEOVER (R436). -/
def execGateListTakeover (port : Nat) (s : State) : Host.Outcome State Fault Refusal :=
  .next (gateListTakeover port s)

/-- GATE_ENTRY_CHANGE (R436). -/
def execGateEntryChange (port : Nat) (s : State) : Host.Outcome State Fault Refusal :=
  .next (gateEntryChange port s)

/-- IMAGE_LAUNCH (R43). -/
def execImageLaunch (img : Nat) (s : State) : Host.Outcome State Fault Refusal :=
  .next (imageLaunch img s)

/-- SCRUB_PACING (R318). -/
def execScrubPacing (s : State) : Host.Outcome State Fault Refusal :=
  .next (scrubPacing s)

/-- ROLE_APPLY (R273). -/
def execRoleApply (s : State) : Host.Outcome State Fault Refusal :=
  .next (roleApply s)

/-- METER_REFILL (R433). -/
def execMeterRefill (s : State) : Host.Outcome State Fault Refusal :=
  .next (meterRefill s)

/-- TWIN_FRAME_SEND (R55). -/
def execTwinFrameSend (s : State) : Host.Outcome State Fault Refusal :=
  .next (twinFrameSend s)

/-- TWIN_LINK_LOST (R59). -/
def execTwinLinkLost (s : State) : Host.Outcome State Fault Refusal :=
  .next (twinLinkLost s)

/-- SHARD_SEARCH_ADMIT (R129). -/
def execShardSearchAdmit (s : State) : Host.Outcome State Fault Refusal :=
  .next (shardSearchAdmit (edgeUpTo s 3))

/-- ADMIT_TIMEOUT (R129). -/
def execAdmitTimeout (id : Nat) (s : State) : Host.Outcome State Fault Refusal :=
  .next (admitTimeout id s)

/-- TRAVERSAL_ROUND (R110). -/
def execTraversalRound (id : Nat) (s : State) : Host.Outcome State Fault Refusal :=
  .next (traversalRound id s)

/-- SEARCH_DEADLINE (R115). -/
def execSearchDeadline (id : Nat) (s : State) : Host.Outcome State Fault Refusal :=
  .next (searchDeadline id s)

/-- SHARD_SEARCH_EXPIRY (R127). -/
def execShardSearchExpiry (id : Nat) (s : State) : Host.Outcome State Fault Refusal :=
  .next (shardSearchExpiry id s)

/-- MERGE (R157). -/
def execMerge (s : State) : Host.Outcome State Fault Refusal :=
  .next (merge s)

/-- ROW_FOLD (R136). -/
def execRowFold (index : Nat) (shard : Nat) (loc : Nat) (s : State) : Host.Outcome State Fault Refusal :=
  .next (rowFold index shard loc s)

/-- FORCED_RETIREMENT (R138). -/
def execForcedRetirement (work : Nat) (s : State) : Host.Outcome State Fault Refusal :=
  .next (forcedRetirement work s)

/-- VERSION_PRESSURE_RETIRE (R139). -/
def execVersionPressureRetire (s : State) : Host.Outcome State Fault Refusal :=
  .next (versionPressureRetire s)

/-- LOAD_WINDOW_END (R194). -/
def execLoadWindowEnd (s : State) : Host.Outcome State Fault Refusal :=
  .next (loadWindowEnd s)

/-- TRANSFER_READY (R207). -/
def execTransferReady (img : Nat) (cell : Nat) (win : Nat) (felt : Nat) (s : State) : Host.Outcome State Fault Refusal :=
  .next (transferReady img cell win felt s)

/-- LATE_RELEASE_RESUME (R212). -/
def execLateReleaseResume (img : Nat) (s : State) : Host.Outcome State Fault Refusal :=
  .next (lateReleaseResume img s)

/-- FELT_WATCHDOG (R220). -/
def execFeltWatchdog (img : Nat) (s : State) : Host.Outcome State Fault Refusal :=
  .next (feltWatchdog img s)

/-- STOP (R225). -/
def execStop (img : Nat) (cell : Nat) (ecc : Nat) (s : State) : Host.Outcome State Fault Refusal :=
  .next (cellStop img cell ecc s)

/-- CNOP (R232). -/
def execCnop (img : Nat) (cell : Nat) (ecc : Nat) (s : State) : Host.Outcome State Fault Refusal :=
  .next (cellCnop img cell ecc s)

/-- ADD (R232). -/
def execAdd (img : Nat) (cell : Nat) (ecc : Nat) (s : State) : Host.Outcome State Fault Refusal :=
  .next (cellAdd img cell ecc s)

/-- SUB (R232). -/
def execSub (img : Nat) (cell : Nat) (ecc : Nat) (s : State) : Host.Outcome State Fault Refusal :=
  .next (cellSub img cell ecc s)

/-- AND (R232). -/
def execAnd (img : Nat) (cell : Nat) (ecc : Nat) (s : State) : Host.Outcome State Fault Refusal :=
  .next (cellAnd img cell ecc s)

/-- OR (R232). -/
def execOr (img : Nat) (cell : Nat) (ecc : Nat) (s : State) : Host.Outcome State Fault Refusal :=
  .next (cellOr img cell ecc s)

/-- XOR (R232). -/
def execXor (img : Nat) (cell : Nat) (ecc : Nat) (s : State) : Host.Outcome State Fault Refusal :=
  .next (cellXor img cell ecc s)

/-- SHL (R232). -/
def execShl (img : Nat) (cell : Nat) (ecc : Nat) (s : State) : Host.Outcome State Fault Refusal :=
  .next (cellShl img cell ecc s)

/-- SHR (R232). -/
def execShr (img : Nat) (cell : Nat) (ecc : Nat) (s : State) : Host.Outcome State Fault Refusal :=
  .next (cellShr img cell ecc s)

/-- SAR (R232). -/
def execSar (img : Nat) (cell : Nat) (ecc : Nat) (s : State) : Host.Outcome State Fault Refusal :=
  .next (cellSar img cell ecc s)

/-- MUL (R232). -/
def execMul (img : Nat) (cell : Nat) (ecc : Nat) (s : State) : Host.Outcome State Fault Refusal :=
  .next (cellMul img cell ecc s)

/-- MINS (R232). -/
def execMins (img : Nat) (cell : Nat) (ecc : Nat) (s : State) : Host.Outcome State Fault Refusal :=
  .next (cellMins img cell ecc s)

/-- MAXS (R232). -/
def execMaxs (img : Nat) (cell : Nat) (ecc : Nat) (s : State) : Host.Outcome State Fault Refusal :=
  .next (cellMaxs img cell ecc s)

/-- ADDI (R232). -/
def execAddi (img : Nat) (cell : Nat) (ecc : Nat) (s : State) : Host.Outcome State Fault Refusal :=
  .next (cellAddi img cell ecc s)

/-- ANDI (R232). -/
def execAndi (img : Nat) (cell : Nat) (ecc : Nat) (s : State) : Host.Outcome State Fault Refusal :=
  .next (cellAndi img cell ecc s)

/-- ORI (R232). -/
def execOri (img : Nat) (cell : Nat) (ecc : Nat) (s : State) : Host.Outcome State Fault Refusal :=
  .next (cellOri img cell ecc s)

/-- LDI0 (R232). -/
def execLdi0 (img : Nat) (cell : Nat) (ecc : Nat) (s : State) : Host.Outcome State Fault Refusal :=
  .next (cellLdi0 img cell ecc s)

/-- LDI1 (R232). -/
def execLdi1 (img : Nat) (cell : Nat) (ecc : Nat) (s : State) : Host.Outcome State Fault Refusal :=
  .next (cellLdi1 img cell ecc s)

/-- LDI2 (R232). -/
def execLdi2 (img : Nat) (cell : Nat) (ecc : Nat) (s : State) : Host.Outcome State Fault Refusal :=
  .next (cellLdi2 img cell ecc s)

/-- LDI3 (R232). -/
def execLdi3 (img : Nat) (cell : Nat) (ecc : Nat) (s : State) : Host.Outcome State Fault Refusal :=
  .next (cellLdi3 img cell ecc s)

/-- LOOP (R233). -/
def execLoop (img : Nat) (cell : Nat) (ecc : Nat) (s : State) : Host.Outcome State Fault Refusal :=
  .next (cellLoop img cell ecc s)

/-- JUMP (R234). -/
def execJump (img : Nat) (cell : Nat) (ecc : Nat) (s : State) : Host.Outcome State Fault Refusal :=
  .next (cellJump img cell ecc s)

/-- STSEL (R235). -/
def execStsel (img : Nat) (cell : Nat) (ecc : Nat) (s : State) : Host.Outcome State Fault Refusal :=
  .next (cellStsel img cell ecc s)

/-- MNOP (R236). -/
def execMnop (img : Nat) (cell : Nat) (ecc : Nat) (s : State) : Host.Outcome State Fault Refusal :=
  .next (cellMnop img cell ecc s)

/-- MMA (R237). -/
def execMma (img : Nat) (cell : Nat) (ecc : Nat) (s : State) : Host.Outcome State Fault Refusal :=
  .next (cellMma img cell ecc s)

/-- MCLR (R236). -/
def execMclr (img : Nat) (cell : Nat) (ecc : Nat) (s : State) : Host.Outcome State Fault Refusal :=
  .next (cellMclr img cell ecc s)

/-- MRD (R236). -/
def execMrd (img : Nat) (cell : Nat) (ecc : Nat) (s : State) : Host.Outcome State Fault Refusal :=
  .next (cellMrd img cell ecc s)

/-- MWR (R236). -/
def execMwr (img : Nat) (cell : Nat) (ecc : Nat) (s : State) : Host.Outcome State Fault Refusal :=
  .next (cellMwr img cell ecc s)

/-- VNOP (R238). -/
def execVnop (img : Nat) (cell : Nat) (ecc : Nat) (s : State) : Host.Outcome State Fault Refusal :=
  .next (cellVnop img cell ecc s)

/-- VADD (R238). -/
def execVadd (img : Nat) (cell : Nat) (ecc : Nat) (s : State) : Host.Outcome State Fault Refusal :=
  .next (cellVadd img cell ecc s)

/-- VSUB (R238). -/
def execVsub (img : Nat) (cell : Nat) (ecc : Nat) (s : State) : Host.Outcome State Fault Refusal :=
  .next (cellVsub img cell ecc s)

/-- VMUL (R238). -/
def execVmul (img : Nat) (cell : Nat) (ecc : Nat) (s : State) : Host.Outcome State Fault Refusal :=
  .next (cellVmul img cell ecc s)

/-- VFMA (R238). -/
def execVfma (img : Nat) (cell : Nat) (ecc : Nat) (s : State) : Host.Outcome State Fault Refusal :=
  .next (cellVfma img cell ecc s)

/-- VFNMA (R238). -/
def execVfnma (img : Nat) (cell : Nat) (ecc : Nat) (s : State) : Host.Outcome State Fault Refusal :=
  .next (cellVfnma img cell ecc s)

/-- VMIN (R238). -/
def execVmin (img : Nat) (cell : Nat) (ecc : Nat) (s : State) : Host.Outcome State Fault Refusal :=
  .next (cellVmin img cell ecc s)

/-- VMAX (R238). -/
def execVmax (img : Nat) (cell : Nat) (ecc : Nat) (s : State) : Host.Outcome State Fault Refusal :=
  .next (cellVmax img cell ecc s)

/-- VCMP (R238). -/
def execVcmp (img : Nat) (cell : Nat) (ecc : Nat) (s : State) : Host.Outcome State Fault Refusal :=
  .next (cellVcmp img cell ecc s)

/-- VIADD (R238). -/
def execViadd (img : Nat) (cell : Nat) (ecc : Nat) (s : State) : Host.Outcome State Fault Refusal :=
  .next (cellViadd img cell ecc s)

/-- VISUB (R238). -/
def execVisub (img : Nat) (cell : Nat) (ecc : Nat) (s : State) : Host.Outcome State Fault Refusal :=
  .next (cellVisub img cell ecc s)

/-- VIMUL (R238). -/
def execVimul (img : Nat) (cell : Nat) (ecc : Nat) (s : State) : Host.Outcome State Fault Refusal :=
  .next (cellVimul img cell ecc s)

/-- VAND (R238). -/
def execVand (img : Nat) (cell : Nat) (ecc : Nat) (s : State) : Host.Outcome State Fault Refusal :=
  .next (cellVand img cell ecc s)

/-- VOR (R238). -/
def execVor (img : Nat) (cell : Nat) (ecc : Nat) (s : State) : Host.Outcome State Fault Refusal :=
  .next (cellVor img cell ecc s)

/-- VXOR (R238). -/
def execVxor (img : Nat) (cell : Nat) (ecc : Nat) (s : State) : Host.Outcome State Fault Refusal :=
  .next (cellVxor img cell ecc s)

/-- VSHL (R238). -/
def execVshl (img : Nat) (cell : Nat) (ecc : Nat) (s : State) : Host.Outcome State Fault Refusal :=
  .next (cellVshl img cell ecc s)

/-- VSHR (R238). -/
def execVshr (img : Nat) (cell : Nat) (ecc : Nat) (s : State) : Host.Outcome State Fault Refusal :=
  .next (cellVshr img cell ecc s)

/-- VSEL (R238). -/
def execVsel (img : Nat) (cell : Nat) (ecc : Nat) (s : State) : Host.Outcome State Fault Refusal :=
  .next (cellVsel img cell ecc s)

/-- VBC (R238). -/
def execVbc (img : Nat) (cell : Nat) (ecc : Nat) (s : State) : Host.Outcome State Fault Refusal :=
  .next (cellVbc img cell ecc s)

/-- VGET (R238). -/
def execVget (img : Nat) (cell : Nat) (ecc : Nat) (s : State) : Host.Outcome State Fault Refusal :=
  .next (cellVget img cell ecc s)

/-- VPUT (R238). -/
def execVput (img : Nat) (cell : Nat) (ecc : Nat) (s : State) : Host.Outcome State Fault Refusal :=
  .next (cellVput img cell ecc s)

/-- VROT (R238). -/
def execVrot (img : Nat) (cell : Nat) (ecc : Nat) (s : State) : Host.Outcome State Fault Refusal :=
  .next (cellVrot img cell ecc s)

/-- PSET (R238). -/
def execPset (img : Nat) (cell : Nat) (ecc : Nat) (s : State) : Host.Outcome State Fault Refusal :=
  .next (cellPset img cell ecc s)

/-- PGET (R238). -/
def execPget (img : Nat) (cell : Nat) (ecc : Nat) (s : State) : Host.Outcome State Fault Refusal :=
  .next (cellPget img cell ecc s)

/-- VCVT (R239). -/
def execVcvt (img : Nat) (cell : Nat) (ecc : Nat) (s : State) : Host.Outcome State Fault Refusal :=
  .next (cellVcvt img cell ecc s)

/-- VRSC (R240). -/
def execVrsc (img : Nat) (cell : Nat) (ecc : Nat) (s : State) : Host.Outcome State Fault Refusal :=
  .next (cellVrsc img cell ecc s)

/-- VAMAX (R244). -/
def execVamax (img : Nat) (cell : Nat) (ecc : Nat) (s : State) : Host.Outcome State Fault Refusal :=
  .next (cellVamax img cell ecc s)

/-- VQENC (R242). -/
def execVqenc (img : Nat) (cell : Nat) (ecc : Nat) (s : State) : Host.Outcome State Fault Refusal :=
  .next (cellVqenc img cell ecc s)

/-- VQDEC (R243). -/
def execVqdec (img : Nat) (cell : Nat) (ecc : Nat) (s : State) : Host.Outcome State Fault Refusal :=
  .next (cellVqdec img cell ecc s)

/-- XCLR (R246). -/
def execXclr (img : Nat) (cell : Nat) (ecc : Nat) (s : State) : Host.Outcome State Fault Refusal :=
  .next (cellXclr img cell ecc s)

/-- XDOT (R246). -/
def execXdot (img : Nat) (cell : Nat) (ecc : Nat) (s : State) : Host.Outcome State Fault Refusal :=
  .next (cellXdot img cell ecc s)

/-- XSUM (R246). -/
def execXsum (img : Nat) (cell : Nat) (ecc : Nat) (s : State) : Host.Outcome State Fault Refusal :=
  .next (cellXsum img cell ecc s)

/-- XSQD (R246). -/
def execXsqd (img : Nat) (cell : Nat) (ecc : Nat) (s : State) : Host.Outcome State Fault Refusal :=
  .next (cellXsqd img cell ecc s)

/-- XDOTQ_QI8 (R246). -/
def execXdotqQi8 (img : Nat) (cell : Nat) (ecc : Nat) (s : State) : Host.Outcome State Fault Refusal :=
  .next (cellXdotqQi8 img cell ecc s)

/-- XDOTQ_QI4 (R246). -/
def execXdotqQi4 (img : Nat) (cell : Nat) (ecc : Nat) (s : State) : Host.Outcome State Fault Refusal :=
  .next (cellXdotqQi4 img cell ecc s)

/-- XRND (R248). -/
def execXrnd (img : Nat) (cell : Nat) (ecc : Nat) (s : State) : Host.Outcome State Fault Refusal :=
  .next (cellXrnd img cell ecc s)

/-- XGET (R249). -/
def execXget (img : Nat) (cell : Nat) (ecc : Nat) (s : State) : Host.Outcome State Fault Refusal :=
  .next (cellXget img cell ecc s)

/-- XADD (R249). -/
def execXadd (img : Nat) (cell : Nat) (ecc : Nat) (s : State) : Host.Outcome State Fault Refusal :=
  .next (cellXadd img cell ecc s)

/-- XNOP (R250). -/
def execXnop (img : Nat) (cell : Nat) (ecc : Nat) (s : State) : Host.Outcome State Fault Refusal :=
  .next (cellXnop img cell ecc s)

/-- WREL (R207). -/
def execWrel (img : Nat) (cell : Nat) (ecc : Nat) (s : State) : Host.Outcome State Fault Refusal :=
  .next (cellWrel img cell ecc s)

/-- WGIVE (R207). -/
def execWgive (img : Nat) (cell : Nat) (ecc : Nat) (s : State) : Host.Outcome State Fault Refusal :=
  .next (cellWgive img cell ecc s)

/-- VLDA (R250). -/
def execVlda (img : Nat) (cell : Nat) (ecc : Nat) (ups : List (Nat × Nat)) (s : State) : Host.Outcome State Fault Refusal :=
  .next (cellVlda img cell ecc ups s)

/-- VSTA (R250). -/
def execVsta (img : Nat) (cell : Nat) (ecc : Nat) (s : State) : Host.Outcome State Fault Refusal :=
  .next (cellVsta img cell ecc s)

/-- VLD (R251). -/
def execVld (img : Nat) (cell : Nat) (ecc : Nat) (ups : List (Nat × Nat)) (s : State) : Host.Outcome State Fault Refusal :=
  .next (cellVld img cell ecc ups s)

/-- VST (R251). -/
def execVst (img : Nat) (cell : Nat) (ecc : Nat) (s : State) : Host.Outcome State Fault Refusal :=
  .next (cellVst img cell ecc s)

/-- SLD (R250). -/
def execSld (img : Nat) (cell : Nat) (ecc : Nat) (ups : List (Nat × Nat)) (s : State) : Host.Outcome State Fault Refusal :=
  .next (cellSld img cell ecc ups s)

/-- SST (R250). -/
def execSst (img : Nat) (cell : Nat) (ecc : Nat) (s : State) : Host.Outcome State Fault Refusal :=
  .next (cellSst img cell ecc s)

/-- SEND (R252). -/
def execSend (img : Nat) (cell : Nat) (ecc : Nat) (s : State) : Host.Outcome State Fault Refusal :=
  .next (cellSend img cell ecc s)

/-- RECV (R252). -/
def execRecv (img : Nat) (cell : Nat) (ecc : Nat) (s : State) : Host.Outcome State Fault Refusal :=
  .next (cellRecv img cell ecc s)

/-- DRAM_READ (R279). -/
def execDramRead (req : Nat) (site : Nat) (addr : Nat) (len : Nat) (ups : List (Nat × Nat × Nat)) (mapErr : List (Nat × Nat)) (waiting : Nat) (s : State) : Host.Outcome State Fault Refusal :=
  dramReadAt req site addr len ups mapErr waiting s

/-- DRAM_WRITE (R279). -/
def execDramWrite (req : Nat) (site : Nat) (addr : Nat) (bytes : List Byte) (pois : List Nat) (ups : List (Nat × Nat × Nat)) (mapErr : List (Nat × Nat)) (waiting : Nat) (s : State) : Host.Outcome State Fault Refusal :=
  dramWriteAt req site addr bytes pois ups mapErr waiting s

/-- REFRESH (R280). -/
def execRefresh (site : Nat) (pc : Nat) (s : State) : Host.Outcome State Fault Refusal :=
  .next (refresh site pc s)

/-- KETTLE_JOB (R282). -/
def execKettleJob (site : Nat) (req : Option (Nat × Nat)) (prog : Nat) (lists : List (List Nat)) (lut : List Nat) (lutM : Nat) (params : List Nat) (outUnits : Nat) (pmapUnits : Nat) (s : State) : Host.Outcome State Fault Refusal :=
  .next (kettleJob site req prog lists lut lutM params outUnits pmapUnits s)

/-- KETTLE_JOB_START (R283). -/
def execKettleJobStart (site : Nat) (s : State) : Host.Outcome State Fault Refusal :=
  .next (kettleJobStart site s)

/-- KETTLE_POLL (R295). -/
def execKettlePoll (site : Nat) (s : State) : Host.Outcome State Fault Refusal :=
  .next (kettlePoll site s)

/-- FULL_WINDOW_END (R296). -/
def execFullWindowEnd (site : Nat) (s : State) : Host.Outcome State Fault Refusal :=
  .next (fullWindowEnd site s)

/-- KETTLE_JOB_COMPLETE (R284). -/
def execKettleJobComplete (site : Nat) (s : State) : Host.Outcome State Fault Refusal :=
  .next (kettleJobComplete site s)

/-- KETTLE_PARITY_ERROR (R298). -/
def execKettleParityError (site : Nat) (pc : Nat) (s : State) : Host.Outcome State Fault Refusal :=
  .next (kettleParityError site pc s)

/-- KNOP (R289). -/
def execKnop (site : Nat) (kettle : Nat) (s : State) : Host.Outcome State Fault Refusal :=
  .next (knop site kettle s)

/-- LDS (R289). -/
def execLds (site : Nat) (kettle : Nat) (s : State) : Host.Outcome State Fault Refusal :=
  .next (lds site kettle s)

/-- STO (R289). -/
def execSto (site : Nat) (kettle : Nat) (s : State) : Host.Outcome State Fault Refusal :=
  .next (sto site kettle s)

/-- LDI (R289). -/
def execLdi (site : Nat) (kettle : Nat) (s : State) : Host.Outcome State Fault Refusal :=
  .next (ldi site kettle s)

/-- LDC (R289). -/
def execLdc (site : Nat) (kettle : Nat) (s : State) : Host.Outcome State Fault Refusal :=
  .next (ldc site kettle s)

/-- ALD (R289). -/
def execAld (site : Nat) (kettle : Nat) (s : State) : Host.Outcome State Fault Refusal :=
  .next (ald site kettle s)

/-- AADD (R289). -/
def execAadd (site : Nat) (kettle : Nat) (s : State) : Host.Outcome State Fault Refusal :=
  .next (aadd site kettle s)

/-- CMP (R289). -/
def execCmp (site : Nat) (kettle : Nat) (s : State) : Host.Outcome State Fault Refusal :=
  .next (cmp site kettle s)

/-- TST (R289). -/
def execTst (site : Nat) (kettle : Nat) (s : State) : Host.Outcome State Fault Refusal :=
  .next (tst site kettle s)

/-- MAND (R289). -/
def execMand (site : Nat) (kettle : Nat) (s : State) : Host.Outcome State Fault Refusal :=
  .next (mand site kettle s)

/-- MOR (R289). -/
def execMor (site : Nat) (kettle : Nat) (s : State) : Host.Outcome State Fault Refusal :=
  .next (mor site kettle s)

/-- MNOT (R289). -/
def execMnot (site : Nat) (kettle : Nat) (s : State) : Host.Outcome State Fault Refusal :=
  .next (mnot site kettle s)

/-- IADD (R289). -/
def execIadd (site : Nat) (kettle : Nat) (s : State) : Host.Outcome State Fault Refusal :=
  .next (iadd site kettle s)

/-- IADDS (R289). -/
def execIadds (site : Nat) (kettle : Nat) (s : State) : Host.Outcome State Fault Refusal :=
  .next (iadds site kettle s)

/-- WIDEN (R289). -/
def execWiden (site : Nat) (kettle : Nat) (s : State) : Host.Outcome State Fault Refusal :=
  .next (widen site kettle s)

/-- TLU (R289). -/
def execTlu (site : Nat) (kettle : Nat) (s : State) : Host.Outcome State Fault Refusal :=
  .next (tlu site kettle s)

/-- GSUM (R289). -/
def execGsum (site : Nat) (kettle : Nat) (s : State) : Host.Outcome State Fault Refusal :=
  .next (gsum site kettle s)

/-- BITS (R289). -/
def execBits (site : Nat) (kettle : Nat) (s : State) : Host.Outcome State Fault Refusal :=
  .next (kbits site kettle s)

/-- FILT (R289). -/
def execFilt (site : Nat) (kettle : Nat) (s : State) : Host.Outcome State Fault Refusal :=
  .next (filt site kettle s)

/-- EMIT (R289). -/
def execEmit (site : Nat) (kettle : Nat) (s : State) : Host.Outcome State Fault Refusal :=
  .next (kemit site kettle s)

/-- KETTLE_LOOP (R289). -/
def execKettleLoop (site : Nat) (kettle : Nat) (s : State) : Host.Outcome State Fault Refusal :=
  .next (kettleLoop site kettle s)

/-- END (R289). -/
def execKettleEnd (site : Nat) (kettle : Nat) (s : State) : Host.Outcome State Fault Refusal :=
  .next (kettleEnd site kettle s)

/-- SCRUB_LINE_VISIT (R319). -/
def execScrubLineVisit (n : Nat) (ups : List (Nat × Nat × Nat)) (s : State) : Host.Outcome State Fault Refusal :=
  .next (scrubLineVisit n ups s)

/-- NODE_RANGE_ACCESS (R330). -/
def execNodeRangeAccess (req : Nat) (addr : Nat) (len : Nat) (write : Option (List Byte × List Nat)) (met : Met)
    (s : State) : Host.Outcome State Fault Refusal :=
  .next (nodeRangeAccess req addr len write met.homeBad met.path s)

/-- FRAME_ALLOCATE (R335). -/
def execFrameAllocate (s : State) : Host.Outcome State Fault Refusal :=
  .next (frameAllocate s)

/-- MOVE_START (R332). -/
def execMoveStart (page : Nat) (dst : MoveDst) (s : State) : Host.Outcome State Fault Refusal :=
  .next (moveStart page dst s)

/-- MOVE_COMMIT (R332). -/
def execMoveCommit (slot : Nat) (s : State) : Host.Outcome State Fault Refusal :=
  .next (moveCommit slot s)

/-- MOVE_ABANDON (R333). -/
def execMoveAbandon (slot : Nat) (s : State) : Host.Outcome State Fault Refusal :=
  .next (moveAbandon slot s)

/-- DEMOTION_ROUND (R338). -/
def execDemotionRound (grants : List (Nat × Nat)) (s : State) : Host.Outcome State Fault Refusal :=
  .next (demotionRound grants s)

/-- AGER_SWEEP (R339). -/
def execAgerSweep (s : State) : Host.Outcome State Fault Refusal :=
  .next (agerSweep s)

/-- LENT_FRAME_REQUEST (R342). -/
def execLentFrameRequest (msg : LentMsg) (s : State) : Host.Outcome State Fault Refusal :=
  .next (lentFrameRequest msg s)

/-- FLASH_WRITE (R360). -/
def execFlashWrite (req : Nat) (flu : Nat) (ru : Nat) (bytes : List Byte) (pois : Nat) (s : State) : Host.Outcome State Fault Refusal :=
  .next (flashWrite req flu ru bytes pois s)

/-- FLASH_WRITE_RESUME (R360). -/
def execFlashWriteResume (s : State) : Host.Outcome State Fault Refusal :=
  .next (flashWriteResume s)

/-- BAND_ROW_PROGRAM (R361). -/
def execBandRowProgram (band : Nat) (row : Nat) (s : State) : Host.Outcome State Fault Refusal :=
  .next (bandRowProgram band row s)

/-- FLASH_PROGRAM_COMPLETE (R361). -/
def execFlashProgramComplete (band : Nat) (row : Option Nat) (failed : List Nat) (s : State) : Host.Outcome State Fault Refusal :=
  .next (flashProgramComplete band row failed s)

/-- FLASH_READ (R359). -/
def execFlashRead (req : Nat) (unit : RuAt) (weak : List (Nat × Nat × Nat)) (s : State) : Host.Outcome State Fault Refusal :=
  .next (flashRead req unit.flu unit.ru weak s)

/-- FLASH_READ_COMPLETE (R365). -/
def execFlashReadComplete (id : Nat) (step : Nat) (s : State) : Host.Outcome State Fault Refusal :=
  .next (flashReadComplete id step s)

/-- GARBAGE_COLLECTION (R362). -/
def execGarbageCollection (s : State) : Host.Outcome State Fault Refusal :=
  .next (garbageCollection s)

/-- SLC_FOLD (R363). -/
def execSlcFold (band : Nat) (s : State) : Host.Outcome State Fault Refusal :=
  .next (slcFold band s)

/-- PATROL_READ (R367). -/
def execPatrolRead (steps : List Nat) (pct : Nat) (s : State) : Host.Outcome State Fault Refusal :=
  .next (patrolRead steps pct s)

/-- CHECKPOINT_WRITE (R371). -/
def execCheckpointWrite (segment : Nat) (s : State) : Host.Outcome State Fault Refusal :=
  .next (checkpointWrite segment s)

/-- ROW_REBUILD (R370). -/
def execRowRebuild (s : State) : Host.Outcome State Fault Refusal :=
  .next (rowRebuild s)

/-- FLASH_MOUNT (R372). -/
def execFlashMount (p : MountPar) (s : State) : Host.Outcome State Fault Refusal :=
  .next (flashMount p s)

/-- MOUNT_COMPLETE (R372). -/
def execMountComplete (s : State) : Host.Outcome State Fault Refusal :=
  .next (mountComplete s)

/-- PLOSS_RECOGNISED (R373). -/
def execPlossRecognised (s : State) : Host.Outcome State Fault Refusal :=
  .next (plossRecognised s)

/-- PLOSS_GLITCH (R373). -/
def execPlossGlitch (s : State) : Host.Outcome State Fault Refusal :=
  .next (plossGlitch s)

/-- FLUSH_MARKER_WRITTEN (R374). -/
def execFlushMarkerWritten (s : State) : Host.Outcome State Fault Refusal :=
  .next (flushMarkerWritten s)

/-- FLASH_OP_TIMEOUT (R368). -/
def execFlashOpTimeout (ch : Nat) (die : Nat) (op : Nat) (rate : Option Nat) (s : State) : Host.Outcome State Fault Refusal :=
  .next (flashOpTimeout ch die op rate s)

/-- PORT_TRAINING (R382). -/
def execPortTraining (port : Nat) (node : Nat) (role : Nat) (strap : Nat) (s : State) : Host.Outcome State Fault Refusal :=
  .next (portTraining port node role strap s)

/-- TRAINING_RETRY (R382). -/
def execTrainingRetry (port : Nat) (s : State) : Host.Outcome State Fault Refusal :=
  .next (trainingRetry port s)

/-- PORT_DOWN (R389). -/
def execPortDown (port : Nat) (s : State) : Host.Outcome State Fault Refusal :=
  .next (sysLost (portDown port s))

/-- FLIT_RECEIVE (R381). -/
def execFlitReceive (port : Nat) (decoded : Bool) (corrected : Bool) (words : Nat) (head : Nat) (ctl : Nat) (rest : Nat) (crc : Nat) (s : State) :
    Host.Outcome State Fault Refusal :=
  .next (flitReceive port decoded corrected (flitJoin words head ctl rest crc) s)

/-- QUARANTINE_END (R391). -/
def execQuarantineEnd (port : Nat) (s : State) : Host.Outcome State Fault Refusal :=
  .next (quarantineEnd port s)

/-- PACKET_FORWARD (R388). -/
def execPacketForward (port : Nat) (p : Packet) (s : State) : Host.Outcome State Fault Refusal :=
  .next (sysLost (packetForward port p s))

/-- WRITE (R402). -/
def execWrite (port : Nat) (p : Packet) (s : State) : Host.Outcome State Fault Refusal :=
  .next (sysLost (write port p s))

/-- READ_REQ (R398). -/
def execReadReq (port : Nat) (p : Packet) (s : State) : Host.Outcome State Fault Refusal :=
  .next (sysLost (readReq port p s))

/-- READ_DATA (R403). -/
def execReadData (port : Nat) (p : Packet) (s : State) : Host.Outcome State Fault Refusal :=
  .next (sysLost (readData port p s))

/-- FETCH_ADD (R399). -/
def execFetchAdd (port : Nat) (p : Packet) (s : State) : Host.Outcome State Fault Refusal :=
  .next (sysLost (fetchAdd port p s))

/-- COMPARE_SWAP (R399). -/
def execCompareSwap (port : Nat) (p : Packet) (s : State) : Host.Outcome State Fault Refusal :=
  .next (sysLost (compareSwap port p s))

/-- ATOMIC_RESP (R398). -/
def execAtomicResp (port : Nat) (p : Packet) (s : State) : Host.Outcome State Fault Refusal :=
  .next (sysLost (atomicResp port p s))

/-- PLACED (R398). -/
def execPlaced (port : Nat) (p : Packet) (s : State) : Host.Outcome State Fault Refusal :=
  .next (sysLost (placed port p s))

/-- NAK (R398). -/
def execNak (port : Nat) (p : Packet) (s : State) : Host.Outcome State Fault Refusal :=
  .next (sysLost (nak port p s))

/-- SYS (R127). -/
def execSys (port : Nat) (p : Packet) (m : SysMsg) (s : State) : Host.Outcome State Fault Refusal :=
  .next (sysLost (sys port p m s))

/-- PORTMAP (R387). -/
def execPortmap (port : Nat) (p : Packet) (s : State) : Host.Outcome State Fault Refusal :=
  .next (sysLost (portmap port p s))

/-- PORTMAP_SEND (R387). -/
def execPortmapSend (s : State) : Host.Outcome State Fault Refusal :=
  .next (portmapSend s)

/-- TWIN (R55). -/
def execTwin (msg : TwinMsg) (s : State) : Host.Outcome State Fault Refusal :=
  .next (twin msg.frame msg.checks s)

/-- QUEUE_SAMPLE (R438). -/
def execQueueSample (s : State) : Host.Outcome State Fault Refusal :=
  .next (queueSample s)

/-- DESCRIPTOR_TIMEOUT (R445). -/
def execDescriptorTimeout (work : Nat) (wedged : Option Engine) (s : State) : Host.Outcome State Fault Refusal :=
  .next (descriptorTimeout work wedged s)

/-- RMA_TIMEOUT (R444). -/
def execRmaTimeout (msgid : Nat) (s : State) : Host.Outcome State Fault Refusal :=
  .next (rmaTimeout msgid s)

/-- REASSEMBLY_TIMEOUT (R404). -/
def execReassemblyTimeout (src : Nat) (msgid : Nat) (m : Option SysMsg) (s : State) : Host.Outcome State Fault Refusal :=
  .next (sysReassemblyTimeout src msgid m s)

/-- KETTLE_OP_TIMEOUT (R295). -/
def execKettleOpTimeout (site : Nat) (kettle : Nat) (s : State) : Host.Outcome State Fault Refusal :=
  .next (kettleOpTimeout site kettle s)

/-- ENGINE_RESET (R447). -/
def execEngineReset (engine : Engine) (s : State) : Host.Outcome State Fault Refusal :=
  .next (engineReset engine s)

/-- CORE_WATCHDOG_EXPIRY (R448). -/
def execCoreWatchdogExpiry (core : Nat) (works : List Nat) (moves : List Nat) (s : State) : Host.Outcome State Fault Refusal :=
  .next (coreWatchdogExpiry core works moves s)

/-- CROWN_WATCHDOG_EXPIRY (R449). -/
def execCrownWatchdogExpiry (s : State) : Host.Outcome State Fault Refusal :=
  .next (crownWatchdogExpiry s)

/-- POWER_ON (R463). -/
def execPowerOn (s : State) : Host.Outcome State Fault Refusal :=
  .next (powerOn s)

/-- BROWN_OUT (R475). -/
def execBrownOut (rail : Nat) (s : State) : Host.Outcome State Fault Refusal :=
  .next (brownOut rail s)

/-- RESET_N_ASSERT (R463). -/
def execResetNAssert (s : State) : Host.Outcome State Fault Refusal :=
  .next (resetNAssert s)

/-- RESET_N_RELEASE (R463). -/
def execResetNRelease (s : State) : Host.Outcome State Fault Refusal :=
  .next (resetNRelease s)

/-- CORE_REF_LOST (R24). -/
def execCoreRefLost (s : State) : Host.Outcome State Fault Refusal :=
  .next (coreRefLost s)

/-- PORT_REF_LOST (R24). -/
def execPortRefLost (s : State) : Host.Outcome State Fault Refusal :=
  .next (portRefLost s)

/-- DRAM_PLL_UNLOCK (R24). -/
def execDramPllUnlock (s : State) : Host.Outcome State Fault Refusal :=
  .next (dramPllUnlock s)

/-- CORE_DOUBLE_FAULT (R464). -/
def execCoreDoubleFault (s : State) : Host.Outcome State Fault Refusal :=
  .next (coreDoubleFault s)

/-- RING_DEADLOCK (R464). -/
def execRingDeadlock (s : State) : Host.Outcome State Fault Refusal :=
  .next (ringDeadlock s)

/-- WARM_RESET_PREPARATION (R466). -/
def execWarmResetPreparation (flushTicks : Nat) (s : State) : Host.Outcome State Fault Refusal :=
  .next (warmResetPreparation flushTicks s)

/-- WARM_RESET (R462). -/
def execWarmReset (s : State) : Host.Outcome State Fault Refusal :=
  .next (warmReset s)

/-- COLD_RESET (R462). -/
def execColdReset (s : State) : Host.Outcome State Fault Refusal :=
  .next (coldReset s)

/-- FELT_ONLY_RESET (R468). -/
def execFeltOnlyReset (s : State) : Host.Outcome State Fault Refusal :=
  .next (feltOnlyReset s)

/-- STARTUP_STEP_COMPLETE (R469). -/
def execStartupStepComplete (par : StartPar) (s : State) : Host.Outcome State Fault Refusal :=
  .next (startupStepComplete par s)

/-- POWER_MEASURE (R476). -/
def execPowerMeasure (rails : List (Nat × Nat)) (s : State) : Host.Outcome State Fault Refusal :=
  .next (powerMeasure rails s)

/-- SENSOR_REFRESH (R480). -/
def execSensorRefresh (temps : List Int) (s : State) : Host.Outcome State Fault Refusal :=
  .next (sensorRefresh temps s)

/-- THERMAL_TRIP (R477). -/
def execThermalTrip (temps : List Int) (s : State) : Host.Outcome State Fault Refusal :=
  .next (thermalTrip temps s)

/-- EVENT_LOG_WRITE (R483). -/
def execEventLogWrite (s : State) : Host.Outcome State Fault Refusal :=
  .next (eventLogWrite s)

/-- VF_ENABLE (R416). -/
def execVfEnable (numVfs : Nat) (s : State) : Host.Outcome State Fault Refusal :=
  .next (vfEnable numVfs s)

/-- VDD_MGMT_REMOVED (R474). -/
def execVddMgmtRemoved (s : State) : Host.Outcome State Fault Refusal :=
  .next (vddMgmtRemoved s)

/-- ATOMIC_REPLAY_EXPIRY (R399). -/
def execAtomicReplayExpiry (src : Nat) (req : Nat) (s : State) : Host.Outcome State Fault Refusal :=
  .next (atomicReplayExpiry src req s)

/-- WHOLE_KEY_EXPIRY (R402). -/
def execWholeKeyExpiry (src : Nat) (msgid : Nat) (s : State) : Host.Outcome State Fault Refusal :=
  .next (wholeKeyExpiry src msgid s)

/-- ENGINE_RESET_COMPLETE (R447). -/
def execEngineResetComplete (engine : Engine) (s : State) : Host.Outcome State Fault Refusal :=
  .next (engineResetComplete engine s)

/-- CORE_RESTART_COMPLETE (R448). -/
def execCoreRestartComplete (core : Nat) (s : State) : Host.Outcome State Fault Refusal :=
  .next (coreRestartComplete core s)

/-- SPDM_KEY_EXCHANGE (R495). -/
def execSpdmKeyExchange (path : Nat) (request : List Byte) (s : State) : Host.Outcome State Fault Refusal :=
  .next (spdmKeyExchange path request s)

end Sys2Proof.Machine
end

