-- ==== Sys2Proof/Machine/Dispatch.lean ====
section
/-! DEFINITION. One arm per command: a direct call of its meaning. -/
namespace Sys2Proof.Machine
open Sys2Proof

def exec (i : Instr) (s : State) : Host.Outcome State Fault Refusal :=
  match i with
  | .registerWrite fn off size val => Sys2Proof.Machine.execRegisterWrite fn off size val s
  | .syncEnWrite value => Sys2Proof.Machine.execSyncEnWrite value s
  | .logPop => Sys2Proof.Machine.execLogPop s
  | .queueCreate fn => Sys2Proof.Machine.execQueueCreate fn s
  | .queueDestroy fn slot => Sys2Proof.Machine.execQueueDestroy fn slot s
  | .queueDestroyDone fn => Sys2Proof.Machine.execQueueDestroyDone fn s
  | .warmResetRequest => Sys2Proof.Machine.execWarmResetRequest s
  | .feltResetRequest => Sys2Proof.Machine.execFeltResetRequest s
  | .drain site => Sys2Proof.Machine.execDrain site s
  | .cancel => Sys2Proof.Machine.execCancel s
  | .unfence site => Sys2Proof.Machine.execUnfence site s
  | .testStart kind unit => Sys2Proof.Machine.execTestStart kind unit s
  | .testComplete errors => Sys2Proof.Machine.execTestComplete errors s
  | .attach id gen => Sys2Proof.Machine.execAttach id gen s
  | .detach => Sys2Proof.Machine.execDetach s
  | .clear => Sys2Proof.Machine.execClear s
  | .jobRecordWritten => Sys2Proof.Machine.execJobRecordWritten s
  | .capture => Sys2Proof.Machine.execCapture s
  | .failureRecordWritten => Sys2Proof.Machine.execFailureRecordWritten s
  | .fltFenceWrite hi value => Sys2Proof.Machine.execFltFenceWrite hi value s
  | .kettleFenceWrite site hi value => Sys2Proof.Machine.execKettleFenceWrite site hi value s
  | .kettleModeWrite site mode => Sys2Proof.Machine.execKettleModeWrite site mode s
  | .flashFenceWrite ch dies value => Sys2Proof.Machine.execFlashFenceWrite ch dies value s
  | .dieReturnTestDone ch die ok => Sys2Proof.Machine.execDieReturnTestDone ch die ok s
  | .portEnableWrite port value => Sys2Proof.Machine.execPortEnableWrite port value s
  | .portFenceWrite port value => Sys2Proof.Machine.execPortFenceWrite port value s
  | .rangePagesWrite pages => Sys2Proof.Machine.execRangePagesWrite pages s
  | .floorWrite tenant floor => Sys2Proof.Machine.execFloorWrite tenant floor s
  | .lendWrite frames sites => Sys2Proof.Machine.execLendWrite frames sites s
  | .twinEnWrite value => Sys2Proof.Machine.execTwinEnWrite value s
  | .meterWrite fabric tenant value => Sys2Proof.Machine.execMeterWrite fabric tenant value s
  | .msixUnmask fn entry => Sys2Proof.Machine.execMsixUnmask fn entry s
  | .hostMemRead span met => Sys2Proof.Machine.execHostMemRead span met s
  | .hostMemWrite addr data met => Sys2Proof.Machine.execHostMemWrite addr data met s
  | .watchWordWake queue => Sys2Proof.Machine.execWatchWordWake queue s
  | .queueVisit => Sys2Proof.Machine.execQueueVisit s
  | .cqHeadRead queue => Sys2Proof.Machine.execCqHeadRead queue s
  | .irqCoalesceTimeout queue => Sys2Proof.Machine.execIrqCoalesceTimeout queue s
  | .functionLevelReset fn => Sys2Proof.Machine.execFunctionLevelReset fn s
  | .vfDisable numVfs => Sys2Proof.Machine.execVfDisable numVfs s
  | .perstAssert => Sys2Proof.Machine.execPerstAssert s
  | .perstRelease => Sys2Proof.Machine.execPerstRelease s
  | .identifyMemoryDevice path => Sys2Proof.Machine.execIdentifyMemoryDevice path s
  | .getSupportedLogs path => Sys2Proof.Machine.execGetSupportedLogs path s
  | .getLog path uuid offset len => Sys2Proof.Machine.execGetLog path uuid offset len s
  | .getEventRecords path sev => Sys2Proof.Machine.execGetEventRecords path sev s
  | .clearEventRecords path sev all handles => Sys2Proof.Machine.execClearEventRecords path sev all handles s
  | .getEventInterruptPolicy path => Sys2Proof.Machine.execGetEventInterruptPolicy path s
  | .setEventInterruptPolicy path modes => Sys2Proof.Machine.execSetEventInterruptPolicy path modes s
  | .getTimestamp path => Sys2Proof.Machine.execGetTimestamp path s
  | .setTimestamp path value => Sys2Proof.Machine.execSetTimestamp path value s
  | .getHealthInfo path => Sys2Proof.Machine.execGetHealthInfo path s
  | .getFwInfo path => Sys2Proof.Machine.execGetFwInfo path s
  | .transferFw path slot offset bytes last => Sys2Proof.Machine.execTransferFw path slot offset bytes last s
  | .activateFw path slot online => Sys2Proof.Machine.execActivateFw path slot online s
  | .unsupportedOpcode path => Sys2Proof.Machine.execUnsupportedOpcode path s
  | .getSensors path => Sys2Proof.Machine.execGetSensors path s
  | .getEventLog path first count => Sys2Proof.Machine.execGetEventLog path first count s
  | .getCert path => Sys2Proof.Machine.execGetCert path s
  | .getReport path nonce => Sys2Proof.Machine.execGetReport path nonce s
  | .commitSvn path => Sys2Proof.Machine.execCommitSvn path s
  | .frecList path => Sys2Proof.Machine.execFrecList path s
  | .frecRead path record offset len => Sys2Proof.Machine.execFrecRead path record offset len s
  | .frecHold path record hold => Sys2Proof.Machine.execFrecHold path record hold s
  | .getChallenge path => Sys2Proof.Machine.execGetChallenge path s
  | .ownerEnroll path key => Sys2Proof.Machine.execOwnerEnroll path key s
  | .ownerRevoke path slot nonce sig => Sys2Proof.Machine.execOwnerRevoke path slot nonce sig s
  | .debugReset path nonce sig => Sys2Proof.Machine.execDebugReset path nonce sig s
  | .setSetting path nonce sig pinCold => Sys2Proof.Machine.execSetSetting path nonce sig pinCold s
  | .vendorUnlock path nonce sig => Sys2Proof.Machine.execVendorUnlock path nonce sig s
  | .spdmGetMeasurements path => Sys2Proof.Machine.execSpdmGetMeasurements path s
  | .search work => Sys2Proof.Machine.execSearch work s
  | .insert work => Sys2Proof.Machine.execInsert work s
  | .delete work => Sys2Proof.Machine.execDelete work s
  | .updatePrepareComplete work => Sys2Proof.Machine.execUpdatePrepareComplete work s
  | .commit work => Sys2Proof.Machine.execCommit work s
  | .gather work => Sys2Proof.Machine.execGather work s
  | .gatherAdmit => Sys2Proof.Machine.execGatherAdmit s
  | .scatter work => Sys2Proof.Machine.execScatter work s
  | .scatterStart work => Sys2Proof.Machine.execScatterStart work s
  | .scatterRowResume work => Sys2Proof.Machine.execScatterRowResume work s
  | .run work => Sys2Proof.Machine.execRun work s
  | .move work grants => Sys2Proof.Machine.execMove work grants s
  | .rmaWrite work => Sys2Proof.Machine.execRmaWrite work s
  | .rmaRead work => Sys2Proof.Machine.execRmaRead work s
  | .rmaFetchAdd work => Sys2Proof.Machine.execRmaFetchAdd work s
  | .rmaCompareSwap work => Sys2Proof.Machine.execRmaCompareSwap work s
  | .rmaFlush work => Sys2Proof.Machine.execRmaFlush work s
  | .rmaWait work => Sys2Proof.Machine.execRmaWait work s
  | .waitRelease work => Sys2Proof.Machine.execWaitRelease work s
  | .tenantOpen work => Sys2Proof.Machine.execTenantOpen work s
  | .tenantClose work => Sys2Proof.Machine.execTenantClose work s
  | .indexRegister work => Sys2Proof.Machine.execIndexRegister work s
  | .indexDeregister work => Sys2Proof.Machine.execIndexDeregister work s
  | .shardAttach work => Sys2Proof.Machine.execShardAttach work s
  | .shardDetach work => Sys2Proof.Machine.execShardDetach work s
  | .shardDetachComplete index shard => Sys2Proof.Machine.execShardDetachComplete index shard s
  | .tableRegister work => Sys2Proof.Machine.execTableRegister work s
  | .tableDeregister work => Sys2Proof.Machine.execTableDeregister work s
  | .pin work => Sys2Proof.Machine.execPin work s
  | .unpin work => Sys2Proof.Machine.execUnpin work s
  | .load work => Sys2Proof.Machine.execLoad work s
  | .unload work => Sys2Proof.Machine.execUnload work s
  | .stopRun work => Sys2Proof.Machine.execStopRun work s
  | .withdraw work => Sys2Proof.Machine.execWithdraw work s
  | .role work => Sys2Proof.Machine.execRole work s
  | .areaCreate work => Sys2Proof.Machine.execAreaCreate work s
  | .areaDelete work => Sys2Proof.Machine.execAreaDelete work s
  | .areaWrite work => Sys2Proof.Machine.execAreaWrite work s
  | .areaRead work => Sys2Proof.Machine.execAreaRead work s
  | .regionRegister work => Sys2Proof.Machine.execRegionRegister work s
  | .regionDeregister work => Sys2Proof.Machine.execRegionDeregister work s
  | .regionDeregisterDone slot => Sys2Proof.Machine.execRegionDeregisterDone slot s
  | .gateList work => Sys2Proof.Machine.execGateList work s
  | .loadFrame frame ago offset => Sys2Proof.Machine.execLoadFrame frame ago offset s
  | .checkFrame frame ago offset => Sys2Proof.Machine.execCheckFrame frame ago offset s
  | .tickRefLost => Sys2Proof.Machine.execTickRefLost s
  | .phaseLost phase => Sys2Proof.Machine.execPhaseLost phase s
  | .checkMissing => Sys2Proof.Machine.execCheckMissing s
  | .crossingAlignment => Sys2Proof.Machine.execCrossingAlignment s
  | .eventPrepare => Sys2Proof.Machine.execEventPrepare s
  | .comparisonPoint => Sys2Proof.Machine.execComparisonPoint s
  | .stepBoundary img => Sys2Proof.Machine.execStepBoundary img s
  | .epochCommit index shard => Sys2Proof.Machine.execEpochCommit index shard s
  | .gateListTakeover port => Sys2Proof.Machine.execGateListTakeover port s
  | .gateEntryChange port => Sys2Proof.Machine.execGateEntryChange port s
  | .imageLaunch img => Sys2Proof.Machine.execImageLaunch img s
  | .scrubPacing => Sys2Proof.Machine.execScrubPacing s
  | .roleApply => Sys2Proof.Machine.execRoleApply s
  | .meterRefill => Sys2Proof.Machine.execMeterRefill s
  | .twinFrameSend => Sys2Proof.Machine.execTwinFrameSend s
  | .twinLinkLost => Sys2Proof.Machine.execTwinLinkLost s
  | .shardSearchAdmit => Sys2Proof.Machine.execShardSearchAdmit s
  | .admitTimeout id => Sys2Proof.Machine.execAdmitTimeout id s
  | .traversalRound id => Sys2Proof.Machine.execTraversalRound id s
  | .searchDeadline id => Sys2Proof.Machine.execSearchDeadline id s
  | .shardSearchExpiry id => Sys2Proof.Machine.execShardSearchExpiry id s
  | .merge => Sys2Proof.Machine.execMerge s
  | .rowFold index shard loc => Sys2Proof.Machine.execRowFold index shard loc s
  | .forcedRetirement work => Sys2Proof.Machine.execForcedRetirement work s
  | .versionPressureRetire => Sys2Proof.Machine.execVersionPressureRetire s
  | .loadWindowEnd => Sys2Proof.Machine.execLoadWindowEnd s
  | .transferReady img cell win felt => Sys2Proof.Machine.execTransferReady img cell win felt s
  | .lateReleaseResume img => Sys2Proof.Machine.execLateReleaseResume img s
  | .feltWatchdog img => Sys2Proof.Machine.execFeltWatchdog img s
  | .stop img cell ecc => Sys2Proof.Machine.execStop img cell ecc s
  | .cnop img cell ecc => Sys2Proof.Machine.execCnop img cell ecc s
  | .add img cell ecc => Sys2Proof.Machine.execAdd img cell ecc s
  | .sub img cell ecc => Sys2Proof.Machine.execSub img cell ecc s
  | .and img cell ecc => Sys2Proof.Machine.execAnd img cell ecc s
  | .or img cell ecc => Sys2Proof.Machine.execOr img cell ecc s
  | .xor img cell ecc => Sys2Proof.Machine.execXor img cell ecc s
  | .shl img cell ecc => Sys2Proof.Machine.execShl img cell ecc s
  | .shr img cell ecc => Sys2Proof.Machine.execShr img cell ecc s
  | .sar img cell ecc => Sys2Proof.Machine.execSar img cell ecc s
  | .mul img cell ecc => Sys2Proof.Machine.execMul img cell ecc s
  | .mins img cell ecc => Sys2Proof.Machine.execMins img cell ecc s
  | .maxs img cell ecc => Sys2Proof.Machine.execMaxs img cell ecc s
  | .addi img cell ecc => Sys2Proof.Machine.execAddi img cell ecc s
  | .andi img cell ecc => Sys2Proof.Machine.execAndi img cell ecc s
  | .ori img cell ecc => Sys2Proof.Machine.execOri img cell ecc s
  | .ldi0 img cell ecc => Sys2Proof.Machine.execLdi0 img cell ecc s
  | .ldi1 img cell ecc => Sys2Proof.Machine.execLdi1 img cell ecc s
  | .ldi2 img cell ecc => Sys2Proof.Machine.execLdi2 img cell ecc s
  | .ldi3 img cell ecc => Sys2Proof.Machine.execLdi3 img cell ecc s
  | .loop img cell ecc => Sys2Proof.Machine.execLoop img cell ecc s
  | .jump img cell ecc => Sys2Proof.Machine.execJump img cell ecc s
  | .stsel img cell ecc => Sys2Proof.Machine.execStsel img cell ecc s
  | .mnop img cell ecc => Sys2Proof.Machine.execMnop img cell ecc s
  | .mma img cell ecc => Sys2Proof.Machine.execMma img cell ecc s
  | .mclr img cell ecc => Sys2Proof.Machine.execMclr img cell ecc s
  | .mrd img cell ecc => Sys2Proof.Machine.execMrd img cell ecc s
  | .mwr img cell ecc => Sys2Proof.Machine.execMwr img cell ecc s
  | .vnop img cell ecc => Sys2Proof.Machine.execVnop img cell ecc s
  | .vadd img cell ecc => Sys2Proof.Machine.execVadd img cell ecc s
  | .vsub img cell ecc => Sys2Proof.Machine.execVsub img cell ecc s
  | .vmul img cell ecc => Sys2Proof.Machine.execVmul img cell ecc s
  | .vfma img cell ecc => Sys2Proof.Machine.execVfma img cell ecc s
  | .vfnma img cell ecc => Sys2Proof.Machine.execVfnma img cell ecc s
  | .vmin img cell ecc => Sys2Proof.Machine.execVmin img cell ecc s
  | .vmax img cell ecc => Sys2Proof.Machine.execVmax img cell ecc s
  | .vcmp img cell ecc => Sys2Proof.Machine.execVcmp img cell ecc s
  | .viadd img cell ecc => Sys2Proof.Machine.execViadd img cell ecc s
  | .visub img cell ecc => Sys2Proof.Machine.execVisub img cell ecc s
  | .vimul img cell ecc => Sys2Proof.Machine.execVimul img cell ecc s
  | .vand img cell ecc => Sys2Proof.Machine.execVand img cell ecc s
  | .vor img cell ecc => Sys2Proof.Machine.execVor img cell ecc s
  | .vxor img cell ecc => Sys2Proof.Machine.execVxor img cell ecc s
  | .vshl img cell ecc => Sys2Proof.Machine.execVshl img cell ecc s
  | .vshr img cell ecc => Sys2Proof.Machine.execVshr img cell ecc s
  | .vsel img cell ecc => Sys2Proof.Machine.execVsel img cell ecc s
  | .vbc img cell ecc => Sys2Proof.Machine.execVbc img cell ecc s
  | .vget img cell ecc => Sys2Proof.Machine.execVget img cell ecc s
  | .vput img cell ecc => Sys2Proof.Machine.execVput img cell ecc s
  | .vrot img cell ecc => Sys2Proof.Machine.execVrot img cell ecc s
  | .pset img cell ecc => Sys2Proof.Machine.execPset img cell ecc s
  | .pget img cell ecc => Sys2Proof.Machine.execPget img cell ecc s
  | .vcvt img cell ecc => Sys2Proof.Machine.execVcvt img cell ecc s
  | .vrsc img cell ecc => Sys2Proof.Machine.execVrsc img cell ecc s
  | .vamax img cell ecc => Sys2Proof.Machine.execVamax img cell ecc s
  | .vqenc img cell ecc => Sys2Proof.Machine.execVqenc img cell ecc s
  | .vqdec img cell ecc => Sys2Proof.Machine.execVqdec img cell ecc s
  | .xclr img cell ecc => Sys2Proof.Machine.execXclr img cell ecc s
  | .xdot img cell ecc => Sys2Proof.Machine.execXdot img cell ecc s
  | .xsum img cell ecc => Sys2Proof.Machine.execXsum img cell ecc s
  | .xsqd img cell ecc => Sys2Proof.Machine.execXsqd img cell ecc s
  | .xdotqQi8 img cell ecc => Sys2Proof.Machine.execXdotqQi8 img cell ecc s
  | .xdotqQi4 img cell ecc => Sys2Proof.Machine.execXdotqQi4 img cell ecc s
  | .xrnd img cell ecc => Sys2Proof.Machine.execXrnd img cell ecc s
  | .xget img cell ecc => Sys2Proof.Machine.execXget img cell ecc s
  | .xadd img cell ecc => Sys2Proof.Machine.execXadd img cell ecc s
  | .xnop img cell ecc => Sys2Proof.Machine.execXnop img cell ecc s
  | .wrel img cell ecc => Sys2Proof.Machine.execWrel img cell ecc s
  | .wgive img cell ecc => Sys2Proof.Machine.execWgive img cell ecc s
  | .vlda img cell ecc ups => Sys2Proof.Machine.execVlda img cell ecc ups s
  | .vsta img cell ecc => Sys2Proof.Machine.execVsta img cell ecc s
  | .vld img cell ecc ups => Sys2Proof.Machine.execVld img cell ecc ups s
  | .vst img cell ecc => Sys2Proof.Machine.execVst img cell ecc s
  | .sld img cell ecc ups => Sys2Proof.Machine.execSld img cell ecc ups s
  | .sst img cell ecc => Sys2Proof.Machine.execSst img cell ecc s
  | .send img cell ecc => Sys2Proof.Machine.execSend img cell ecc s
  | .recv img cell ecc => Sys2Proof.Machine.execRecv img cell ecc s
  | .dramRead req site addr len ups mapErr waiting => Sys2Proof.Machine.execDramRead req site addr len ups mapErr waiting s
  | .dramWrite req site addr bytes pois ups mapErr waiting => Sys2Proof.Machine.execDramWrite req site addr bytes pois ups mapErr waiting s
  | .refresh site pc => Sys2Proof.Machine.execRefresh site pc s
  | .kettleJob site req prog lists lut lutM params outUnits pmapUnits => Sys2Proof.Machine.execKettleJob site req prog lists lut lutM params outUnits pmapUnits s
  | .kettleJobStart site => Sys2Proof.Machine.execKettleJobStart site s
  | .kettlePoll site => Sys2Proof.Machine.execKettlePoll site s
  | .fullWindowEnd site => Sys2Proof.Machine.execFullWindowEnd site s
  | .kettleJobComplete site => Sys2Proof.Machine.execKettleJobComplete site s
  | .kettleParityError site pc => Sys2Proof.Machine.execKettleParityError site pc s
  | .knop site kettle => Sys2Proof.Machine.execKnop site kettle s
  | .lds site kettle => Sys2Proof.Machine.execLds site kettle s
  | .sto site kettle => Sys2Proof.Machine.execSto site kettle s
  | .ldi site kettle => Sys2Proof.Machine.execLdi site kettle s
  | .ldc site kettle => Sys2Proof.Machine.execLdc site kettle s
  | .ald site kettle => Sys2Proof.Machine.execAld site kettle s
  | .aadd site kettle => Sys2Proof.Machine.execAadd site kettle s
  | .cmp site kettle => Sys2Proof.Machine.execCmp site kettle s
  | .tst site kettle => Sys2Proof.Machine.execTst site kettle s
  | .mand site kettle => Sys2Proof.Machine.execMand site kettle s
  | .mor site kettle => Sys2Proof.Machine.execMor site kettle s
  | .mnot site kettle => Sys2Proof.Machine.execMnot site kettle s
  | .iadd site kettle => Sys2Proof.Machine.execIadd site kettle s
  | .iadds site kettle => Sys2Proof.Machine.execIadds site kettle s
  | .widen site kettle => Sys2Proof.Machine.execWiden site kettle s
  | .tlu site kettle => Sys2Proof.Machine.execTlu site kettle s
  | .gsum site kettle => Sys2Proof.Machine.execGsum site kettle s
  | .bits site kettle => Sys2Proof.Machine.execBits site kettle s
  | .filt site kettle => Sys2Proof.Machine.execFilt site kettle s
  | .emit site kettle => Sys2Proof.Machine.execEmit site kettle s
  | .kettleLoop site kettle => Sys2Proof.Machine.execKettleLoop site kettle s
  | .kettleEnd site kettle => Sys2Proof.Machine.execKettleEnd site kettle s
  | .scrubLineVisit n ups => Sys2Proof.Machine.execScrubLineVisit n ups s
  | .nodeRangeAccess req addr len write met => Sys2Proof.Machine.execNodeRangeAccess req addr len write met s
  | .frameAllocate => Sys2Proof.Machine.execFrameAllocate s
  | .moveStart page dst => Sys2Proof.Machine.execMoveStart page dst s
  | .moveCommit slot => Sys2Proof.Machine.execMoveCommit slot s
  | .moveAbandon slot => Sys2Proof.Machine.execMoveAbandon slot s
  | .demotionRound grants => Sys2Proof.Machine.execDemotionRound grants s
  | .agerSweep => Sys2Proof.Machine.execAgerSweep s
  | .lentFrameRequest msg => Sys2Proof.Machine.execLentFrameRequest msg s
  | .flashWrite req flu ru bytes pois => Sys2Proof.Machine.execFlashWrite req flu ru bytes pois s
  | .flashWriteResume => Sys2Proof.Machine.execFlashWriteResume s
  | .bandRowProgram band row => Sys2Proof.Machine.execBandRowProgram band row s
  | .flashProgramComplete band row failed => Sys2Proof.Machine.execFlashProgramComplete band row failed s
  | .flashRead req unit weak => Sys2Proof.Machine.execFlashRead req unit weak s
  | .flashReadComplete id step => Sys2Proof.Machine.execFlashReadComplete id step s
  | .garbageCollection => Sys2Proof.Machine.execGarbageCollection s
  | .slcFold band => Sys2Proof.Machine.execSlcFold band s
  | .patrolRead steps pct => Sys2Proof.Machine.execPatrolRead steps pct s
  | .checkpointWrite segment => Sys2Proof.Machine.execCheckpointWrite segment s
  | .rowRebuild => Sys2Proof.Machine.execRowRebuild s
  | .flashMount p => Sys2Proof.Machine.execFlashMount p s
  | .mountComplete => Sys2Proof.Machine.execMountComplete s
  | .plossRecognised => Sys2Proof.Machine.execPlossRecognised s
  | .plossGlitch => Sys2Proof.Machine.execPlossGlitch s
  | .flushMarkerWritten => Sys2Proof.Machine.execFlushMarkerWritten s
  | .flashOpTimeout ch die op rate => Sys2Proof.Machine.execFlashOpTimeout ch die op rate s
  | .portTraining port node role strap => Sys2Proof.Machine.execPortTraining port node role strap s
  | .trainingRetry port => Sys2Proof.Machine.execTrainingRetry port s
  | .portDown port => Sys2Proof.Machine.execPortDown port s
  | .flitReceive port decoded corrected words head ctl rest crc => Sys2Proof.Machine.execFlitReceive port decoded corrected words head ctl rest crc s
  | .quarantineEnd port => Sys2Proof.Machine.execQuarantineEnd port s
  | .packetForward port p => Sys2Proof.Machine.execPacketForward port p s
  | .write port p => Sys2Proof.Machine.execWrite port p s
  | .readReq port p => Sys2Proof.Machine.execReadReq port p s
  | .readData port p => Sys2Proof.Machine.execReadData port p s
  | .fetchAdd port p => Sys2Proof.Machine.execFetchAdd port p s
  | .compareSwap port p => Sys2Proof.Machine.execCompareSwap port p s
  | .atomicResp port p => Sys2Proof.Machine.execAtomicResp port p s
  | .placed port p => Sys2Proof.Machine.execPlaced port p s
  | .nak port p => Sys2Proof.Machine.execNak port p s
  | .sys port p m => Sys2Proof.Machine.execSys port p m s
  | .portmap port p => Sys2Proof.Machine.execPortmap port p s
  | .portmapSend => Sys2Proof.Machine.execPortmapSend s
  | .twin msg => Sys2Proof.Machine.execTwin msg s
  | .queueSample => Sys2Proof.Machine.execQueueSample s
  | .descriptorTimeout work wedged => Sys2Proof.Machine.execDescriptorTimeout work wedged s
  | .rmaTimeout msgid => Sys2Proof.Machine.execRmaTimeout msgid s
  | .reassemblyTimeout src msgid m => Sys2Proof.Machine.execReassemblyTimeout src msgid m s
  | .kettleOpTimeout site kettle => Sys2Proof.Machine.execKettleOpTimeout site kettle s
  | .engineReset engine => Sys2Proof.Machine.execEngineReset engine s
  | .coreWatchdogExpiry core works moves => Sys2Proof.Machine.execCoreWatchdogExpiry core works moves s
  | .crownWatchdogExpiry => Sys2Proof.Machine.execCrownWatchdogExpiry s
  | .powerOn => Sys2Proof.Machine.execPowerOn s
  | .brownOut rail => Sys2Proof.Machine.execBrownOut rail s
  | .resetNAssert => Sys2Proof.Machine.execResetNAssert s
  | .resetNRelease => Sys2Proof.Machine.execResetNRelease s
  | .coreRefLost => Sys2Proof.Machine.execCoreRefLost s
  | .portRefLost => Sys2Proof.Machine.execPortRefLost s
  | .dramPllUnlock => Sys2Proof.Machine.execDramPllUnlock s
  | .coreDoubleFault => Sys2Proof.Machine.execCoreDoubleFault s
  | .ringDeadlock => Sys2Proof.Machine.execRingDeadlock s
  | .warmResetPreparation flushTicks => Sys2Proof.Machine.execWarmResetPreparation flushTicks s
  | .warmReset => Sys2Proof.Machine.execWarmReset s
  | .coldReset => Sys2Proof.Machine.execColdReset s
  | .feltOnlyReset => Sys2Proof.Machine.execFeltOnlyReset s
  | .startupStepComplete par => Sys2Proof.Machine.execStartupStepComplete par s
  | .powerMeasure rails => Sys2Proof.Machine.execPowerMeasure rails s
  | .sensorRefresh temps => Sys2Proof.Machine.execSensorRefresh temps s
  | .thermalTrip temps => Sys2Proof.Machine.execThermalTrip temps s
  | .eventLogWrite => Sys2Proof.Machine.execEventLogWrite s
  | .vfEnable numVfs => Sys2Proof.Machine.execVfEnable numVfs s
  | .vddMgmtRemoved => Sys2Proof.Machine.execVddMgmtRemoved s
  | .atomicReplayExpiry src req => Sys2Proof.Machine.execAtomicReplayExpiry src req s
  | .wholeKeyExpiry src msgid => Sys2Proof.Machine.execWholeKeyExpiry src msgid s
  | .engineResetComplete engine => Sys2Proof.Machine.execEngineResetComplete engine s
  | .coreRestartComplete core => Sys2Proof.Machine.execCoreRestartComplete core s
  | .spdmKeyExchange path request => Sys2Proof.Machine.execSpdmKeyExchange path request s

end Sys2Proof.Machine
end

