-- ==== Sys2Proof/Safety.lean ====
section
/-! DEFINITION. What counts as a safe step and a sound state, in the terms the statements use. -/
namespace Sys2Proof.Machine
open Sys2Proof

/-- An outcome that neither faults nor refuses. -/
def goesOn : Host.Outcome State Fault Refusal → Bool
  | .next _ => true
  | .fault _ => false
  | .refused _ => false

/-- The memory of a state is in its canonical form. -/
def MemOk (s : State) : Prop := memWf s.dram.cells = true

/-- A cell's slot issues: image `img` is loaded as `x` and runs as `r` inside a step, its issue cycle is not frozen, cell `cell` has neither
stopped nor faulted, its bundle is read from the instruction store as `c` leaving `t`, the bundle holds operation `op` in slot `slot` for
this repetition and has not acted with it, no WREL of the cycle waits, and no slot of the bundle faults (R202, R212, R218, R222–R225). -/
structure SlotReady (s : State) (img cell ecc : Nat) (ups : List (Nat × Nat)) (slot op : Nat) (x : Image) (r : Run) (t : State) (c : Cell) :
    Prop where
  image : imageOf s img = some x
  run : x.run = some r
  inStep : r.inStep = true
  thawed : x.freeze = none
  read : ∃ t0 c0, mget x.cells cell = some c0 ∧ c0.base.seq.stopped = false ∧ c0.faulted = false ∧
    readCode s img cell ecc c0 = (t0, c) ∧ t = { t0 with fresh := t0.fresh + 1 }
  needed : (neededSlots (c.bundle c.base.seq.pc) c.base.seq.rep).contains slot = true
  holds : slotOp slot (c.bundle c.base.seq.pc) c.base.seq.rep = op
  notYet : c.acted.contains slot = false
  inTime : dueWrels t x r = []
  legal : bundleFaults (cellEnv t x r cell c ups) c = []

/-- The state after a slot acted: the cell keeps `k` until the issue cycle ends, the SRAM words it read that were not clean are counted, and
the cycle ends when every cell has acted (R202, R224). -/
def slotDone (t : State) (img cell slot : Nat) (k : Core) (hits : List (Nat × Nat)) : State :=
  endCycle (countHits (modImage t img (fun x => x.modCell cell (fun y => { y with cur := k, acted := sinsert y.acted slot }))) cell hits) img

/-- Kettle `kettle` of site `site` runs a part `x` of job `j`, the program in its store is `prog`, and micro-op `w`, whose opcode is `op`, is its
next (R283, R289). -/
structure OpReady (s : State) (site kettle op : Nat) (j : KJob) (x : Kettle) (prog : List Nat) (w : Nat) : Prop where
  job : kJobOn (ksiteOf s site) = some j
  part : mget (ksiteOf s site).kettles kettle = some x
  store : ∃ name, mget (ksiteOf s site).resident kettle = some (name, prog)
  running : x.running = true
  word : prog.getD x.pc 0 = w
  holds : kOp w = op

/-- What a micro-op of a job with program `prog` needs around its kettle (R285, R298). -/
def opEnv (s : State) (site : Nat) (j : KJob) (prog : List Nat) : KEnv := ⟨site, j.lut.length, prog, Config.freeNat s.fresh⟩

/-- A kettle with the scratch of its site, as a micro-op finds them. -/
def opRun (s : State) (site : Nat) (x : Kettle) : KRun := ⟨x, (ksiteOf s site).scratch⟩

/-- The state after a micro-op left its kettle as `y` and the scratch of its site as `sc`, having taken `words` words of its streams, of which
those at `bad` were poisoned: they are counted and consumed (R291, R301, R309), and in full mode a kettle that is done is reaped at once (R289,
R296). -/
def opDone (s : State) (site kettle : Nat) (j : KJob) (x y : Kettle) (sc : SMap KReg) (words : Nat) (bad : List Nat) : State :=
  let t := modKsite { s with fresh := s.fresh + 1 } site (fun k => { k with kettles := mput k.kettles kettle y, scratch := sc })
  let t := bad.foldl (fun t a => consume t 0 site a) (kCountWords t site words bad.length)
  if j.full && y.isDone && !x.direct then kStartParts (kReap t site j (fun y => !y.direct)) site j.id else t

/-- A fetched descriptor `w` of class `cls` whose work has not begun (R419, R424). -/
def WorkReady (s : State) (id cls : Nat) (w : Work) : Prop := workOf s id = some w ∧ w.cls = cls ∧ w.begun = false

/-- An ADMIN descriptor `w` with command `cmd`, whose operand of at least `len` bytes lies in its tenant's window and reads as `op`, leaving
`t`; where the command is the root's alone, it is the root's (R426, R427). -/
structure AdminReady (s : State) (id cmd len : Nat) (rootOnly : Bool) (w : Work) (t : State) (op : List Byte) : Prop where
  work : WorkReady s id 0x20 w
  cmd : w.cmd = cmd
  shape : adminShape w = true
  long : len ≤ w.opLen
  inside : inWindow s w.tenant w.opAddr len = true
  root : rootOnly = true → w.tenant = 0
  read : (nrRead s w.opAddr len).1 = t
  inTime : (nrRead s w.opAddr len).2.timeout = false
  clean : (nrRead s w.opAddr len).2.bad = false
  bytes : (nrRead s w.opAddr len).2.bytes = op

/-- A packet `p` of kind `kind` arrives on an up port as one of this node's and stands in its buffer as `q`, of a shape and a sender that the
port takes; its poisoned and its damaged words are counted, and a metered one, which comes while no warm reset is prepared, is within its
tenant's meter; this leaves `t` (R307, R390, R433, R466). -/
structure PacketReady (s : State) (port kind : Nat) (p : Packet) (t : State) (q : Packet) : Prop where
  real : port < 16
  up : portUp s port = true
  notQuarantined : portSt s port ≠ 3
  side : (decide (port = 15) && decide (portRole (arrives s port p) 15 = 2)) = decide (kind = 11)
  buffered : q = takenAs kind p
  mine : p.dest = nodeNo (arrives s port p) ∨ 14 ≤ port ∧ destOk p.dest = true
  shape : packetOk q = true
  sender : srcOk (arrives s port p) port p.src = true
  meter : metered kind = false ∧ t = arrives s port p ∨
    metered kind = true ∧ (arrives s port p).power.warmPend = false ∧
      (meterTake (arrives s port p) true p.tenant (packetCost q) = (t, .green) ∨
        ∃ u, meterTake (arrives s port p) true p.tenant (packetCost q) = (u, .yellow) ∧ t = bump u Reg.tsFstatYellow)

end Sys2Proof.Machine
end

