-- ==== Sys2Proof/Certificates/Slice0/Obligations.lean ====
section
/-! DEFINITION. The statements for the provers. -/
section Obs
open Sys2Proof Sys2Proof.Machine

/-- The spec's list of what each step holds: the command at the front of the queue runs on the state with the queue's rest. Where none waits, the
model lets one tick of the clock pass, in which the stacks serve what is queued and which counts in the Bow only while the clocks run, and which
is the model's own choice (log 3). -/
def Obligations.StepRunsFront : Prop :=
  (∀ (c : Instr) (rest : List Instr) (s : State), step { s with pending := c :: rest } = exec c { s with pending := rest }) ∧
  (∀ s : State, s.pending = [] →
    let t := { s with now := s.now + 1, dram := { s.dram with queued := [] } }
    (clocksRun s = true → step s = .next { t with bow := { s.bow with count := (s.bow.count + 1) % 2 ^ 64, phase := slew s.bow.phase } }) ∧
    (clocksRun s = false → step s = .next t))

/-- R328, R463, R469, R478: right after power-on every register field of the table reads its reset value, a power-on as its cause and the fourth
scrubber's rate as the text has it, no command waits, no DRAM byte is listed, every page is ZERO, start-up stands at step 1 and the flash is off. -/
def Obligations.ResetState : Prop :=
  (∀ r ∈ regTable, ∀ f ∈ r.flds, ∀ i < r.count, (f.ix i).key ≠ Reg.rstCauseCause.key → (f.ix i).key ≠ (Reg.intScrubRate.ix 3).key →
    getF State.reset (f.ix i) = f.rst % 2 ^ f.wid) ∧
  getF State.reset Reg.rstCauseCause = 1 ∧ getF State.reset (Reg.intScrubRate.ix 3) = 0x80 ∧ getF State.reset Reg.rstStatusStep = 1 ∧
  State.reset.pending = [] ∧ State.reset.dram.cells = [] ∧ State.reset.dram.written = [] ∧ MemOk State.reset ∧
  (∀ p, (pageEnt State.reset p).home = .zero) ∧ State.reset.flash.st = 0 ∧ State.reset.bow.st = .free

/-- Every step that goes on keeps the DRAM's cells in their canonical form, from any state that has it. -/
def Obligations.MemoryCanonical : Prop :=
  ∀ (s t : State), MemOk s → step s = .next t → MemOk t

/-- No command refuses, and none stops but a DRAM access of a word beyond its stack's frames: whatever the state and the operands, exec answers a next
state. -/
def Obligations.OnlyAbsentWordsStop : Prop :=
  ∀ (c : Instr) (s : State), goesOn (exec c s) = true ∨
    ∃ site addr, exec c s = .fault (.noSuchWord site (addr / 16)) ∧ siteUp s site = true ∧
      ((∃ req len ups mapErr waiting, c = .dramRead req site addr len ups mapErr waiting ∧ siteBytes s site < addr + len) ∨
       (∃ req bytes pois ups mapErr waiting, c = .dramWrite req site addr bytes pois ups mapErr waiting ∧ siteBytes s site < addr + bytes.length))

/-- R303: a word is stored with check bytes that make both syndromes zero, where S0 is the sum of its bytes and S1 that of its bytes by the powers of
α; c1 = (P + Q) · α^−25 and c0 = P + c1, and the all-zero word encodes to zeros. With R304, every error confined to one byte is corrected. -/
def Obligations.GuardEncodes : Prop :=
  let s0 (w : Codeword) : Nat := (w.zip (List.range 18)).foldl (fun a x => a ^^^ x.1) 0
  let s1 (w : Codeword) : Nat := (w.zip (List.range 18)).foldl (fun a x => a ^^^ gfMul x.1 (gfPow x.2)) 0
  (∀ d : List Nat, d.length = 16 → (∀ b ∈ d, b < 256) →
    let p := d.foldl (· ^^^ ·) 0
    let q := (d.zip (List.range 16)).foldl (fun a x => a ^^^ gfMul x.1 (gfPow (x.2 + 2))) 0
    let c1 := gfMul (p ^^^ q) (gfPow (255 - 25))
    encodeWord d = (p ^^^ c1) :: c1 :: d ∧ gfMul c1 3 = p ^^^ q ∧ gfMul (gfPow (255 - 25)) 3 = 1 ∧
    s0 (encodeWord d) = 0 ∧ s1 (encodeWord d) = 0 ∧ synd0 (encodeWord d) = 0 ∧ synd1 (encodeWord d) = 0 ∧ classify (encodeWord d) = .clean ∧
    (∀ i e, i < 18 → 0 < e → e < 256 →
      classify (modAt (encodeWord d) i (· ^^^ e)) = .corrected i ∧ correctWord (modAt (encodeWord d) i (· ^^^ e)) = encodeWord d)) ∧
  encodeWord (List.replicate 16 0) = List.replicate 18 0

/-- R305: a poisoned word keeps its data bytes with the check bytes c0 + 0x0A and c1 + 0x0B, its syndromes are 0x01 and 0x1C = α^200, which points
outside the code, it classes POISON and is never corrected, and no single-byte error in a clean word makes it. -/
def Obligations.GuardPoisons : Prop :=
  gfPow 200 = 0x1C ∧ (0x0A ^^^ 0x0B) = 0x01 ∧ (0x0A ^^^ gfMul 0x0B 2) = 0x1C ∧ errPos 0x01 0x1C = none ∧
  ∀ d : List Nat, d.length = 16 → (∀ b ∈ d, b < 256) →
    (∃ c0 c1, encodeWord d = c0 :: c1 :: d ∧ poisonWord d = (c0 ^^^ 0x0A) :: (c1 ^^^ 0x0B) :: d) ∧
    synd0 (poisonWord d) = 0x01 ∧ synd1 (poisonWord d) = 0x1C ∧ classify (poisonWord d) = .poison ∧ correctWord (poisonWord d) = poisonWord d ∧
    (∀ w : Codeword, w.length = 18 → (∀ b ∈ w, b < 256) → classify w = .clean →
      ∀ i e, i < 18 → 0 < e → e < 256 → classify (modAt w i (· ^^^ e)) ≠ .poison)

/-- R279, R305, R306, R310, R315: what a DRAM_WRITE stores and what it leaves: a word that it covers whole is stored freshly encoded, or in the
poisoned form; the other words of a line that was never written become zeros, and those of a written line stay; and no word of another line
changes, with a lost map word only no word that another map word covers. -/
def Obligations.StackMemory : Prop :=
  ∀ (s t : State) (req site addr : Nat) (bytes : List Byte) (pois : List Nat) (mapErr : List (Nat × Nat)) (waiting : Nat),
    siteUp s site = true → addr + bytes.length ≤ siteBytes s site → bytes ≠ [] →
    exec (.dramWrite req site addr bytes pois [] mapErr waiting) s = .next t →
    let stored (l : Nat) : Prop := addr / 256 ≤ l ∧ l ≤ (addr + bytes.length - 1) / 256
    (∀ w, addr ≤ 16 * w → 16 * w + 16 ≤ addr + bytes.length →
      rawWord t site w = storedOf (pois.contains (w - addr / 16)) ((bytes.drop (16 * w - addr)).take 16)) ∧
    (∀ i w, i < 8 → w < 2 ^ 33 → (i ≠ site ∨ ∀ l, stored l → w / 16 / 128 ≠ l / 128) → rawWord t i w = rawWord s i w) ∧
    (s.dram.badMap = [] → (∀ e ∈ mapErr, e.2 < beyond) →
      (∀ i w, i < 8 → w < 2 ^ 33 → (i ≠ site ∨ ¬ stored (w / 16)) → rawWord t i w = rawWord s i w) ∧
      (∀ w, stored (w / 16) → (w < addr / 16 ∨ (addr + bytes.length - 1) / 16 < w) →
        rawWord t site w = if isWritten s site (w / 16) then rawWord s site w else List.replicate 18 0))

/-- R13, R279, R314: an access to a stack that answers counts its wait, takes the upsets, reads the map words of its lines (each that fails is logged
and lost), and reads or writes its words; a write wakes the scans that wait for its words; a stack that does not answer refuses it. A word beyond
a stack's frames does not exist, and an access to one of a stack that answers stops by name. That it stops is the model's choice (log 40).
Completes: dramRead, dramWrite. -/
def Obligations.StackAccess : Prop :=
  (∀ (s : State) (req site addr : Nat) (ups : List (Nat × Nat × Nat)) (mapErr : List (Nat × Nat)) (waiting : Nat),
    (siteUp s site = true →
      let took (n : Nat) : State := mapErr.foldl (fun s e =>
        let l := (addr / 256 / 128 + e.1) * 128
        if l ≤ (addr + n - 1) / 256 && frameWritten s site (l / 256) then mapHit s site l e.2 else s) (strike (arriveAt s site waiting) site ups)
      (∀ len, addr + len ≤ siteBytes s site →
        let n := wordSpan addr len
        let r := dramRead (took len) site (addr / 16) n
        exec (.dramRead req site addr len ups mapErr waiting) s =
          .next (emit r.1 (.dramData req site addr (((r.2.flatMap (·.data)).drop (addr % 16)).take len)
            ((List.range n).filter (fun i => (r.2.getD i ⟨[], false⟩).pois))))) ∧
      (∀ bytes pois, addr + bytes.length ≤ siteBytes s site →
        let u := dramWrite (took bytes.length) site addr bytes pois
        (∀ a, nodeAddr u site addr = some a → exec (.dramWrite req site addr bytes pois ups mapErr waiting) s =
          .next (emit (wakeScan u a bytes.length) (.dramPlaced req site addr))) ∧
        (nodeAddr u site addr = none → exec (.dramWrite req site addr bytes pois ups mapErr waiting) s =
          .next (emit u (.dramPlaced req site addr))))) ∧
    (siteUp s site = false → ∀ len bytes pois,
      exec (.dramRead req site addr len ups mapErr waiting) s = .next (emit s (.failed req addr Status.fenced.code)) ∧
      exec (.dramWrite req site addr bytes pois ups mapErr waiting) s = .next (emit s (.failed req addr Status.fenced.code)))) ∧
  (∀ (s : State) (req site addr len : Nat) (bytes : List Byte) (pois : List Nat) (ups : List (Nat × Nat × Nat)) (mapErr : List (Nat × Nat))
    (waiting : Nat), siteUp s site = true →
      (siteBytes s site < addr + len → exec (.dramRead req site addr len ups mapErr waiting) s = .fault (.noSuchWord site (addr / 16))) ∧
      (siteBytes s site < addr + bytes.length →
        exec (.dramWrite req site addr bytes pois ups mapErr waiting) s = .fault (.noSuchWord site (addr / 16))))

/-- R280, R281, R318, R319: a REFRESH of a pseudo-channel of a stack that is powered is issued at the rate of the stack's heat, and changes nothing
else; it goes on through a warm reset; a fenced stack is not refreshed. An enabled scrubber that has budget spends one of it on its next line, of
the stacks (scrubbers 0 and 1) or of the SRAM (2 and 3); one that is not enabled, or has none, visits nothing. Completes: refresh, scrubLineVisit. -/
def Obligations.RefreshAndScrub : Prop :=
  (∀ (s : State) (site pc : Nat), site < 8 → pc < 32 →
    (siteFenced s site = false → s.power.vddMgmt = true → s.power.tripped = false → (5 ≤ getF s Reg.rstStatusStep ∨ s.power.fromStep = 2) →
      exec (.refresh site pc) s = .next (emit s (.refresh site pc
        (decide (s.crown.temps.getD (64 + site) 0 ≥ (16 * getF s (Reg.mcCtrlHotC.ix site) : Nat)))))) ∧
    (siteFenced s site = true → exec (.refresh site pc) s = .next s)) ∧
  (∀ (s : State) (n : Nat) (ups : List (Nat × Nat × Nat)), ringUp s = true → n ≤ 3 →
    (flagF s (Reg.intScrubEn.ix n) = true → ∀ b, mget s.integ.budget n = some (b + 1) →
      let t := modInteg s (fun i => { i with budget := mput i.budget n b })
      exec (.scrubLineVisit n ups) s = if n < 2 then .next (scrubSite t n ups) else .next (scrubSram t n ups)) ∧
    (flagF s (Reg.intScrubEn.ix n) = false ∨ mget s.integ.budget n = none ∨ mget s.integ.budget n = some 0 →
      exec (.scrubLineVisit n ups) s = .next s))

/-- R10, R11, R216, R299, R323, R430, R521, R522, R525: a write through BAR0 on an open link by an enabled function completes: it is judged as a whole
and counted at most once, one of less than 8 bytes in NARROW_WR, an unaligned one and one to an offset that holds no register in RSVD_WR; one to a
register acts field by field as the fields' types say, a one in a reserved bit being counted in RSVD_WR and a change of a locked RWL field in
LOCKED_WR. A write into the structures of CXL is no register write (R522), one into the MSI-X table writes its entry (R430), and one that does not
reach the node has no effect. On an open link LOG_POP drops the oldest entry of the error log, FLT_FENCE_WRITE stores the fences of the Felt's
blocks and KETTLE_FENCE_WRITE those of a site's kettles, and nothing else changes; on a part without kettles no such register is there, and the
write is counted in RSVD_WR. On a closed link, or for a site that has no kettles' place, they have no effect. Completes: registerWrite, logPop,
fltFenceWrite, kettleFenceWrite. -/
def Obligations.RegisterWrites : Prop :=
  (∀ (fn off size val : Nat) (s : State),
    (portOpen s = false ∨ fnEnabled s fn = false ∨ 511 < fn ∨ barAddr fn off = none → exec (.registerWrite fn off size val) s = .next s) ∧
    (∀ a, portOpen s = true → fnEnabled s fn = true → fn ≤ 511 → barAddr fn off = some a →
      (cxlRange a = true → exec (.registerWrite fn off size val) s = .next s) ∧
      (∀ o, cxlRange a = false → msixOff a = some o → exec (.registerWrite fn off size val) s = .next (msixWrite s fn o size val)) ∧
      (cxlRange a = false → msixOff a = none →
        (size < 8 → exec (.registerWrite fn off size val) s = .next (bump s Reg.idRsvdwrNarrowWr)) ∧
        (8 ≤ size → a % 8 ≠ 0 ∨ regAt s a = none → exec (.registerWrite fn off size val) s = .next (bump s Reg.idRsvdwrRsvdWr)) ∧
        (∀ r t i, 8 ≤ size → a % 8 = 0 → regAt s a = some (r, t, i) → exec (.registerWrite fn off size val) s =
          let v := val % 2 ^ 64
          let locked := lockedAt s a
          let judged := if rsvdOnes r v then bump s Reg.idRsvdwrRsvdWr
            else if locked && r.flds.any (fun f => f.ty = .rwl && bits v f.lo f.wid != getF s ((f.pg t).ix i)) then bump s Reg.idRsvdwrLockedWr
            else s
          .next (r.flds.foldl (fun u f => match f.ty with
            | .ro => u
            | .rw => rwPut u f t i v
            | .rwl => if locked then u else rwPut u f t i v
            | .w1c => w1cPut u ((f.pg t).ix i) (bits v f.lo f.wid)
            | .wo => woPut u f t v) judged))))) ∧
  (∀ (s : State),
    (portOpen s = true →
      exec .logPop s = .next (modInteg s (fun i => { i with log := i.log.drop 1 })) ∧
      (∀ v, exec (.fltFenceWrite false v) s = .next (setF s Reg.fltFenceFence v)) ∧
      (∀ v, exec (.fltFenceWrite true v) s = .next (setF s Reg.fltBlkHiFenceHi v)) ∧
      (∀ k v, k < 4 → hasKettles s.part = true →
        exec (.kettleFenceWrite (k + 4) false v) s = .next (setF s (Reg.ktlFence0Fence.ix k) v) ∧
        exec (.kettleFenceWrite (k + 4) true v) s = .next (setF s (Reg.ktlFence1Fence.ix k) v)) ∧
      (∀ k hi v, k < 4 → hasKettles s.part = false → exec (.kettleFenceWrite (k + 4) hi v) s = .next (bump s Reg.idRsvdwrRsvdWr))) ∧
    (∀ site hi v, site < 4 ∨ 8 ≤ site → exec (.kettleFenceWrite site hi v) s = .next s) ∧
    (portOpen s = false → exec .logPop s = .next s ∧
      ∀ site hi v, exec (.fltFenceWrite hi v) s = .next s ∧ exec (.kettleFenceWrite site hi v) s = .next s))

/-- R11, R35, R53, R294, R327, R337, R341, R369, R382, R389, R433: on an open link a write of a tick, kettle-mode or tier field stores the field, or
is refused and counted where its rule refuses it, and writes the register's other fields back as they were; a locked field stays, and the write is
counted where it would have changed it. SYNC_EN written 0 frees the Bow, and a write of the lending limits takes back what they no longer allow
and fills the lent-frame table. A write of the twin's enable, a flash channel's or die's fence, a port's enable or fence, and a meter's
parameters. Completes: syncEnWrite, kettleModeWrite, flashFenceWrite, portEnableWrite, portFenceWrite, rangePagesWrite, floorWrite, lendWrite,
twinEnWrite, meterWrite. -/
def Obligations.FieldAndUnitWrites : Prop :=
  (∀ (s : State), portOpen s = true →
    let same (t : State) (f : Fld) : State := setF t f (getF s f)
    (∀ v, getF s Reg.tckCtrlLock = 0 → exec (.syncEnWrite v) s =
      let t := setF s Reg.tckCtrlSyncEn (v % 2)
      .next (same (same (if v % 2 = 0 then bowTo t .free .none else t) Reg.tckCtrlCheckMiss) Reg.tckCtrlLock)) ∧
    (∀ v, getF s Reg.tckCtrlLock = 1 → exec (.syncEnWrite v) s =
      .next (if v % 2 = getF s Reg.tckCtrlSyncEn then s else bump s Reg.idRsvdwrLockedWr)) ∧
    (∀ k m, k < 4 → hasKettles s.part = true → getF s (Reg.ktlCtrlLock.ix k) = 0 → exec (.kettleModeWrite (k + 4) m) s =
      .next (same (same (same (same (same (setF s (Reg.ktlCtrlMode.ix k) m) (Reg.ktlCtrlDirect.ix k)) (Reg.ktlCtrlSharedPcs.ix k))
        (Reg.ktlCtrlPoll.ix k)) (Reg.ktlCtrlFullGap.ix k)) (Reg.ktlCtrlLock.ix k))) ∧
    (∀ n, n < 2 ^ 29 → getF s Reg.tirCtrlLock = 0 → exec (.rangePagesWrite n) s =
      .next (if s.tiers.home.any (fun x => x.2.home != .zero) then bump s Reg.tirRefuseRange else setF s Reg.tirRangePages n)) ∧
    (∀ n, n < 2 ^ 29 → getF s Reg.tirCtrlLock = 1 → exec (.rangePagesWrite n) s =
      .next (if n = getF s Reg.tirRangePages then s else bump s Reg.idRsvdwrLockedWr)) ∧
    (∀ k m, k < 4 → m < 4 → hasKettles s.part = true → getF s (Reg.ktlCtrlLock.ix k) = 1 → exec (.kettleModeWrite (k + 4) m) s =
      .next (if m = getF s (Reg.ktlCtrlMode.ix k) then s else bump s Reg.idRsvdwrLockedWr)) ∧
    (∀ t n, t < 512 → n < 2 ^ 28 → exec (.floorWrite t n) s =
      .next (same (same (if floorSum s t n > poolFrames s then bump s Reg.tirRefuseFloor else setF s (Reg.tirTenCfgFloor.ix t) n)
        (Reg.tirTenCfgSites.ix t)) (Reg.tirTenCfgLend.ix t))) ∧
    (∀ n m, n < 2 ^ 21 → m < 2 ^ 8 → exec (.lendWrite n m) s =
      let t := setF (setF s Reg.tirLendFrames n) Reg.tirLendSites m
      let t := trimLent t (t.tiers.lentOut.filter (fun e => e.2.borrower.isNone && !(mayOffer t e.2)))
      .next (setF (offerAll (recallExcess t n)) Reg.tirLendSites m))) ∧
  (∀ (s : State), portOpen s = true →
    (∀ v, exec (.twinEnWrite v) s = .next (twinCtrlSet s (v % 2 + getF s Reg.tckTwinCtrlAction * 2 + getF s Reg.tckTwinCtrlHold * 4
      + getF s Reg.tckTwinCtrlTenant * 2 ^ 8 + getF s Reg.tckTwinCtrlLag * 2 ^ 24))) ∧
    (∀ c v, c < 32 →
      exec (.flashFenceWrite c true v) s = .next (dfenceSet s c (v % 2 ^ 64)) ∧
      exec (.flashFenceWrite c false v) s = .next (chFenceSet s c (v % 2))) ∧
    (∀ fabric t v, t < 512 → exec (.meterWrite fabric t v) s = .next (meterSet s fabric t (v % 2 ^ 64))) ∧
    (∀ p v, p < 16 →
      let en := getF s (Reg.brmPortEn.ix p)
      let fence := getF s (Reg.brmPortFence.ix p)
      let role (t : State) : State :=
        if flagF s Reg.brmCtrlLock then t else sysLost (portUpdate (setF t (Reg.brmPortRole.ix p) (getF s (Reg.brmPortRole.ix p))) p)
      exec (.portEnableWrite p v) s = .next (role (sysLost (portFenceSet (sysLost (portEnSet s p (v % 2))) p fence))) ∧
      exec (.portFenceWrite p v) s = .next (role (sysLost (portFenceSet (sysLost (portEnSet s p en)) p (v % 2))))))

/-- R417, R423: on an open link an enabled function with an open context creates a queue in its lowest free slot, pins the page of its watch words and
reads the slot in RSLOT; the destroyal of a queue goes on until the queue holds no work, and then frees it. A function without a context is
refused and counted. Completes: queueCreate, queueDestroy, queueDestroyDone. -/
def Obligations.QueueCommands : Prop :=
  ∀ (s : State) (fn : Nat), fn < 512 →
    let busy (v : Option Nat) (t : State) : State :=
      modHost t (fun h => { h with qcmdBusy := match v with | some x => mput h.qcmdBusy fn x | none => mdel h.qcmdBusy fn })
    (portOpen s = true → fnEnabled s fn = true → qcmdBusy s fn = false →
      (ctxOpen s fn = false → exec (.queueCreate fn) s = .next (qcmdStatus (bump s Reg.qeRefuseNoContext) fn .noContext)) ∧
      (∀ i t, ctxOpen s fn = true → i < 8 → (∀ k, k < i → (queueOf s (8 * fn + k)).isSome = true) → queueOf s (8 * fn + i) = none →
        qnewOk s fn = true → qnewIn s fn = true → (pageEnt s (pageNo (qnew s fn Reg.qeQnewWatchAddr))).pins < 255 →
        watchHome s (qnew s fn Reg.qeQnewWatchAddr) = some t →
        exec (.queueCreate fn) s =
          let t := modHost t (fun h => { h with queues := mput h.queues (8 * fn + i) (queueNew s fn) })
          let t := qcmdStatus (slotIrq (watchPin t (qnew s fn Reg.qeQnewWatchAddr) true) fn (8 * fn + i)) fn .ok
          .next (fstatChanged (setF t (Reg.qeQcmdRslot.pg fn) i) fn)) ∧
      (∀ i x, queueOf s (8 * fn + i % 8) = some x → exec (.queueDestroy fn i) s =
        let t := modQueue (setF s (Reg.qeQcmdSlot.pg fn) i) (8 * fn + i % 8) (fun x => { x with destroying := true })
        .next (setF (busy (some (i % 8)) t) (Reg.qeQcmdBusy.pg fn) 1)) ∧
      (∀ i, queueOf s (8 * fn + i % 8) = none → exec (.queueDestroy fn i) s =
        .next (qcmdStatus (setF s (Reg.qeQcmdSlot.pg fn) i) fn .malformed))) ∧
    (∀ i, mget s.host.qcmdBusy fn = some i → queueOpenWork s (8 * fn + i) = false → exec (.queueDestroyDone fn) s =
      let t := freeQueue (drainCq true 4096 s (8 * fn + i)) (8 * fn + i)
      .next (fstatChanged (qcmdStatus (setF (busy none t) (Reg.qeQcmdBusy.pg fn) 0) fn .ok) fn)) ∧
    (∀ i, mget s.host.qcmdBusy fn = some i → queueOpenWork s (8 * fn + i) = true → exec (.queueDestroyDone fn) s = .next s)

/-- R419–R421, R431, R438: the doorbell word of a queue brings its tail, a visit fetches descriptors and shows the head it reached, the head of a full
completion queue is read back, a coalescing time ends in an interrupt, and the samples of the queues that ask for them are taken. Completes:
watchWordWake, queueVisit, cqHeadRead, irqCoalesceTimeout, queueSample. -/
def Obligations.QueueService : Prop :=
  ∀ (s : State),
    let unwake (q : Nat) : State := modHost s (fun h => { h with wakes := h.wakes.filter (· != q) })
    (∀ q x, ringUp s = true → s.host.wakes.contains q = true → queueOf s q = some x →
      let r := nrRead (unwake q) x.watch 8
      let tail := getLE r.2.bytes 0 4
      r.2.timeout = false →
      (r.2.bad = true → exec (.watchWordWake q) s = .next (consumeNr r.1 (r.2.first x.watch))) ∧
      (r.2.bad = false →
        (tail + 2 ^ 32 - x.tail) % 2 ^ 32 ≤ (tail + 2 ^ 32 - x.head) % 2 ^ 32 → (tail + 2 ^ 32 - x.head) % 2 ^ 32 ≤ 2 ^ x.sqLog2 →
        exec (.watchWordWake q) s = .next (acceptTail r.1 q tail)) ∧
      (r.2.bad = false →
        ¬ ((tail + 2 ^ 32 - x.tail) % 2 ^ 32 ≤ (tail + 2 ^ 32 - x.head) % 2 ^ 32 ∧ (tail + 2 ^ 32 - x.head) % 2 ^ 32 ≤ 2 ^ x.sqLog2) →
        exec (.watchWordWake q) s = .next (bump r.1 Reg.qeHosterrTail))) ∧
    (∀ q x, ringUp s = true → s.power.warmPend = false → s.power.flushing = false → visitNext s = some q → queueOf s q = some x →
      let t := visitLoop (atLeast1 s Reg.qeCtrlBurst) (modHost s (fun h => { h with lastVisit := q })) q
      (∀ y, queueOf t q = some y → y.head ≠ x.head → exec .queueVisit s = .next (nrPut t y.headw (toBytes 8 y.head))) ∧
      (∀ y, queueOf t q = some y → y.head = x.head → exec .queueVisit s = .next t)) ∧
    (∀ q x, queueOf s q = some x → ringUp s = true → s.power.flushing = false → x.waitc ≠ [] →
      exec (.cqHeadRead q) s = .next (drainCq false (x.waitc.length + 1) (readCqHead s q) q)) ∧
    (∀ q x, queueOf s q = some x →
      let ticks := getF s (slotF Reg.qeQirqTicks q)
      flagF s (slotF Reg.qeQirqIrqEn q) = true → ticks ≠ 0 → x.irqN ≠ 0 → x.irqFirst + ticks ≤ tickOf s →
      exec (.irqCoalesceTimeout q) s =
        .next (msixRaise (modQueue s q (fun x => { x with irqN := 0 })) (queueTenant q) (q % 8))) ∧
    (ringUp s = true → s.power.flushing = false → flagF s Reg.tsCtrlSampleEn = true → tickOf s % atLeast1 s Reg.tsCtrlPeriod = 0 →
      exec .queueSample s =
        .next (s.host.queues.foldl (fun t q => if flagF t (slotF Reg.qeQirqSample q.1) then sampleOne t q.1 q.2 else t) s))

/-- R307, R330, R410, R413, R416, R430, R431, R511: a host access through CXL.mem on an open link, after what the path does to its words is counted,
is refused beyond the node range; else it is answered at once, or waits with the others, up to MOVE_WAIT ticks, where its page must first move or
a host write waits before it. The poison a write carries is counted. A closed link brings no access. An MSI-X vector unmasked sends the message it
held back, functions are reset and virtual functions enabled and disabled, and CXL_PERST_N takes the link down and, released, resets every
function. Completes: msixUnmask, hostMemRead, hostMemWrite, functionLevelReset, vfDisable, perstAssert, perstRelease, vfEnable. -/
def Obligations.HostAccess : Prop :=
  (∀ (s : State) (addr : Nat) (bad : List (Nat × Nat)) (path : List PathUps),
    let met (s : State) : State := pathHits (spoilHome s bad) 0 path
    let ready (t : State) (a : WaitAcc) : State :=
      let ps := pagesOf a.addr a.len
      let u := startForWrite (ps.foldl (fun t p => homeCheck (mayRetry t p) p) t) a
      if ps.any (isMoving u) then bump u Reg.tirPromoteWaits else u
    let ends (i : Instr) (t : State) (a : WaitAcc) : Prop :=
      (rangePages t * 65536 < a.addr + a.len → exec i s = .next (emit t (.failed 1 addr Status.accessDenied.code))) ∧
      (a.addr + a.len ≤ rangePages t * 65536 →
        (mustWait (ready t a) a = false → exec i s = .next (answerAcc (ready t a) a)) ∧
        (mustWait (ready t a) a = true →
          exec i s = .next (modTiers (wantUnits (ready t a) ((pagesOf a.addr a.len).flatMap (pageBlocked (ready t a))))
            (fun t => { t with waiting := t.waiting ++ [a] }))))
    (portOpen s = true →
      (∀ len, let t := met s
        ends (.hostMemRead ⟨addr, len⟩ ⟨bad, path⟩) t ⟨1, true, false, addr, len, [], pathLost path, expiryOf t Reg.tirCtrlMoveWait⟩) ∧
      (∀ bs ps, let t := met (bumpBy s Reg.intPoisonCarried ps.length)
        ends (.hostMemWrite addr ⟨bs, ps⟩ ⟨bad, path⟩) t
          ⟨1, true, true, addr, bs.length, bs, ps ++ pathLost path, expiryOf t Reg.tirCtrlMoveWait⟩)) ∧
    (portOpen s = false → ∀ len bs ps,
      exec (.hostMemRead ⟨addr, len⟩ ⟨bad, path⟩) s = .next s ∧ exec (.hostMemWrite addr ⟨bs, ps⟩ ⟨bad, path⟩) s = .next s)) ∧
  (∀ (s : State),
    (∀ fn e, fnEnabled s fn = true → fn < 512 → e ≤ 8 → exec (.msixUnmask fn (some e)) s =
      let m := msixOf s fn
      .next (msixFlush (setMsix s fn { m with ents := mput m.ents e { m.ent e with masked := false } }) fn e)) ∧
    (∀ fn, fnEnabled s fn = true → fn < 512 → exec (.msixUnmask fn none) s =
      .next ((List.range 9).foldl (fun t e => msixFlush t fn e) (setMsix s fn { msixOf s fn with enabled := true, fmask := false }))) ∧
    (∀ fn, fnEnabled s fn = true → fn < 512 → exec (.functionLevelReset fn) s = .next (flr s fn)) ∧
    (∀ n, 0 < n → n < 512 → (s.host.vfEnable = true → s.host.numVfs ≤ n) →
      exec (.vfEnable n) s = .next (modHost s (fun h => { h with vfEnable := true, numVfs := n }))) ∧
    (∀ n, s.host.vfEnable = true → n < s.host.numVfs → exec (.vfDisable n) s =
      let gone := (List.range (s.host.numVfs - n)).map (fun i => n + 1 + i)
      .next (modHost (gone.foldl flr s) (fun h => { h with vfEnable := n != 0, numVfs := n }))) ∧
    exec .perstAssert s = .next (modHost s (fun h => { h with perstLow := true, linkUp := false })) ∧
    (s.host.perstLow = true → exec .perstRelease s =
      let t := modHost ((0 :: (List.range s.host.numVfs).map (· + 1)).foldl flr s) (fun h => { h with perstLow := false })
      .next (if txOn t then modHost t (fun h => { h with linkUp := true }) else t)))

/-- R411, R412, R482, R485, R486, R495–R497, R500: a command that the Crown hears on its path and that only reads is answered on that path, and
changes nothing but what was sent; a length or number out of range is answered Invalid Input. The opcodes, return codes and payload forms of CXL
are the model's (log entry 9), the cryptographic values opaque (log entry 7). Completes: identifyMemoryDevice, getSupportedLogs, getLog,
getEventRecords, getEventInterruptPolicy, getTimestamp, getHealthInfo, getFwInfo, unsupportedOpcode, getSensors, getEventLog, getCert, getReport,
frecList, frecRead, spdmGetMeasurements, spdmKeyExchange. -/
def Obligations.CrownReads : Prop :=
  ∀ (s : State) (path : Nat), crownHears s path = true →
    let saying (code : Nat) (b : List Byte) : State := emit s (.reply path code b)
    let telling (op : Nat) (b : List Byte) : State := saying okCode (Config.cxlPayload op b)
    exec (.identifyMemoryDevice path) s = .next (telling 0x4000 (toBytes 8 (rangePages s))) ∧
    exec (.getSupportedLogs path) s = .next (telling 0x0400 []) ∧
    (∀ sev, sev ≤ 3 → exec (.getEventRecords path sev) s =
      let l := cxlLogOf s sev
      .next (telling 0x0100 (toBytes 2 l.overflow ++ toBytes 8 l.firstOv ++ toBytes 8 l.lastOv ++ l.recs.flatMap CxlRec.bytes))) ∧
    exec (.getEventInterruptPolicy path) s = .next (telling 0x0102 (s.host.evtPolicy.flatMap (toBytes 1))) ∧
    (s.crown.timeSet = none → exec (.getTimestamp path) s = .next (saying okCode (toBytes 8 0))) ∧
    (s.crown.timeSet.isSome = true → exec (.getTimestamp path) s = .next (saying okCode (toBytes 8 (crownTime s)))) ∧
    exec (.getHealthInfo path) s = .next (telling 0x4200
      (toBytes 2 (ux 16 (hottest s.crown.temps 0 64).1) ++ toBytes 1 (lifeUsed s) ++ toBytes 1 (b2n (abnormal s)))) ∧
    exec (.getFwInfo path) s = .next (telling 0x0200 (toBytes 1 (s.crown.running + 1)
      ++ toBytes 1 ((s.crown.pend.map (· + 1)).getD 0) ++ toBytes 4 (slotVersion s 0) ++ toBytes 4 (slotVersion s 1))) ∧
    exec (.unsupportedOpcode path) s = .next (saying unsupported []) ∧
    exec (.getSensors path) s = .next (saying okCode (sensorBytes s)) ∧
    (∀ first n, 0 < n → n ≤ 64 → exec (.getEventLog path first n) s =
      let es := s.crown.log.filter (fun e => decide ((e.seq + 2 ^ 32 - first % 2 ^ 32) % 2 ^ 32 < 2 ^ 31))
      .next (saying okCode ((es.take n).flatMap CrownEvt.bytes))) ∧
    exec (.getCert path) s = .next (saying okCode (Config.certChain s.crown.deviceKey s.crown.aliasKey s.crown.meas.flatten)) ∧
    (∀ nonce, nonce.length = 32 → exec (.getReport path nonce) s =
      .next (saying okCode (reportBody s nonce ++ fitBytes 96 (Config.ecdsaSign s.crown.aliasKey (reportBody s nonce))))) ∧
    exec (.frecList path) s = .next (telling 0xC005 ((List.range 8).flatMap (frecEntry s))) ∧
    (∀ r off n x, r ≤ 7 → n ≤ 4096 → off + n ≤ 131072 → mget s.crown.frecs r = some x →
      exec (.frecRead path r off n) s = .next (saying okCode ((x.bytes.drop off).take n))) ∧
    exec (.spdmGetMeasurements path) s = .next (saying okCode s.crown.meas.flatten) ∧
    (∀ request, exec (.spdmKeyExchange path request) s = .next (saying okCode (Config.spdmAnswer s.crown.spdmKey s.crown.deviceKey s.crown.meas.flatten request))) ∧
    (∀ uuid off n, ∃ code, code < 2 ^ 16 ∧ exec (.getLog path uuid off n) s =
      .next { saying code (Config.cxlPayload 0x0401 (uuid ++ toBytes 4 off ++ toBytes 4 n)) with fresh := s.fresh + 1 })

/-- R411, R412, R482, R486, R491, R492: the commands that set the Crown's clock, event policy and event records, take a firmware package into the slot
that does not run, choose the slot of the next start, commit its security versions and hold a failure record. Return codes are the model's (log
entry 9). Completes: clearEventRecords, setEventInterruptPolicy, setTimestamp, transferFw, activateFw, commitSvn, frecHold. -/
def Obligations.CrownWrites : Prop :=
  ∀ (s : State) (path : Nat), crownHears s path = true →
    let saying (t : State) (code : Nat) : State := emit t (.reply path code [])
    (∀ v, exec (.setTimestamp path v) s = .next (saying (modCrown s (fun c => { c with timeSet := some (v % 2 ^ 64, s.now) })) okCode)) ∧
    (∀ modes, modes.length = 4 → (modes.any (fun m => decide (m % 4 = 3))) = false → exec (.setEventInterruptPolicy path modes) s =
      .next (saying (modHost s (fun h => { h with evtPolicy := modes.map (· % 256) })) okCode)) ∧
    (∀ sev hs, sev ≤ 3 → ((cxlLogOf s sev).recs.take hs.length).map (·.handle) = hs → exec (.clearEventRecords path sev false hs) s =
      let l := cxlLogOf s sev
      let l' : CxlLog := { l with recs := l.recs.drop hs.length, overflow := 0, firstOv := 0, lastOv := 0 }
      .next (saying (modHost s (fun h => { h with cxlLogs := mput h.cxlLogs sev l' })) okCode)) ∧
    (∀ slot off bs, 1 ≤ slot → slot ≤ 2 → slotRuns s (slot - 1) = false → (s.crown.transfer.all (fun t => t.path = path)) = true →
      (match s.crown.transfer with | some t => t.slot = slot - 1 ∧ t.next = off | none => off = 0) → off + bs.length ≤ 2 ^ 24 →
      exec (.transferFw path slot off bs false) s = .next (saying (storePart s (slot - 1) off bs path) okCode) ∧
      exec (.transferFw path slot off bs true) s = .next (endTransfer (storePart s (slot - 1) off bs path) (slot - 1) path)) ∧
    (∀ slot, 1 ≤ slot → slot ≤ 2 → slotRuns s (slot - 1) = true → ∀ off bs last,
      exec (.transferFw path slot off bs last) s = .next (saying s invalidSlot)) ∧
    (∀ slot, 1 ≤ slot → slot ≤ 2 → (slotPkg s (slot - 1)).isSome = true → exec (.activateFw path slot false) s =
      .next (saying (modCrown s (fun c => { c with pend := some (slot - 1) })) okCode)) ∧
    (∀ r hold, r ≤ 7 → exec (.frecHold path r hold) s =
      .next (saying (modCrown s (fun c => { c with frecs := mmod c.frecs r (fun x => { x with held := hold }) })) okCode)) ∧
    (path = 0 → flagF s Reg.crnStatusFallback = false → exec (.commitSvn path) s =
      let up (m : SMap Nat) (i : Nat) := if pkgSvn (runPkg s) i > (mget m i).getD 0 then mput m i (pkgSvn (runPkg s) i) else m
      .next (saying (crownEventOpen (modCrown s (fun c => { c with fuses := (List.range 64).foldl up c.fuses })) 0x0804 0) okCode)) ∧
    (path ≠ 0 → exec (.commitSvn path) s = .next (saying s unsupported))

/-- R486, R498, R501: a challenge gives a nonce that the Crown keeps, an owner key is enrolled in the lowest empty slot, and a command signed over a
nonce that is kept and in time acts and uses the nonce up, while one whose nonce or signature fails is refused and changes nothing but the nonces.
Return codes are the model's (log entry 9), a signature check opaque (log entry 7). Completes: getChallenge, ownerEnroll, ownerRevoke, debugReset,
setSetting, vendorUnlock. -/
def Obligations.CrownSigned : Prop :=
  ∀ (s : State) (path : Nat) (nonce sig : List Byte), crownHears s path = true →
    let saying (t : State) (code : Nat) : State := emit t (.reply path code [])
    let used := useNonce s nonce
    let owner := s.crown.owners.any (fun k => Config.verifies k.2 (nonce ++ Config.serial) sig)
    (∃ n : List Byte, n.length = 32 ∧ exec (.getChallenge path) s = .next (emit
      { modCrown s (fun c => { c with nonces := c.nonces ++ [⟨n, s.now⟩] }) with fresh := s.fresh + 1 } (.reply path okCode n))) ∧
    (∀ key i, path = 0 → key.length = 97 → i < 4 → (∀ j, j < i → mhas s.crown.owners j = true) → mhas s.crown.owners i = false →
      exec (.ownerEnroll path key) s = .next (saying (modCrown s (fun c => { c with owners := mput c.owners i key })) okCode)) ∧
    (∀ i key, i ≤ 3 → mget s.crown.owners i = some key → nonceGood s nonce = true → exec (.ownerRevoke path i nonce sig) s =
      if Config.verifies key nonce sig = true then .next (saying (modCrown used (fun c => { c with owners := mdel c.owners i })) okCode)
      else .next (saying used invalidSecurity)) ∧
    (path = 1 → nonceGood s nonce = true → exec (.debugReset path nonce sig) s =
      if owner = true then .next (saying (if live used then askWarm used 5 else used) okCode) else .next (saying used invalidSecurity)) ∧
    (path = 1 → nonceGood s nonce = false → exec (.debugReset path nonce sig) s = .next (saying used invalidSecurity)) ∧
    (∀ pin, nonceGood s nonce = true → exec (.setSetting path nonce sig pin) s =
      if Config.verifies Config.tokenKey (Config.serial ++ nonce ++ [BitVec.ofNat 8 (b2n pin)]) sig = true then
        .next (saying (modCrown used (fun c => { c with pinCold := pin })) okCode)
      else .next (saying used invalidSecurity)) ∧
    (nonceGood s nonce = true → exec (.vendorUnlock path nonce sig) s =
      if Config.verifies Config.tokenKey (Config.serial ++ nonce) sig = true then
        .next (saying (setF used Reg.crnStatusTestUnlocked 1) okCode)
      else .next (saying used invalidSecurity)) ∧
    (nonceGood s nonce = false → exec (.vendorUnlock path nonce sig) s = .next (saying used invalidSecurity))

/-- R452, R454, R456, R457: while the firmware runs, a drain of a site begins and recalls the frames it lent, or is refused where R456 says, CANCEL
ends it, UNFENCE marks a fenced site for the next warm reset, and a test of a fenced unit runs until its result is written. Completes: drain,
cancel, unfence, testStart, testComplete. -/
def Obligations.FirmwareSites : Prop :=
  ∀ (s : State), fwRuns s = true →
    (∀ i, i < 8 → s.fw.draining = none → drainRefused (setF s Reg.fwStackSite i) i = false → exec (.drain i) s =
      .next (recallSite (modFw (setF (setF s Reg.fwStackSite i) Reg.fwStackState 0) (fun f => { f with draining := some i })) i)) ∧
    (∀ i, i < 8 → s.fw.draining = none → drainRefused (setF s Reg.fwStackSite i) i = true → exec (.drain i) s =
      .next (setF (setF s Reg.fwStackSite i) Reg.fwStackState 4)) ∧
    exec .cancel s = .next (modFw (setF s Reg.fwStackState 0) (fun f => { f with draining := none })) ∧
    (∀ i, i < 8 → siteFenced s i = true → exec (.unfence i) s =
      .next (modFw (setF s Reg.fwStackSite i) (fun f => { f with unfencePend := f.unfencePend ||| 2 ^ i }))) ∧
    (∀ k u,
      let t := setF (setF s Reg.fwTestKind k) Reg.fwTestUnit u
      let res (r why : Nat) : State := setF (setF (setF t Reg.fwTestResult r) Reg.fwTestReason why) Reg.fwTestDetail 0
      getF s Reg.fwTestResult ≠ 1 →
      (testUnitOk t (k % 8) (u % 2048) = false → exec (.testStart k u) s = .next (res 3 2)) ∧
      (testUnitOk t (k % 8) (u % 2048) = true → testFenced t (k % 8) (u % 2048) = false → exec (.testStart k u) s = .next (res 3 1)) ∧
      (testUnitOk t (k % 8) (u % 2048) = true → testFenced t (k % 8) (u % 2048) = true → exec (.testStart k u) s = .next (res 1 0))) ∧
    (∀ n, getF s Reg.fwTestResult = 1 → exec (.testComplete n) s =
      .next (setF (setF s Reg.fwTestResult (if n = 0 then 2 else 3)) Reg.fwTestDetail (satTo 16 n)))

/-- R459, R460, R483, R499, R500: the job commands wait for their record; written, ATTACH attaches the job or shows why it may not, DETACH and CLEAR
let go of the attached and the closed one. A failure record is captured and written to the lowest empty slot, or to the oldest that is not held,
and is counted as missed where every slot is held (R499, R500). Completes: attach, detach, clear, jobRecordWritten, capture, failureRecordWritten,
eventLogWrite. -/
def Obligations.JobsAndRecords : Prop :=
  ∀ (s : State),
    let asks (op id gen : Nat) : State := modFw s (fun f => { f with jobCmd := some (op, id % 2 ^ 32, gen % 2 ^ 16) })
    let shows (t : State) (v : Nat) : State := setF t Reg.fwJobStatus v
    let idle : State := modFw s (fun f => { f with jobCmd := none })
    (fwRuns s = true → s.fw.jobCmd = none →
      (∀ id gen, exec (.attach id gen) s = .next (asks 1 id gen)) ∧ exec .detach s = .next (asks 2 0 0) ∧ exec .clear s = .next (asks 3 0 0)) ∧
    (∀ id gen, s.fw.jobCmd = some (1, id, gen) → attachStatus idle id gen = .ok → exec .jobRecordWritten s =
      .next (modCrown (shows idle 0) (fun c => { c with attach := some (id, gen), closed := if closedIs (shows idle 0) id then none else c.closed }))) ∧
    (∀ id gen, s.fw.jobCmd = some (1, id, gen) → attachStatus idle id gen ≠ .ok →
      exec .jobRecordWritten s = .next (shows idle (attachStatus idle id gen).code)) ∧
    (∀ a b, s.fw.jobCmd = some (2, a, b) →
      exec .jobRecordWritten s = .next (shows (modCrown idle (fun c => { c with attach := none })) 0)) ∧
    (∀ a b, s.fw.jobCmd = some (3, a, b) → s.crown.attach = none →
      exec .jobRecordWritten s = .next (shows (modCrown idle (fun c => { c with closed := none })) 0)) ∧
    (live s = true → portOpen s = true → exec .capture s =
      .next (modCrown s (fun c => { c with capture := some (c.capture.getD 0 ||| 2 ^ 5) }))) ∧
    (∀ trig r, s.crown.capture = some trig → s.power.vddMgmt = true → frecTarget s = some r → exec .failureRecordWritten s =
      let b := frecBytes s
      let t := modCrown b.1 (fun c => { c with
        capture := none, snapshot := [], frecSeq := c.frecSeq + 1, frecs := mput c.frecs r ⟨c.frecSeq, trig, tickOf s, false, b.2⟩ })
      .next (crownEvent t 0x0901 1 (frecWord t))) ∧
    (∀ trig, s.crown.capture = some trig → s.power.vddMgmt = true → frecTarget s = none → exec .failureRecordWritten s =
      let t := bump (modCrown s (fun c => { c with capture := none, snapshot := [] })) Reg.crnFrecMissed
      .next (crownEvent t 0x0901 1 (frecWord t))) ∧
    (∀ e r, s.crown.buffer = e :: r → s.power.vddMgmt = true →
      exec .eventLogWrite s = .next (modCrown s (fun c => { c with buffer := r, log := logPut c.log e })))

/-- R445, R447–R451: work whose time has run out is aborted, at once or when its wedged engine is reset, an engine so reset stays out until its reset
completes, and a control core that stops answering gives its work up, restarts and, expired three times in a window, stays stopped. Completes:
descriptorTimeout, engineReset, coreWatchdogExpiry, engineResetComplete, coreRestartComplete. -/
def Obligations.FirmwareRecovery : Prop :=
  ∀ (s : State), fwRuns s = true →
    let gives (t : State) (i : Nat) : State := match workOf t i with | some w => timeoutWork t w | none => t
    (∀ i w, workOf s i = some w → descExpired s w = true → s.fw.aborting.any (fun a => a.2.2 = i) = false →
      exec (.descriptorTimeout i none) s = .next (timeoutWork s w) ∧
      (∀ e, exec (.descriptorTimeout i (some e)) s =
        .next (modFw s (fun f => { f with aborting := f.aborting ++ [(e, tickOf s, i)] })))) ∧
    (∀ e, engineOk e = true → s.fw.aborting.any (fun a => a.1 = e && decide (tickOf s ≥ a.2.1 + 1000)) = true →
      s.fw.inReset.any (fun x => x.1 = e) = false → exec (.engineReset e) s =
        let t := modFw (bump s Reg.fwRecoverEngineResets) (fun f => { f with
          aborting := f.aborting.filter (fun a => a.1 != e), inReset := f.inReset ++ [(e, tickOf s)] })
        .next ((s.fw.aborting.filter (fun a => a.1 = e)).foldl (fun t a => gives t a.2.2) (engineClear (crownEventOpen t 0x0701 1) e))) ∧
    (∀ e, exec (.engineResetComplete e) s = .next (modFw s (fun f => { f with inReset := f.inReset.filter (fun x => x.1 != e) }))) ∧
    (∀ core ws ms, core ≤ 15 → (getF s Reg.fwStatusCores).testBit core = true →
      let past := ((mget s.fw.expiries core).getD []).filter (fun t => decide (t + atLeast1 s Reg.fwAutoWindow ≥ tickOf s))
      let t := ms.foldl abandonMove (ws.foldl gives (setF s Reg.fwStatusCores (setBit (getF s Reg.fwStatusCores) core false)))
      let now := tickOf t :: past
      (now.length < 3 → exec (.coreWatchdogExpiry core ws ms) s =
        .next (crownEventOpen (bump (modFw t (fun f => { f with expiries := mput f.expiries core now, stopped := f.stopped }))
          Reg.fwRecoverCoreRestarts) 0x0701 1)) ∧
      (3 ≤ now.length → exec (.coreWatchdogExpiry core ws ms) s =
        .next (modFw t (fun f => { f with expiries := mput f.expiries core now, stopped := sinsert f.stopped core })))) ∧
    (∀ core, core ≤ 15 → s.fw.stopped.contains core = false → exec (.coreRestartComplete core) s =
      .next (setF s Reg.fwStatusCores (setBit (getF s Reg.fwStatusCores) core true))) ∧
    (∀ core, s.fw.stopped.contains core = true → exec (.coreRestartComplete core) s = .next s)

/-- R24, R449, R463–R466, R475, R477, R479: each source of a reset raises its bit of RST_CAUSE and asks for the reach that its row gives: a warm reset
for software, RESET_N, the watchdog, the clock references and the cores, a cold one for a browned rail and the DRAM clock, and a Felt-only one on
request. What a request for a warm, a cold or a Felt-only reset leaves: its source's bit of RST_CAUSE, and the pending reset, the
farthest-reaching one (R464). Completes: warmResetRequest, feltResetRequest, crownWatchdogExpiry, brownOut, resetNAssert, resetNRelease,
coreRefLost, portRefLost, dramPllUnlock, coreDoubleFault, ringDeadlock. -/
def Obligations.ResetSources : Prop :=
  (∀ (s : State), live s = true →
    (portOpen s = true → exec .warmResetRequest s = .next (askWarm s 4) ∧ exec .feltResetRequest s = .next (askFelt s 4)) ∧
    (let t := modPower s (fun p => { p with resetNLow := true })
     exec .resetNAssert s = .next (if s.crown.pinCold then askCold t 2 else askWarm t 2)) ∧
    exec .resetNRelease s = .next (modPower s (fun p => { p with resetNLow := false })) ∧
    exec .crownWatchdogExpiry s = .next (askWarm s 3) ∧
    exec .coreRefLost s = .next (askWarm s 6) ∧
    exec .portRefLost s = .next (askWarm s 6) ∧
    exec .dramPllUnlock s = .next (askCold s 6) ∧
    exec .coreDoubleFault s = .next (askWarm s 7) ∧
    exec .ringDeadlock s = .next (askWarm s 7) ∧
    (∀ r, 0 < r → r ≤ 15 → exec (.brownOut r) s =
      let t := setF s Reg.rstRailBrown (getF s Reg.rstRailBrown ||| 2 ^ r)
      let t := crownEvent t 0x0203 2 (rawReg t [Reg.rstRailOk, Reg.rstRailBrown])
      .next (askCold (modPower t (fun p => { p with flushing := false, halted := p.halted || p.flushing })) 1)) ∧
    (exec (.brownOut 0) s = exec .vddMgmtRemoved s)) ∧
  (∀ (s : State) (i : Nat), i < 8 →
    (getF (askWarm s i) Reg.rstCauseCause).testBit i = true ∧ (getF (askCold s i) Reg.rstCauseCause).testBit i = true ∧
    (getF (askFelt s i) Reg.rstCauseCause).testBit i = true ∧
    (askCold s i).power.coldPend = true ∧ (askCold s i).power.warmPend = false ∧ (askCold s i).power.feltPend = false ∧
    (s.power.coldPend = false → 2 ≤ getF s Reg.rstStatusStep → (askWarm s i).power.warmPend = true ∧ (askWarm s i).power.feltPend = false) ∧
    (s.power.coldPend = true → (askWarm s i).power.warmPend = s.power.warmPend ∧ (askWarm s i).power.coldPend = true) ∧
    (s.power.coldPend = false → s.power.warmPend = false → getF s Reg.rstStatusStep = 9 → (askFelt s i).power.feltPend = true) ∧
    (s.power.coldPend = true ∨ s.power.warmPend = true → (askFelt s i).power = s.power))

/-- R462–R469, R474: power comes on with the start-up at step 1 and the event of it, a warm reset that is pending is prepared and then applied, a cold
one applied, and a Felt-only one clears the Felt alone; VDD_MGMT removed leaves the registers, the fuses' and the flashes' contents apart, as
power off does. Completes: powerOn, warmResetPreparation, warmReset, coldReset, feltOnlyReset, vddMgmtRemoved. -/
def Obligations.ResetsApplied : Prop :=
  ∀ (s : State),
    (s.power.vddMgmt = false → exec .powerOn s =
      let t := { s with now := 0, power := { powerReset with causes := 1, resetNLow := s.power.resetNLow } }
      .next (modPower (crownEventOpen (closeJob t) 0x0201 1) (fun p => { p with causes := 0 }))) ∧
    (∀ n, live s = true → s.power.warmPend = true → s.power.prepDone = false → s.power.flushing = false → prepares s = true →
      prepOver s = false → exec (.warmResetPreparation n) s =
        .next (modPower (mapFlush (abandonMoves (foldCommitted (stopWork s))) n) (fun p => { p with prepDone := true }))) ∧
    (live s = true → s.power.warmPend = true → s.power.flushing = false → (s.power.prepDone = true ∨ prepares s = false ∨ prepOver s = true) →
      exec .warmReset s =
        let t := recordReset (logDrain (abandonMoves (if ringUp s then foldCommitted s else s))) 2
        .next (startAt (keepFlds (clearBlocks t false) warmKeeps) 2)) ∧
    (live s = true → s.power.warmPend = true → s.power.prepDone = false → prepares s = true → prepOver s = false →
      exec .warmReset s = .next s) ∧
    (live s = true → s.power.coldPend = true → s.power.flushing = false → exec .coldReset s =
      .next (startAt (keepFlds (clearBlocks (recordReset s 1) true) coldKeeps) 1)) ∧
    (live s = true → s.power.feltPend = true → s.power.warmPend = false → s.power.coldPend = false → s.power.flushing = false →
      getF s Reg.rstStatusStep = 9 → exec .feltOnlyReset s =
        let t := (s.felt.images.map (·.1)).foldl feltDrop s
        let t := modFelt { t with flds := t.flds.filter (fun f => !(feltClears f.1)) } (fun f => { f with faultImg := 0, faultCyc := 0 })
        .next (modPower (recordReset (alignAsk (setStage (applyFences (dropResident t))) true) 3) (fun p => { p with feltPend := false, causes := 0 }))) ∧
    (s.power.vddMgmt = true → ∃ t, exec .vddMgmtRemoved s = .next t ∧ t.power = { powerReset with vddMgmt := false, resetNLow := s.power.resetNLow }
      ∧ t.flds = fldsReset ∧ t.dram = dramReset ∧ t.tiers = tiersReset ∧ t.felt.images = [] ∧ t.host.perstLow = s.host.perstLow)

/-- R469–R474: the start-up goes on one step at a time while power and clocks hold and RESET_N allows: each step ends in the next when what it waits
for has come, and fails in FAIL when it comes too late. Completes: startupStepComplete. -/
def Obligations.StartupSteps : Prop :=
  ∀ (s : State) (p : StartPar),
    live s = true → s.power.coldPend = false → s.power.warmPend = false → s.power.halted = false → s.power.flushing = false →
    let n := getF s Reg.rstStatusStep
    (s.power.resetNLow = true → 2 < n) → (getF s Reg.rstStatusFail = n → n = 2) →
    (n = 1 → exec (.startupStepComplete p) s = .next (step1 s p)) ∧
    (n = 2 → getF s Reg.rstRailOk = 2 ^ 16 - 1 → exec (.startupStepComplete p) s = .next (toStep s 3)) ∧
    (n = 2 → getF s Reg.rstRailOk ≠ 2 ^ 16 - 1 → p.late = true → exec (.startupStepComplete p) s = .next (stepFail s 2)) ∧
    (n = 3 → p.pll = true → exec (.startupStepComplete p) s =
      .next (toStep (modPower { s with bow := { bowReset with refPresent := s.bow.refPresent } } (fun q => { q with pllTries := 0 })) 4)) ∧
    (n = 4 → exec (.startupStepComplete p) s = .next (step4 s p)) ∧
    (n = 5 → p.cores = true → exec (.startupStepComplete p) s =
      let t := modTiers s (fun t => { t with home := t.home.map (fun e => (e.1, { e.2 with pins := 0 })) })
      .next (alignAsk (toStep (slotBooted t) 6) false)) ∧
    (n = 6 → s.bow.align = none → exec (.startupStepComplete p) s = .next (toStep s 7)) ∧
    (n = 7 → exec (.startupStepComplete p) s = .next (toStep (modFelt s (fun f => { f with defect := p.defect % 2 ^ 72 })) 8)) ∧
    (n = 8 → p.link = true ∨ p.late = true → exec (.startupStepComplete p) s =
      .next (linkUp (setF (toStep s 9) Reg.rstStatusStartMs (min 65535 (showUnits (s.now - s.power.startTick) 1000))) p)) ∧
    (n = 9 → p.link = true → s.host.perstLow = false →
      exec (.startupStepComplete p) s = .next (modHost s (fun h => { h with linkUp := true })))

/-- R373, R374, R376, R476, R477, R480, R481, R512: rails and temperatures are measured and shown, power over its cap is counted, a reading at the
trip point takes THERMTRIP_N low and stops the node, and a power loss stops work and flushes a mounted store, whose marker then halts the node.
Completes: plossRecognised, plossGlitch, flushMarkerWritten, powerMeasure, sensorRefresh, thermalTrip. -/
def Obligations.PowerAndHeat : Prop :=
  ∀ (s : State),
    (∀ rails, s.power.vddMgmt = true →
      let rs := (List.range 16).map (fun m => ((rails.getD m (0, 0)).1 % 65536, (rails.getD m (0, 0)).2 % 65536))
      let t := modCrown s (fun c => { c with rails := rs })
      let ws := windowOf t (railPower rs)
      let t := setF (modPower t (fun p => { p with samples := ws })) Reg.rstRailOk (maskOf 16 (fun m => railOk m (rs.getD m (0, 0)).1))
      let t := setF t Reg.rstPowerAvg (min 65535 (showUnits (sumNat ws) (40000 * ws.length)))
      (overCap t ws = true → exec (.powerMeasure rails) s = .next (bump (setF t Reg.rstPowerCapped 1) Reg.rstPowerCapTicks)) ∧
      (overCap t ws = false → exec (.powerMeasure rails) s = .next (setF t Reg.rstPowerCapped 0))) ∧
    (∀ ts, s.power.vddMgmt = true → (tripPoint (refreshTemps s ts) = false ∨ (refreshTemps s ts).power.tripped = true) →
      exec (.sensorRefresh ts) s = .next (refreshTemps s ts)) ∧
    (∀ ts, s.power.vddMgmt = true → tripPoint (refreshTemps s ts) = true → (refreshTemps s ts).power.tripped = false →
      exec (.sensorRefresh ts) s = .next (tripNow (refreshTemps s ts))) ∧
    (∀ ts, live s = true → (ts.take 64).any (fun t => decide (t ≥ 0x730)) = true →
      ∃ t, exec (.thermalTrip ts) s = .next t ∧ t = tripNow (refreshTemps s ts) ∧ t.power.tripped = true ∧ t.power.flushing = false) ∧
    (live s = true → exec .plossGlitch s = .next (bump s Reg.fshStatusPlossGlitch)) ∧
    (live s = true → s.power.flushing = false → s.power.halted = false →
      ∃ t, exec .plossRecognised s = .next t ∧ t.host.work = [] ∧ t.bow.sched = [] ∧ t.flash.reads = [] ∧
        (s.flash.st = 2 → t.power.flushing = true ∧ t.flash.st = 3 ∧ t.power.halted = false) ∧
        (s.flash.st ≠ 2 → t.power.halted = true ∧ t.power.flushing = false)) ∧
    (live s = true → s.power.flushing = true →
      ∃ t, exec .flushMarkerWritten s = .next t ∧ t.power.flushing = false ∧ t.power.halted = true ∧ t.flash.st = 4)

/-- R31, R35, R36: a TICK_SYNC frame whose CRC or TYPE is wrong is discarded and counted in BAD_FRAMES; one that was sent as a CHECK counts as missing
too. -/
def Obligations.BadFramesDiscarded : Prop :=
  ∀ (s : State) (frame ago : Nat) (offset : Int), clocksRun s = true → bits frame 0 8 = 0xD5 → frOk frame = false →
    let t := bump (modBow s (fun b => { b with refPresent := true })) Reg.tckStatusBadFrames
    exec (.loadFrame frame ago offset) s = .next t ∧
    (s.bow.st ≠ .synced → exec (.checkFrame frame ago offset) s = .next t) ∧
    (s.bow.st = .synced →
      let u := modBow t (fun b => { b with missed := b.missed + 1 })
      exec (.checkFrame frame ago offset) s = .next (if atLeast1 t Reg.tckCtrlCheckMiss ≤ s.bow.missed + 1 then bowTo u .lost .checkMissing else u))

/-- R36: while the Bow is SYNCED, a LOAD frame with its count has no effect, and one with another count is ignored and counted in BAD_FRAMES; while it
is ADOPTED, a LOAD frame with its count has no effect, and one with another count is adopted again: only a CHECK frame takes the Bow to SYNCED.
Completes: loadFrame. -/
def Obligations.LoadFrames : Prop :=
  ∀ (s : State) (frame ago : Nat) (offset : Int), clocksRun s = true → s.bow.refPresent = true → bits frame 0 8 = 0xD5 →
    frOk frame = true → frType frame = 1 →
    let same := (frCount frame + ago) % 2 ^ 64 = s.bow.count
    (s.bow.st = .synced → same → exec (.loadFrame frame ago offset) s = .next s) ∧
    (s.bow.st = .synced → ¬ same → exec (.loadFrame frame ago offset) s = .next (bump s Reg.tckStatusBadFrames)) ∧
    (s.bow.st = .adopted → same → exec (.loadFrame frame ago offset) s = .next s) ∧
    (s.bow.st = .adopted → ¬ same → exec (.loadFrame frame ago offset) s = .next (adopt s (frCount frame) ago offset)) ∧
    (s.bow.st = .free ∨ s.bow.st = .lost → getF s Reg.tckCtrlSyncEn = 1 →
      exec (.loadFrame frame ago offset) s = .next (bowTo (adopt s (frCount frame) ago offset) .adopted .none)) ∧
    (s.bow.st = .free ∨ s.bow.st = .lost → getF s Reg.tckCtrlSyncEn = 0 → exec (.loadFrame frame ago offset) s = .next s)

/-- R32, R35–R37: a valid CHECK frame is adopted (the count becomes the frame's, moved on by the edges since it was sent; JUMP_DIFF shows the
difference, and a difference sets JUMPED and, where it is forward, does what it skipped), confirms the count of an adopted Bow that keeps within
one nanosecond, leaves a synchronised Bow the phase error of its edge (log entry 80), or takes it to LOST; the loss of TICK_REF, a phase error and
missing CHECK frames take it to LOST too. A change of state sets STATE_CHG and stops neither the count nor the schedule. Completes: checkFrame,
tickRefLost, phaseLost, checkMissing. -/
def Obligations.BowStates : Prop :=
  ∀ (s : State),
    (∀ frame ago (offset : Int), clocksRun s = true → s.bow.refPresent = true → bits frame 0 8 = 0xD5 → frOk frame = true → frType frame = 2 →
      let now : Nat := (frCount frame + ago) % 2 ^ 64
      let diff : Int := (now : Int) - (s.bow.count : Int)
      let adopted : State :=
        let t := setF (modBow s (fun b => { b with count := now, phase := offset })) Reg.tckJumpDiff (ux 64 diff)
        let t := if diff = 0 then t else setF t Reg.tckStatusJumped 1
        if diff > 0 then applySkipped t else t
      let go := exec (.checkFrame frame ago offset) s
      (s.bow.st = .free ∨ s.bow.st = .lost → getF s Reg.tckCtrlSyncEn = 1 → go = .next (bowTo adopted .adopted .none)) ∧
      (s.bow.st = .free ∨ s.bow.st = .lost → getF s Reg.tckCtrlSyncEn = 0 → go = .next s) ∧
      (s.bow.st = .adopted → now ≠ s.bow.count → go = .next adopted) ∧
      (s.bow.st = .adopted → now = s.bow.count → s.bow.phase.natAbs ≤ 16 → go = .next (bowTo s .synced .none)) ∧
      (s.bow.st = .adopted → now = s.bow.count → 16 < s.bow.phase.natAbs → go = .next s) ∧
      (s.bow.st = .synced → now = s.bow.count → go = .next (modBow s (fun b => { b with missed := 0, phase := offset }))) ∧
      (s.bow.st = .synced → now ≠ s.bow.count → go = .next (bowTo s .lost .mismatch))) ∧
    (let t := modBow s (fun b => { b with refPresent := false })
     (s.bow.st = .adopted ∨ s.bow.st = .synced → exec .tickRefLost s = .next (bowTo t .lost .refMissing)) ∧
     (s.bow.st = .free ∨ s.bow.st = .lost → exec .tickRefLost s = .next t)) ∧
    (∀ ph : Int,
      (s.bow.st = .synced → 16 < ph.natAbs →
        exec (.phaseLost ph) s = .next (bowTo (modBow s (fun b => { b with phase := ph })) .lost .phase)) ∧
      (s.bow.st ≠ .synced ∨ ph.natAbs ≤ 16 → exec (.phaseLost ph) s = .next s)) ∧
    (let u := modBow s (fun b => { b with missed := b.missed + 1 })
     (s.bow.st = .synced → s.bow.missed + 1 < atLeast1 s Reg.tckCtrlCheckMiss → exec .checkMissing s = .next u) ∧
     (s.bow.st = .synced → atLeast1 s Reg.tckCtrlCheckMiss ≤ s.bow.missed + 1 → exec .checkMissing s = .next (bowTo u .lost .checkMissing)) ∧
     (s.bow.st ≠ .synced → exec .checkMissing s = .next s)) ∧
    (∀ st why, s.bow.st ≠ st → (bowTo s st why).bow = { s.bow with st := st, why := if st = .lost then why else s.bow.why, missed := 0 } ∧
      getF (bowTo s st why) Reg.tckStatusStateChg = 1)

/-- R40–R43, R45, R46, R105, R127, R142, R143, R273, R318, R433, R434, R436: at a tick edge the Bow aligns the crossings at the edge chosen, prepares
the event whose tick is near, commits epochs, takes over and moves gate lists, launches images or misses their launch, applies a role, and refills
the scrubbers' budgets and the meters; what is due of an earlier class, or of a lower place of its own, comes first (log entry 81). A commit makes
the versions of its commits ones of the next epoch and completes each of them with the record. Completes: crossingAlignment, eventPrepare,
epochCommit, gateListTakeover, gateEntryChange, imageLaunch, roleApply, scrubPacing, meterRefill. -/
def Obligations.TickEvents : Prop :=
  ∀ (s : State),
    (∀ t, s.bow.align = some t →
      (t ≤ tickOf s → exec .crossingAlignment s =
        .next (setF (modBow s (fun b => { b with align := none, alignFelt := false })) Reg.tckXalignCount t)) ∧
      (tickOf s < t → exec .crossingAlignment s = .next s)) ∧
    (∀ t e, schedFirst s (fun e => !e.prepared) = some t →
      (t ≤ tickOf s + 4 → s.bow.sched.find? (fun e => !e.prepared && e.tick = t) = some e →
        let u := modBow s (fun b => { b with sched := b.sched.map (fun f => if f = e then { f with prepared := true } else f) })
        (∀ slot, e.kind = .launch slot → exec .eventPrepare s = .next (modImage u slot startFills)) ∧
        (∀ i sh, e.kind = .commit i sh → exec .eventPrepare s = .next (fixShard u (shardKey i sh) e.tick)) ∧
        (∀ p l, e.kind = .gate p l → exec .eventPrepare s = .next u)) ∧
      (tickOf s + 4 < t → exec .eventPrepare s = .next s)) ∧
    (∀ i sh,
      let k := shardKey i sh
      let u := edgeCommits (edgeUpTo s 2) (fun j => decide (j < k))
      (∀ t, schedFirst u (isCommitOf k) = some t → t ≤ tickOf u → bowRests u = false → exec (.epochCommit i sh) s = .next (commitAt u k t)) ∧
      (∀ t, schedFirst u (isCommitOf k) = some t → tickOf u < t → exec (.epochCommit i sh) s = .next u) ∧
      (schedFirst u (isCommitOf k) = none → exec (.epochCommit i sh) s = .next u)) ∧
    (∀ k t h, mget s.srch.shards k = some h → h.detaching = none → h.epoch + 1 < 2 ^ 48 - 1 →
      (s.bow.sched.all (fun e => !(isCommitOf k e && e.tick = t) || e.prepared)) = true →
      let mine := s.bow.sched.filter (fun e => isCommitOf k e && e.tick = t)
      let n := (h.fixed.filter (fun f => f.1 = t)).foldl (fun (a : Nat × Nat) f => (a.1 + f.2.1, a.2 + f.2.2)) (0, 0)
      let u := modBow s (fun b => { b with sched := b.sched.filter (fun e => !(isCommitOf k e && e.tick = t)) })
      let u := modShard u k (fun x => { x with epoch := h.epoch + 1, fixed := x.fixed.filter (fun f => f.1 != t) })
      let u := modSrch u (fun r => { r with versions := r.versions.map (fun v =>
        if v.1 / 2 ^ 32 = k && decide (v.2.vfrom > h.epoch) then (v.1, commitVersion (h.epoch + 1) t v.2) else v) })
      commitAt s k t = mine.foldl (fun t e => match workOf t e.work with
        | some w => completeWith t w (w.f 24 8) (commitRecord (h.epoch + 1) (decide (mine.length > 1)) n.1 n.2) .ok
        | none => t) u) ∧
    (∀ p,
      let u := edgeGates (edgeUpTo s 3) (fun j => decide (j < p))
      (∀ t, schedFirst u (isGateOf p) = some t → t ≤ tickOf u → bowRests u = false → exec (.gateListTakeover p) s = .next (gateAt u p t)) ∧
      (∀ t, schedFirst u (isGateOf p) = some t → tickOf u < t → exec (.gateListTakeover p) s = .next u) ∧
      (schedFirst u (isGateOf p) = none → exec (.gateListTakeover p) s = .next u)) ∧
    (∀ p t e l, s.bow.sched.filter (fun e => isGateOf p e && e.tick = t) = [e] → gateOf e = some (p, l) →
      gateAt s p t = completeId (gateShow (schedFree s (fun e => isGateOf p e && e.tick = t)) p
        ⟨t, l, gateCur (schedFree s (fun e => isGateOf p e && e.tick = t)) t l⟩) e.work .ok) ∧
    (∀ p g, mget s.host.gates p = some g →
      (g.tick ≤ tickOf s → gateCur s g.tick g.ents ≠ g.cur →
        exec (.gateEntryChange p) s = .next (gateShow s p { g with cur := gateCur s g.tick g.ents })) ∧
      (tickOf s < g.tick ∨ gateCur s g.tick g.ents = g.cur → exec (.gateEntryChange p) s = .next s)) ∧
    (∀ i e, s.bow.sched.find? (isLaunchOf i) = some e → e.tick ≤ tickOf s → bowRests s = false →
      let u := edgeUpTo s 4
      exec (.imageLaunch i) s = .next (((dueLaunches u).takeWhile (fun f => !(isLaunchOf i f)) ++ [e]).foldl launchEvent u)) ∧
    (∀ i e, s.bow.sched.find? (isLaunchOf i) = some e → tickOf s < e.tick → exec (.imageLaunch i) s = .next s) ∧
    (∀ e i, e.kind = .launch i →
      let u := schedFree s (fun f => isLaunchOf i f && f.tick = e.tick)
      (s.bow.st = .synced → e.prepared = true → ∀ x, imageOf u i = some x → launchEvent s e =
        let v := setF u Reg.idNumsigLast x.numsig
        let v := { v with twin := { v.twin with blockWords := v.twin.blockWords.filter (fun b => !(x.blocks.testBit b.1)),
                                                blockSeg := v.twin.blockSeg.filter (fun b => !(x.blocks.testBit b.1)) } }
        startStep (setImage v i { x with run := x.run.map (fun r => { r with launched := true }) }) i) ∧
      (s.bow.st ≠ .synced → (imageOf s i).bind (·.unload) = none → launchEvent s e =
        completeId (bump (dropRun (schedFree s (fun f => f = e)) i) Reg.tckStatusMissedRun) e.work .notSynchronised)) ∧
    (∀ p t w, s.felt.role = some (p, t, w) →
      (t ≤ tickOf s → exec .roleApply s =
        let u := setF (modFelt s (fun f => { f with role := none })) Reg.fltRoleProfile p
        .next (completeId (setStage (setF (setF u Reg.fltRolePending 0) Reg.fltRoleNext 0)) w .ok)) ∧
      (tickOf s < t → exec .roleApply s = .next s)) ∧
    (let u := edgeUpTo s 4
     let u := (dueLaunches u).foldl launchEvent u
     let u := modInteg u (fun i => { i with budget := (List.range 4).map (fun n => (n, atLeast1 u (Reg.intScrubRate.ix n))) })
     (u.bow.edgeWork = false → exec .scrubPacing s = .next u) ∧
     (u.bow.edgeWork = true → exec .scrubPacing s = .next (skewMigrate (modBow u (fun b => { b with edgeWork := false }))))) ∧
    exec .meterRefill s = .next (modHost s (fun h => { h with
      meters := h.meters.map (fun m =>
        let f := meterF s (decide (m.1 ≥ 512)) (m.1 % 512)
        let one := if m.1 ≥ 512 then 64 else 1
        (m.1, ⟨min (meterCap (decide (m.1 ≥ 512)) f.2.1) (m.2.tc + f.1 * one),
          min (meterCap (decide (m.1 ≥ 512)) f.2.2.2) (m.2.tp + max f.1 f.2.2.1 * one)⟩)) }))

/-- R53–R61: paired twins exchange the digests of their segments, a frame of the oldest tick unsent with its 24-byte entries; at a comparison point,
one in each tick, the segments that the twin's digest has come for, or that are more than LAG ticks late, leave the lists, a difference or
lateness is recorded, the results held for equal segments are released and those of the others completed FENCED, and a divergence is acted on as
ACTION says; the loss of the link is shown once and acted on, and the comparison begins afresh (log entry 79). Completes: twin, twinFrameSend,
twinLinkLost, comparisonPoint. -/
def Obligations.TwinRows : Prop :=
  ∀ (s : State),
    (twinUp s = true →
      let paired := modTwin s (fun t => { t with linked := true, st := if t.st = 1 then 2 else t.st })
      (s.twin.st = 1 ∨ s.twin.st = 2 →
        (∀ frame checks, exec (.twin ⟨frame, checks⟩) s =
          .next (modTwin s (fun t => { t with linked := true, st := 2, peer := t.peer ++ frameDigests (tickOf s) frame checks }))) ∧
        (exec .twinFrameSend s =
          let tick := (s.twin.unsent.map (·.tick)).foldl min (tickOf s)
          let ds := s.twin.unsent.filter (fun d => d.tick = tick)
          let frame := toBytes 8 tick ++ toBytes 4 ds.length ++ zeros 20 ++ ds.flatMap (fun d => toBytes 1 d.id.kind ++ toBytes 1 d.id.block
            ++ toBytes 2 d.id.queue ++ toBytes 4 d.id.seq ++ toBytes 4 d.id.seg ++ zeros 4 ++ toBytes 8 d.crc)
          .next (emit (modTwin s (fun t => { t with linked := true, st := 2, unsent := t.unsent.filter (fun d => d.tick != tick) }))
            (.twinFrame frame (ds.map (·.chk))))) ∧
        (s.twin.judged ≤ tickOf s → exec .comparisonPoint s =
          let p := modTwin paired (fun t => { t with judged := tickOf s + 1 })
          let its (d : Digest) : Option Digest := s.twin.peer.find? (fun p => p.id = d.id)
          let late (d : Digest) : Bool := match its d with
            | some p => decide (p.tick > d.tick + twinLag s)
            | none => decide (tickOf s > d.tick + twinLag s)
          let judged := s.twin.own.filter (fun d => (its d).isSome || late d)
          let same := judged.filter (fun d => !(late d) && (its d).map (·.crc) = some d.crc)
          let diff := judged.filter (fun d => late d || (its d).map (·.crc) != some d.crc)
          let ids := judged.map (·.id)
          let q := modTwin p (fun t => { t with own := t.own.filter (fun d => !(ids.contains d.id)), peer := t.peer.filter (fun d => !(ids.contains d.id)) })
          let q := diff.foldl (fun s d =>
            if late d then recordDiff s d 3 0x1FF
            else match its d with
              | some p => recordDiff (bump s Reg.tckTwinStatusMismatches) d d.id.kind (firstDiff s d p)
              | none => s) q
          let q := settleHeld q (same.map (·.id)) (diff.map (·.id))
          .next (if diff.isEmpty then q else twinAct q))) ∧
      (s.twin.st ≠ 1 → s.twin.st ≠ 2 →
        (∀ frame checks, exec (.twin ⟨frame, checks⟩) s = .next paired) ∧ exec .twinFrameSend s = .next paired ∧
        (s.twin.judged ≤ tickOf s → exec .comparisonPoint s = .next (modTwin paired (fun t => { t with judged := tickOf s + 1 }))))) ∧
    (twinUp s = false →
      (∀ frame checks, exec (.twin ⟨frame, checks⟩) s = .next s) ∧ exec .twinFrameSend s = .next s ∧
      (s.twin.judged ≤ tickOf s → exec .comparisonPoint s = .next (modTwin s (fun t => { t with judged := tickOf s + 1 }))) ∧
      (flagF s Reg.tckTwinCtrlEn = true → s.twin.st ≠ 0 → s.twin.linked = true →
        ∃ code sev, exec .twinLinkLost s = .next (twinUnpair (twinAct (crownEventOpen
          { setF (modTwin s (fun t => { t with linked := false })) Reg.tckTwinStatusLinkLost 1 with fresh := s.fresh + 1 } code sev))))) ∧
    (tickOf s < s.twin.judged → exec .comparisonPoint s = .next s) ∧
    (s.twin.linked = false ∨ twinUp s = true → exec .twinLinkLost s = .next s) ∧
    (flagF s Reg.tckTwinCtrlAction = false → twinAct s = s) ∧
    (flagF s Reg.tckTwinCtrlAction = true → twinAct s =
      let t := triggerCapture (modTwin s (fun t => { t with st := 3, held := [] })) 4
      let t := (t.felt.images.map (·.1)).foldl (fun s i =>
        if ((imageOf s i).bind (·.run)).any (·.launched) then endRun s i .fenced 0 else s) t
      s.twin.held.foldl (fun s h => pushComp s h.1 false { h.2.1 with status := Status.fenced.code })
        (abortTenant t (getF t Reg.tckTwinCtrlTenant) .fenced)) ∧
    (twinUnpair s = s.twin.held.foldl (fun s h => pushComp s h.1 false { h.2.1 with status := Status.fenced.code })
      (modTwin s (fun t => { t with st := if t.st = 2 then 1 else t.st, own := [], peer := [], unsent := [], held := [] })))

/-- R207–R213, R220, R263–R270: a running image's step ends at its boundary and the next one begins, one that still works or has something in flight
overruns and skips the boundary, and one whose last step it was ends with OK; the boundaries of lower images come first (R43). A transfer that is
ready has moved its bytes and those of the transfers before it, the image that froze for it resumes, and one that froze for too long faults with
WATCHDOG. Completes: stepBoundary, lateReleaseResume, feltWatchdog, transferReady. -/
def Obligations.RunningImages : Prop :=
  ∀ (s : State) (img : Nat),
    (let u := edgeSteps (edgeUpTo s 1) (fun i => decide (i < img))
     ∀ (x : Image) (r : Run), imageOf u img = some x → x.run = some r →
      (r.launched = true → r.bound + r.period ≤ tickOf u →
        let t := setImage u img { x with run := some { r with bound := r.bound + r.period } }
        let done (t : State) : State := modBow t (fun b => { b with edgeWork := true })
        (r.inStep = false → exec (.stepBoundary img) s = .next (done (nextStep t img))) ∧
        (r.inStep = true → x.quiet r (r.bound + r.period) = false → exec (.stepBoundary img) s =
          .next (done (modImage (bump t Reg.fltImagesOverruns) img (fun x =>
            { x with run := x.run.map (fun r => { r with skipped := r.skipped + 1, overrun := true }) })))) ∧
        (r.inStep = true → x.quiet r (r.bound + r.period) = true → r.last = true →
          exec (.stepBoundary img) s = .next (done (endRun t img .ok 0))) ∧
        (r.inStep = true → x.quiet r (r.bound + r.period) = true → r.last = false →
          exec (.stepBoundary img) s = .next (done (nextStep (closeStep t img .ok false 0) img)))) ∧
      (r.launched = false ∨ tickOf u < r.bound + r.period → exec (.stepBoundary img) s = .next u)) ∧
    (∀ (x : Image) (r : Run), imageOf s img = some x → x.run = some r →
      (∀ f, x.freeze = some f →
        let ready := f.waits.map (fun w => (mget x.cells w.1).bind (fun c => (c.base.win w.2).ready))
        (ready.all (·.isSome) = true →
          let n := maxD f.felt (ready.map (fun o => o.getD 0 + 8)) - f.felt
          exec (.lateReleaseResume img) s = .next (setImage (bumpBy (bump s Reg.fltLateReleases) Reg.fltStallCycles n) img
            { x with freeze := none, run := some { r with late := r.late + 1, stall := r.stall + n } })) ∧
        (∀ cell rest, f.waits.map (·.1) = cell :: rest → f.tick + atLeast1 s Reg.fltCtrlWdogStall < tickOf s →
          (∀ c ∈ rest, cell ≤ c) →
          let n := tickOf s * 1800 - f.felt
          let t := setImage (bumpBy (bump s Reg.fltLateReleases) Reg.fltStallCycles n) img
            { x with freeze := none, run := some { r with late := r.late + 1, stall := r.stall + n } }
          exec (.feltWatchdog img) s = .next (endCycle (cellFault t img cell [(4, some 1)]) img))) ∧
      (∀ c w felt i y, findIdx (fun (t : Xfer) => t.cell = c && t.win = w) x.xfers = some i → (x.xfers[i]?).any (heldFill x) = false →
        let t := ((x.xfers.take (i + 1)).filter (fun t => !t.moved && !(heldFill x t))).foldl (fun s t => moveXfer s img t) s
        imageOf t img = some y → exec (.transferReady img c w felt) s =
          let left := ((y.xfers.take (i + 1)).map (fun t => { t with moved := t.moved || !(heldFill y t) })).take i ++ y.xfers.drop (i + 1)
          .next (setImage t img ({ y with xfers := left }.modCell c (fun k => k.both (fun k => k.setWin w (fun w => { w with ready := some felt })))))))

/-- R228, R232: a scalar operation of layout CR reads sa and sb at the start of the issue cycle and writes sd after its latency (MUL 3 cycles, the
others 1). Completes: add, sub, and, or, xor, shl, shr, sar, mul, mins, maxs. -/
def Obligations.ScalarRegisterSlots : Prop :=
  ∀ (s t : State) (img cell ecc : Nat) (x : Image) (r : Run) (c : Cell),
    let w := slotC (c.bundle c.base.seq.pc)
    let p := c.base.rs (bits w 16 5)
    let q := c.base.rs (bits w 11 5)
    let ready (op : Nat) : Prop := SlotReady s img cell ecc [] 0 op x r t c
    let puts (lat val : Nat) : State :=
      slotDone t img cell 0 (issue c.cur (cellEnv t x r cell c []) lat 3 (.s (bits w 21 5) (ones 64)) (val % 2 ^ 64) false) []
    bEn (c.bundle c.base.seq.pc) 0 = true → c.base.seq.rep = 0 → p.tag = false → q.tag = false →
    (ready 0x01 → exec (.add img cell ecc) s = .next (puts 1 (p.val + q.val))) ∧
    (ready 0x02 → exec (.sub img cell ecc) s = .next (puts 1 (p.val + (2 ^ 64 - q.val)))) ∧
    (ready 0x03 → exec (.and img cell ecc) s = .next (puts 1 (p.val &&& q.val))) ∧
    (ready 0x04 → exec (.or img cell ecc) s = .next (puts 1 (p.val ||| q.val))) ∧
    (ready 0x05 → exec (.xor img cell ecc) s = .next (puts 1 (p.val ^^^ q.val))) ∧
    (ready 0x06 → exec (.shl img cell ecc) s = .next (puts 1 (p.val * 2 ^ (q.val % 64)))) ∧
    (ready 0x07 → exec (.shr img cell ecc) s = .next (puts 1 (p.val / 2 ^ (q.val % 64)))) ∧
    (ready 0x08 → exec (.sar img cell ecc) s = .next (puts 1 (ux 64 (sx 64 p.val / (2 ^ (q.val % 64) : Nat))))) ∧
    (ready 0x09 → exec (.mul img cell ecc) s = .next (puts 3 (p.val * q.val))) ∧
    (ready 0x0A → exec (.mins img cell ecc) s = .next (puts 1 (if sx 64 p.val ≤ sx 64 q.val then p.val else q.val))) ∧
    (ready 0x0B → exec (.maxs img cell ecc) s = .next (puts 1 (if sx 64 p.val ≥ sx 64 q.val then p.val else q.val)))

/-- R225, R232–R235: the C slot's operations with an immediate, its loads of 16 bits, STSEL, and LOOP, JUMP, CNOP and STOP, which act on the order of
issue at the end of the cycle alone. Completes: stop, cnop, addi, andi, ori, ldi0, ldi1, ldi2, ldi3, loop, jump, stsel. -/
def Obligations.ScalarOtherSlots : Prop :=
  ∀ (s t : State) (img cell ecc : Nat) (x : Image) (r : Run) (c : Cell),
    let b := c.bundle c.base.seq.pc
    let w := slotC b
    let p := c.base.rs (bits w 16 5)
    let v := cellEnv t x r cell c []
    let ready (op : Nat) : Prop := SlotReady s img cell ecc [] 0 op x r t c
    let puts (val : Nat) : State := slotDone t img cell 0 (issue c.cur v 1 3 (.s (bits w 21 5) (ones 64)) (val % 2 ^ 64) false) []
    let part (n : Nat) : State :=
      slotDone t img cell 0 (issue c.cur v 1 3 (.s (bits w 21 5) (ones 16 * 2 ^ (16 * n))) (bits w 0 16 * 2 ^ (16 * n)) false) []
    (bEn b 0 = true → c.base.seq.rep = 0 → p.tag = false →
      (ready 0x10 → exec (.addi img cell ecc) s = .next (puts (p.val + ux 64 (sx 16 (bits w 0 16))))) ∧
      (ready 0x11 → exec (.andi img cell ecc) s = .next (puts (p.val &&& bits w 0 16))) ∧
      (ready 0x12 → exec (.ori img cell ecc) s = .next (puts (p.val ||| bits w 0 16)))) ∧
    (bEn b 0 = true → c.base.seq.rep = 0 →
      (ready 0x13 → exec (.ldi0 img cell ecc) s = .next (part 0)) ∧
      (ready 0x14 → exec (.ldi1 img cell ecc) s = .next (part 1)) ∧
      (ready 0x15 → exec (.ldi2 img cell ecc) s = .next (part 2)) ∧
      (ready 0x16 → exec (.ldi3 img cell ecc) s = .next (part 3)) ∧
      (ready 0x20 → loopOk c.base.seq b = true → exec (.loop img cell ecc) s = .next (slotDone t img cell 0 c.cur [])) ∧
      (ready 0x21 → jumpOk c.base.seq b (c.bundle (c.base.seq.pc + 1)) = true →
        exec (.jump img cell ecc) s = .next (slotDone t img cell 0 c.cur [])) ∧
      (ready 0x22 → exec (.stsel img cell ecc) s = .next (slotDone t img cell 0 (issue c.cur v 1 3 .set (bits w 0 4) false) []))) ∧
    (ready 0 → exec (.cnop img cell ecc) s = .next (slotDone t img cell 0 c.cur [])) ∧
    (SlotReady s img cell ecc [] 4 0 x r t c → exec (.stop img cell ecc) s = .next (slotDone t img cell 4 c.cur []))

/-- R236, R237: the M slot clears, reads and writes accumulators, and MMA adds its products to every element, saturating in the integer formats and
rounding one exact sum once in the others. Completes: mnop, mma, mclr, mrd, mwr. -/
def Obligations.MatrixSlots : Prop :=
  ∀ (s t : State) (img cell ecc : Nat) (x : Image) (r : Run) (c : Cell),
    let w := slotM (c.bundle c.base.seq.pc)
    let v := cellEnv t x r cell c []
    let a := bits w 24 3
    let p := c.base.rv (bits w 19 5)
    let row := 2 * ((bits w 15 4 + c.base.seq.rep) % 16)
    let ready (op : Nat) : Prop := SlotReady s img cell ecc [] 3 op x r t c
    let done (k : Machine.Core) : State := slotDone t img cell 3 k []
    (ready 0 → exec (.mnop img cell ecc) s = .next (done c.cur)) ∧
    (ready 2 → exec (.mclr img cell ecc) s = .next (done (accWrite c.cur v a accZero))) ∧
    (ready 3 → exec (.mrd img cell ecc) s =
      let y := (mget c.base.accSeen a).getD accZero
      .next (done (issue c.cur v 2 0 (.v (bits w 19 5) (ones 2048)) (ofLanes (fun i => y.at_ (row + i / 32) (i % 32))) y.tag))) ∧
    (ready 4 → exec (.mwr img cell ecc) s =
      let el := (List.range 1024).map (fun n => if n / 64 = row / 2 then laneOf p.val (n % 64) else (c.cur.ac a).at_ (n / 32) (n % 32))
      .next (done (accWrite c.cur v a ⟨some (w.testBit 1), el, (c.cur.ac a).tag || p.tag⟩))) ∧
    (ready 1 →
      let q := c.base.rv (bits w 11 5)
      let f := bits w 4 4
      let acc := if w.testBit 1 then accZero else c.cur.ac a
      let sa := bits p.val (256 * ((bits w 16 3 + v.n) % 8)) 256
      let sb := bits q.val (256 * ((bits w 8 3 + v.n) % 8)) 256
      let pairs (n : Nat) := mmaPairs f (bits w 2 2) (n / 32) (n % 32)
      p.tag = false → q.tag = false → acc.tag = false → (acc.kind = none ∨ acc.kind = some (!(intFmt f))) →
      (intFmt f = true → exec (.mma img cell ecc) s =
        let el := (List.range 1024).map (fun n => mmaIntEl f sa sb (acc.at_ (n / 32) (n % 32)) (pairs n))
        .next (done (count (accWrite c.cur v a ⟨some false, el.map (·.1), false⟩) c.base.sel (satCount (sumNat (el.map (·.2))))))) ∧
      (intFmt f = false → exec (.mma img cell ecc) s =
        let el := (List.range 1024).map (fun n => mmaF32El f sa sb (acc.at_ (n / 32) (n % 32)) (pairs n))
        .next (done (accWrite c.cur v a ⟨some true, el, false⟩))))

/-- R238: a lane operation reads its vector registers at the start of the issue cycle and writes, after its latency, the lanes of vd that its
predicate names. Completes: vnop, vadd, vsub, vmul, vfma, vfnma, vmin, vmax, viadd, visub, vimul, vand, vor, vxor, vshl, vshr. -/
def Obligations.LaneSlots : Prop :=
  ∀ (s t : State) (img cell ecc : Nat) (x : Image) (r : Run) (c : Cell),
    let w := slotV (c.bundle c.base.seq.pc)
    let p := c.base.rv (bits w 16 5)
    let q := c.base.rv (bits w 11 5)
    let z := c.base.rv (bits w 6 5)
    let m := c.base.rp (bits w 3 3)
    let ready (op : Nat) : Prop := SlotReady s img cell ecc [] 2 op x r t c
    let lanes (lat : Nat) (f : Nat → Nat → Nat → Nat) : State :=
      slotDone t img cell 2 (issue c.cur (cellEnv t x r cell c []) lat 1 (.v (bits w 21 5) (laneMask m.val))
        (ofLanes (fun i => f (laneOf p.val i) (laneOf q.val i) (laneOf z.val i))) false) []
    (ready 0 → exec (.vnop img cell ecc) s = .next (slotDone t img cell 2 c.cur [])) ∧
    (p.tag = false → q.tag = false → m.tag = false →
      (ready 0x01 → exec (.vadd img cell ecc) s = .next (lanes 4 (fun a b _ => f32Add a b % 2 ^ 32))) ∧
      (ready 0x02 → exec (.vsub img cell ecc) s = .next (lanes 4 (fun a b _ => f32Sub a b % 2 ^ 32))) ∧
      (ready 0x03 → exec (.vmul img cell ecc) s = .next (lanes 4 (fun a b _ => f32Mul a b % 2 ^ 32))) ∧
      (ready 0x06 → exec (.vmin img cell ecc) s = .next (lanes 2 (fun a b _ => f32Min a b % 2 ^ 32))) ∧
      (ready 0x07 → exec (.vmax img cell ecc) s = .next (lanes 2 (fun a b _ => f32Max a b % 2 ^ 32))) ∧
      (ready 0x10 → exec (.viadd img cell ecc) s = .next (lanes 2 (fun a b _ => (a + b) % 2 ^ 32))) ∧
      (ready 0x11 → exec (.visub img cell ecc) s = .next (lanes 2 (fun a b _ => (a + (2 ^ 32 - b)) % 2 ^ 32))) ∧
      (ready 0x12 → exec (.vimul img cell ecc) s = .next (lanes 4 (fun a b _ => a * b % 2 ^ 32))) ∧
      (ready 0x13 → exec (.vand img cell ecc) s = .next (lanes 2 (fun a b _ => (a &&& b) % 2 ^ 32))) ∧
      (ready 0x14 → exec (.vor img cell ecc) s = .next (lanes 2 (fun a b _ => (a ||| b) % 2 ^ 32))) ∧
      (ready 0x15 → exec (.vxor img cell ecc) s = .next (lanes 2 (fun a b _ => (a ^^^ b) % 2 ^ 32))) ∧
      (ready 0x16 → exec (.vshl img cell ecc) s = .next (lanes 2 (fun a b _ => a * 2 ^ (b % 32) % 2 ^ 32))) ∧
      (ready 0x17 → exec (.vshr img cell ecc) s =
        .next (lanes 2 (fun a b _ => (if w.testBit 0 then ux 32 (sx 32 a / (2 ^ (b % 32) : Nat)) else a / 2 ^ (b % 32)) % 2 ^ 32))) ∧
      (z.tag = false →
        (ready 0x04 → exec (.vfma img cell ecc) s = .next (lanes 4 f32Fma)) ∧
        (ready 0x05 → exec (.vfnma img cell ecc) s = .next (lanes 4 f32Fnma))))

/-- R238: comparisons into a predicate register, selection, broadcast, moves between the scalar, predicate and vector registers, and rotation. A
poisoned operand faults a comparison and poisons what the others write (R217). Completes: vcmp, vsel, vbc, vget, vput, vrot, pset, pget. -/
def Obligations.LaneMoveSlots : Prop :=
  ∀ (s t : State) (img cell ecc : Nat) (x : Image) (r : Run) (c : Cell),
    let w := slotV (c.bundle c.base.seq.pc)
    let p := c.base.rv (bits w 16 5)
    let q := c.base.rv (bits w 11 5)
    let sa := c.base.rs (bits w 16 5)
    let m := c.base.rp (bits w 3 3)
    let n := 2 * bits w 11 5 + w % 2
    let ready (op : Nat) : Prop := SlotReady s img cell ecc [] 2 op x r t c
    let puts (lat : Nat) (d : WTarget) (val : Nat) (tag : Bool) : State :=
      slotDone t img cell 2 (issue c.cur (cellEnv t x r cell c []) lat 1 d val tag) []
    (p.tag = false → q.tag = false → m.tag = false → ready 0x08 → exec (.vcmp img cell ecc) s =
      .next (puts 2 (.p (bits w 21 3) m.val) (maskOf 64 (fun i => vCond (bits w 0 3) (laneOf p.val i) (laneOf q.val i))) false)) ∧
    (ready 0x18 → exec (.vsel img cell ecc) s = .next (puts 2 (.v (bits w 21 5) (ones 2048))
      (ofLanes (fun i => if m.val.testBit i then laneOf p.val i else laneOf q.val i)) (p.tag || q.tag))) ∧
    (ready 0x19 → exec (.vbc img cell ecc) s =
      .next (puts 2 (.v (bits w 21 5) (laneMask m.val)) (ofLanes (fun _ => sa.val % 2 ^ 32)) sa.tag)) ∧
    (ready 0x1A → exec (.vget img cell ecc) s = .next (puts 2 (.s (bits w 21 5) (ones 64)) (laneOf p.val n) p.tag)) ∧
    (ready 0x1B → exec (.vput img cell ecc) s =
      .next (puts 2 (.v (bits w 21 5) (ones 32 * 2 ^ (32 * n))) ((sa.val % 2 ^ 32) * 2 ^ (32 * n)) sa.tag)) ∧
    (ready 0x1C → exec (.vrot img cell ecc) s =
      .next (puts 2 (.v (bits w 21 5) (laneMask m.val)) (ofLanes (fun i => laneOf p.val ((i + bits w 11 5) % 64))) p.tag)) ∧
    (ready 0x1D → exec (.pset img cell ecc) s = .next (puts 1 (.p (bits w 21 3) (ones 64)) sa.val sa.tag)) ∧
    (ready 0x1E → exec (.pget img cell ecc) s =
      let y := c.base.rp (bits w 16 3)
      .next (puts 1 (.s (bits w 21 5) (ones 64)) y.val y.tag))

/-- R239, R240, R242–R244: on operands that carry no poison, and with a zero point in the format's range (R75), VCVT converts 64 elements and fills
what a narrower destination leaves with a free value, VAMAX folds the lanes its predicate names into the selected set, VQENC encodes 64 lanes and
writes the block's side list and count beside them, VQDEC decodes a part with the escapes counted from the block's start, and VRSC rescales by
s[vc]; each counts what the rule says into the selected set. Completes: vcvt, vrsc, vamax, vqenc, vqdec. -/
def Obligations.FormatSlots : Prop :=
  ∀ (s t : State) (img cell ecc : Nat) (x : Image) (r : Run) (c : Cell),
    let w := slotV (c.bundle c.base.seq.pc)
    let v := cellEnv t x r cell c []
    let p := c.base.rv (bits w 16 5)
    let q := c.base.rv (bits w 11 5)
    let z := c.base.rs (bits w 6 5)
    let m := c.base.rp (bits w 3 3)
    let ready (op : Nat) : Prop := SlotReady s img cell ecc [] 2 op x r t c
    let part := bits w 0 3
    let done (k : Machine.Core) (st : TStat) : State := slotDone t img cell 2 (count k c.base.sel st) []
    p.tag = false → m.tag = false →
    (ready 0x20 → exec (.vcvt img cell ecc) s =
      let src := bits w 11 5
      let dst := bits w 6 4
      let ws := cvtBits src
      let wd := cvtBits dst
      let el (i : Nat) := bits p.val ((if ws < wd then 64 * ws * part else 0) + ws * i) ws
      let cs := (List.range 64).map (fun i => convTo dst (w.testBit 10) (if src = 0 then intVal (sx 32 (el i)) else elemVal src (el i)))
      let off := if ws ≤ wd then 0 else 64 * wd * part
      let out := packBits wd (cs.map (·.code))
      let val := if ws < wd then out + (v.fv % 2 ^ (2048 - 64 * wd)) * 2 ^ (64 * wd) else out * 2 ^ off
      let dst := if ws < wd then ones 2048 else ones (64 * wd) * 2 ^ off
      .next (done (issue c.cur v 4 1 (.v (bits w 21 5) (dst &&& laneMask m.val)) val false)
        (convCount (((List.range 64).filter (elOn m.val off wd)).map (fun i => cs.getD i { code := 0 }))))) ∧
    (ready 0x25 → exec (.vamax img cell ecc) s =
      let fold (a : TStat) (i : Nat) : TStat := a.join (match f32 (laneOf p.val i) with
        | .nan => { tstatZero with nan := 1 }
        | .inf _ => { tstatZero with inf := 1 }
        | .fin .. => { tstatZero with amax := laneOf p.val i % 2 ^ 31 })
      .next (slotDone t img cell 2 (count c.cur c.base.sel ((setBitsOf 64 m.val).foldl fold tstatZero)) [])) ∧
    (q.tag = false →
      let code := bits w 6 5
      let scale := sideScale q.val
      let zero := sideZero q.val
      let block := part / 4
      (zeroOk code zero = true →
        (ready 0x26 → exec (.vqenc img cell ecc) s =
          let wd := fmtBits code
          let none0 : Enc := ⟨[], if part % 4 = 0 then List.replicate 8 0 else sideList q.val block,
            if part % 4 = 0 then 0 else bits q.val (296 + 4 * block) 4, tstatZero⟩
          let e := (List.range 64).foldl (fun e i =>
            if elOn m.val (64 * wd * part) wd i then encStep code (sideFmt q.val) scale zero v.fv e (f32 (laneOf p.val i))
            else { e with codes := e.codes ++ [0] }) none0
          let k := issue c.cur v 4 1 (.v (bits w 21 5) ((ones (64 * wd) * 2 ^ (64 * wd * part)) &&& laneMask m.val))
            (packBits wd e.codes * 2 ^ (64 * wd * part)) false
          .next (done (issue k v 4 1 (.v (bits w 11 5) (ones 128 * 2 ^ (128 * block) + 15 * 2 ^ (296 + 4 * block)))
            (packBits 16 e.side * 2 ^ (128 * block) + e.used * 2 ^ (296 + 4 * block)) false) e.t)) ∧
        (ready 0x27 → exec (.vqdec img cell ecc) s =
          let cs := blockCodes code p.val block
          let before := ((cs.take (64 * (part % 4))).filter (fun c => c = qiEscape code)).length
          let d := qiDecode code scale zero (sideVals q.val block) ((cs.drop (64 * (part % 4))).take 64) before
          .next (done (issue c.cur v 4 1 (.v (bits w 21 5) (laneMask m.val)) (ofLanes (fun i => toF32 (d.1.getD i (.fin false 0 0)))) false)
            { tstatZero with esc := d.2 }))) ∧
      (let four := z.val.testBit 17
       let qi := z.val.testBit 16
       let code := if four then (if qi then 10 else 8) else (if qi then 9 else 7)
       let zero := sx 8 (bits z.val 8 8)
       ready 0x22 → z.tag = false → bits z.val 18 46 = 0 → bits z.val 6 2 = 0 → (four = true ∨ part < 4) → zeroOk code zero = true →
        exec (.vrsc img cell ecc) s =
          let wd := if four then 4 else 8
          let rs := (List.range 64).map (fun i => rescale code (sx 32 (laneOf p.val i)) (sx 32 (laneOf q.val i)) (bits z.val 0 6) zero)
          let sats := ((List.range 64).filter (elOn m.val (64 * wd * part) wd)).map (fun i => (rs.getD i (0, 0)).2)
          .next (done (issue c.cur v 4 1 (.v (bits w 21 5) ((ones (64 * wd) * 2 ^ (64 * wd * part)) &&& laneMask m.val))
            (packBits wd (rs.map (fun r => ux wd r.1)) * 2 ^ (64 * wd * part)) false) (satCount (sumNat sats)))))

/-- R245–R249: XCLR clears an exact accumulator and fixes the form of its lanes; where a lane has the form that the instruction names, or none that
XCLR fixed (log 22), XDOT, XSUM, XSQD and XDOTQ add exactly the terms that the predicate names, poison setting the lane's POISON state, XRND
rounds once into a scalar, XGET copies the accumulator out and XADD adds a copy. Completes: xclr, xdot, xsum, xsqd, xdotqQi8, xdotqQi4, xrnd,
xget, xadd. -/
def Obligations.ExactSlots : Prop :=
  ∀ (s t : State) (img cell ecc : Nat) (x : Image) (r : Run) (c : Cell),
    let w := slotV (c.bundle c.base.seq.pc)
    let v := cellEnv t x r cell c []
    let p := c.base.rv (bits w 16 5)
    let q := c.base.rv (bits w 11 5)
    let sd := c.base.rv (bits w 21 5)
    let sa := c.base.rs (bits w 16 5)
    let m := c.base.rp (bits w 0 3)
    let wd := if xWide w then 640 else 128
    let seen := asForm ((mget c.base.lanesSeen (xLane w)).getD (exactZero (xWide w))) (xWide w)
    let chain := asForm ((mget c.cur.lanes (xLane w)).getD (exactZero (xWide w))) (xWide w)
    let ps := vElems (xFmt w) p.val
    let qs := vElems (xFmt w) q.val
    let both (f : FVal → FVal → FVal) := (ps.zip qs).map (fun e => (e.1.1, f e.1.2 e.2.2))
    let ready (op : Nat) : Prop := SlotReady s img cell ecc [] 2 op x r t c
    let done (k : Machine.Core) : State := slotDone t img cell 2 k []
    let gains (pois : Bool) (ts : List (Nat × FVal)) : Machine.Core :=
      let y := ts.foldl (fun y e => if m.val.testBit e.1 then exactAdd y e.2 pois else y) chain
      xPut c.cur v w { y with poison := y.poison || pois }
    let adds (pois : Bool) (ts : List (Nat × FVal)) : State := done (gains pois ts)
    (ready 0x30 → exec (.xclr img cell ecc) s = .next (done (xPut (fixForm c.cur w) v w (exactZero (xWide w))))) ∧
    (formOk c.cur w = true →
      (ready 0x31 → exec (.xdot img cell ecc) s = .next (adds (p.tag || q.tag || m.tag) (both mulV))) ∧
      (ready 0x32 → exec (.xsum img cell ecc) s = .next (adds (p.tag || m.tag) ps)) ∧
      (ready 0x33 → exec (.xsqd img cell ecc) s = .next (adds (p.tag || q.tag || m.tag) (both sqDiff))) ∧
      (ready 0x39 → exec (.xget img cell ecc) s =
        .next (done (issue c.cur v 2 1 (.v (bits w 21 5) (ones 2048)) (ux wd seen.a + stateBits seen * 2 ^ wd) seen.poison))) ∧
      (ready 0x38 → (bits w 0 3 = 1 → 1 ≤ sa.val ∧ sa.val ≤ 2 ^ 40) → exec (.xrnd img cell ecc) s =
        let y := if bits w 0 3 = 0 then exactRound seen (rndFmt (xFmt w))
                 else if bits w 0 3 = 1 then exactRoundDiv seen sa.val (rndFmt (xFmt w))
                 else exactRoundScale seen (f32 (sa.val % 2 ^ 32)) (rndFmt (xFmt w))
        let k := issue c.cur v 8 1 (.s (bits w 21 5) (ones 64)) y.code (seen.poison || (bits w 0 3 != 0 && sa.tag))
        .next (done (count k c.base.sel (satCount y.sat)))) ∧
      (ready 0x3A → p.val / 2 ^ (wd + 128) = 0 → bits (bits p.val wd 128) 45 19 = 0 → bits (bits p.val wd 128) 96 32 = 0 →
        exec (.xadd img cell ecc) s =
          let st := bits p.val wd 128
          let n := chain.terms + bits st 0 41
          let fits : Bool := n ≤ 2 ^ 40
          .next (done (xPut c.cur v w { chain with
            a := if fits then sx wd (ux wd (chain.a + sx wd (bits p.val 0 wd))) else chain.a, terms := if fits then n else chain.terms,
            nan := satTo 32 (chain.nan + bits st 64 32), infPos := chain.infPos || st.testBit 41, infNeg := chain.infNeg || st.testBit 42,
            ovf := chain.ovf || st.testBit 43 || !fits, poison := chain.poison || st.testBit 44 || p.tag }))) ∧
      (scaleOk sd.val = true → (xWide w = true ∨ sd.val.testBit 304 = false) →
        let dec (code blocks : Nat) := (List.range blocks).map (fun b =>
          qiDecode code (sideScale sd.val) (sideZero sd.val) (sideVals sd.val b) (blockCodes code p.val b) 0)
        let dots (ds : List (List FVal × Nat)) : State :=
          done (count (gains (p.tag || q.tag || sd.tag || m.tag) (((ds.flatMap (·.1)).zip qs).map (fun e => (e.2.1, mulV e.1 e.2.2))))
            c.base.sel { tstatZero with esc := sumNat (ds.map (·.2)) })
        (ready 0x34 → zeroOk 9 (sideZero sd.val) = true → exec (.xdotqQi8 img cell ecc) s = .next (dots (dec 9 1))) ∧
        (ready 0x35 → zeroOk 10 (sideZero sd.val) = true → exec (.xdotqQi4 img cell ecc) s = .next (dots (dec 10 2)))))

/-- R200, R207, R250–R252: loads and stores between registers and the cell's SRAM, windows taken from and handed back to the Ring, and flits sent to
and taken from the mesh links. Completes: xnop, wrel, wgive, vlda, vsta, vld, vst, sld, sst, send, recv. -/
def Obligations.MemorySlots : Prop :=
  ∀ (s t : State) (img cell ecc : Nat) (ups : List (Nat × Nat)) (x : Image) (r : Run) (c : Cell),
    let w := slotX (c.bundle c.base.seq.pc)
    let v := cellEnv t x r cell c ups
    let n := c.base.seq.rep
    let reg := bits w 16 5 + n
    let fixed := 256 * (bits w 0 11 + n)
    let based := (vAddr c.base w).1
    let after (k : Machine.Core) : Machine.Core := bump1 k v w (vAddr c.base w).2
    let readyU (u : List (Nat × Nat)) (op : Nat) : Prop := SlotReady s img cell ecc u 1 op x r t c
    let done (k : Machine.Core) (hits : List (Nat × Nat)) : State := slotDone t img cell 1 k hits
    let line (a : Nat) := sramRead (upset c.base (a / 16) ups) (a / 16) 16
    let loaded (a : Nat) : Machine.Core :=
      issue (upset c.cur (a / 16) ups) v 3 2 (.v (reg % 32) (ones 2048)) (ofBytes (line a).bytes) (line a).bad
    let stored (a : Nat) : Machine.Core :=
      putWords c.cur (a / 16) (toBytes 256 (c.base.rv (reg % 32)).val) (fun _ => (c.base.rv (reg % 32)).tag)
    (readyU [] 0 → exec (.xnop img cell ecc) s = .next (done c.cur [])) ∧
    (readyU ups 3 → lineFault c.base fixed = none → exec (.vlda img cell ecc ups) s = .next (done (loaded fixed) (line fixed).hits)) ∧
    (readyU [] 4 → lineFault c.base fixed = none → exec (.vsta img cell ecc) s = .next (done (stored fixed) [])) ∧
    ((c.base.rs (bits w 11 5)).tag = false → lineFault c.base based = none →
      (readyU ups 5 → exec (.vld img cell ecc ups) s = .next (done (after (loaded based)) (line based).hits)) ∧
      (readyU [] 6 → exec (.vst img cell ecc) s =
        .next (done (bump1 (stored based) (cellEnv t x r cell c []) w (vAddr c.base w).2) []))) ∧
    (let a := ((c.base.rs (bits w 10 5)).val + ux 64 (8 * sx 10 (bits w 0 10))) % 2 ^ 64
     let sr := (bits w 15 5 + n) % 32
     (c.base.rs (bits w 10 5)).tag = false → a ≤ sramTop → a % 8 = 0 → ringOwned c.base.wins (a / 256) = false →
      (readyU ups 7 → exec (.sld img cell ecc ups) s =
        let y := sramRead (upset c.base (a / 16) ups) (a / 16) 1
        .next (done (issue (upset c.cur (a / 16) ups) v 3 2 (.s sr (ones 64)) (getLE y.bytes (a % 16) 8) y.bad) y.hits)) ∧
      (readyU [] 8 → exec (.sst img cell ecc) s =
        let o := c.cur.word (a / 16)
        let y := c.base.rs sr
        .next (done (c.cur.setWord (a / 16) ⟨putLE o.data (a % 16) 8 y.val, y.tag || decide (o.cls ≥ 2), 0⟩)
          (if o.hit = 0 then [] else [(a / 16, rmwHit + o.hit)])))) ∧
    (let win := c.base.win (bits w 0 2)
     win.dir ≠ 0xFF →
      (readyU [] 1 → win.own = false → (if win.dir = 0 then win.xfer else win.xfer - 1) < xferCount x.staging cell (bits w 0 2) →
        (∃ f, win.ready = some f ∧ f + 8 ≤ issueFelt r x.cyc) →
        exec (.wrel img cell ecc) s = .next (done (c.cur.setWin (bits w 0 2) (fun y => { y with own := true })) [])) ∧
      (readyU [] 2 → win.own = true → (win.dir = 1 → win.xfer < xferCount x.staging cell (bits w 0 2)) →
        exec (.wgive img cell ecc) s =
          let k := c.cur.setWin (bits w 0 2) (fun y => { y with own := false, xfer := y.xfer + 1, ready := none })
          .next (done { k with gave := k.gave ++ [bits w 0 2] } []))) ∧
    (let on := (c.base.rp (bits w 7 3)).val.testBit 0
     let q := bits w 14 2 + n
     (readyU [] 9 → exec (.send img cell ecc) s =
        let y := c.base.rv ((bits w 16 5 + q / 4) % 32)
        .next (done { c.cur with send := some ⟨bits w 10 4, if on then bits y.val (512 * (q % 4)) 512 else 0, on && y.tag⟩ } [])) ∧
      (readyU [] 10 → on = false → exec (.recv img cell ecc) s = .next (done c.cur [])) ∧
      (∀ f, readyU [] 10 → on = true → x.flits.find? (fun f => f.at_ = x.cyc && f.cell = cell && f.dir = bits w 12 2) = some f →
        exec (.recv img cell ecc) s = .next (done (issue c.cur (cellEnv t x r cell c []) 1 2
          (.v ((bits w 16 5 + q / 4) % 32) (ones 512 * 2 ^ (512 * (q % 4)))) (f.val * 2 ^ (512 * (q % 4))) f.tag) [])))

/-- R218, R219, R224, R225, R232–R234, R238, R250: a slot whose operand carries poison, where the slot's rule faults on it, makes the cell fault
(shown for ADD, VADD and SLD): the cell falls back to what it held when the cycle began, so the bundle has no effect in any slot, and issues no
more. Where a cell that has not stopped goes at the end of an issue cycle. -/
def Obligations.CellFaultsAndOrder : Prop :=
  ((∀ (u : State) (img cell : Nat) (x : Image) (r : Run) (c : Cell) (fs : List (Nat × Option Nat)),
    imageOf u img = some x → x.run = some r → mget x.cells cell = some c →
    ∃ y k, imageOf (cellFault u img cell fs) img = some y ∧ mget y.cells cell = some k ∧
      k = { c with cur := c.base, acted := [], faulted := true } ∧ ∀ n, n ≠ cell → mget y.cells n = mget x.cells n) ∧
  ∀ (s t t0 : State) (img cell ecc slot : Nat) (x : Image) (r : Run) (c0 c : Cell),
    let b := c.bundle c.base.seq.pc
    let fs := bundleFaults (cellEnv t x r cell c []) c
    imageOf s img = some x → x.run = some r → r.inStep = true → x.freeze = none → mget x.cells cell = some c0 →
    c0.base.seq.stopped = false → c0.faulted = false → readCode s img cell ecc c0 = (t0, c) → t = { t0 with fresh := t0.fresh + 1 } →
    (neededSlots b c.base.seq.rep).contains slot = true → c.acted.contains slot = false → dueWrels t x r = [] →
    c.base.seq.pc ≤ 4095 → (mget c.codeErr c.base.seq.pc).getD 0 < beyond → bundleLegal b = true →
    (slot = 0 → slotOp 0 b c.base.seq.rep = 1 → (c.base.rs (bits (slotC b) 16 5)).tag = true →
      (fPoison, some 0) ∈ fs ∧ exec (.add img cell ecc) s = .next (endCycle (cellFault t img cell fs) img)) ∧
    (slot = 2 → slotOp 2 b c.base.seq.rep = 1 → (c.base.rv (bits (slotV b) 16 5)).tag = true →
      (fPoison, some 2) ∈ fs ∧ exec (.vadd img cell ecc) s = .next (endCycle (cellFault t img cell fs) img)) ∧
    (slot = 1 → slotOp 1 b c.base.seq.rep = 7 → (c.base.rs (bits (slotX b) 10 5)).tag = true →
      (fPoison, some 1) ∈ fs ∧ exec (.sld img cell ecc []) s = .next (endCycle (cellFault t img cell fs) img))) ∧
  (∀ (c : Cell) (cyc : Nat),
    let q := c.cur.seq
    let b := c.bundle q.pc
    let next := (c.step cyc).base.seq
    c.faulted = false → q.stopped = false →
    (isLoop b = false → q.rep < bRepeat b → next = { q with rep := q.rep + 1 }) ∧
    (isLoop b = false → bRepeat b ≤ q.rep →
      (bStop b = true → next = { q with rep := 0, stopped := true }) ∧
      (bStop b = false →
        (∀ d, q.jump = some d → next = { q with pc := d, rep := 0, jump := none }) ∧
        (q.jump = none → isJump b = true → next = { q with pc := q.pc + 1, rep := 0, jump := some (bits (slotC b) 0 12) }) ∧
        (q.jump = none → isJump b = false →
          (q.loops = [] → next = { q with pc := q.pc + 1, rep := 0 }) ∧
          (∀ l ls, q.loops = l :: ls →
            (l.last ≠ q.pc → next = { q with pc := q.pc + 1, rep := 0 }) ∧
            (l.last = q.pc → 0 < l.left → next = { q with pc := l.first, rep := 0, loops := { l with left := l.left - 1 } :: ls }))))) ∧
    (isLoop b = true → q.rep = 0 → bRepeat b = 0 → bStop b = false → q.jump = none → 0 < bits (slotC b) 0 12 →
      next = { q with pc := q.pc + 1, rep := 0,
                      loops := ⟨q.pc + 1, q.pc + bits (slotC b) 0 12, bits (slotC b) 12 14 - 1⟩ :: q.loops }))

/-- R285, R287, R289, R291: the kettle micro-ops that work on registers, address registers and masks alone: each leaves its one destination as the
rule computes it, a poisoned half of an operand poisoning the result's half or giving mask bits of 0, takes parameters from the command area, and
goes to the next micro-op; no stream word is read. Completes: knop, ldi, ldc, ald, aadd, cmp, tst, mand, mor, mnot, iadd, iadds, widen, gsum. -/
def Obligations.KettleRegisterOps : Prop :=
  ∀ (s : State) (site kettle : Nat) (j : KJob) (x : Kettle) (prog : List Nat) (w : Nat),
    let a := x.kr (kA w)
    let b := x.kr (kB w)
    let n := laneW (kW w)
    let ready (op : Nat) : Prop := OpReady s site kettle op j x prog w
    let goes (y : Kettle) : State := opDone s site kettle j x (kNext (y.cws.drop 7) y w) (ksiteOf s site).scratch 0 []
    let imm := if kMod w % 2 = 1 then ux 64 (sx 32 (kImm w)) else kImm w
    (ready 0x00 → exec (.knop site kettle) s = .next (goes x)) ∧
    (ready 0x03 → exec (.ldi site kettle) s = .next (goes (x.wk (kD w) ⟨kLanes (kW w) (fun _ => imm % 2 ^ n), false, false⟩))) ∧
    (ready 0x04 → exec (.ldc site kettle) s =
      .next (goes (x.wk (kD w) ⟨kLanes (kW w) (fun _ => x.cw (9 + kImm w) % 2 ^ n), false, false⟩))) ∧
    (ready 0x05 → exec (.ald site kettle) s = .next (goes { x with a := mput x.a (kD w) (x.cw (9 + kImm w) % 2 ^ 32) })) ∧
    (ready 0x06 → exec (.aadd site kettle) s = .next (goes { x with a := mput x.a (kD w) ((x.ar (kA w) + kImm w) % 2 ^ 32) })) ∧
    (ready 0x08 → exec (.cmp site kettle) s =
      .next (goes { x with m := mput x.m (kD w) (kMask (kW w) a b (kCond (kMod w % 8) (kMod w / 8 = 1) n)) })) ∧
    (ready 0x09 → exec (.tst site kettle) s = .next (goes { x with m := mput x.m (kD w) (kMask (kW w) a b (kTest (kMod w))) })) ∧
    (ready 0x0A → exec (.mand site kettle) s = .next (goes { x with m := mput x.m (kD w) (x.mr (kA w) &&& x.mr (kB w)) })) ∧
    (ready 0x0B → exec (.mor site kettle) s = .next (goes { x with m := mput x.m (kD w) (x.mr (kA w) ||| x.mr (kB w)) })) ∧
    (ready 0x0C → exec (.mnot site kettle) s = .next (goes { x with m := mput x.m (kD w) (2 ^ 32 - 1 - x.mr (kA w) % 2 ^ 32) })) ∧
    (ready 0x10 → exec (.iadd site kettle) s = .next (goes (x.wk (kD w)
      ⟨kLanes (kW w) (fun i => (kLane a.val (kW w) i + kLane b.val (kW w) i) % 2 ^ n), a.t0 || b.t0, a.t1 || b.t1⟩))) ∧
    (ready 0x11 → exec (.iadds site kettle) s =
      let f (p q : Nat) := clampI (-(2 ^ (n - 1) : Nat), (2 ^ (n - 1) : Nat) - 1) (sx n p + sx n q)
      let sat := sumNat ((List.range (laneN (kW w))).map (fun i => (f (kLane a.val (kW w) i) (kLane b.val (kW w) i)).2))
      .next (goes { x with
        k := mput x.k (kD w) ⟨kLanes (kW w) (fun i => ux n (f (kLane a.val (kW w) i) (kLane b.val (kW w) i)).1), a.t0 || b.t0, a.t1 || b.t1⟩,
        cw1 := setBits x.cw1 56 8 (satTo 8 (bits x.cw1 56 8 + sat)) })) ∧
    (ready 0x12 → exec (.widen site kettle) s =
      let h := kMod w % 2
      let ext (v : Nat) := if kMod w / 2 = 1 then ux (2 * n) (sx n v) else v
      let t := if h = 0 then a.t0 else a.t1
      .next (goes (x.wk (kD w) ⟨kLanes (kW w + 1) (fun i => ext (kLane a.val (kW w) (laneN (kW w) / 2 * h + i))), t, t⟩))) ∧
    (ready 0x19 → exec (.gsum site kettle) s =
      let g := 2 ^ kMod w
      let live (i : Nat) : Bool := decide (g * (i + 1) ≤ 16)
      let sum (i : Nat) := if live i then sumNat ((List.range g).map (fun l => kLane a.val 1 (g * i + l))) else 0
      let bad (i : Nat) : Bool := live i && (List.range g).any (fun l => kBadLane a 1 (g * i + l))
      .next (goes (x.wk (kD w) ⟨kLanes 2 sum, (List.range 4).any bad, (List.range 4).any (fun i => bad (i + 4))⟩)))

/-- R277, R285, R286, R289–R292, R309: the kettle micro-ops that read a stream, use the lookup table or append to OUTPUT and PMAP in scratch, and
those that end a part or begin a loop. A stream word read is counted and its poisoned words are consumed. One whose area, stream, table or count
is not there faults, which ends the part with RESULT 2 and the micro-op's number (R290). Completes: lds, sto, tlu, bits, filt, emit, kettleLoop,
kettleEnd. -/
def Obligations.KettleStreamOps : Prop :=
  ∀ (s : State) (site kettle : Nat) (j : KJob) (x : Kettle) (prog : List Nat) (w : Nat),
    let e := opEnv s site j prog
    let r := opRun s site x
    let ready (op : Nat) : Prop := OpReady s site kettle op j x prog w
    let goes (y : KRun) (words : Nat) (bad : List Nat) : State :=
      opDone s site kettle j x (kNext (y.x.cws.drop 7) y.x w) y.sc words bad
    let stops (y : Kettle) : State := opDone s site kettle j x y (ksiteOf s site).scratch 0 []
    let faults : State := stops { x with cw1 := setBit (setBits (setBits x.cw1 1 3 2) 4 8 x.pc) 0 true, running := false }
    let outFits := bits (x.cw 6) 0 14 + bits (x.cw 6) 14 14 ≤ 16384
    let mapFits := bits (x.cw 7) 0 14 + bits (x.cw 7) 14 14 ≤ 16384
    let d := x.kr (kD w)
    let lane (m : Nat) := m % 2 ^ laneN (kW w)
    (∀ v bad, ready 0x01 → kStream s e r (kA w) = some (v, bad) →
      exec (.lds site kettle) s = .next (goes { r with x := (kTake x (kA w) v).wk (kD w) v } 1 bad)) ∧
    (ready 0x01 → kStream s e r (kA w) = none → exec (.lds site kettle) s = .next faults) ∧
    (ready 0x02 → outFits → exec (.sto site kettle) s =
      .next (goes (kAppend e r 256 d.val ((if d.t0 then [0] else []) ++ (if d.t1 then [1] else []))) 0 [])) ∧
    (ready 0x02 → ¬ outFits → exec (.sto site kettle) s = .next faults) ∧
    (ready 0x18 → j.lut.length ≠ 0 → bits (x.cw 8) 0 14 + ceilDiv (2 * j.lut.length) 32 ≤ 16384 → exec (.tlu site kettle) s =
      let src := x.kr (kA w)
      let m := bits (x.cw 8) 14 8 + 1
      let v := kLanes 1 (fun i => lutAt e r ((x.ar (kA w) + 16 * kMod w + i) % m) (kLane src.val 0 (16 * kMod w + i)))
      let t := if kMod w = 0 then src.t0 else src.t1
      .next (goes { r with x := x.wk (kD w) ⟨v, t, t⟩ } 0 [])) ∧
    (ready 0x18 → j.lut.length = 0 → exec (.tlu site kettle) s = .next faults) ∧
    (ready 0x1C → outFits → mapFits → exec (.bits site kettle) s =
      .next (goes (kAppendMap e (kAppend e r (laneN (kW w)) (lane (x.mr (kA w))) []) x.lastT) 0 [])) ∧
    (∀ v bad, ready 0x1D → kStream s e r (kA w) = some (v, bad) → outFits → mapFits → exec (.filt site kettle) s =
      let b := x.kr (kB w)
      let m := if kMod w ≤ 5 then kMask (kW w) v b (kCond (kMod w) (kD w % 2 = 1) (laneW (kW w))) else kMask (kW w) v b (kTest (kMod w - 6))
      .next (goes (kAppendMap e (kAppend e { r with x := kTake x (kA w) v } (laneN (kW w)) (lane m) []) [v.t0, v.t1]) 1 bad)) ∧
    (ready 0x1D → kStream s e r (kA w) = none → exec (.filt site kettle) s = .next faults) ∧
    (ready 0x1E → outFits → exec (.emit site kettle) s =
      let ls := (List.range 8).filter (fun i => (x.mr (kA w)).testBit i && !(kBadLane d 2 i))
      .next (goes (ls.foldl (fun y i => kAppend e y 64
        (y.x.lastP % 2 ^ 24 + (kImm w + i) % 256 * 2 ^ 24 + kLane d.val 2 i * 2 ^ 32) []) r) 0 [])) ∧
    (let count := kCount w (x.cws.drop 7)
     (ready 0x20 → 0 < count → count ≤ 2 ^ 24 → exec (.kettleLoop site kettle) s =
       .next (stops { x with pc := x.pc + 1, loops := ⟨x.pc + 1, x.pc + kLen w, count - 1⟩ :: x.loops })) ∧
     (ready 0x20 → count = 0 ∨ 2 ^ 24 < count → exec (.kettleLoop site kettle) s = .next faults)) ∧
    (ready 0x3F → exec (.kettleEnd site kettle) s = .next (stops { x with cw1 := setBit x.cw1 0 true, running := false }))

/-- R282–R285, R289, R294–R298: a kettle job is queued where its site may run it, and answered at once where it may not; it starts in the mode that
its site can give it, with scratch of undefined contents, its parts start on free kettles, an ended window ends what still runs and what has not
begun and counts each part as timed out, a job that has nothing left completes with its worst part's status, a part that runs too long is
abandoned, and a parity error leaves the pseudo-channel in direct mode. Completes: kettleJob, kettleJobStart, kettlePoll, fullWindowEnd,
kettleJobComplete, kettleOpTimeout, kettleParityError. -/
def Obligations.KettleJobs : Prop :=
  ∀ (s : State) (site : Nat),
    (∀ req prog lists lut lutM params outUnits pmapUnits, ringUp s = true →
      let x := ksiteOf s site
      let c : Instr := .kettleJob site req prog lists lut lutM params outUnits pmapUnits
      (isKettleSite s.part site = false ∨ kAllFenced s site = true ∨ kMode s site = 0 ∨ s.fw.fencedSites.testBit site = true
        ∨ s.fw.draining = some site → exec c s = .next (kAnswer s site req x.nextJob .fenced none)) ∧
      (isKettleSite s.part site = true → kAllFenced s site = false → kMode s site ≠ 0 → s.fw.fencedSites.testBit site = false →
        s.fw.draining ≠ some site →
        (64 ≤ x.jobs.length →
          exec c s = .next (kAnswer (bump s (Reg.ktlJobsRefused.ix (site - 4))) site req x.nextJob .tableFull none)) ∧
        (x.jobs.length < 64 → kProgram s site prog = none → exec c s = .next (kAnswer s site req x.nextJob .malformed none)) ∧
        (∀ p, x.jobs.length < 64 → kProgram s site prog = some p →
          let j : KJob := ⟨x.nextJob, req, prog, (lists.take 4).map (fun l => l.map (· % 2 ^ 20)), lut, lutM % 256,
            (params.take 23).map (· % 2 ^ 64), outUnits, pmapUnits, false, false, List.range 128, [], [], []⟩
          exec c s = .next (setKsite s site { x with jobs := x.jobs ++ [j], nextJob := x.nextJob + 1 })))) ∧
    (∀ j rest, (ksiteOf s site).jobs = j :: rest → ringUp s = true → kJobOn (ksiteOf s site) = none → flagF s Reg.rstPowerCapped = false →
      let begun (t : State) (full : Bool) : State := kStartParts (setKsite t site
        { modJob (ksiteOf t site) j.id (fun j => { j with started := true, full := full }) with window := full, scratch := [] }) site j.id
      (kMode s site = 0 → exec (.kettleJobStart site) s =
        .next (setKsite s site (modJob (ksiteOf s site) j.id (fun j => { j with started := true, todo := [], codes := [5] })))) ∧
      (kMode s site = 1 ∨ kMode s site = 2 ∧ windowOwners s site = [] → exec (.kettleJobStart site) s = .next (begun s false)) ∧
      (kMode s site = 2 → windowOwners s site ≠ [] → kFits s site j = true → exec (.kettleJobStart site) s = .next (begun s true)) ∧
      (kMode s site = 2 → windowOwners s site ≠ [] → kFits s site j = false →
        exec (.kettleJobStart site) s = .next (begun (bump s (Reg.ktlSharedDemoted.ix (site - 4))) false))) ∧
    (∀ j, kJobOn (ksiteOf s site) = some j →
      exec (.kettlePoll site) s = .next (kStartParts (kReap s site j (fun y => !j.full || y.direct)) site j.id) ∧
      (j.full = true → (ksiteOf s site).window = true →
        let t := kReap s site j (fun y => !y.direct)
        (kJobOn (ksiteOf t site) = none → exec (.fullWindowEnd site) s = .next t) ∧
        (∀ k, kJobOn (ksiteOf t site) = some k →
          let t := (k.active.filter (fun a => (mget (ksiteOf t site).kettles a.1).any (fun y => !y.direct))).foldl
            (fun s a => kAbandon s site j.id a.1) t
          let left := k.todo.filter (kWindowed t site k)
          let t := left.foldl (fun s o => match kRunner s site o with | some r => kLate s site r | none => s) t
          exec (.fullWindowEnd site) s = .next (modKsite t site (fun x => modJob { x with window := false } j.id (fun y =>
            { y with todo := y.todo.filter (fun o => !(left.contains o)),
                     codes := y.codes ++ left.map (fun o => if (kRunner t site o).isSome then 4 else 5) }))))) ∧
      (j.full = false ∨ (ksiteOf s site).window = false → exec (.fullWindowEnd site) s = .next s) ∧
      (j.todo = [] → j.active = [] → (ksiteOf s site).window = false → exec (.kettleJobComplete site) s =
        let st := kStatus j.codes
        let t := bump (modKsite s site (fun x => { x with jobs := x.jobs.filter (fun k => k.id != j.id) })) (Reg.ktlJobsDone.ix (site - 4))
        let t := if st = .tableFull then bump t (Reg.ktlJobsRefused.ix (site - 4)) else t
        .next (kAnswer t site j.req j.id st (some j))) ∧
      (∀ r y, mget (ksiteOf s site).kettles r = some y → (j.full = false ∨ y.direct = true) → y.running = true →
        exec (.kettleOpTimeout site r) s =
          if y.expiry ≤ tickOf s then .next (kStartParts (kAbandon s site j.id r) site j.id) else .next s)) ∧
    (∀ pc, isKettleSite s.part site = true → pc < 32 → exec (.kettleParityError site pc) s =
      .next (modKsite s site (fun x => { x with pcdir := setBit x.pcdir pc true })))

/-- R127, R426: a SEARCH whose shape, windows and query buffer are good gets a coordinator and starts every shard that it names; one of an unknown
index ends MALFORMED and one of another tenant's ACCESS_DENIED. Completes: search. -/
def Obligations.SearchDescriptor : Prop :=
  ∀ (s : State) (id : Nat) (w : Work), WorkReady s id 1 w →
    let par := searchPar w
    let qb := w.f 40 8
    let res := w.f 48 8
    (mget s.srch.indexes (w.f 8 2) = none → exec (.search id) s = .next (complete s w .malformed)) ∧
    (∀ r, mget s.srch.indexes (w.f 8 2) = some r → ixTenant r ≠ w.tenant → exec (.search id) s = .next (complete s w .accessDenied)) ∧
    (∀ r t u v hd bd qd, mget s.srch.indexes (w.f 8 2) = some r → ixTenant r = w.tenant →
      inWindow s w.tenant qb 16 = true → inWindow s w.tenant res (w.f 56 4) = true → parOk par = true → w.f 36 1 < 2 →
      zeroAt w.desc 37 3 = true → zeroAt w.desc 60 4 = true → qb % 64 = 0 → res % 64 = 0 → 64 + 16 * par.k ≤ w.f 56 4 →
      nrRead s qb 8 = (t, hd) → hd.timeout = false → hd.bad = false →
      let ns := getLE hd.bytes 0 2
      let nops := getLE hd.bytes 5 1
      let fo := roundUp (8 + 2 * ns) 16
      let qo := fo + 16 * nops
      nrRead t qb qo = (u, bd) → bd.timeout = false → bd.bad = false → nrRead u (qb + qo) (2 * ixDims r) = (v, qd) → qd.timeout = false →
      let shards := (List.range ns).map (fun i => getLE bd.bytes (8 + 2 * i) 2)
      let filter := (bd.bytes.drop fo).take (16 * nops)
      let qfmt := getLE bd.bytes 4 1
      inWindow s w.tenant qb (qo + 2 * ixDims r) = true →
      1 ≤ ns → ns ≤ 1024 → nops ≤ 32 → getLE bd.bytes 2 2 = ixDims r → (qfmt = 2 ∨ qfmt = 3) → zeroAt bd.bytes 6 2 = true →
      zeroAt bd.bytes (8 + 2 * ns) (fo - (8 + 2 * ns)) = true → noRepeats shards = true → filterOk r filter = true →
      (nops = 0 ∨ par.thresh ≤ par.hint ∨ ixPreSlots r ≠ 0) →
      exec (.search id) s =
        let cid := v.srch.nextCoord
        let c : Coord := ⟨w.id, w.f 8 2, par.k, decide (w.f 36 1 = 1), shards, res, w.f 56 4, [], []⟩
        let t := beginWork (modSrch v (fun x => { x with coords := mput x.coords cid c, nextCoord := cid + 1 })) w.id
        .next ((shards.zip (List.range ns)).foldl (fun t p =>
          startShard (cid * 1024 + p.2) (w.f 8 2) p.1 (ixMapPage r * 65536) par filter qd.bytes qfmt
            (if qd.bad then some (qd.first (qb + qo)) else none) w.expiry t) t))

/-- R110, R115, R116, R123, R127, R129, R130, R157, R158: the first waiting shard search is admitted at the shard's epoch when an engine and, for a
scan, a scan slot are free, every commit of the tick applied first, and stays where one is not; the scan goes to the Kettles or the engine does
it. A search goes on round by round when the records that it needs are staged or can be read, asks for those that cannot, ends with what it holds
at its deadline, and fails at its expiry or, never admitted, after the admission time; the merge runs for the first coordinator that is full when
a tree of its kind works. Completes: shardSearchAdmit, admitTimeout, traversalRound, searchDeadline, shardSearchExpiry, merge. -/
def Obligations.SearchEvents : Prop :=
  ∀ (s : State),
    (let a := edgeUpTo s 3
     ringUp a = true → a.power.warmPend = false → flagF a Reg.rstPowerCapped = false → ∀ id x,
      a.srch.searches.find? (fun x => x.2.phase = .waiting) = some (id, x) →
      (ctxOf a (shardKey x.index x.shard) = none → exec .shardSearchAdmit s = .next (failSearch a id .fenced)) ∧
      (∀ h c, ctxOf a (shardKey x.index x.shard) = some (h, c) → h.detaching.isSome = true →
        exec .shardSearchAdmit s = .next (failSearch a id .fenced)) ∧
      (∀ h c, ctxOf a (shardKey x.index x.shard) = some (h, c) → h.detaching = none →
        let m := if ixCode c.reg = 1 then ixM c.reg else 0
        let scan := takesScan x
        let q := vecVals x.qfmt (ixDims c.reg) x.query
        (pickEngine a (x.par.lw + x.par.k) m = none ∨ scan = true ∧ pickScan a x.index c.reg = none → exec .shardSearchAdmit s = .next a) ∧
        (∀ e k, pickEngine a (x.par.lw + x.par.k) m = some e → pickScan a x.index c.reg = k → (scan = true → k.isSome = true) →
          let slots := engineSlots a e
          let b := if x.qpois.isSome then (a, some []) else readBook a c
          let y := { x with
            phase := .running, engine := e, slot := lowestGap slots (slots.length + 1) 0, order := a.srch.nextOrder, epoch := h.epoch,
            admitted := tickOf a, lut := lutOf c.reg (b.2.getD []) x.qfmt q, nq := queryNorm c.reg x.qfmt q, len := x.par.l,
            scan := if scan then k else none }
          let t := setSearch (modSrch b.1 (fun r => { r with
            nextOrder := r.nextOrder + 1
            slots := if scan then (k.map (fun k => mput r.slots (x.index * 1024 + k) id)).getD r.slots else r.slots })) id y
          (x.qpois.isSome = true ∨ b.2 = none → exec .shardSearchAdmit s = .next (failSearch (consumeQuery t x.qpois) id .poisoned)) ∧
          (x.qpois = none → b.2.isSome = true →
            (scan = false → exec .shardSearchAdmit s = .next (beginTraversal t c id y)) ∧
            (scan = true →
              let u := bump t Reg.srcPathPrescan
              (kettleScan u c (filterOps x.filter) = true → exec .shardSearchAdmit s = .next (setSearch u id { y with phase := .scanning })) ∧
              (kettleScan u c (filterOps x.filter) = false →
                exec .shardSearchAdmit s = .next (afterScan (bump u Reg.srcPathEngineScan) c id y))))))) ∧
    (∀ id x, searchOf s id = some x → x.phase = .waiting →
      exec (.admitTimeout id) s = if x.arrived + atLeast1 s Reg.srcCtrlAdmit ≤ tickOf s then .next (failSearch s id .busy) else .next s) ∧
    (∀ id x h c, searchOf s id = some x → x.phase = .running → ctxOf s (shardKey x.index x.shard) = some (h, c) → engineDown s x.engine = false →
      (pastDeadline s x = true → exec (.traversalRound id) s = .next (endSearch s id x (formPartial x 8))) ∧
      (pastDeadline s x = false → x.exhaustive = true → ∀ t locs n, allowed s c x = (t, locs, n) →
        (locs.all (fun i => recReady s c i x.epoch) = true →
          let r := exhaust t c { x with poison := x.poison + n } locs
          exec (.traversalRound id) s = .next (endSearch (countItems r.1 (r.2.poison - x.poison)) id r.2 (formPartial r.2 16))) ∧
        (locs.all (fun i => recReady s c i x.epoch) = false →
          exec (.traversalRound id) s = .next (wantUnits s (locs.flatMap (recBlocked s c))))) ∧
      (pastDeadline s x = false → x.exhaustive = false →
        let ready := (batchOf x).all (fun e => (stagedOf s c x.staged e.loc x.epoch).isSome || recReady s c e.loc x.epoch)
        (ready = true →
          let r := oneRound s c x
          exec (.traversalRound id) s = .next (continueSearch (countItems r.1 (r.2.poison - x.poison)) c id r.2)) ∧
        (ready = false → exec (.traversalRound id) s = .next (wantUnits s ((batchOf x).flatMap (fun e => recBlocked s c e.loc)))))) ∧
    (∀ id x, searchOf s id = some x → x.phase ≠ .waiting → x.par.deadline ≠ 0 → exec (.searchDeadline id) s =
      if x.admitted + x.par.deadline ≤ tickOf s then .next (endSearch s id x (formPartial x 8)) else .next s) ∧
    (∀ id x n, searchOf s id = some x → x.node = some n → exec (.shardSearchExpiry id) s =
      if x.expiry ≤ tickOf s then .next (failSearch s id .timeout) else .next s) ∧
    (∀ cid rest c, ringUp s = true → s.srch.merges = cid :: rest → mget s.srch.coords cid = some c →
      let trees := if c.canon || flagF s Reg.selCtrlAllStable then (List.range 4).map (· + 28) else List.range 28
      (trees.all (fun i => s.fw.inReset.any (fun x => x.1 = .tree i)) = false → exec .merge s = .next (runMerge s cid c)) ∧
      (trees.all (fun i => s.fw.inReset.any (fun x => x.1 = .tree i)) = true → exec .merge s = .next s))

/-- R136–R139, R143, R146, R153, R426: an INSERT or DELETE that is planned without a wait puts its row versions into the version table, counts itself
in the shard's pending epoch, gives an INSERT's local index at OUT and completes, one that must wait keeps its place and counts in SRC_UPD.WAITS
the first time it waits for a fold, and one of a detached or a detaching shard is fenced. A COMMIT is refused where R143 says, or waits in the
schedule for its tick. An update that waited goes on when what it waited for is done, a row folds into its base record when no search and no build
can see its older version (the entry is freed then), and searches that hold a fold up for too long, or that hold versions when few are left, are
retired, and the builds that do start again at the current epoch. Completes: insert, delete, commit, updatePrepareComplete, rowFold,
forcedRetirement, versionPressureRetire. -/
def Obligations.Updates : Prop :=
  (∀ (s : State) (id cls : Nat) (w : Work), WorkReady s id cls w → w.id = id →
    let sk := shardKey (w.f 8 2) (w.f 10 2)
    let ins := cls = 2
    let cmd : Instr := if ins then .insert id else .delete id
    ((cls = 2 ∨ cls = 3) →
      (ctxOf s sk = none → exec cmd s = .next (failUpdate s w .fenced)) ∧
      (∀ h c, ctxOf s sk = some (h, c) → h.detaching.isSome = true → exec cmd s = .next (failUpdate s w .fenced)) ∧
      (∀ h c t u rows out, ctxOf s sk = some (h, c) → h.detaching = none →
        planUpdate s h c w (mget s.srch.updates id) = (t, .write rows out) → rows ≠ [] →
        (if ins then nrWrite t (w.f 32 8) (toBytes 4 out) [] else (t, none)) = (u, none) →
        exec cmd s =
          let u := rows.foldl (fun a r => putVersion a sk r.1 r.2) u
          let u := modShard u sk (fun x => { x with ins := x.ins + b2n ins, dels := x.dels + b2n (!ins) })
          .next (complete (dropUpd u id) w .ok (res := if ins then toBytes 4 out else []))) ∧
      (∀ h c t u rows out st, ctxOf s sk = some (h, c) → h.detaching = none → ins →
        planUpdate s h c w (mget s.srch.updates id) = (t, .write rows out) → nrWrite t (w.f 32 8) (toBytes 4 out) [] = (u, some st) →
        exec cmd s = .next (failUpdate u w st)) ∧
      (∀ h c t st, ctxOf s sk = some (h, c) → h.detaching = none →
        planUpdate s h c w (mget s.srch.updates id) = (t, .fail st) → exec cmd s = .next (failUpdate t w st)) ∧
      (∀ h c t ws fwd bld, ctxOf s sk = some (h, c) → h.detaching = none →
        planUpdate s h c w (mget s.srch.updates id) = (t, .wait ws fwd bld) →
        (mget s.srch.updates id = none → exec cmd s =
          let t := if ws.any isFold then bump t Reg.srcUpdWaits else t
          .next (beginWork (modSrch t (fun r => { r with updates := mput r.updates id ⟨tickOf t, ws.any isFold, ws.any isFold, fwd, bld⟩ })) id)) ∧
        (∀ x, mget s.srch.updates id = some x → exec cmd s =
          let t := if ws.any isFold && !x.counted then bump t Reg.srcUpdWaits else t
          let since := if ws.any isFold && !x.fold then tickOf t else x.since
          .next (beginWork (modSrch t (fun r => { r with
            updates := mput r.updates id ⟨since, ws.any isFold, ws.any isFold || x.counted, fwd, bld⟩ })) id)))) ∧
    (cls = 4 → ∀ r, mget s.srch.indexes (w.f 8 2) = some r → zeroAt w.desc 12 4 = true → zeroAt w.desc 32 32 = true →
      w.f 24 8 % 16 = 0 → tickFar s (w.f 16 8) = false → inWindow s w.tenant (w.f 24 8) 16 = true → ixTenant r = w.tenant →
      (mhas s.srch.shards sk = false → exec (.commit id) s = .next (complete s w .fenced)) ∧
      (mhas s.srch.shards sk = true → tickNear s (w.f 16 8) = true → exec (.commit id) s = .next (complete s w .timeout)) ∧
      (mhas s.srch.shards sk = true → tickNear s (w.f 16 8) = false → schedFull s = true → exec (.commit id) s = .next (schedRefuse s w)) ∧
      (mhas s.srch.shards sk = true → tickNear s (w.f 16 8) = false → schedFull s = false →
        exec (.commit id) s = .next (schedAdd s (.commit (w.f 8 2) (w.f 10 2)) (w.f 16 8) w)))) ∧
  (∀ (s : State),
    (∀ id w, workOf s id = some w → mhas s.srch.updates id = true → exec (.updatePrepareComplete id) s = .next (runUpdate s w)) ∧
    (∀ i sh loc h c v, ctxOf s (shardKey i sh) = some (h, c) → newer s (shardKey i sh) loc = some v → v.vfrom ≤ h.epoch →
      (readersBelow s (shardKey i sh) v.vfrom = [] → buildsBelow s (shardKey i sh) v.vfrom = [] →
        (∀ t u d, v.data = some d → writeRecord s c loc v.record = some t → writeParts t c loc d = some u → exec (.rowFold i sh loc) s =
          .next (modSrch u (fun r => { r with versions := mdel r.versions (rowKey c.sk loc) }))) ∧
        (∀ t, v.data = none → writeRecord s c loc v.record = some t → exec (.rowFold i sh loc) s =
          .next (modSrch t (fun r => { r with versions := mdel r.versions (rowKey c.sk loc) }))) ∧
        (writeRecord s c loc v.record = none → exec (.rowFold i sh loc) s = .next s)) ∧
      (readersBelow s (shardKey i sh) v.vfrom ≠ [] ∨ buildsBelow s (shardKey i sh) v.vfrom ≠ [] →
        exec (.rowFold i sh loc) s = .next s)) ∧
    (∀ id w u h c t ws fwd bld, workOf s id = some w → mget s.srch.updates id = some u → u.fold = true → getF s Reg.srcUpdCtrlRetireWait ≠ 0 →
      u.since + getF s Reg.srcUpdCtrlRetireWait ≤ tickOf s → ctxOf s (shardKey (w.f 8 2) (w.f 10 2)) = some (h, c) →
      planUpdate s h c w (some u) = (t, .wait ws fwd bld) → exec (.forcedRetirement id) s =
        .next (retireBelow s c.sk (maxD 0 (ws.map (fun x => match x with | .fold v => v | _ => 0))))) ∧
    (∀ x id, getF s Reg.srcUpdCtrlVerLow ≠ 0 → verEntries - s.srch.versions.length < getF s Reg.srcUpdCtrlVerLow →
      s.srch.searches.filter (fun x => blocksFold s x.2) = [(id, x)] →
      exec .versionPressureRetire s = .next (retireBelow s (shardKey x.index x.shard) (x.epoch + 1))) ∧
    (∀ sk e, retireBelow s sk e =
      let now := match mget s.srch.shards sk with | some h => h.epoch | none => 0
      let t := modSrch s (fun r => { r with updates := r.updates.map (fun u =>
        if (buildsBelow s sk e).contains u.1 then (u.1, { u.2 with build := some now }) else u) })
      retire t (readersBelow t sk e)))

/-- R176, R178, R185, R187, R190, R194, R426: a GATHER waits for a Carder and, admitted, completes with the status of its first check that fails or is
gathered and ends with its results; a SCATTER whose lists are good joins its table's order, starts at its turn and goes on with the rows that
waited, and one whose check fails completes with that status; the load window ends in the loads of every table written and cleared. Completes:
gather, gatherAdmit, scatter, scatterStart, scatterRowResume, loadWindowEnd. -/
def Obligations.EmbeddingRows : Prop :=
  ∀ (s : State),
    (∀ id w, WorkReady s id 5 w → exec (.gather id) s =
      .next (beginWork (modCard s (fun c => { c with waiting := c.waiting ++ [w.id] })) w.id)) ∧
    (∀ id rest w, s.card.waiting = id :: rest → carderFree s = true → workOf s id = some w →
      let t := modCard s (fun c => { c with waiting := rest })
      (∀ u st, gatherCheck t w = (u, .error st) → exec .gatherAdmit s = .next (complete u w st)) ∧
      (∀ u p, gatherCheck t w = (u, .ok p) →
        let wt := readWeights u w
        (p.silent = true ∨ wt.2.2 = true → exec .gatherAdmit s = .next (endGather wt.1 w p.reg p.tv carderNew [] .timeout)) ∧
        (p.silent = false → wt.2.2 = false →
          let g := gatherLoop p.reg w (if (w.f 12 1).testBit 1 then none else some p.tv) p.tver wt.2.1 p.idx 0 p.ends wt.1 carderNew
            (bagZero (tbDim p.reg)) []
          (g.2.1.stop = true → exec .gatherAdmit s = .next (endGather g.1 w p.reg p.tv g.2.1 g.2.2 .timeout)) ∧
          (g.2.1.stop = false → exec .gatherAdmit s =
            .next (endGather g.1 w p.reg p.tv g.2.1 (if w.f 10 1 = 0 then g.2.2 else lastBags w (tbDim p.reg) g.2.2) .ok))))) ∧
    (∀ id w t st, WorkReady s id 6 w → scatterCheck s w = (t, .error st) → exec (.scatter id) s = .next (complete t w st)) ∧
    (∀ id w, WorkReady s id 6 w → scatterOk s w = false → exec (.scatter id) s = .next (complete s w .malformed)) ∧
    (∀ id w x t r, WorkReady s id 6 w → scatterOk s w = true → w.f 10 1 ≠ 3 → w.f 8 2 ≠ 1024 → mget s.card.tables (w.f 8 2) = some x →
      tbTenant x.reg = w.tenant → scatterIn s w = true → rdW s (w.f 24 8) (4 * w.f 16 4) = (t, r) → r.timeout = false → r.bad = false →
      let idx := (List.range (w.f 16 4)).map (fun i => getLE r.bytes (4 * i) 4)
      scatterListOk w x.reg idx = true → exec (.scatter id) s =
        let u := modCard t (fun c => { c with tables := mmod c.tables (w.f 8 2) (fun t => { t with queue := t.queue ++ [w.id] }) })
        .next (beginWork (setScat u w.id ⟨w.f 8 2, idx, false, [], 0, 0, 0, false⟩) w.id)) ∧
    (∀ id w t r, WorkReady s id 6 w → scatterOk s w = true → w.f 10 1 = 3 → scatterIn s w = true →
      rdW s (w.f 24 8) (8 * w.f 16 4) = (t, r) → r.timeout = false → r.bad = false →
      let idx := (List.range (w.f 16 4)).map (fun i => getLE r.bytes (8 * i) 8)
      idx.all (fun a => a % 2 = 0 && inWindow t w.tenant a (2 * w.f 20 2)) = true →
      exec (.scatter id) s = .next (beginWork (setScat t w.id ⟨1024, idx, false, [], 0, 0, 0, false⟩) w.id)) ∧
    (∀ id w x t, workOf s id = some w → mget s.card.scatters id = some x → x.begun = false → carderFree s = true → x.table ≠ 1024 →
      mget s.card.tables x.table = some t → t.queue.head? = some id → t.tver ≠ 2 ^ 32 - 2 → exec (.scatterStart id) s =
        .next (scatterRows w x.table t.reg t.tver (distinct [] x.idx) s { x with begun := true })) ∧
    (∀ id w x, workOf s id = some w → mget s.card.scatters id = some x → x.begun = false → carderFree s = true → x.table = 1024 →
      exec (.scatterStart id) s = .next (scatterRaw w (w.f 20 2) x.idx 0 s { x with begun := true })) ∧
    (∀ id w x t, workOf s id = some w → mget s.card.scatters id = some x → mget s.card.tables x.table = some t → x.begun = true → x.todo ≠ [] →
      exec (.scatterRowResume id) s = .next (scatterRows w x.table t.reg t.tver x.todo s x)) ∧
    (s.card.window + atLeast1 s Reg.crdCtrlWindow ≤ tickOf s → exec .loadWindowEnd s =
      let loads (t : Table) : List Byte := (List.range (loadShards t.reg)).flatMap (fun k => toBytes 4 ((mget t.load k).getD 0))
      let t := s.card.tables.foldl (fun (a : State) x =>
        if tbShift x.2.reg = 0 then a else nrPut a (getLE x.2.reg 24 4 * 65536) (loads x.2)) s
      let now := siteLines t
      .next (skewMigrate (modCard t (fun c => { c with
        tables := c.tables.map (fun x => (x.1, { x.2 with load := [] })),
        window := tickOf t, traffic := (List.range 8).map (fun i => now.getD i 0 - c.mark.getD i 0), mark := now })))) ∧
    (tickOf s < s.card.window + atLeast1 s Reg.crdCtrlWindow → exec .loadWindowEnd s = .next s)

/-- R262, R349, R426: a RUN that its image and stream table allow is scheduled for its tick with its streams when the node's tick is SYNCED, and
completes as not synchronised and counted when it is not; a MOVE whose pages and record are in its window moves each page in order, writes its
record and completes, with TABLE_FULL where an operation found no frame; one with a page that must wait is not begun (log entry 95). Completes:
run, move. -/
def Obligations.RunAndMove : Prop :=
  ∀ (s : State) (id : Nat) (w : Work),
    (∀ t b, WorkReady s id 7 w → w.f 50 1 ≤ 8 → (w.f 50 1 = 0 ∨ inWindow s w.tenant (w.f 56 8) (16 * w.f 50 1) = true) →
      rdW s (w.f 56 8) (16 * w.f 50 1) = (t, b) → b.bad = false → b.timeout = false →
      let es := chunksOf 16 8 b.bytes
      (runStatus t w (w.f 8 1) (some es) ≠ .ok → exec (.run id) s = .next (complete t w (runStatus t w (w.f 8 1) (some es)))) ∧
      (runStatus t w (w.f 8 1) (some es) = .ok → t.bow.st ≠ .synced →
        exec (.run id) s = .next (complete (bump t Reg.tckStatusMissedRun) w .notSynchronised)) ∧
      (runStatus t w (w.f 8 1) (some es) = .ok → t.bow.st = .synced → schedFull t = true → exec (.run id) s = .next (schedRefuse t w)) ∧
      (runStatus t w (w.f 8 1) (some es) = .ok → t.bow.st = .synced → schedFull t = false → exec (.run id) s =
        .next (schedAdd (modImage t (w.f 8 1) (fun x => { x with run := some (runNew w es) })) (.launch (w.f 8 1)) (w.f 16 8) w))) ∧
    (∀ grants, WorkReady s id 8 w → 1 ≤ w.f 12 4 → w.f 12 4 ≤ 65536 → 1 ≤ w.f 16 1 → w.f 16 1 ≤ 5 →
      (w.f 16 1 = 5 ∧ w.f 17 1 ≤ 7 ∨ w.f 16 1 = 1 ∧ (w.f 17 1 ≤ 7 ∨ w.f 17 1 = 0xFF) ∨ w.f 17 1 = 0) →
      zeroAt w.desc 18 6 = true → zeroAt w.desc 32 32 = true → w.f 24 8 % 16 = 0 →
      let inside := inWindow s w.tenant (w.f 8 4 * 65536) (w.f 12 4 * 65536) && inWindow s w.tenant (w.f 24 8) 16
      let pages := (List.range (w.f 12 4)).map (· + w.f 8 4)
      let waits := pages.any (moveWaits s (w.f 16 1) (w.f 17 1))
      (inside = false → exec (.move id grants) s = .next (complete s w .accessDenied)) ∧
      (inside = true → waits = true → exec (.move id grants) s = .next s) ∧
      (inside = true → waits = false →
        let m := pages.foldl (movePage (w.f 16 1) (w.f 17 1)) (s, ⟨0, 0, 0, false⟩, grants)
        let st : Status := if m.2.1.full then .tableFull else .ok
        exec (.move id grants) s = .next (completeWith (resumeWaits m.1) w (w.f 24 8) (moveRecord m.2.1 st) st))) ∧
    (∀ grants, WorkReady s id 8 w → w.f 12 4 = 0 → exec (.move id grants) s = .next (complete s w .malformed))

/-- R398–R400, R426: an RMA descriptor of a good shape and window takes an entry of the table of 16,384 outstanding operations, or completes
TABLE_FULL and is counted, and acts in its own node at once or sends its message; the words of a WRITE read with poison, and those of a READ in
the node, are counted as carried; one whose own region refuses it completes with that reason's status, and FLUSH and WAIT wait for what they name.
Completes: rmaWrite, rmaRead, rmaFetchAdd, rmaCompareSwap, rmaFlush, rmaWait, waitRelease. -/
def Obligations.RmaDescriptors : Prop :=
  ∀ (s : State) (id : Nat) (w : Work), rmaShape w = true →
    let full : State := complete (bump s Reg.rmaRefuseTableFull) w .tableFull
    (∀ t b, WorkReady s id 0x10 w → inWindow s w.tenant (w.f 24 8) (w.f 32 4) = true → w.f 32 4 ≠ 0 →
      (16384 ≤ outstanding s → exec (.rmaWrite id) s = .next full) ∧
      (outstanding s < 16384 → nrRead s (w.f 24 8) (w.f 32 4) = (t, b) →
        let p := msgPois (w.f 24 8) (w.f 32 4) b.pois
        let u := bumpBy t Reg.intPoisonCarried b.pois.length
        (b.timeout = true → exec (.rmaWrite id) s = .next (complete u w .timeout)) ∧
        (b.timeout = false → w.f 8 1 ≠ nodeNo s → exec (.rmaWrite id) s = .next (startOp u w 1 (w.f 32 4) b.bytes p)) ∧
        (b.timeout = false → w.f 8 1 = nodeNo s → localReason s w (w.f 32 4) 1 = 0 →
          exec (.rmaWrite id) s = .next (complete ((localTarget s w).put u 0 b.bytes p) w .ok)) ∧
        (b.timeout = false → w.f 8 1 = nodeNo s → localReason s w (w.f 32 4) 1 ≠ 0 →
          exec (.rmaWrite id) s = .next (complete u w (nakStatus (localReason s w (w.f 32 4) 1)))))) ∧
    (WorkReady s id 0x11 w → inWindow s w.tenant (w.f 24 8) (w.f 32 4) = true → w.f 32 4 ≠ 0 →
      (16384 ≤ outstanding s → exec (.rmaRead id) s = .next full) ∧
      (outstanding s < 16384 → w.f 8 1 ≠ nodeNo s → exec (.rmaRead id) s = .next (startOp s w 2 (w.f 32 4) [] [])) ∧
      (outstanding s < 16384 → w.f 8 1 = nodeNo s → localReason s w (w.f 32 4) 0 = 0 →
        let r := (localTarget s w).get s (w.f 32 4)
        exec (.rmaRead id) s =
          .next (complete (placeBytes (bumpBy r.1 Reg.intPoisonCarried r.2.2.length) (w.f 24 8) r.2.1 r.2.2) w .ok)) ∧
      (outstanding s < 16384 → w.f 8 1 = nodeNo s → localReason s w (w.f 32 4) 0 ≠ 0 →
        exec (.rmaRead id) s = .next (complete s w (nakStatus (localReason s w (w.f 32 4) 0))))) ∧
    (∀ swap : Bool, WorkReady s id (if swap then 0x13 else 0x12) w → inWindow s w.tenant (w.f 24 8) 8 = true →
      let c : Instr := if swap then .rmaCompareSwap id else .rmaFetchAdd id
      (16384 ≤ outstanding s → exec c s = .next full) ∧
      (outstanding s < 16384 → w.f 8 1 ≠ nodeNo s →
        exec c s = .next (startOp s w (if swap then 5 else 4) 16 (toBytes 8 (w.f 40 8) ++ toBytes 8 (w.f 48 8)) [])) ∧
      (outstanding s < 16384 → w.f 8 1 = nodeNo s → localReason s w 8 2 = 0 →
        let r := applyAtomic s (localTarget s w) swap (w.f 40 8) (w.f 48 8) false
        exec c s = .next (complete (placeBytes r.1 (w.f 24 8) (toBytes 8 r.2.1) []) w (if r.2.2 then .poisoned else .ok))) ∧
      (outstanding s < 16384 → w.f 8 1 = nodeNo s → localReason s w 8 2 ≠ 0 →
        exec c s = .next (complete s w (nakStatus (localReason s w 8 2))))) ∧
    (WorkReady s id 0x14 w →
      (16384 ≤ outstanding s → exec (.rmaFlush id) s = .next full) ∧
      (outstanding s < 16384 → exec (.rmaFlush id) s = .next (settleFlushes (beginWork s w.id)))) ∧
    (WorkReady s id 0x15 w →
      (queueTenant (w.f 10 2) = w.tenant → 16384 ≤ outstanding s → exec (.rmaWait id) s = .next full) ∧
      (queueTenant (w.f 10 2) = w.tenant → outstanding s < 16384 → exec (.rmaWait id) s = .next (beginWork s w.id)) ∧
      (queueTenant (w.f 10 2) ≠ w.tenant → exec (.rmaWait id) s = .next (complete s w .accessDenied))) ∧
    (workOf s id = some w → w.cls = 0x15 → w.begun = true → ∀ q, queueOf s (w.f 10 2) = some q →
      (w.f 16 8 ≤ q.done → exec (.waitRelease id) s = .next (complete s w .ok)) ∧
      (q.done < w.f 16 8 → exec (.waitRelease id) s = .next s))

/-- R393, R395, R414, R415, R426, R436: TENANT_OPEN gives a function its context and window, TENANT_CLOSE takes them back with the tenant's pages when
nothing of the tenant is left, and both write the function's status. REGION_REGISTER pins a window's pages and gives them a key, REGION_DEREGISTER
begins to close it and its end frees the slot under a new generation; GATE_LIST reads its entries and waits in the schedule for its tick.
Completes: tenantOpen, tenantClose, regionRegister, regionDeregister, regionDeregisterDone, gateList. -/
def Obligations.TenantRegionGateCommands : Prop :=
  (∀ (s : State) (id : Nat) (w : Work) (t : State) (op : List Byte),
    (AdminReady s id 1 16 true w t op →
      let fn := getLE op 0 2
      let base := getLE op 8 4
      let pages := getLE op 12 4
      (zeroAt op 2 6 = true → 1 ≤ fn → fn ≤ 511 → fnEnabled t fn = true → ctxOpen t fn = false → 1 ≤ pages → pages ≤ 2 ^ 28 →
        base + pages ≤ rangePages t → windowTaken t base pages = false →
        (t.host.ctxs.length < 511 → exec (.tenantOpen id) s =
          .next (fstatChanged (complete (modHost t (fun h => { h with ctxs := mput h.ctxs fn ⟨base, pages⟩ })) w .ok fn) fn)) ∧
        (511 ≤ t.host.ctxs.length → exec (.tenantOpen id) s = .next (complete t w .noContext))) ∧
      (ctxOpen t fn = true ∨ fnEnabled t fn = false ∨ windowTaken t base pages = true ∨ rangePages t < base + pages →
        exec (.tenantOpen id) s = .next (complete t w .malformed))) ∧
    (AdminReady s id 2 8 true w t op →
      let fn := getLE op 0 2
      zeroAt op 2 6 = true → 1 ≤ fn → fn ≤ 511 →
      (ctxOpen t fn = false → exec (.tenantClose id) s = .next (complete t w .malformed)) ∧
      (ctxOpen t fn = true → tenantBusy t fn = true → exec (.tenantClose id) s = .next (complete t w .busy)) ∧
      (ctxOpen t fn = true → tenantBusy t fn = false → exec (.tenantClose id) s =
        .next (fstatChanged (complete (modHost (releasePages t fn) (fun h => { h with ctxs := mdel h.ctxs fn })) w .ok) fn)))) ∧
  (∀ (s : State) (id : Nat) (w : Work) (t : State) (op : List Byte),
    (AdminReady s id 0x40 32 false w t op →
      let base := getLE op 0 8
      let len := getLE op 8 8
      let pages := pagesOf base len
      base % 64 = 0 → 64 ≤ len → len ≤ 2 ^ 40 → len % 64 = 0 → getLE op 16 2 ≤ 511 → 1 ≤ getLE op 18 1 → getLE op 18 1 ≤ 7 →
      zeroAt op 19 1 = true → zeroAt op 24 8 = true →
      (inWindow t w.tenant base len = false → exec (.regionRegister id) s = .next (complete t w .accessDenied)) ∧
      (inWindow t w.tenant base len = true → pages.any (fun p => decide ((pageEnt t p).pins ≥ 255)) = true →
        exec (.regionRegister id) s = .next (complete (bump t Reg.rmaRefuseTableFull) w .tableFull)) ∧
      (inWindow t w.tenant base len = true → pages.any (fun p => decide ((pageEnt t p).pins ≥ 255)) = false →
        ∀ k u, mfree t.brim.regions 65536 = some k → homePages t pages = some u →
        let u := modBrim (pinPages u pages true)
          (fun x => { x with regions := mput x.regions k ⟨w.tenant, base, len, getLE op 16 2, getLE op 18 1, none⟩ })
        exec (.regionRegister id) s = .next (completeWith u w (w.opAddr + 20) (toBytes 4 (slotGen u k * 65536 + k)) .ok (res := [])))) ∧
    (AdminReady s id 0x41 32 false w t op → zeroAt op 4 28 = true →
      (regionOf t (getLE op 0 4) = none → exec (.regionDeregister id) s = .next (complete t w .keyInvalid)) ∧
      (∀ r, regionOf t (getLE op 0 4) = some r → adminMay w r.tenant = true → exec (.regionDeregister id) s =
        .next (beginWork (modBrim t (fun x => { x with
          regions := mput x.regions (getLE op 0 4 % 65536) { r with closing := some w.id } })) w.id))) ∧
    (∀ slot r d, mget s.brim.regions slot = some r → r.closing = some d → exec (.regionDeregisterDone slot) s =
      let u := pinPages s (pagesOf r.base r.length) false
      .next (completeId (modBrim u (fun x => { x with
        regions := mdel x.regions slot, gens := mput x.gens slot (nextGen (slotGen u slot)) })) d .ok)) ∧
    (AdminReady s id 0x50 16 true w t op →
      let port := getLE op 0 1
      let n := getLE op 1 1
      let k := getLE op 8 8
      port ≤ 15 → n ≤ 64 → zeroAt op 2 6 = true → 16 + 8 * n ≤ w.opLen → inWindow t w.tenant w.opAddr (16 + 8 * n) = true →
      ∀ u b, rdW t (w.opAddr + 16) (8 * n) = (u, b) → b.timeout = false → b.bad = false → gateEntsOk b.bytes n = true → tickFar u k = false →
      (tickNear u k = true → exec (.gateList id) s = .next (complete u w .timeout)) ∧
      (tickNear u k = false → schedFull u = true → exec (.gateList id) s = .next (schedRefuse u w)) ∧
      (tickNear u k = false → schedFull u = false → exec (.gateList id) s = .next (schedAdd u (.gate port (gateEnts b.bytes n)) k w))))

/-- R93, R95, R97, R170, R193, R426, R428: registering and deregistering an index, attaching, detaching a shard, and the detach's end, which folds
what is left, fences the shard's commits and reports its epoch. Registering and deregistering a table, pinning its version and letting the pin go.
Completes: indexRegister, indexDeregister, shardAttach, shardDetach, shardDetachComplete, tableRegister, tableDeregister, pin, unpin. -/
def Obligations.IndexAndTableCommands : Prop :=
  (∀ (s : State) (id : Nat) (w : Work) (t : State) (op : List Byte),
    (AdminReady s id 0x08 48 false w t op →
      let r := op.take 48
      (adminMay w (ixTenant r) = false → exec (.indexRegister id) s = .next (complete t w .accessDenied)) ∧
      (adminMay w (ixTenant r) = true → indexOk t r = true → mhas t.srch.indexes (getLE r 0 2) = false →
        (t.srch.indexes.length < 256 → exec (.indexRegister id) s =
          .next (complete (modSrch t (fun x => { x with indexes := mput x.indexes (getLE r 0 2) r })) w .ok)) ∧
        (256 ≤ t.srch.indexes.length → exec (.indexRegister id) s = .next (complete (bump t Reg.srcRefuseTableFull) w .tableFull)))) ∧
    (AdminReady s id 0x09 8 false w t op → ∀ r, mget t.srch.indexes (getLE op 0 2) = some r → adminMay w (ixTenant r) = true →
      zeroAt op 2 6 = true →
      let attached := t.srch.shards.any (fun h => h.1 / 65536 = getLE op 0 2)
      exec (.indexDeregister id) s = if attached then .next (complete t w .busy)
        else .next (complete (modSrch t (fun x => { x with indexes := mdel x.indexes (getLE op 0 2) })) w .ok)) ∧
    (AdminReady s id 0x0A 200 false w t op → ∀ r, mget t.srch.indexes (getLE (op.take 192) 0 2) = some r → adminMay w (ixTenant r) = true →
      let d := op.take 192
      let sk := shardKey (getLE d 0 2) (getLE d 2 2)
      mhas t.srch.shards sk = false → shardOk t r d = true → getLE op 192 6 ≠ 2 ^ 48 - 1 → zeroAt op 198 2 = true →
      exec (.shardAttach id) s = if 4096 ≤ t.srch.shards.length then .next (complete (bump t Reg.srcRefuseTableFull) w .tableFull)
        else .next (complete (modSrch t (fun x => { x with shards := mput x.shards sk ⟨d, getLE op 192 6, none, 0, 0, []⟩ })) w .ok)) ∧
    (AdminReady s id 0x0B 8 false w t op → ∀ r, mget t.srch.indexes (getLE op 0 2) = some r → adminMay w (ixTenant r) = true →
      zeroAt op 4 4 = true →
      let sk := shardKey (getLE op 0 2) (getLE op 2 2)
      (mget t.srch.shards sk = none → exec (.shardDetach id) s = .next (complete t w .fenced)) ∧
      (∀ h, mget t.srch.shards sk = some h → exec (.shardDetach id) s =
        if h.detaching.isSome then .next (complete t w .busy) else .next (beginWork (endShard t sk id) id))) ∧
    (∀ i sh h c d u, ctxOf s (shardKey i sh) = some (h, c) → h.detaching = some d →
      s.srch.searches.any (fun x => admittedS x.2 && shardKey x.2.index x.2.shard = shardKey i sh) = false → foldAll s c = some u →
      let evs := u.bow.sched.filter (isCommitOf (shardKey i sh))
      let u := evs.foldl (fun a e => completeId a e.work .fenced) (schedFree u (isCommitOf (shardKey i sh)))
      exec (.shardDetachComplete i sh) s =
        .next (completeId (modSrch u (fun r => { r with shards := mdel r.shards (shardKey i sh) })) d .ok h.epoch))) ∧
  (∀ (s : State) (id : Nat) (w : Work) (t : State) (op : List Byte),
    (AdminReady s id 0x10 32 false w t op →
      let r := op.take 32
      (adminMay w (tbTenant r) = false → exec (.tableRegister id) s = .next (complete t w .accessDenied)) ∧
      (adminMay w (tbTenant r) = true → tableOk t r = true → mhas t.card.tables (getLE r 0 2) = false →
        (t.card.tables.length < 1024 → exec (.tableRegister id) s =
          .next (complete (modCard t (fun c => { c with tables := mput c.tables (getLE r 0 2) ⟨r, getLE r 28 4, [], []⟩ })) w .ok)) ∧
        (1024 ≤ t.card.tables.length → exec (.tableRegister id) s = .next (complete (bump t Reg.crdRefuseTableFull) w .tableFull)))) ∧
    (AdminReady s id 0x11 8 false w t op → ∀ x, mget t.card.tables (getLE op 0 2) = some x → adminMay w (tbTenant x.reg) = true →
      zeroAt op 2 6 = true → exec (.tableDeregister id) s = if tableHeld t (getLE op 0 2) x then .next (complete t w .busy)
        else .next (complete (modCard t (fun c => { c with tables := mdel c.tables (getLE op 0 2) })) w .ok)) ∧
    (AdminReady s id 0x12 8 false w t op → ∀ x, mget t.card.tables (getLE op 0 2) = some x → adminMay w (tbTenant x.reg) = true →
      zeroAt op 2 6 = true →
      (mfree t.card.pins 256 = none → exec (.pin id) s = .next (complete (bump t Reg.crdRefuseTableFull) w .tableFull)) ∧
      (∀ h, mfree t.card.pins 256 = some h → exec (.pin id) s =
        .next (complete (modCard t (fun c => { c with pins := mput c.pins h ⟨getLE op 0 2, x.tver⟩ })) w .ok h))) ∧
    (AdminReady s id 0x13 8 false w t op → ∀ p x, mget t.card.pins (getLE op 0 2) = some p → mget t.card.tables p.table = some x →
      adminMay w (tbTenant x.reg) = true → zeroAt op 2 6 = true →
      exec (.unpin id) s = .next (complete (modCard t (fun c => { c with pins := mdel c.pins (getLE op 0 2) })) w .ok)) ∧
    (AdminReady s id 0x13 8 false w t op → mget t.card.pins (getLE op 0 2) = none → exec (.unpin id) s = .next (complete t w .malformed)))

/-- R258, R260, R262, R269, R273, R426: LOAD checks an image and gives it a slot, UNLOAD and STOP_RUN end its run, WITHDRAW takes an event out of the
schedule that is not near, and ROLE keeps a profile for its tick. Completes: load, unload, stopRun, withdraw, role. -/
def Obligations.ImageCommands : Prop :=
  ∀ (s : State) (id : Nat) (w : Work) (t : State) (op : List Byte),
    (AdminReady s id 0x20 16 false w t op → (s.bow.align = none ∨ s.bow.alignFelt = false) → t.felt.images.length < 16 →
      let a := getLE op 0 8
      let rc := getLE op 8 8
      (inWindow t w.tenant a 128 = false ∨ inWindow t w.tenant rc 16 = false → exec (.load id) s = .next (failLoad t w rc .accessDenied 1)) ∧
      (∀ u h, inWindow t w.tenant a 128 = true → inWindow t w.tenant rc 16 = true → rdW t a 128 = (u, h) →
        let n := imLength h.bytes
        (inWindow u w.tenant a n = false → exec (.load id) s = .next (failLoad u w rc .accessDenied 1)) ∧
        (inWindow u w.tenant a n = true → (a % 16 ≠ 0 ∨ rc % 16 ≠ 0 ∨ n < 256 ∨ 2 ^ 30 < n) →
          exec (.load id) s = .next (failLoad u w rc .malformed 2)) ∧
        (∀ v b, inWindow u w.tenant a n = true → a % 16 = 0 → rc % 16 = 0 → 256 ≤ n → n ≤ 2 ^ 30 → rdW u a n = (v, b) →
          b.bad = false → b.timeout = false →
          (∀ st n, checkImage (applyFences v) b.bytes w.tenant false = .refuse st n →
            exec (.load id) s = .next (failLoad (if n ≥ 8 then applyFences v else v) w rc st n)) ∧
          (∀ x k, checkImage (applyFences v) b.bytes w.tenant false = .accept x → mfree (applyFences v).felt.images 16 = some k →
            exec (.load id) s = .next (completeWith (loadPrograms (setImage (applyFences v) k x) k x.kettle) w rc
              (loadRecord .ok 0 k x.blocks x.budget) .ok))))) ∧
    (AdminReady s id 0x21 1 false w t op →
      (ownImage t w (getLE op 0 1) = none → exec (.unload id) s = .next (complete t w .malformed)) ∧
      (∀ x, ownImage t w (getLE op 0 1) = some x → x.unload = none →
        (x.run = none → exec (.unload id) s = .next (complete (dropImage t (getLE op 0 1)) w .ok)) ∧
        (∀ r, x.run = some r → exec (.unload id) s =
          .next (beginWork (setImage t (getLE op 0 1) { x with unload := some w.id, run := some { r with stopReq := true } }) w.id)))) ∧
    (AdminReady s id 0x22 1 false w t op → ∀ x, ownImage t w (getLE op 0 1) = some x → exec (.stopRun id) s =
      .next (complete (setImage t (getLE op 0 1) { x with run := x.run.map (fun r => { r with stopReq := true }) }) w .ok)) ∧
    (AdminReady s id 0x23 8 false w t op → zeroAt op 2 2 = true → adminMay w (queueTenant (getLE op 0 2)) = true →
      ∀ e, t.bow.sched.find? (fun e => e.queue = getLE op 0 2 && e.seq = getLE op 4 4) = some e →
      (e.prepared = true ∨ e.tick ≤ tickOf t + 4 → exec (.withdraw id) s = .next (complete t w .busy)) ∧
      (∀ i sh, e.prepared = false → tickOf t + 4 < e.tick → e.kind = .commit i sh →
        exec (.withdraw id) s = .next (complete (completeId (schedFree t (fun f => f = e)) e.work .fenced) w .ok))) ∧
    (AdminReady s id 0x24 16 false w t op →
      let p := getLE op 0 1
      let k := getLE op 8 8
      p ≤ 2 → zeroAt op 1 7 = true → tickNear t k = false → tickFar t k = false →
      (t.felt.role ≠ none → exec (.role id) s = .next (complete t w .busy)) ∧
      (t.felt.role = none → exec (.role id) s =
        let u := modFelt t (fun f => { f with role := some (p, k, w.id) })
        .next (beginWork (setF (setF (setF u Reg.fltRolePending 1) Reg.fltRoleNext p) Reg.fltRoleTickTick k) w.id)))

/-- R356, R357, R426: once the flash is mounted and no flush runs, AREA_CREATE gives an area its units, AREA_DELETE unmaps them, AREA_WRITE writes
each page and AREA_READ places the pages that are ready or reads the rest; before that they wait. Completes: areaCreate, areaDelete, areaWrite,
areaRead. -/
def Obligations.AreaCommands : Prop :=
  ∀ (s : State) (id : Nat) (w : Work) (t : State) (op : List Byte),
    ((flashWaits s || s.power.flushing) = true →
      ∀ c ∈ [Instr.areaCreate id, .areaDelete id, .areaWrite id, .areaRead id], exec c s = .next s) ∧
    ((flashWaits s || s.power.flushing) = false → flashWritable t = true →
      (AdminReady s id 0x30 16 false w t op → arShape op = true → 1 ≤ getLE op 8 8 → getLE op 8 8 ≤ 2 ^ 32 →
        mhas t.flash.areas (arName op) = false → t.flash.areas.length < 8192 → ∀ k, freeExtent t (ceilDiv (getLE op 8 8) 4) = some k →
        exec (.areaCreate id) s = .next (complete (modFlash (unmapRange t k (ceilDiv (getLE op 8 8) 4)) (fun f => { f with
          areas := mput f.areas (arName op) ⟨arName op, arKind op, w.tenant, k, getLE op 8 8⟩ })) w .ok)) ∧
      (AdminReady s id 0x31 8 false w t op → ∀ a, arOf t op = some a → zeroAt op 5 3 = true → adminMay w a.tenant = true →
        exec (.areaDelete id) s =
          if arBusy t a then .next (areaFail t w .busy)
          else
            let u := unmapRange t a.first (ceilDiv a.pages 4)
            .next (complete (modFlash u (fun f => { f with areas := mdel f.areas a.name, noSpace := false })) w .ok)) ∧
      (AdminReady s id 0x32 32 false w t op → ∀ a u, arOf t op = some a → arMove t w op = none → arBusy t a = false →
        mappedFlus t + arNew t a (arFirst op) (arCount op) ≤ t.flash.logical →
        (List.range (arCount op)).foldl (fun (t : Option State) i =>
          t.bind (fun t => arPage t w a (arFirst op + i) (arAddr op + 4096 * i))) (some t) = some u →
        exec (.areaWrite id) s = if u.flash.waitw.any (fun x => x.req = 2 ^ 32 + w.id) then .next (beginWork u w.id) else .next (complete u w .ok)) ∧
      (AdminReady s id 0x33 32 false w t op → ∀ a, arOf t op = some a → arMove t w op = none →
        let req := 2 ^ 32 + w.id
        let t := modFlash t (fun f => { f with reads := f.reads.filter (fun x => x.req != req) })
        let late := (List.range (arCount op)).filter (fun i => !(areaReady t a (arFirst op + i)))
        (late = [] → ∀ u, arPlace a (arFirst op) (arAddr op) (arCount op) 0 t = (u, none) → exec (.areaRead id) s = .next (complete u w .ok)) ∧
        (late ≠ [] → exec (.areaRead id) s = .next (modFlash t (fun f => { f with
          reads := f.reads ++ late.map (fun i =>
            let x := areaFlu a (arFirst op + i)
            ⟨f.nextReq + i, req, x.1, x.2, ruZero, mget f.map x.1, expiryOf t Reg.fwToMediaFlash, false⟩), nextReq := f.nextReq + arCount op }))))) ∧
    (∀ first n, unmapRange t first n =
      (t.flash.map.filter (fun m => decide (first ≤ m.1) && decide (m.1 < first + n))).foldl (fun s m => fluUnmap s m.1) t)

/-- R329, R330, R332, R333, R335, R398: an access of the node range takes the damage of its path, checks the home-table entries of its pages (each bad
copy is logged), and is answered at once or waits for its page's move, for a die or for a free frame; it goes on when the wait is over. A move
starts where its page may move, is committed or abandoned at its end, and is abandoned when an access waited too long for it: its lent frame goes
back, and the page is not moved again for the accesses that wait. Completes: nodeRangeAccess, frameAllocate, moveStart, moveCommit, moveAbandon. -/
def Obligations.NodeRangeAndMoves : Prop :=
  ∀ (s : State),
    (ringUp s = true → ∀ req addr len write bad path,
      let u := pathHits (spoilHome s bad) 0 path
      let till := expiryOf u Reg.tirCtrlMoveWait
      let a : WaitAcc := match write with
        | none => ⟨req, false, false, addr, len, [], pathLost path, till⟩
        | some (bytes, pois) => ⟨req, false, true, addr, bytes.length, bytes, pois ++ pathLost path, till⟩
      (rangePages u * 65536 < a.addr + a.len →
        exec (.nodeRangeAccess req addr len write ⟨bad, path⟩) s = .next (emit u (.failed a.req a.addr Status.accessDenied.code))) ∧
      (a.addr + a.len ≤ rangePages u * 65536 →
        let ps := pagesOf a.addr a.len
        let t := startForWrite (ps.foldl (fun t p => homeCheck (mayRetry t p) p) u) a
        let t := if ps.any (isMoving t) then bump t Reg.tirPromoteWaits else t
        (mustWait t a = false → exec (.nodeRangeAccess req addr len write ⟨bad, path⟩) s = .next (answerAcc t a)) ∧
        (mustWait t a = true → exec (.nodeRangeAccess req addr len write ⟨bad, path⟩) s =
          .next (modTiers (wantUnits t (ps.flatMap (pageBlocked t))) (fun t => { t with waiting := t.waiting ++ [a] }))))) ∧
    (∀ a, a.write = true →
      let r := nrWriteNow s a.addr a.bytes a.pois false
      (r.2 = none → answerAcc s a = emit r.1 (.placed a.req a.addr)) ∧
      (∀ st, r.2 = some st → a.host = false ∨ st ≠ .tableFull → answerAcc s a = emit r.1 (.failed a.req a.addr st.code)) ∧
      (r.2 = some .tableFull → a.host = true → answerAcc s a = cxlEvent (bump r.1 Reg.tirRefuseNoSpace) 1 false 0 a.addr)) ∧
    (∀ a, a.write = false →
      let r := nrReadNow s (a.addr / 16) (wordSpan a.addr a.len)
      let x := rdRes a.addr a.len r.2.1 r.2.2
      let pois := a.pois.foldl sinsert x.pois
      let t := if a.host && !pois.isEmpty then consumeNr r.1 (a.addr / 16 + pois.headD 0) else r.1
      answerAcc s a = if x.timeout then emit t (.failed a.req a.addr Status.timeout.code)
        else (pagesOf a.addr a.len).foldl promote (emit t (.data a.req a.addr x.bytes pois))) ∧
    (exec .frameAllocate s = .next (s.tiers.waiting.foldl (fun t a =>
      let t := startForWrite t a
      if mustWait t a then modTiers (wantUnits t ((pagesOf a.addr a.len).flatMap (pageBlocked t))) (fun t => { t with waiting := t.waiting ++ [a] })
      else answerAcc t a) (modTiers s (fun t => { t with waiting := [] })))) ∧
    (ringUp s = true → ∀ page dst,
      (∀ t, startMove s page dst none = some t → exec (.moveStart page dst) s = .next t) ∧
      (startMove s page dst none = none → exec (.moveStart page dst) s = .next s)) ∧
    (∀ slot m, mget s.tiers.moves slot = some m →
      (∀ t, ringUp s = true → commitMove (endMove s slot m.page m.src) m.page m.src m.dst = some t →
        exec (.moveCommit slot) s = .next (resumeWaits t)) ∧
      (ringUp s = true → commitMove (endMove s slot m.page m.src) m.page m.src m.dst = none →
        exec (.moveCommit slot) s = .next (resumeWaits (abandonMove s slot))) ∧
      (let late := s.tiers.waiting.any (fun a => (pagesOf a.addr a.len).contains m.page && decide (a.expiry ≤ tickOf s))
       (ringUp s = true → late = true → exec (.moveAbandon slot) s = .next (resumeWaits (abandonMove s slot))) ∧
       (ringUp s = false ∨ late = false → exec (.moveAbandon slot) s = .next s)) ∧
      (let held := modTiers s (fun t => { t with noRetry := sinsert t.noRetry m.page })
       (∀ i lender handle, m.dst = .lent i lender handle → abandonMove s slot = bump (endMove (modTiers (emit s (.lentBack lender handle))
         (fun t => { t with noRetry := sinsert t.noRetry m.page })) slot m.page m.src) Reg.tirMovesAbandoned) ∧
       ((∀ i lender handle, m.dst ≠ .lent i lender handle) →
         abandonMove s slot = bump (endMove held slot m.page m.src) Reg.tirMovesAbandoned)))

/-- R335, R338, R339, R341, R342: demotion starts only under the low mark, and frees frames up to the high one, or where a waiting write has no frame
that it may take; the ager ages the pages that are at home in DRAM or lent, at its period, and no others; the lent-frame table is topped up and a
free one of its frames given, with its generation advanced, and taken back from its borrower only; a recalled page comes home, one whose frame the
lender does not know is lost, and words spoiled at the lender are poison. Completes: demotionRound, agerSweep, lentFrameRequest. -/
def Obligations.DemotionAgingLending : Prop :=
  ∀ (s : State), ringUp s = true →
    (∀ grants,
      let low := getF s Reg.tirWaterLow
      let most := s.tiers.home.length + 1
      (poolFree s < low → exec (.demotionRound grants) s = .next (demoteLoop most s grants (max low (getF s Reg.tirWaterHigh)))) ∧
      (low ≤ poolFree s → starved s = true → exec (.demotionRound grants) s = .next (demoteLoop most s grants 0)) ∧
      (low ≤ poolFree s → starved s = false → exec (.demotionRound grants) s = .next s)) ∧
    (∀ f offers goal,
      (goal ≤ poolFree s → starved s = false → demoteLoop (f + 1) s offers goal = s) ∧
      (demoteCandidate s = none → demoteLoop (f + 1) s offers goal = s) ∧
      (∀ p e t o, poolFree s < goal ∨ starved s = true → demoteCandidate s = some (p, e) → demoteOne s offers p e = some (t, o) →
        demoteLoop (f + 1) s offers goal = demoteLoop f t o goal)) ∧
    (tickOf s % agePeriod s = 0 → ∃ t, exec .agerSweep s = .next t ∧ t.tiers.sweep = s.tiers.sweep + 1 ∧
      t.tiers.home = s.tiers.home.map (fun x => (x.1, match x.2.home with
        | .t2 .. => { x.2 with age := agedBy s.tiers.sweep x.2.age }
        | .lent .. => { x.2 with age := agedBy s.tiers.sweep x.2.age }
        | _ => x.2)) ∧
      t = { s with tiers := { s.tiers with home := t.tiers.home, sweep := t.tiers.sweep } }) ∧
    (tickOf s % agePeriod s ≠ 0 → exec .agerSweep s = .next s) ∧
    (∀ node,
      let t := (List.range (min (getF s Reg.tirLendFrames - s.tiers.lentOut.length) (poolFree s))).foldl (fun t _ => offerFrame t) s
      (t.tiers.lentOut.find? (fun e => e.2.borrower.isNone) = none →
        exec (.lentFrameRequest (.ask node)) s = .next (emit t (.lentAnswer node none))) ∧
      (∀ h e, t.tiers.lentOut.find? (fun e => e.2.borrower.isNone) = some (h, e) → exec (.lentFrameRequest (.ask node)) s =
        .next (emit (modTiers t (fun x => { x with lentOut := mput x.lentOut h { e with borrower := some node, gen := e.gen + 1 } }))
          (.lentAnswer node (some h))))) ∧
    (∀ node h e, mget s.tiers.lentOut h = some e →
      let t := releaseFrame s e.site e.frame
      let gone := e.recalled || decide (t.tiers.lentOut.length > getF t Reg.tirLendFrames) || !(mayOffer t e)
      (e.borrower ≠ some node → exec (.lentFrameRequest (.back node h)) s = .next s) ∧
      (e.borrower = some node → gone = true → exec (.lentFrameRequest (.back node h)) s =
        .next (offerAll (modTiers t (fun x => { x with lentOut := mdel x.lentOut h })))) ∧
      (e.borrower = some node → gone = false → exec (.lentFrameRequest (.back node h)) s =
        .next (modTiers t (fun x => { x with lentOut := mput x.lentOut h { e with borrower := none } })))) ∧
    (∀ l h, exec (.lentFrameRequest (.recall l h)) s = .next ((lentPages s l h).foldl recallPage s)) ∧
    (∀ l h, exec (.lentFrameRequest (.unknown l h)) s =
      .next ((lentPages s l h).foldl (fun t p => homeLost (intLog t 2 0 0x1F 0 (p * 4096)) p) s)) ∧
    (∀ l h words, exec (.lentFrameRequest (.spoiled l h words)) s =
      .next ((lentPages s l h).foldl (fun t p => modTiers t (fun x => { x with lentHeld := mmod x.lentHeld p (fun us =>
        us.zipIdx.map (fun u => { u.1 with pois := u.1.pois ||| maskOf 256 (fun w => words.contains (256 * u.2 + w)) })) })) s))

/-- R357, R359–R361, R365: the store takes writes it can place and holds the others until it can, in their order; programs a full row whose dies
serve, ends a program or an erase, and relocates what retired blocks hold; a read waits for the writes before it to its unit, a cached or an
unmapped unit answers at once, and one of the media when it completes, by the step that its words needed. Completes: flashWrite, flashWriteResume,
bandRowProgram, flashProgramComplete, flashRead, flashReadComplete. -/
def Obligations.FlashTraffic : Prop :=
  ∀ (s : State),
    (∀ req flu ru bytes pois, ringUp s = true → s.power.flushing = false → ru ≤ 3 → (fluKind s flu).isSome = true →
      let r : RUnit := ⟨bytes.take 4096, pois % 2 ^ 256⟩
      (fluHeld s flu = true → exec (.flashWrite req flu ru bytes pois) s = .next s) ∧
      (fluHeld s flu = false → flashWaits s = true → exec (.flashWrite req flu ru bytes pois) s = .next (waitWrite s req flu ru r)) ∧
      (fluHeld s flu = false → flashWaits s = false → flashWritable s = false →
        exec (.flashWrite req flu ru bytes pois) s = .next (emit s (.failed req (ruAddr flu ru) Status.timeout.code))) ∧
      (fluHeld s flu = false → flashWaits s = false → flashWritable s = true →
        (noLogical s flu = true →
          exec (.flashWrite req flu ru bytes pois) s = .next (emit s (.failed req (ruAddr flu ru) Status.tableFull.code))) ∧
        (noLogical s flu = false → ∀ t, tryWrite s flu ru r = some t →
          exec (.flashWrite req flu ru bytes pois) s = .next (emit t (.placed req (ruAddr flu ru)))) ∧
        (noLogical s flu = false → tryWrite s flu ru r = none →
          exec (.flashWrite req flu ru bytes pois) s = .next (waitWrite s req flu ru r)))) ∧
    (∀ x rest, s.flash.waitw = x :: rest → s.power.flushing = false → flashWaits s = false → fluHeld s x.flu = false →
      let d := modFlash s (fun f => { f with waitw := rest })
      (x.expiry ≤ tickOf s ∨ flashWritable s = false → exec .flashWriteResume s = .next (serveReads (writeDone d x .timeout))) ∧
      (tickOf s < x.expiry → flashWritable s = true →
        (noLogical s x.flu = true → exec .flashWriteResume s = .next (serveReads (writeDone d x .tableFull))) ∧
        (noLogical s x.flu = false → ∀ k, fluKind s x.flu = some k →
          (∀ t, fluWriteRu d x.flu k.1 k.2 x.ru x.data = some t → exec .flashWriteResume s = .next (serveReads (writeDone t x .ok))) ∧
          (fluWriteRu d x.flu k.1 k.2 x.ru x.data = none → exec .flashWriteResume s = .next s)))) ∧
    (∀ band row b, mget s.flash.bands band = some b → flashWritable s = true → row < bandPages s b → b.done.contains row = false →
      b.busy.contains row = false → exec (.bandRowProgram band row) s =
        if rowFull s band b row && b.members.all (fun m => dieServes s m.ch m.die) then
          .next (modFlash s (fun f => { f with bands := mput f.bands band { b with busy := sinsert b.busy row } }))
        else .next s) ∧
    (∀ band b failed, mget s.flash.bands band = some b → flashWritable s = true →
      (∀ r, b.busy.contains r = true →
        let t := programRow s band r
        let gone := (List.range b.members.length).filter (fun m => b.members[m]?.any (fun x => !(dieServes t x.ch x.die)))
        let t := modFlash t (fun f => { f with rebuild := f.rebuild ++ (gone.map (fun m => (band, r, m))).filter (fun x => !(f.rebuild.contains x)) })
        exec (.flashProgramComplete band (some r) failed) s = .next (clearRetired (if failed.isEmpty then t else retireBlocks t band failed))) ∧
      (b.erasing = true → s.flash.reads.any (fun x => x.pu.any (fun pu => (b.members.map blkKey).contains (puBlk pu))) = false →
        let t := failed.foldl (fun s m => (b.members[m]?.map (retireBlk s)).getD s) s
        exec (.flashProgramComplete band none failed) s =
          .next (modFlash (dropBand t band) (fun f => { f with noSpace := false, rebuild := f.rebuild.filter (fun r => r.1 != band) })))) ∧
    (∀ req flu ru weak, ringUp s = true → s.power.flushing = false → ru ≤ 3 →
      let x : FReq := ⟨s.flash.nextReq, req, flu, ru, ruZero, none, expiryOf (weaken s weak) Reg.fwToMediaFlash, false⟩
      let t := modFlash (weaken s weak) (fun f => { f with nextReq := f.nextReq + 1 })
      (readWaits t x = true → exec (.flashRead req ⟨flu, ru⟩ weak) s = .next (modFlash t (fun f => { f with reads := f.reads ++ [x] }))) ∧
      (readWaits t x = false → flashReadable t = true →
        (mget t.flash.map flu = none → exec (.flashRead req ⟨flu, ru⟩ weak) s = .next (answerRead t req flu ru ruZero)) ∧
        (∀ pu, mget t.flash.map flu = some pu →
          (mhas t.flash.cache pu = true → exec (.flashRead req ⟨flu, ru⟩ weak) s = .next (answerRead t req flu ru (fluRu t flu ru))) ∧
          (mhas t.flash.cache pu = false → exec (.flashRead req ⟨flu, ru⟩ weak) s = .next (modFlash t (fun f => { f with
            reads := f.reads ++ [{ x with data := fluRu t flu ru, pu := some pu, issued := !(puBlocked t pu) }] })))))) ∧
    (∀ id step x pu, s.flash.reads.find? (fun x => x.id = id) = some x → x.pu = some pu → flashReadable s = true →
      s.power.flushing = false → 1 ≤ step → step ≤ 5 → (puBlocked s pu = false ∨ x.issued = true) →
      let t := modFlash s (fun f => { f with reads := f.reads.filter (fun y => y.id != x.id), tries := mdel f.tries x.id })
      (t.flash.lost.contains pu = true →
        exec (.flashReadComplete id step) s = .next (answerRead (countStep t pu 5) x.req x.flu x.ru ruLost)) ∧
      (t.flash.lost.contains pu = false → (step = 5 ∨ step = 4 ∧ rowWhole t pu = false) →
        exec (.flashReadComplete id step) s = .next (answerRead (endStep t pu x.ru 5) x.req x.flu x.ru ruLost)) ∧
      (t.flash.lost.contains pu = false → step ≠ 5 → (step = 4 → rowWhole t pu = true) →
        exec (.flashReadComplete id step) s = .next (answerRead (endStep t pu x.ru step) x.req x.flu x.ru x.data))) ∧
    (∀ id step, s.flash.reads.find? (fun x => x.id = id) = none → flashReadable s = true → s.power.flushing = false →
      exec (.flashReadComplete id step) s = .next (bump s Reg.fwRecoverLateDropped))

/-- R352–R354, R362, R363, R366–R372: garbage collection moves the valid units out of its victim and counts them, the fold of a closed fast band moves
its units, the patrol reads the next unit, or ends its pass and begins again where none is left, and a checkpoint writes a segment and frees its
deltas. Mounting the flash shows what is fitted and begins, and ends ready, or failed where too few channels are good: the waiting reads are
served then, and the waiting writes of a failed store end in TIMEOUT; a lost unit is rebuilt from its row, and the accesses that waited go on; an
operation that does not answer is tried again, and then its die is suspect, its read rebuilt, its move abandoned; and a tested die comes back
empty or stays out. Completes: garbageCollection, slcFold, patrolRead, checkpointWrite, flashMount, mountComplete, rowRebuild, flashOpTimeout,
dieReturnTestDone. -/
def Obligations.FlashUpkeepAndLoss : Prop :=
  (∀ (s : State), flashWritable s = true →
    (gcNeeded s = false → exec .garbageCollection s = .next s) ∧
    (gcNeeded s = true → gcVictim s = none → exec .garbageCollection s = .next (clearRetired s)) ∧
    (∀ id b, gcNeeded s = true → gcVictim s = some (id, b) → exec .garbageCollection s =
      .next (clearRetired (bumpBy (emptyBand s id b false).1 Reg.fshRelocGc (emptyBand s id b false).2))) ∧
    (∀ band b, mget s.flash.bands band = some b → exec (.slcFold band) s =
      if b.slc && bandClosed s band b then .next (emptyBand s band b true).1 else .next s) ∧
    (s.flash.patrolWin = tickOf s / 1000 → ∀ steps pct,
      let wrap (t : State) : State :=
        bump (setF (modFlash t (fun f => { f with patrolPos := 0 })) Reg.fshPatrolPosition 0) Reg.fshPatrolPasses
      (getF s Reg.fshCtrlPatrolRate ≤ s.flash.patrolCnt → exec (.patrolRead steps pct) s = .next s) ∧
      (s.flash.patrolCnt < getF s Reg.fshCtrlPatrolRate →
        ((patrolUnits s).find? (fun pu => decide (s.flash.patrolPos ≤ pu)) = none →
          exec (.patrolRead steps pct) s = if s.flash.patrolPos = 0 then .next s else .next (wrap s)) ∧
        (∀ pu, (patrolUnits s).find? (fun pu => decide (s.flash.patrolPos ≤ pu)) = some pu → exec (.patrolRead steps pct) s =
          if (patrolUnits s).any (fun x => decide (pu < x)) then .next (patrolUnit s pu pct steps)
          else .next (wrap (patrolUnit s pu pct steps))))) ∧
    (∀ pu pct,
      let t := modFlash s (fun f => { f with patrolPos := pu + 1, patrolCnt := f.patrolCnt + 1 })
      let t := setF t Reg.fshPatrolPosition (getF t Reg.fshPatrolPosition + 1)
      (refreshes t pu pct [] = false → patrolUnit s pu pct [] = t) ∧
      (∀ u, refreshes t pu pct [] = true → relocate t pu false = some u → patrolUnit s pu pct [] = bump u Reg.fshRelocRefreshed)) ∧
    (∀ seg, exec (.checkpointWrite seg) s =
      let t := logMeta s 4 seg
      .next (modFlash t (fun f => { f with
        ckpt := (f.map.filter (fun m => covers t seg m.1)).foldl (fun c m => mput c m.1 m.2) (f.ckpt.filter (fun m => !(covers t seg m.1))),
        deltas := f.deltas.filter (fun d => !(covers t seg d.1)), kept := f.kept.filter (fun d => !(covers t seg d.1)) })))) ∧
  (∀ (s : State),
    (s.flash.st ≠ 0 → ∀ p, exec (.flashMount p) s = .next s) ∧
    (∀ p, s.flash.st = 0 → 5 ≤ getF s Reg.rstStatusStep → s.power.vddMgmt = true → s.power.tripped = false → s.power.halted = false →
      let t := (List.range 32).foldl (fun s c =>
        setF (setF s (Reg.fshChPresent.ix c) (p.present.getD c 0)) (Reg.fshChRate.ix c) (mountRate s p c)) s
      let t := (List.range p.unmatched).foldl (fun s _ =>
        let r := freeVal s; crownEventOpen r.1 (r.2 % 2 ^ 16) (r.2 / 2 ^ 16 % 4)) t
      let t := modFlash t (fun f => { f with
        geom := ⟨(List.range 32).map (mountDies p), p.pages, p.slcPages, p.blocks, p.retention, p.rated⟩ })
      let t := setF (setF (setF t Reg.fshGeomPlanes p.planes) Reg.fshGeomBits p.bits) Reg.fshGeomBlockPages p.pages
      let t := setF (setF t Reg.fshGeomQual p.qual) Reg.fshGeomDies (dieCount t)
      let cold := t.flash.cold || p.mapErr
      let t := showFlush (if cold then coldStore t else t)
      let t := if cold && t.flash.marker.isNone && decide (t.flash.seq > 0) then
        crownEvent t 0x0501 2 (rawReg t [Reg.fshFlushKind, Reg.fshFlushDone, Reg.fshFlushTicks, Reg.fshFlushMib]) else t
      let t := modFlash t (fun f => { f with
        st := 1, logical := mountLogical t, map := if cold then coldMap t else f.map, cold := false, flushStart := 0,
        rebuild := [], testing := [], tries := [], weak := [], wanted := [], patrolPos := 0, noSpace := false })
      exec (.flashMount p) s = .next (lostAtMount (modFlash t (fun f => { f with slcB := slcTarget t })))) ∧
    (s.flash.st = 1 →
      (31 ≤ goodChannels s → exec .mountComplete s = .next (serveReads (modFlash s (fun f => { f with st := 2 })))) ∧
      (goodChannels s < 31 → exec .mountComplete s =
        .next (serveReads (s.flash.waitw.foldl (fun s x => writeDone s x .timeout) (modFlash s (fun f => { f with st := 5, waitw := [] })))))) ∧
    (let t := rebuildRow s
     (t.flash.rebuild = s.flash.rebuild → exec .rowRebuild s = .next t) ∧
     (t.flash.rebuild ≠ s.flash.rebuild → exec .rowRebuild s = .next (resumeWaits t))) ∧
    (flashReadable s = true → s.power.flushing = false → rebuildNext s = none → rebuildRow s = s) ∧
    (∀ id row m b u t, flashWritable s = true → flashReadable s = true → s.power.flushing = false → rebuildNext s = some (id, row, m) →
      mget s.flash.bands id = some b →
      let pu := bandPu b row m
      let rest := (List.range b.members.length).filter (· != m)
      s.flash.lost.contains pu = false → rest.all (fun k => mhas s.flash.units (bandPu b row k) && !(s.flash.lost.contains (bandPu b row k))
        && !(s.flash.rebuild.contains (id, row, k))) = true →
      puValid s pu = true → mget s.flash.units pu = some u → placeUnit s u.flu u.kind u.name (rowXor s b row rest) false = some t →
      rebuildRow s = bump (modFlash t (fun f => { f with
        rebuild := f.rebuild.filter (fun r => r != (id, row, m)), noSpace := false,
        wanted := match mget f.bands id with | some b => f.wanted.filter (· != bandPu b row m) | none => f.wanted })) Reg.fshRebuildDone) ∧
    (∀ ch die op, flashReadable s = true → s.power.flushing = false → (usableDies s ch).contains die = true →
      let n := (mget s.flash.tries op).getD 0
      let out := suspect (modFlash s (fun f => { f with tries := mdel f.tries op })) ch die
      (∀ x pu, op < 2 ^ 32 → s.flash.reads.find? (fun x => x.id = op) = some x → x.expiry ≤ tickOf s → x.pu = some pu →
        (n < getF s Reg.fshCtrlRetries → exec (.flashOpTimeout ch die op none) s =
          .next (modFlash s (fun f => { f with tries := mput f.tries op (n + 1) }))) ∧
        (getF s Reg.fshCtrlRetries ≤ n → exec (.flashOpTimeout ch die op none) s = .next (finishRead out x pu 4))) ∧
      (∀ m, 2 ^ 32 ≤ op → s.flash.reads.find? (fun x => x.id = op) = none → mget s.tiers.moves (op - 2 ^ 32) = some m →
        m.start + atLeast1 s Reg.fwToMediaFlash ≤ tickOf s →
        (n < getF s Reg.fshCtrlRetries → exec (.flashOpTimeout ch die op none) s =
          .next (modFlash s (fun f => { f with tries := mput f.tries op (n + 1) }))) ∧
        (getF s Reg.fshCtrlRetries ≤ n → exec (.flashOpTimeout ch die op none) s = .next (failedMove out (op - 2 ^ 32))))) ∧
    (∀ ch die, s.flash.testing.contains (ch, die) = true → (rowsOnDie s ch die).any (fun r => s.flash.rebuild.contains r) = false →
      let t := modFlash s (fun f => { f with testing := f.testing.filter (· != (ch, die)) })
      let sus := getF t (Reg.fshDsuspSuspect.ix ch)
      exec (.dieReturnTestDone ch die false) s = .next (setF t (Reg.fshDsuspSuspect.ix ch) (sus ||| 2 ^ die)) ∧
      exec (.dieReturnTestDone ch die true) s =
        .next (modFlash (setF t (Reg.fshDsuspSuspect.ix ch) (sus - (if sus.testBit die then 2 ^ die else 0)))
          (fun f => { f with units := f.units.filter (fun u => puDie u.1 != dieKey ch die) }))))

/-- R381, R382, R387, R389, R391: a port whose partner and wiring fit comes up empty and shows its partner, one that does not fit stays down and is
counted, training starts again after 10,000 ticks, a port that goes down trains again, the next flit in order is taken with its credits and
acknowledged, and its NAK answered by the replay, while any other is asked for again, a quarantine ends at its tick, and the port map goes to
every up port when it changed or is 1,000 ticks old. Completes: portTraining, trainingRetry, portDown, flitReceive, quarantineEnd, portmapSend. -/
def Obligations.PortEvents : Prop :=
  ∀ (s : State) (p : Nat), p < 16 →
    (∀ node role strap, portSt s p = 1 ∨ portSt s p = 5 → exec (.portTraining p node role strap) s =
      if wiringOk s p node role strap then
        .next (setF (setPortSt (modPort s p (fun _ => portFresh)) p 2) (Reg.brmPortPartner.ix p) node)
      else .next (portEvent (bump (setPortSt s p 5) (Reg.brmPortMismatch.ix p)) p)) ∧
    (portSt s p = 1 ∨ portSt s p = 5 → exec (.trainingRetry p) s =
      if (portOf s p).since + 10000 ≤ tickOf s then .next (startTraining s p) else .next s) ∧
    (portSt s p = 2 ∨ portSt s p = 3 →
      exec (.portDown p) s = .next (sysLost (startTraining (leaveUp (setPortSt s p 1) p) p)) ∧
      (∀ decoded corrected words head ctl rest crc,
        let flit := flitJoin words head ctl rest crc
        let t := if decoded && corrected then bump s (Reg.brmPerrFecCorr.ix p) else s
        let next := ((portOf t p).rxSeq + 1) % 2 ^ 24
        (decoded = true → flitOk flit = true → flitSeq flit = next →
          let t := modPort t p (fun y => { y with rxSeq := flitSeq flit, nak := false })
          let t := (List.range 8).foldl (fun t c =>
            modPort t p (fun y => { y with credit := mput y.credit c (creditLeft t p c + flitCredit flit c) })) t
          let t := takeAck t p (flitAck flit)
          let again := emit (bumpBy t (Reg.brmPerrReplays.ix p) (portOf t p).replay.length) (.flit p 2 ((flitAck flit + 1) % 2 ^ 24))
          (flitNak flit = false →
            exec (.flitReceive p decoded corrected words head ctl rest crc) s = .next (emit (drainPort t p) (.flit p 0 (flitSeq flit)))) ∧
          (flitNak flit = true →
            exec (.flitReceive p decoded corrected words head ctl rest crc) s = .next (emit (drainPort again p) (.flit p 0 (flitSeq flit))))) ∧
        (decoded = false ∨ flitOk flit = false ∨ flitSeq flit ≠ next → exec (.flitReceive p decoded corrected words head ctl rest crc) s =
          .next (emit (modPort t p (fun x => { x with nak := true })) (.flit p 1 (portOf t p).rxSeq))))) ∧
    (portSt s p = 3 → exec (.quarantineEnd p) s = if (portOf s p).quarEnd ≤ tickOf s then
        let t := portEvent (setPortSt s p 2) p
        .next (cxlEvent t 1 false 0x0601 (portWord t p))
      else .next s) ∧
    (portSt s p ≠ 1 → portSt s p ≠ 2 → portSt s p ≠ 3 → portSt s p ≠ 5 → ∀ node role strap d c words head ctl rest crc,
      exec (.portTraining p node role strap) s = .next s ∧ exec (.portDown p) s = .next (sysLost s) ∧
      exec (.flitReceive p d c words head ctl rest crc) s = .next s) ∧
    ((upMask s = s.brim.mapSent → tickOf s < s.brim.mapTick + 1000 → exec .portmapSend s = .next s) ∧
      (upMask s ≠ s.brim.mapSent ∨ s.brim.mapTick + 1000 ≤ tickOf s → exec .portmapSend s =
        let t := modBrim s (fun b => { b with mapSent := upMask s, mapTick := tickOf s })
        .next ((setBitsOf 14 (upMask t)).foldl (fun t p =>
          let h := { packet0 10 7 (nodeNo t) (neighbour (nodeNo t) p) with plen := 8, total := 8, payload := toBytes 8 (upMask t) }
          emit (sendOn t p h none) (.portmap p (upMask t))) t)))

/-- R54, R127, R307, R384, R387, R388, R391, R397, R398, R450: a packet for another node stands in its buffer, where a damaged word is poisoned, and
leaves by the port towards its node, keeping its order, and is counted; one with no up port that way is dropped and refused with reason 4, and one
that a quarantined port brings is dropped and counted. A SYS message left with no path fails FENCED at the node that sent it. A NAK ends its
message with the reason's status or sends the packet again by another path, a SYS message that is whole starts a shard search or brings a partial
list that is still awaited, while a late one is dropped and counted, a PORTMAP is kept, and NAKs are counted. Completes: packetForward, nak, sys,
portmap. -/
def Obligations.ForwardingAndSystemPackets : Prop :=
  (∀ (s : State) (port : Nat) (p : Packet),
    (portSt s port = 3 → exec (.packetForward port p) s = .next (sysLost (bump s (Reg.brmPfwdDropped.ix port)))) ∧
    (portSt s port ≠ 3 → portUp s port = true → p.dest ≠ nodeNo s →
      let t := arrives s port p
      let b := inBuffer p
      (∀ q, port < 14 → p.dest < 64 → portTo (nodeNo t) p.dest = some q → portUp t q = true → exec (.packetForward port p) s =
        let u := modBrim t (fun x => { x with forwards := x.forwards ++ [⟨port, q, b⟩] })
        .next (sysLost (bump (sendOn u q b (some (fwdKey b, b.offset))) (Reg.brmPfwdFwd.ix q)))) ∧
      (14 ≤ port ∨ 64 ≤ p.dest ∨ portTo (nodeNo t) p.dest = none ∨ (∃ q, portTo (nodeNo t) p.dest = some q ∧ portUp t q = false) →
        exec (.packetForward port p) s = .next (sysLost (dropPacket t port b 4 false)))) ∧
    (portSt s port ≠ 3 → portUp s port = false ∨ p.dest = nodeNo s → exec (.packetForward port p) s = .next (sysLost s)) ∧
    (s.brim.cut = [] → sysLost s = s)) ∧
  (∀ (s : State) (port : Nat) (p0 : Packet) (t : State) (p : Packet),
    (PacketReady s port 8 p0 t p →
      let u := bump t Reg.rmaNakReceived
      let u := if p.lent && p.reason = 2 then lentUnknown u p.src p.key else u
      (mget u.brim.msgs p.msgid = none → exec (.nak port p0) s = .next (sysLost u)) ∧
      (∀ m, mget u.brim.msgs p.msgid = some m → p.reason = 4 →
        let sent := resend u p.msgid (p.offset / 4096)
        (∀ v, sent = some v → exec (.nak port p0) s = .next (sysLost v)) ∧
        (sent = none → m.sys = none → exec (.nak port p0) s = .next (sysLost (failMsg u p.msgid .fenced)))) ∧
      (∀ m, mget u.brim.msgs p.msgid = some m → p.reason ≠ 4 →
        let u := if p.reason = 5 || p.reason = 6 then stopMsg u p.msgid else u
        (m.sys = none → exec (.nak port p0) s = .next (sysLost (failMsg u p.msgid (nakStatus p.reason)))) ∧
        (∀ y, m.sys = some y → exec (.nak port p0) s = .next (sysLost
          (sysFailed (modBrim u (fun b => { b with msgs := mdel b.msgs p.msgid })) m.dest y (nakStatus p.reason)))))) ∧
    (PacketReady s port 9 p0 t p →
      (∀ ref index shard par filter query qfmt qpois expiry,
        exec (.sys port p0 (.request ref index shard par filter query qfmt qpois expiry)) s =
          .next (sysLost (reassemble t port p none (fun s =>
            joinSearch s (newSearch s ref (some p.src) index shard par filter query qfmt (if qpois then some none else none) expiry))))) ∧
      (∀ ref b, exec (.sys port p0 (.partialList ref b)) s = .next (sysLost (reassemble t port p none (fun s =>
        if openPart s ref then arrivePart s ref (partialOf b) else bump s Reg.fwRecoverLateDropped))))) ∧
    (PacketReady s port 10 p0 t p → exec (.portmap port p0) s =
      .next (sysLost (modBrim t (fun b => { b with portmaps := mput b.portmaps p.src (getLE p.payload 0 8) })))))

/-- R390, R398, R399, R402, R403: what a node does with a packet that it takes: a WRITE packet of a good key is placed and, with its message whole,
answered; a READ_REQ is answered with the region's bytes; READ_DATA is placed for the operation that asked; an atomic acts once for a requester's
number and its response is sent again for a repeat; a refused key is answered with its reason; and answers end what they answer. Completes: write,
readReq, readData, fetchAdd, compareSwap, atomicResp, placed. -/
def Obligations.PacketsTaken : Prop :=
  ∀ (s : State) (port : Nat) (p0 : Packet) (t : State) (p : Packet),
    (PacketReady s port 1 p0 t p →
      (keyReason t p 1 ≠ 0 → exec (.write port p0) s = .next (sysLost (dropPacket t port p (keyReason t p 1) true))) ∧
      (keyReason t p 1 = 0 → exec (.write port p0) s = .next (sysLost (reassemble t port p (some (targetOf t p)) (fun s =>
        match sendMsg s p.src { packet0 7 7 (nodeNo s) p.src with msgid := p.msgid, reqid := p.reqid } [] [] none none with
        | some x => x.1
        | none => s))))) ∧
    (PacketReady s port 2 p0 t p →
      (keyReason t p 0 ≠ 0 → exec (.readReq port p0) s = .next (sysLost (dropPacket t port p (keyReason t p 0) true))) ∧
      (keyReason t p 0 = 0 → ∀ u bytes pois, (targetOf t p).get t p.total = (u, bytes, pois) →
        let u := bumpBy u Reg.intPoisonCarried pois.length
        let m := sendMsg u p.src { packet0 3 p.cls (nodeNo t) p.src with total := p.total, reqid := p.reqid, tenant := p.tenant, queue := p.queue }
          bytes pois none none
        (∀ v, m = some v → exec (.readReq port p0) s = .next (sysLost v.1)) ∧
        (m = none → exec (.readReq port p0) s = .next (sysLost u)))) ∧
    (PacketReady s port 3 p0 t p →
      (∀ o, mget t.brim.ops p.reqid = some o → o.cls = 0x11 → o.dest = p.src →
        (o.bound = none ∨ o.bound = some p.msgid →
          exec (.readData port p0) s =
            let u := modBrim t (fun b => { b with ops := mput b.ops p.reqid { o with bound := some p.msgid } })
            .next (sysLost (reassemble u port p (some (.node o.laddr)) (fun s => endOp s p.reqid .ok)))) ∧
        (∀ m, o.bound = some m → m ≠ p.msgid → exec (.readData port p0) s = .next (sysLost (bump t Reg.rmaReasmDups)))) ∧
      (mget t.brim.ops p.reqid = none → t.brim.whole.any (fun x => x.1 = msgKey p) = false →
        exec (.readData port p0) s = .next (sysLost (bump t Reg.fwRecoverLateDropped)))) ∧
    (∀ swap : Bool, PacketReady s port (if swap then 5 else 4) p0 t p →
      let c : Instr := if swap then .compareSwap port p0 else .fetchAdd port p0
      let key := p.src * 2 ^ 32 + p.reqid
      (keyReason t { p with total := 8 } 2 = 0 →
        (∀ r, mget t.brim.atomics key = some r → exec c s = .next (sysLost (sendAtomicResp (bump t Reg.rmaAtomicReplayed) p r))) ∧
        (mget t.brim.atomics key = none → 4096 ≤ t.brim.atomics.length → exec c s = .next (sysLost (dropPacket t port p 6 false))) ∧
        (mget t.brim.atomics key = none → t.brim.atomics.length < 4096 →
          let a := applyAtomic t (targetOf t p) swap (getLE p.payload 0 8) (getLE p.payload 8 8) (!p.pois.isEmpty)
          let r : Replay := ⟨a.2.1, if a.2.2 then Status.poisoned.code else 0, expiryOf t Reg.fwToDescRma⟩
          exec c s = .next (sysLost (sendAtomicResp (modBrim a.1 (fun b => { b with atomics := mput b.atomics key r })) p r)))) ∧
      (keyReason t { p with total := 8 } 2 ≠ 0 →
        exec c s = .next (sysLost (dropPacket t port p (keyReason t { p with total := 8 } 2) true)))) ∧
    (PacketReady s port 6 p0 t p →
      (∀ o, mget t.brim.ops p.reqid = some o → (o.cls = 0x12 ∨ o.cls = 0x13) → o.dest = p.src → exec (.atomicResp port p0) s =
        .next (sysLost (endOp (placeBytes t o.laddr (p.payload.take 8) (if p.pois.contains 0 then [0] else [])) p.reqid
          (if p.reason = Status.poisoned.code then .poisoned else .ok)))) ∧
      (mget t.brim.ops p.reqid = none → exec (.atomicResp port p0) s = .next (sysLost (bump t Reg.fwRecoverLateDropped)))) ∧
    (PacketReady s port 7 p0 t p →
      let w := t.brim.writes.find? (fun w => w.msgid = p.msgid && w.dest = p.src && w.failed.isNone)
      (∀ x, w = some x → exec (.placed port p0) s =
        .next (sysLost (settleFlushes (modBrim t (fun b => { b with writes := b.writes.erase x }))))) ∧
      (w = none → exec (.placed port p0) s = .next (sysLost (bump t Reg.fwRecoverLateDropped))))

/-- R333, R397, R399, R402, R404, R444: a message out of time fails with TIMEOUT, a SYS message only once its last packet is acknowledged; a move
whose lender does not answer is abandoned; an unfinished reassembly is given up at its tick; and a kept atomic answer or whole-message key is
forgotten at its tick and not before; nothing else changes. Completes: rmaTimeout, reassemblyTimeout, atomicReplayExpiry, wholeKeyExpiry. -/
def Obligations.PacketExpiries : Prop :=
  ∀ (s : State) (a b : Nat),
    (∀ m, a < 2 ^ 32 → mget s.brim.msgs a = some m →
      (m.expiry ≤ tickOf s → (m.sys = none ∨ m.acked = true) → exec (.rmaTimeout a) s = .next (failMsg s a .timeout)) ∧
      (tickOf s < m.expiry ∨ m.sys ≠ none ∧ m.acked = false → exec (.rmaTimeout a) s = .next s)) ∧
    (∀ m i lender handle, mget s.tiers.moves a = some m → m.dst = .lent i lender handle → exec (.rmaTimeout (2 ^ 32 + a)) s =
      if m.start + atLeast1 s Reg.fwToDescRma ≤ tickOf s then .next (resumeWaits (abandonMove s a)) else .next s) ∧
    (mget s.brim.reasm (a * 2 ^ 32 + b) = none → ∀ m, exec (.reassemblyTimeout a b m) s = .next s) ∧
    (∀ e m, mget s.brim.reasm (a * 2 ^ 32 + b) = some e → tickOf s < e.expiry → exec (.reassemblyTimeout a b m) s = .next s) ∧
    (∀ e m, mget s.brim.reasm (a * 2 ^ 32 + b) = some e → e.expiry ≤ tickOf s → e.kind ≠ 9 →
      let t := bump (modBrim s (fun x => { x with
        reasm := mdel x.reasm (a * 2 ^ 32 + b), failed := sinsert x.failed (a * 2 ^ 32 + b) })) Reg.rmaReasmFailed
      let at_ : Target := (e.site.map (fun i => Target.frame i e.addr)).getD (.node e.addr)
      let t := e.got.foldl (fun u i => undefBytes u at_ (4096 * i) (min 4096 (e.total - 4096 * i))) t
      let t := crownEventOpen (freeVal t).1 ((freeVal t).2 % 2 ^ 16) ((freeVal t).2 / 2 ^ 16 % 4)
      (e.kind = 3 → exec (.reassemblyTimeout a b m) s = .next (endOp t e.reqid .reassemblyFailed)) ∧
      (e.kind ≠ 3 → exec (.reassemblyTimeout a b m) s = .next t)) ∧
    (∀ e ref l, mget s.brim.reasm (a * 2 ^ 32 + b) = some e → e.kind = 9 → e.expiry ≤ tickOf s →
      exec (.reassemblyTimeout a b (some (.partialList ref l))) s =
        .next (arrivePart (reassemblyTimeout a b s) ref (failedPartial (partialOf l).shard 0 0 .reassemblyFailed))) ∧
    (∃ t, exec (.atomicReplayExpiry a b) s = .next t ∧ t = { s with brim := { s.brim with atomics := t.brim.atomics } } ∧
      ∀ k r, (k, r) ∈ t.brim.atomics ↔ (k, r) ∈ s.brim.atomics ∧ ¬ (k = a * 2 ^ 32 + b ∧ r.expiry ≤ tickOf s)) ∧
    (∃ t, exec (.wholeKeyExpiry a b) s = .next t ∧ t = { s with brim := { s.brim with whole := t.brim.whole } } ∧
      ∀ k e, (k, e) ∈ t.brim.whole ↔ (k, e) ∈ s.brim.whole ∧ ¬ (k = a * 2 ^ 32 + b ∧ e ≤ tickOf s))

end Obs
end

