-- ==== Sys2Proof/Laws/Cells.lean ====
section
/-! SUPPORT. What a cell's slot does when it issues. -/
namespace Sys2Proof.Machine
/-- A slot that issues and is done with `k` and `hits` leaves `slotDone`. -/
theorem cellOp_done {s img cell ecc ups slot op x r t c k hits} (h : SlotReady s img cell ecc ups slot op x r t c)
    (ha : actSlot slot (cellEnv t x r cell c ups) c.base c.cur (c.bundle c.base.seq.pc) = .done k hits) :
    cellOp img cell ecc ups slot op s = slotDone t img cell slot k hits := by
  obtain ⟨t0, c0, hc, hst, hf, hr, rfl⟩ := h.read
  have h1 := h.image; have h2 := h.run; have h3 := h.inStep; have h4 := h.thawed
  have h5 := h.needed; have h6 := h.holds; have h7 := h.notYet; have h8 := h.legal
  have h9 := h.inTime
  unfold cellOp
  simp only [h1, h2, hc, hr]
  simp only [h3, h4, hst, hf, h5, h6, h7, h8, h9, ha]
  simp [slotDone]
end Sys2Proof.Machine
end

