-- ==== Sys2Proof/Laws/Maps.lean ====
section
/-! SUPPORT. The laws of the sorted key-value lists that hold sparse state: reading back what was put, leaving other keys alone. -/
namespace Sys2Proof.Machine

theorem mget_mput_same {α : Type} (m : SMap α) (k : Nat) (v : α) : mget (mput m k v) k = some v := by
  induction m with
  | nil => simp [mput, mget]
  | cons p m ih =>
    obtain ⟨j, w⟩ := p
    by_cases h : k < j
    · simp [mput, mget, h]
    · by_cases e : k = j
      · simp [mput, mget, e]
      · have e' : ¬ j = k := fun x => e x.symm
        simp [mput, mget, h, e, e', ih]

theorem mget_mput_other {α : Type} (m : SMap α) (k j : Nat) (v : α) (h : j ≠ k) : mget (mput m k v) j = mget m j := by
  induction m with
  | nil => simp [mput, mget, Ne.symm h]
  | cons p m ih =>
    obtain ⟨i, w⟩ := p
    by_cases h1 : k < i
    · simp [mput, mget, h1, Ne.symm h]
    · by_cases e : k = i
      · subst e; simp [mput, mget, Ne.symm h]
      · simp [mput, mget, h1, e, ih]

theorem mget_mput {α : Type} (m : SMap α) (k j : Nat) (v : α) :
    mget (mput m k v) j = if j = k then some v else mget m j := by
  by_cases h : j = k
  · subst h; simp [mget_mput_same]
  · simp [h, mget_mput_other]

theorem mget_mdel_same {α : Type} (m : SMap α) (k : Nat) : mget (mdel m k) k = none := by
  induction m with
  | nil => rfl
  | cons p m ih =>
    obtain ⟨j, w⟩ := p
    by_cases h : j = k <;> simp [mdel, mget, h, ih]

theorem mget_mdel_other {α : Type} (m : SMap α) (k j : Nat) (h : j ≠ k) : mget (mdel m k) j = mget m j := by
  induction m with
  | nil => rfl
  | cons p m ih =>
    obtain ⟨i, w⟩ := p
    by_cases e : i = k
    · subst e; simp [mdel, mget, ih, Ne.symm h]
    · simp [mdel, mget, e, ih]

theorem mget_mdel {α : Type} (m : SMap α) (k j : Nat) : mget (mdel m k) j = if j = k then none else mget m j := by
  by_cases h : j = k
  · subst h; simp [mget_mdel_same]
  · simp [h, mget_mdel_other]

end Sys2Proof.Machine
end

