-- ==== Sys2Proof/Laws/Memory.lean ====
section
/-! SUPPORT. The stored bytes of the DRAM sites: what a read after a write gives, and that every operation over them keeps the
canonical form. -/
namespace Sys2Proof.Machine

theorem memWf_cons (k : Nat) (b : Byte) (m : List Host.Cell) :
    memWf ((k, b) :: m) = true ↔ b ≠ cellDefault ∧ (∀ p ∈ m, k < p.1) ∧ memWf m = true := by
  induction m generalizing k b with
  | nil => simp [memWf]
  | cons p m ih =>
    obtain ⟨j, c⟩ := p
    have e := ih j c
    simp only [memWf, Bool.and_eq_true, decide_eq_true_eq, bne_iff_ne, List.mem_cons]
    constructor
    · rintro ⟨⟨h1, h2⟩, h3⟩
      refine ⟨h1, ?_, h3⟩
      rintro q (rfl | hq)
      · exact h2
      · exact Nat.lt_trans h2 ((e.1 h3).2.1 q hq)
    · rintro ⟨h1, h2, h3⟩
      exact ⟨⟨h1, h2 _ (Or.inl rfl)⟩, h3⟩

theorem mem_mput {α : Type} {m : SMap α} {k : Nat} {v : α} {p : Nat × α} (h : p ∈ mput m k v) : p = (k, v) ∨ p ∈ m := by
  induction m with
  | nil => simpa [mput] using h
  | cons q m ih =>
    obtain ⟨j, w⟩ := q
    simp only [mput] at h
    split at h
    · simpa using h
    · split at h
      · rcases List.mem_cons.1 h with h | h
        · exact Or.inl h
        · exact Or.inr (List.mem_cons_of_mem _ h)
      · rcases List.mem_cons.1 h with h | h
        · exact Or.inr (by simp [h])
        · rcases ih h with h | h
          · exact Or.inl h
          · exact Or.inr (List.mem_cons_of_mem _ h)

theorem mem_mdel {α : Type} {m : SMap α} {k : Nat} {p : Nat × α} (h : p ∈ mdel m k) : p ∈ m := by
  induction m with
  | nil => simp [mdel] at h
  | cons q m ih =>
    obtain ⟨j, w⟩ := q
    simp only [mdel] at h
    split at h
    · exact List.mem_cons_of_mem _ (ih h)
    · rcases List.mem_cons.1 h with h | h
      · simp [h]
      · exact List.mem_cons_of_mem _ (ih h)

theorem memWf_mput {m : List Host.Cell} {k : Nat} {b : Byte} (hb : b ≠ cellDefault) (h : memWf m = true) :
    memWf (mput m k b) = true := by
  induction m with
  | nil => simp [mput, memWf, hb]
  | cons q m ih =>
    obtain ⟨j, c⟩ := q
    have hq := (memWf_cons j c m).1 h
    by_cases h1 : k < j
    · simp only [mput, h1, if_true]
      refine (memWf_cons _ _ _).2 ⟨hb, ?_, h⟩
      intro p hp
      rcases List.mem_cons.1 hp with hp | hp
      · simpa [hp] using h1
      · exact Nat.lt_trans h1 (hq.2.1 p hp)
    · by_cases h2 : k = j
      · subst h2
        simp only [mput, Nat.lt_irrefl, if_false, if_true]
        exact (memWf_cons _ _ _).2 ⟨hb, hq.2.1, hq.2.2⟩
      · simp only [mput, h1, h2, if_false]
        refine (memWf_cons _ _ _).2 ⟨hq.1, ?_, ih hq.2.2⟩
        intro p hp
        rcases mem_mput hp with hp | hp
        · subst hp; exact Nat.lt_of_le_of_ne (Nat.le_of_not_lt h1) (fun x => h2 x.symm)
        · exact hq.2.1 p hp

theorem memWf_mdel {m : List Host.Cell} {k : Nat} (h : memWf m = true) : memWf (mdel m k) = true := by
  induction m with
  | nil => rfl
  | cons q m ih =>
    obtain ⟨j, c⟩ := q
    have hq := (memWf_cons j c m).1 h
    simp only [mdel]
    split
    · exact ih hq.2.2
    · exact (memWf_cons _ _ _).2 ⟨hq.1, fun p hp => hq.2.1 p (mem_mdel hp), ih hq.2.2⟩

theorem memWf_filter {m : List Host.Cell} (f : Host.Cell → Bool) (h : memWf m = true) : memWf (m.filter f) = true := by
  induction m with
  | nil => rfl
  | cons q m ih =>
    obtain ⟨j, c⟩ := q
    have hq := (memWf_cons j c m).1 h
    simp only [List.filter_cons]
    split
    · exact (memWf_cons _ _ _).2 ⟨hq.1, fun p hp => hq.2.1 p (List.mem_filter.1 hp).1, ih hq.2.2⟩
    · exact ih hq.2.2

theorem memWf_memPut {m : List Host.Cell} (k : Nat) (b : Byte) (h : memWf m = true) : memWf (memPut m k b) = true := by
  unfold memPut
  split
  · exact memWf_mdel h
  · exact memWf_mput ‹_› h

theorem memWf_memPuts {m : List Host.Cell} (k : Nat) (bs : List Byte) (h : memWf m = true) :
    memWf (memPuts m k bs) = true := by
  induction bs generalizing m k with
  | nil => exact h
  | cons b bs ih => exact ih _ (memWf_memPut k b h)

theorem memGet_memPut (m : List Host.Cell) (k j : Nat) (b : Byte) :
    memGet (memPut m k b) j = if j = k then b else memGet m j := by
  unfold memPut memGet
  split
  · rename_i hb
    rw [mget_mdel]
    split <;> simp [*]
  · rw [mget_mput]
    split <;> simp

theorem memGet_memPuts (m : List Host.Cell) (k j : Nat) (bs : List Byte) :
    memGet (memPuts m k bs) j = if k ≤ j ∧ j < k + bs.length then bs.getD (j - k) 0 else memGet m j := by
  induction bs generalizing m k with
  | nil => simp only [memPuts, List.length_nil]; rw [if_neg (by omega)]
  | cons b bs ih =>
    rw [memPuts, ih, memGet_memPut]
    by_cases h : j = k
    · subst h
      rw [if_neg (by omega), if_pos rfl, if_pos ⟨Nat.le_refl _, by simp⟩, Nat.sub_self]; rfl
    · by_cases h2 : k ≤ j ∧ j < k + (b :: bs).length
      · have e : j - k = (j - (k + 1)) + 1 := by omega
        have h3 := h2.2
        rw [List.length_cons] at h3
        rw [if_pos h2, if_pos (by omega), e]; rfl
      · have h3 := h2
        rw [List.length_cons] at h3
        rw [if_neg h2, if_neg h, if_neg (by omega)]

end Sys2Proof.Machine
end

