-- ==== Sys2Proof/Laws/Keep.lean ====
section
/-! SUPPORT. The rules by which the canonical form of the stored bytes passes through the shapes of the model's functions. -/
namespace Sys2Proof.Machine
open Sys2Proof

theorem mem_mk (a0 : List Instr) (a1 : Part) (a2 : Nat) (a3 : Nat) (a4 : SMap Nat) (a5 : List Sent) (a6 : Bow) (a7 : Twin) (a8 : Dram) (a9 : Integrity) (a10 : SMap KSite) (a11 : Tiers) (a12 : HostIf) (a13 : Fw) (a14 : Power) (a15 : Crown) (a16 : Srch) (a17 : Card) (a18 : Felt) (a19 : Flash) (a20 : Brim) :
    MemOk ⟨a0, a1, a2, a3, a4, a5, a6, a7, a8, a9, a10, a11, a12, a13, a14, a15, a16, a17, a18, a19, a20⟩ = (memWf a8.cells = true) := rfl

theorem mem_cells {s : State} (h : MemOk s) : memWf s.dram.cells = true := h
theorem mem_ite {c : Prop} [Decidable c] {a b : State} (ha : MemOk a) (hb : MemOk b) : MemOk (if c then a else b) := by
  split <;> assumption
theorem mem_foldl {α : Type} (f : State → α → State) (hf : ∀ s x, MemOk s → MemOk (f s x)) (l : List α) (s : State) (h : MemOk s) :
    MemOk (l.foldl f s) := by
  induction l generalizing s with
  | nil => exact h
  | cons x l ih => exact ih _ (hf _ _ h)
theorem mem_foldl_fst {α β : Type} (f : State × β → α → State × β) (hf : ∀ s x, MemOk s.1 → MemOk (f s x).1) (l : List α) (s : State × β)
    (h : MemOk s.1) : MemOk (l.foldl f s).1 := by
  induction l generalizing s with
  | nil => exact h
  | cons x l ih => exact ih _ (hf _ _ h)
theorem mem_getD {o : Option State} {s : State} (h : MemOk s) (ho : ∀ t, o = some t → MemOk t) : MemOk (o.getD s) := by
  cases o with
  | none => exact h
  | some t => exact ho t rfl
theorem mem_foldl_opt {α : Type} (g : State → α → Option State) (hg : ∀ t x u, MemOk t → g t x = some u → MemOk u) (l : List α)
    (o : Option State) (ho : ∀ t, o = some t → MemOk t) : ∀ u, l.foldl (fun a x => a.bind (fun t => g t x)) o = some u → MemOk u := by
  induction l generalizing o with
  | nil => exact ho
  | cons x l ih =>
    apply ih
    intro t ht
    cases o with
    | none => simp at ht
    | some q => exact hg q x t (ho q rfl) ht

end Sys2Proof.Machine
end

