-- ==== Sys2Proof/Laws/KeepOps.lean ====
section
/-! SUPPORT. Every function of Machine/Ops.lean that answers a state keeps the canonical form of the stored bytes. -/
set_option linter.unusedSimpArgs false
namespace Sys2Proof.Machine
open Sys2Proof

theorem setF_mem (s : State) (f : Fld) (v : Nat) (h_s : MemOk s) :
    MemOk (setF s f v) := by
  unfold setF; simp +contextual [mem_mk, mem_cells, mem_foldl, mem_foldl_fst, mem_ite, *]

theorem bumpBy_mem (s : State) (f : Fld) (n : Nat) (h_s : MemOk s) :
    MemOk (bumpBy s f n) := by
  unfold bumpBy; simp +contextual [mem_mk, mem_cells, mem_foldl, mem_foldl_fst, mem_ite, *, setF_mem]

theorem bump_mem (s : State) (f : Fld) (h_s : MemOk s) :
    MemOk (bump s f) := by
  unfold bump; simp +contextual [mem_mk, mem_cells, mem_foldl, mem_foldl_fst, mem_ite, *, bumpBy_mem]

theorem raiseHigh_mem (s : State) (f : Fld) (v : Nat) (h_s : MemOk s) :
    MemOk (raiseHigh s f v) := by
  unfold raiseHigh; simp +contextual [mem_mk, mem_cells, mem_foldl, mem_foldl_fst, mem_ite, *, setF_mem]

theorem freeVal_mem (s : State) (h_s : MemOk s) :
    MemOk (freeVal s).1 := by
  unfold freeVal; simp +contextual [mem_mk, mem_cells, mem_foldl, mem_foldl_fst, mem_ite, *]

theorem emit_mem (s : State) (x : Sent) (h_s : MemOk s) :
    MemOk (emit s x) := by
  unfold emit; simp +contextual [mem_mk, mem_cells, mem_foldl, mem_foldl_fst, mem_ite, *]

theorem setMsix_mem (s : State) (fn : Nat) (m : Msix) (h_s : MemOk s) :
    MemOk (setMsix s fn m) := by
  unfold setMsix; simp +contextual [mem_mk, mem_cells, mem_foldl, mem_foldl_fst, mem_ite, *]

theorem msixRaise_mem (s : State) (fn e : Nat) (h_s : MemOk s) :
    MemOk (msixRaise s fn e) := by
  unfold msixRaise; grind [mem_mk, mem_cells, mem_foldl, mem_foldl_fst, emit_mem, setMsix_mem]

theorem msixFlush_mem (s : State) (fn e : Nat) (h_s : MemOk s) :
    MemOk (msixFlush s fn e) := by
  unfold msixFlush; grind [mem_mk, mem_cells, mem_foldl, mem_foldl_fst, emit_mem, setMsix_mem]

theorem crownEvent_mem (s : State) (code sev data : Nat) (h_s : MemOk s) :
    MemOk (crownEvent s code sev data) := by
  unfold crownEvent; (repeat' split) <;> simp +contextual [mem_mk, mem_cells, mem_foldl, mem_foldl_fst, mem_ite, *, bump_mem]

theorem crownEventOpen_mem (s : State) (code sev : Nat) (h_s : MemOk s) :
    MemOk (crownEventOpen s code sev) := by
  unfold crownEventOpen; simp +contextual [mem_mk, mem_cells, mem_foldl, mem_foldl_fst, mem_ite, *, freeVal_mem, crownEvent_mem]

theorem cxlEvent_mem (s : State) (sev : Nat) (general : Bool) (code data : Nat) (h_s : MemOk s) :
    MemOk (cxlEvent s sev general code data) := by
  unfold cxlEvent; grind [mem_mk, mem_cells, mem_foldl, mem_foldl_fst, msixRaise_mem]

theorem intLog_mem (s : State) (kind place pos unit addr : Nat) (h_s : MemOk s) :
    MemOk (intLog s kind place pos unit addr) := by
  unfold intLog; grind [mem_mk, mem_cells, mem_foldl, mem_foldl_fst, bump_mem, crownEvent_mem, cxlEvent_mem]

theorem consume_mem (s : State) (place unit addr : Nat) (h_s : MemOk s) :
    MemOk (consume s place unit addr) := by
  unfold consume; simp +contextual [mem_mk, mem_cells, mem_foldl, mem_foldl_fst, mem_ite, *, bump_mem, intLog_mem]

theorem logCorrected_mem (s : State) (place pos unit addr : Nat) (h_s : MemOk s) :
    MemOk (logCorrected s place pos unit addr) := by
  unfold logCorrected; simp +contextual [mem_mk, mem_cells, mem_foldl, mem_foldl_fst, mem_ite, *, intLog_mem]

theorem pathHit_mem (s : State) (unit : Nat) (u : PathUps) (h_s : MemOk s) :
    MemOk (pathHit s unit u) := by
  unfold pathHit; grind [mem_mk, mem_cells, mem_foldl, mem_foldl_fst, bump_mem, freeVal_mem, intLog_mem, logCorrected_mem]

theorem pathHits_mem (s : State) (port : Nat) (us : List PathUps) (h_s : MemOk s) :
    MemOk (pathHits s port us) := by
  unfold pathHits; simp +contextual [mem_mk, mem_cells, mem_foldl, mem_foldl_fst, mem_ite, *, pathHit_mem]

end Sys2Proof.Machine
end

