-- ==== Sys2Proof/Laws/KeepDram.lean ====
section
/-! SUPPORT. Every function of Machine/Dram.lean that answers a state keeps the canonical form of the stored bytes. -/
set_option linter.unusedSimpArgs false
namespace Sys2Proof.Machine
open Sys2Proof

theorem putRaw_mem (s : State) (site word : Nat) (w : Codeword) (h_s : MemOk s) :
    MemOk (putRaw s site word w) := by
  exact memWf_memPuts _ _ h_s

theorem markWritten_mem (s : State) (site line : Nat) (h_s : MemOk s) :
    MemOk (markWritten s site line) := by
  unfold markWritten; grind [mem_mk, mem_cells, mem_foldl, mem_foldl_fst, putRaw_mem]

theorem clearLine_mem (s : State) (site line : Nat) (h_s : MemOk s) :
    MemOk (clearLine s site line) := by
  exact memWf_filter _ h_s

theorem countLineRead_mem (s : State) (site line : Nat) (h_s : MemOk s) :
    MemOk (countLineRead s site line) := by
  unfold countLineRead; grind [mem_mk, mem_cells, mem_foldl, mem_foldl_fst, bump_mem]

theorem readWord_mem (s : State) (site word : Nat) (h_s : MemOk s) :
    MemOk (readWord s site word).1 := by
  unfold readWord; grind [mem_mk, mem_cells, mem_foldl, mem_foldl_fst, bump_mem, intLog_mem, logCorrected_mem, putRaw_mem, markWritten_mem]

theorem readWords_mem (s : State) (site : Nat) (y0_ : Nat) (y1_ : Nat) (h_s : MemOk s) :
    MemOk (readWords s site y0_ y1_).1 := by
  induction y1_ generalizing s y0_ with
  | zero => exact h_s
  | succ n ih => exact ih _ _ (readWord_mem s site y0_ h_s)

theorem dramRead_mem (s : State) (site w n : Nat) (h_s : MemOk s) :
    MemOk (dramRead s site w n).1 := by
  unfold dramRead; grind [mem_mk, mem_cells, mem_foldl, mem_foldl_fst, countLineRead_mem, readWords_mem]

theorem writeWhole_mem (s : State) (site word : Nat) (p : PWord) (h_s : MemOk s) :
    MemOk (writeWhole s site word p) := by
  unfold writeWhole; simp +contextual [mem_mk, mem_cells, mem_foldl, mem_foldl_fst, mem_ite, *, putRaw_mem]

theorem writeNarrow_mem (s : State) (site word off : Nat) (bs : List Byte) (pois : Bool) (h_s : MemOk s) :
    MemOk (writeNarrow s site word off bs pois) := by
  unfold writeNarrow; grind [mem_mk, mem_cells, mem_foldl, mem_foldl_fst, bump_mem, intLog_mem, logCorrected_mem, putRaw_mem]

theorem writeInto_mem (s : State) (site word off : Nat) (bs : List Byte) (pois : Bool) (h_s : MemOk s) :
    MemOk (writeInto s site word off bs pois) := by
  unfold writeInto; simp +contextual [mem_mk, mem_cells, mem_foldl, mem_foldl_fst, mem_ite, *, writeWhole_mem, writeNarrow_mem]

theorem firstWrite_mem (s : State) (site line : Nat) (h_s : MemOk s) :
    MemOk (firstWrite s site line) := by
  unfold firstWrite; simp +contextual [mem_mk, mem_cells, mem_foldl, mem_foldl_fst, mem_ite, *, markWritten_mem, clearLine_mem]

theorem writeFresh_mem (s : State) (site word off : Nat) (bs : List Byte) (pois : Bool) (h_s : MemOk s) :
    MemOk (writeFresh s site word off bs pois) := by
  unfold writeFresh; simp +contextual [mem_mk, mem_cells, mem_foldl, mem_foldl_fst, mem_ite, *, putRaw_mem]

theorem writeWord_mem (s : State) (site word off : Nat) (bs : List Byte) (pois : Bool) (h_s : MemOk s) :
    MemOk (writeWord s site word off bs pois) := by
  unfold writeWord; grind [mem_mk, mem_cells, mem_foldl, mem_foldl_fst, putRaw_mem, markWritten_mem, writeInto_mem, firstWrite_mem]

theorem dramWrite_mem (s : State) (site a : Nat) (bs : List Byte) (pois : List Nat) (h_s : MemOk s) :
    MemOk (dramWrite s site a bs pois) := by
  unfold dramWrite; grind [mem_mk, mem_cells, mem_foldl, mem_foldl_fst, bump_mem, firstWrite_mem, writeFresh_mem, writeWord_mem]

theorem releaseFrame_mem (s : State) (site frame : Nat) (h_s : MemOk s) :
    MemOk (releaseFrame s site frame) := by
  unfold releaseFrame; simp +contextual [mem_mk, mem_cells, mem_foldl, mem_foldl_fst, mem_ite, *]

end Sys2Proof.Machine
end

