-- ==== Sys2Proof/Laws/KeepFlashCore.lean ====
section
/-! SUPPORT. Every function of Machine/FlashCore.lean that answers a state keeps the canonical form of the stored bytes. -/
set_option linter.unusedSimpArgs false
namespace Sys2Proof.Machine
open Sys2Proof

theorem modFlash_mem (s : State) (f : Flash → Flash) (h_s : MemOk s) :
    MemOk (modFlash s f) := by
  unfold modFlash; simp +contextual [mem_mk, mem_cells, mem_foldl, mem_foldl_fst, mem_ite, *]

theorem newBand_mem (s : State) (slc : Bool) (reserve : Bool) (h_s : MemOk s) :
    ∀ x_, newBand s slc reserve = some x_ → MemOk x_.1 := by
  intro x_ hx_; unfold newBand at hx_; grind [mem_mk, mem_cells, mem_foldl, mem_foldl_fst, modFlash_mem]

theorem takePlace_mem (s : State) (native reserve : Bool) (h_s : MemOk s) :
    ∀ x_, takePlace s native reserve = some x_ → MemOk x_.1 := by
  intro x_ hx_
  unfold takePlace at hx_
  simp only [] at hx_
  split at hx_
  · simp at hx_
  · rename_i t id hgot
    have ht : MemOk t := by
      split at hgot
      · rename_i q hq
        simp at hgot
        obtain ⟨rfl, rfl⟩ := hgot
        repeat' split at hq
        all_goals first | (simp at hq; done) | (simp at hq; obtain ⟨rfl, rfl⟩ := hq; exact h_s)
      · split at hgot
        · simp at hgot
          obtain ⟨rfl, rfl⟩ := hgot
          exact modFlash_mem _ _ (newBand_mem _ _ _ h_s _ ‹_›)
        · simp at hgot
    split at hx_
    · simp at hx_
    · simp at hx_; subst hx_; exact modFlash_mem _ _ ht

theorem setMap_mem (s : State) (flu : Nat) (pu : Option Nat) (h_s : MemOk s) :
    MemOk (setMap s flu pu) := by
  unfold setMap; simp +contextual [mem_mk, mem_cells, mem_foldl, mem_foldl_fst, mem_ite, *, modFlash_mem]

theorem placeUnit_mem (s : State) (flu kind name : Nat) (rus : List RUnit) (native : Bool) (h_s : MemOk s) :
    ∀ x_, placeUnit s flu kind name rus native = some x_ → MemOk x_ := by
  intro x_ hx_
  unfold placeUnit at hx_
  split at hx_
  · simp at hx_
  · split at hx_
    · simp at hx_
    · rename_i t pu e
      simp at hx_
      subst hx_
      have := takePlace_mem _ _ _ h_s _ e
      simp [setMap_mem, modFlash_mem, *]

theorem wantUnits_mem (s : State) (pus : List Nat) (h_s : MemOk s) :
    MemOk (wantUnits s pus) := by
  unfold wantUnits; simp +contextual [mem_mk, mem_cells, mem_foldl, mem_foldl_fst, mem_ite, *, modFlash_mem]

theorem fluUnmap_mem (s : State) (flu : Nat) (h_s : MemOk s) :
    MemOk (fluUnmap s flu) := by
  unfold fluUnmap; simp +contextual [mem_mk, mem_cells, mem_foldl, mem_foldl_fst, mem_ite, *, setMap_mem]

theorem relocate_mem (s : State) (pu : Nat) (native : Bool) (h_s : MemOk s) :
    ∀ x_, relocate s pu native = some x_ → MemOk x_ := by
  intro x_ hx_; unfold relocate at hx_; grind [mem_mk, mem_cells, mem_foldl, mem_foldl_fst, placeUnit_mem]

theorem relocateAll_mem (s : State) (native : Bool) (pus : List Nat) (h_s : MemOk s) :
    MemOk (relocateAll s native pus).1 := by
  unfold relocateAll; grind [mem_mk, mem_cells, mem_foldl, mem_foldl_fst, relocate_mem]

theorem countStep_mem (s : State) (pu step : Nat) (h_s : MemOk s) :
    MemOk (countStep s pu step) := by
  unfold countStep; grind [mem_mk, mem_cells, mem_foldl, mem_foldl_fst, bump_mem, freeVal_mem, intLog_mem]

theorem loseRu_mem (s : State) (pu ru : Nat) (h_s : MemOk s) :
    MemOk (loseRu s pu ru) := by
  unfold loseRu; simp +contextual [mem_mk, mem_cells, mem_foldl, mem_foldl_fst, mem_ite, *, modFlash_mem]

theorem endStep_mem (s : State) (pu ru step : Nat) (h_s : MemOk s) :
    MemOk (endStep s pu ru step) := by
  unfold endStep; dsimp only
  have h1 := countStep_mem (modFlash s (fun f => { f with weak := mdel f.weak (4 * pu + ru) })) pu step (modFlash_mem _ _ h_s)
  split
  · exact loseRu_mem _ _ _ h1
  · split
    · exact mem_getD h1 (fun u hu => relocate_mem _ _ _ h1 _ hu)
    · exact h1

theorem recoverRu_mem (s : State) (pu ru : Nat) (h_s : MemOk s) :
    MemOk (recoverRu s pu ru) := by
  unfold recoverRu; (repeat' split) <;> simp +contextual [mem_mk, mem_cells, mem_foldl, mem_foldl_fst, mem_ite, *, endStep_mem]

theorem recoverFlu_mem (s : State) (flu : Nat) (rus : List Nat) (h_s : MemOk s) :
    MemOk (recoverFlu s flu rus) := by
  unfold recoverFlu; (repeat' split) <;> simp +contextual [mem_mk, mem_cells, mem_foldl, mem_foldl_fst, mem_ite, *, recoverRu_mem]

theorem fluWriteRu_mem (s : State) (flu kind name ru : Nat) (r : RUnit) (h_s : MemOk s) :
    ∀ x_, fluWriteRu s flu kind name ru r = some x_ → MemOk x_ := by
  intro x_ hx_; unfold fluWriteRu at hx_; grind [mem_mk, mem_cells, mem_foldl, mem_foldl_fst, placeUnit_mem, recoverFlu_mem]

theorem fluWrite_mem (s : State) (flu kind name : Nat) (rus : List RUnit) (h_s : MemOk s) :
    ∀ x_, fluWrite s flu kind name rus = some x_ → MemOk x_ := by
  intro x_ hx_; unfold fluWrite at hx_; grind [mem_mk, mem_cells, mem_foldl, mem_foldl_fst, placeUnit_mem]

theorem programRow_mem (s : State) (id row : Nat) (h_s : MemOk s) :
    MemOk (programRow s id row) := by
  unfold programRow; (repeat' split) <;> simp +contextual [mem_mk, mem_cells, mem_foldl, mem_foldl_fst, mem_ite, *, modFlash_mem]

theorem logMeta_mem (s : State) (kind n : Nat) (h_s : MemOk s) :
    MemOk (logMeta s kind n) := by
  unfold logMeta; simp +contextual [mem_mk, mem_cells, mem_foldl, mem_foldl_fst, mem_ite, *, modFlash_mem]

theorem ckptSegment_mem (s : State) (segment : Nat) (h_s : MemOk s) :
    MemOk (ckptSegment s segment) := by
  unfold ckptSegment; simp +contextual [mem_mk, mem_cells, mem_foldl, mem_foldl_fst, mem_ite, *, modFlash_mem, logMeta_mem]

theorem makeRoom_mem (s : State) (h_s : MemOk s) :
    MemOk (makeRoom s) := by
  unfold makeRoom; grind [mem_mk, mem_cells, mem_foldl, mem_foldl_fst, programRow_mem, ckptSegment_mem]

theorem rehome_mem (s : State) (pu : Nat) (h_s : MemOk s) :
    MemOk (rehome s pu) := by
  unfold rehome
  have hm := modFlash_mem s (fun f => { f with cache := mdel f.cache pu }) h_s
  split
  · split
    · exact mem_getD h_s (fun t ht => placeUnit_mem _ _ _ _ _ _ hm _ ht)
    · exact hm
  · exact h_s

theorem leaveDie_mem (s : State) (ch die : Nat) (h_s : MemOk s) :
    MemOk (leaveDie s ch die) := by
  unfold leaveDie; simp +contextual [mem_mk, mem_cells, mem_foldl, mem_foldl_fst, mem_ite, *, modFlash_mem, rehome_mem]

theorem loseDie_mem (s : State) (ch die : Nat) (h_s : MemOk s) :
    MemOk (loseDie s ch die) := by
  unfold loseDie; simp +contextual [mem_mk, mem_cells, mem_foldl, mem_foldl_fst, mem_ite, *, modFlash_mem, leaveDie_mem]

theorem dropBand_mem (s : State) (id : Nat) (h_s : MemOk s) :
    MemOk (dropBand s id) := by
  unfold dropBand; (repeat' split) <;> simp +contextual [mem_mk, mem_cells, mem_foldl, mem_foldl_fst, mem_ite, *, modFlash_mem]

theorem tierStore_mem (s : State) (page : Nat) (units : List RUnit) (h_s : MemOk s) :
    ∀ x_, tierStore s page units = some x_ → MemOk x_ := by
  intro x_ hx_
  unfold tierStore at hx_
  simp only at hx_
  split at hx_
  · simp at hx_
  · refine mem_foldl_opt _ (fun t j u ht hu => fluWrite_mem _ _ _ _ _ ht _ hu) _ _ ?_ _ hx_
    intro u hu; simp at hu; subst hu
    exact makeRoom_mem _ (mem_foldl _ (fun t j ht => fluUnmap_mem _ _ ht) _ _ h_s)

theorem tierRelease_mem (s : State) (page : Nat) (h_s : MemOk s) :
    MemOk (tierRelease s page) := by
  unfold tierRelease; simp +contextual [mem_mk, mem_cells, mem_foldl, mem_foldl_fst, mem_ite, *, fluUnmap_mem]

end Sys2Proof.Machine
end

