-- ==== Sys2Proof/Laws/KeepNodeRange.lean ====
section
/-! SUPPORT. Every function of Machine/NodeRange.lean that answers a state keeps the canonical form of the stored bytes. -/
set_option linter.unusedSimpArgs false
namespace Sys2Proof.Machine
open Sys2Proof

theorem modTiers_mem (s : State) (f : Tiers → Tiers) (h_s : MemOk s) :
    MemOk (modTiers s f) := by
  unfold modTiers; simp +contextual [mem_mk, mem_cells, mem_foldl, mem_foldl_fst, mem_ite, *]

theorem setEnt_mem (s : State) (p : Nat) (e : PageEnt) (h_s : MemOk s) :
    MemOk (setEnt s p e) := by
  unfold setEnt; simp +contextual [mem_mk, mem_cells, mem_foldl, mem_foldl_fst, mem_ite, *, modTiers_mem]

theorem serveStored_mem (s : State) (place : Nat) (units : List RUnit) (w n : Nat) (h_s : MemOk s) :
    MemOk (serveStored s place units w n).1 := by
  unfold serveStored; grind [mem_mk, mem_cells, mem_foldl, mem_foldl_fst, freeVal_mem, intLog_mem]

theorem homeRead_mem (s : State) (page : Nat) (h : Home) (w n : Nat) (h_s : MemOk s) :
    MemOk (homeRead s page h w n).1 := by
  unfold homeRead; grind [mem_mk, mem_cells, mem_foldl, mem_foldl_fst, emit_mem, dramRead_mem, recoverFlu_mem, serveStored_mem]

theorem touch_mem (s : State) (page : Nat) (h_s : MemOk s) :
    MemOk (touch s page) := by
  unfold touch; simp +contextual [mem_mk, mem_cells, mem_foldl, mem_foldl_fst, mem_ite, *, setEnt_mem]

theorem consumeNr_mem (s : State) (w : Nat) (h_s : MemOk s) :
    MemOk (consumeNr s w) := by
  unfold consumeNr; (repeat' split) <;> simp +contextual [mem_mk, mem_cells, mem_foldl, mem_foldl_fst, mem_ite, *, freeVal_mem, consume_mem]

theorem fillFrame_mem (s : State) (site frame : Nat) (ws : List PWord) (h_s : MemOk s) :
    MemOk (fillFrame s site frame ws) := by
  unfold fillFrame; simp +contextual [mem_mk, mem_cells, mem_foldl, mem_foldl_fst, mem_ite, *, dramWrite_mem]

theorem placeAt_mem (s : State) (page : Nat) (dst : Home) (ws : List PWord) (h_s : MemOk s) :
    ∀ x_, placeAt s page dst ws = some x_ → MemOk x_.1 := by
  intro x_ hx_
  unfold placeAt at hx_
  split at hx_
  · simp at hx_; subst hx_; simp [fillFrame_mem, *]
  · split at hx_
    · simp at hx_; subst hx_; exact emit_mem _ _ (modTiers_mem _ _ h_s)
    · simp at hx_
  · simp only [Option.map_eq_some_iff] at hx_
    obtain ⟨t, ht, rfl⟩ := hx_
    exact tierStore_mem _ _ _ h_s _ ht
  · simp at hx_

theorem releaseHome_mem (s : State) (page : Nat) (h : Home) (h_s : MemOk s) :
    MemOk (releaseHome s page h) := by
  unfold releaseHome; (repeat' split) <;> simp +contextual [mem_mk, mem_cells, mem_foldl, mem_foldl_fst, mem_ite, *, emit_mem, releaseFrame_mem, tierRelease_mem, modTiers_mem]

theorem countMove_mem (s : State) (src dst : Home) (h_s : MemOk s) :
    MemOk (countMove s src dst) := by
  unfold countMove; (repeat' split) <;> simp +contextual [mem_mk, mem_cells, mem_foldl, mem_foldl_fst, mem_ite, *, bump_mem]

theorem commitMove_mem (s : State) (page : Nat) (src dst : Home) (h_s : MemOk s) :
    ∀ x_, commitMove s page src dst = some x_ → MemOk x_ := by
  intro x_ hx_
  unfold commitMove at hx_
  simp only at hx_
  split at hx_
  · simp at hx_; subst hx_; simp [setEnt_mem, releaseHome_mem, h_s]
  · split at hx_
    · simp at hx_
    · rename_i t ws e
      have ht : MemOk t := by have := homeRead_mem s page src 0 4096 h_s; rw [e] at this; exact this
      have hr := tierRelease_mem t page ht
      split at hx_
      · simp at hx_
      · rename_i u h e2
        have hu : MemOk u := by
          refine placeAt_mem _ _ _ _ ?_ _ e2
          repeat' split
          all_goals assumption
        simp at hx_
        subst hx_
        apply countMove_mem
        apply setEnt_mem
        have hb := bumpBy_mem u Reg.intPoisonCarried (countBad ws) hu
        split
        · exact hb
        · exact emit_mem _ _ hb
        · exact releaseHome_mem _ _ _ hb

theorem moveToT2_mem (s : State) (page : Nat) (site : Option Nat) (h_s : MemOk s) :
    ∀ x_, moveToT2 s page site = some x_ → MemOk x_ := by
  intro x_ hx_; unfold moveToT2 at hx_; grind [mem_mk, mem_cells, mem_foldl, mem_foldl_fst, commitMove_mem]

theorem allocT2_mem (s : State) (page : Nat) (h_s : MemOk s) :
    ∀ x_, allocT2 s page = some x_ → MemOk x_ := by
  intro x_ hx_
  unfold allocT2 at hx_
  simp only [Option.map_eq_some_iff] at hx_
  obtain ⟨p, hp, rfl⟩ := hx_
  exact setEnt_mem _ _ _ h_s

theorem endMove_mem (s : State) (slot page : Nat) (h : Home) (h_s : MemOk s) :
    MemOk (endMove s slot page h) := by
  unfold endMove; simp +contextual [mem_mk, mem_cells, mem_foldl, mem_foldl_fst, mem_ite, *, modTiers_mem, setEnt_mem]

theorem abandonMove_mem (s : State) (slot : Nat) (h_s : MemOk s) :
    MemOk (abandonMove s slot) := by
  unfold abandonMove; grind [mem_mk, mem_cells, mem_foldl, mem_foldl_fst, bump_mem, emit_mem, modTiers_mem, endMove_mem]

theorem finishMove_mem (s : State) (slot : Nat) (h_s : MemOk s) :
    MemOk (finishMove s slot) := by
  unfold finishMove; grind [mem_mk, mem_cells, mem_foldl, mem_foldl_fst, commitMove_mem, endMove_mem, abandonMove_mem]

theorem mayRetry_mem (s : State) (page : Nat) (h_s : MemOk s) :
    MemOk (mayRetry s page) := by
  unfold mayRetry; simp +contextual [mem_mk, mem_cells, mem_foldl, mem_foldl_fst, mem_ite, *, modTiers_mem]

theorem dropHome_mem (s : State) (page : Nat) (h_s : MemOk s) :
    MemOk (dropHome s page) := by
  unfold dropHome; grind [mem_mk, mem_cells, mem_foldl, mem_foldl_fst, modTiers_mem, setEnt_mem, releaseHome_mem]

theorem homeLost_mem (s : State) (page : Nat) (h_s : MemOk s) :
    MemOk (homeLost s page) := by
  unfold homeLost
  extract_lets e s1 d
  have h1 : MemOk s1 := bump_mem _ _ h_s
  have hd : MemOk d := dropHome_mem _ _ h1
  clear_value s1 e d
  generalize pickFrame d e.tenant none = p
  cases p with
  | some p => exact setEnt_mem _ _ _ (fillFrame_mem _ _ _ _ hd)
  | none =>
    have h2 := placeAt_mem d page (.t4 0) lostWords hd
    generalize placeAt d page (.t4 0) lostWords = q at h2
    cases q with
    | some q => exact setEnt_mem _ _ _ (h2 _ rfl)
    | none => exact h1

theorem homeCheck_mem (s : State) (page : Nat) (h_s : MemOk s) :
    MemOk (homeCheck s page) := by
  unfold homeCheck; grind [mem_mk, mem_cells, mem_foldl, mem_foldl_fst, bump_mem, intLog_mem, modTiers_mem, homeLost_mem]

theorem demoteFor_mem  (y0_ : Nat) (y1_ : State) (y2_ : Nat) (h_y1_ : MemOk y1_) :
    MemOk (demoteFor y0_ y1_ y2_) := by
  induction y0_ generalizing y1_ with
  | zero => exact h_y1_
  | succ n ih =>
    unfold demoteFor
    split
    · exact h_y1_
    · split
      · exact h_y1_
      · split
        · exact ih _ (commitMove_mem _ _ _ _ h_y1_ _ ‹_›)
        · exact h_y1_

theorem seekFrame_mem (s : State) (tenant : Nat) (h_s : MemOk s) :
    MemOk (seekFrame s tenant) := by
  unfold seekFrame; simp +contextual [mem_mk, mem_cells, mem_foldl, mem_foldl_fst, mem_ite, *, demoteFor_mem]

theorem promote_mem (s : State) (page : Nat) (h_s : MemOk s) :
    MemOk (promote s page) := by
  unfold promote
  dsimp only
  repeat' split
  all_goals first | exact h_s | exact mem_getD h_s (fun u hu => moveToT2_mem _ _ _ h_s _ hu)

theorem nrReadNow_mem (s : State) (w n : Nat) (h_s : MemOk s) :
    MemOk (nrReadNow s w n).1 := by
  unfold nrReadNow; grind [mem_mk, mem_cells, mem_foldl, mem_foldl_fst, homeRead_mem, touch_mem]

theorem wakeScan_mem (s : State) (addr len : Nat) (h_s : MemOk s) :
    MemOk (wakeScan s addr len) := by
  unfold wakeScan; simp +contextual [mem_mk, mem_cells, mem_foldl, mem_foldl_fst, mem_ite, *]

theorem logNarrow_mem (s : State) (h : Home) (n : Nat) (h_s : MemOk s) :
    MemOk (logNarrow s h n) := by
  unfold logNarrow; grind [mem_mk, mem_cells, mem_foldl, mem_foldl_fst, bump_mem, freeVal_mem, intLog_mem]

theorem writeInPlace_mem (s : State) (page : Nat) (h : Home) (off : Nat) (bs : List Byte) (pois : List Nat) (h_s : MemOk s) :
    ∀ x_, writeInPlace s page h off bs pois = some x_ → MemOk x_ := by
  intro x_ hx_
  unfold writeInPlace at hx_
  split at hx_
  · simp at hx_
  · rename_i t ws e
    have ht : MemOk t := by have := homeRead_mem s page h 0 4096 h_s; rw [e] at this; exact this
    split at hx_
    · have hu := placeAt_mem _ _ _ _ ht _ ‹_›
      simp at hx_; subst hx_
      exact logNarrow_mem _ _ _ (setEnt_mem _ _ _ hu)
    · simp at hx_

theorem pageWrite_mem (s : State) (page off : Nat) (bs : List Byte) (pois : List Nat) (seek : Bool) (h_s : MemOk s) :
    MemOk (pageWrite s page off bs pois seek).1 := by
  unfold pageWrite
  extract_lets e
  clear_value e
  split
  · rename_i t0 s0 ws _ _
    have hs : MemOk s0 := by
      simp only [s0]; split
      · exact seekFrame_mem _ _ h_s
      · exact h_s
    clear_value s0 ws
    split
    · have ht := allocT2_mem _ _ hs _ ‹_›
      split
      · exact dramWrite_mem _ _ _ _ _ ht
      · exact ht
    · try dsimp only
      split
      · exact setEnt_mem _ _ _ (placeAt_mem _ _ _ _ hs _ ‹_›)
      · exact hs
  · exact touch_mem _ _ (dramWrite_mem _ _ _ _ _ h_s)
  · extract_lets st s0
    have hs : MemOk s0 := by
      simp only [s0]; split
      · exact seekFrame_mem _ _ h_s
      · exact h_s
    clear_value s0 st
    split
    · rename_i t e1
      have ht : MemOk t := by
        repeat' split at e1
        all_goals first | (simp at e1; done) | exact moveToT2_mem _ _ _ hs _ e1
      split
      · exact touch_mem _ _ (dramWrite_mem _ _ _ _ _ ht)
      · exact ht
    · split
      · exact touch_mem _ _ (writeInPlace_mem _ _ _ _ _ _ hs _ ‹_›)
      · exact hs

theorem writePages_mem  (y0_ : Nat) (y1_ : State) (y2_ : Nat) (y3_ : List Byte) (y4_ : List Nat) (y5_ : Nat) (y6_ : Bool) (h_y1_ : MemOk y1_) :
    MemOk (writePages y0_ y1_ y2_ y3_ y4_ y5_ y6_).1 := by
  induction y0_ generalizing y1_ y2_ y3_ with
  | zero => exact h_y1_
  | succ n ih =>
    cases y3_ with
    | nil => exact h_y1_
    | cons b bs =>
      unfold writePages
      dsimp only
      split
      · exact pageWrite_mem _ _ _ _ _ _ h_y1_
      · exact ih _ _ _ (pageWrite_mem _ _ _ _ _ _ h_y1_)

theorem dropStaged_mem (s : State) (addr len : Nat) (h_s : MemOk s) :
    MemOk (dropStaged s addr len) := by
  unfold dropStaged; simp +contextual [mem_mk, mem_cells, mem_foldl, mem_foldl_fst, mem_ite, *]

theorem nrWriteNow_mem (s : State) (addr : Nat) (bs : List Byte) (pois : List Nat) (seek : Bool) (h_s : MemOk s) :
    MemOk (nrWriteNow s addr bs pois seek).1 := by
  unfold nrWriteNow; grind [mem_mk, mem_cells, mem_foldl, mem_foldl_fst, wakeScan_mem, writePages_mem, dropStaged_mem]

theorem answerAcc_mem (s : State) (a : WaitAcc) (h_s : MemOk s) :
    MemOk (answerAcc s a) := by
  unfold answerAcc; grind [mem_mk, mem_cells, mem_foldl, mem_foldl_fst, bump_mem, emit_mem, cxlEvent_mem, consumeNr_mem, promote_mem, nrReadNow_mem, nrWriteNow_mem]

theorem startMove_mem (s : State) (page : Nat) (dst : MoveDst) (work : Option Nat) (h_s : MemOk s) :
    ∀ x_, startMove s page dst work = some x_ → MemOk x_ := by
  intro x_ hx_; unfold startMove at hx_; grind [mem_mk, mem_cells, mem_foldl, mem_foldl_fst, modTiers_mem, setEnt_mem, releaseHome_mem]

theorem startForWrite_mem (s : State) (a : WaitAcc) (h_s : MemOk s) :
    MemOk (startForWrite s a) := by
  unfold startForWrite
  split
  · apply mem_foldl _ _ _ _ h_s
    intro t p ht
    split
    all_goals first | exact ht | exact mem_getD ht (fun u hu => startMove_mem _ _ _ _ ht _ hu)
  · exact h_s

theorem serveOrWait_mem (s : State) (a : WaitAcc) (h_s : MemOk s) :
    MemOk (serveOrWait s a) := by
  unfold serveOrWait; grind [mem_mk, mem_cells, mem_foldl, mem_foldl_fst, wantUnits_mem, modTiers_mem, answerAcc_mem, startForWrite_mem]

theorem resumeWaits_mem (s : State) (h_s : MemOk s) :
    MemOk (resumeWaits s) := by
  unfold resumeWaits; grind [mem_mk, mem_cells, mem_foldl, mem_foldl_fst, modTiers_mem, startForWrite_mem, serveOrWait_mem]

theorem settle_mem (s : State) (page : Nat) (h_s : MemOk s) :
    MemOk (settle s page) := by
  unfold settle; (repeat' split) <;> simp +contextual [mem_mk, mem_cells, mem_foldl, mem_foldl_fst, mem_ite, *, finishMove_mem, resumeWaits_mem]

theorem admitPage_mem (s : State) (page : Nat) (h_s : MemOk s) :
    MemOk (admitPage s page) := by
  unfold admitPage; grind [mem_mk, mem_cells, mem_foldl, mem_foldl_fst, bump_mem, mayRetry_mem, homeCheck_mem, settle_mem]

theorem nrReadWords_mem (s : State) (w n : Nat) (h_s : MemOk s) :
    MemOk (nrReadWords s w n).1 := by
  unfold nrReadWords; grind [mem_mk, mem_cells, mem_foldl, mem_foldl_fst, promote_mem, nrReadNow_mem, admitPage_mem]

theorem nrRead_mem (s : State) (addr len : Nat) (h_s : MemOk s) :
    MemOk (nrRead s addr len).1 := by
  unfold nrRead; simp +contextual [mem_mk, mem_cells, mem_foldl, mem_foldl_fst, mem_ite, *, nrReadWords_mem]

theorem nrGet_mem (s : State) (addr n : Nat) (h_s : MemOk s) :
    MemOk (nrGet s addr n).1 := by
  unfold nrGet; simp +contextual [mem_mk, mem_cells, mem_foldl, mem_foldl_fst, mem_ite, *, nrRead_mem]

theorem nrWrite_mem (s : State) (addr : Nat) (bs : List Byte) (pois : List Nat) (h_s : MemOk s) :
    MemOk (nrWrite s addr bs pois).1 := by
  unfold nrWrite; grind [mem_mk, mem_cells, mem_foldl, mem_foldl_fst, nrWriteNow_mem, admitPage_mem]

theorem nrPut_mem (s : State) (addr : Nat) (bs : List Byte) (h_s : MemOk s) :
    MemOk (nrPut s addr bs) := by
  unfold nrPut; simp +contextual [mem_mk, mem_cells, mem_foldl, mem_foldl_fst, mem_ite, *, nrWrite_mem]

theorem nrTry_mem (s : State) (addr : Nat) (bs : List Byte) (h_s : MemOk s) :
    ∀ x_, nrTry s addr bs = some x_ → MemOk x_ := by
  intro x_ hx_; unfold nrTry at hx_; grind [mem_mk, mem_cells, mem_foldl, mem_foldl_fst, nrWrite_mem]

end Sys2Proof.Machine
end

