-- ==== Sys2Proof/Laws/KeepQueues.lean ====
section
/-! SUPPORT. Every function of Machine/Queues.lean that answers a state keeps the canonical form of the stored bytes. -/
set_option linter.unusedSimpArgs false
namespace Sys2Proof.Machine
open Sys2Proof

theorem modHost_mem (s : State) (f : HostIf → HostIf) (h_s : MemOk s) :
    MemOk (modHost s f) := by
  unfold modHost; simp +contextual [mem_mk, mem_cells, mem_foldl, mem_foldl_fst, mem_ite, *]

theorem modQueue_mem (s : State) (q : Nat) (f : Queue → Queue) (h_s : MemOk s) :
    MemOk (modQueue s q f) := by
  unfold modQueue; simp +contextual [mem_mk, mem_cells, mem_foldl, mem_foldl_fst, mem_ite, *, modHost_mem]

theorem modWork_mem (s : State) (id : Nat) (f : Work → Work) (h_s : MemOk s) :
    MemOk (modWork s id f) := by
  unfold modWork; simp +contextual [mem_mk, mem_cells, mem_foldl, mem_foldl_fst, mem_ite, *, modHost_mem]

theorem beginWork_mem (s : State) (id : Nat) (h_s : MemOk s) :
    MemOk (beginWork s id) := by
  unfold beginWork; simp +contextual [mem_mk, mem_cells, mem_foldl, mem_foldl_fst, mem_ite, *, modWork_mem]

theorem dropWork_mem (s : State) (id : Nat) (h_s : MemOk s) :
    MemOk (dropWork s id) := by
  unfold dropWork; simp +contextual [mem_mk, mem_cells, mem_foldl, mem_foldl_fst, mem_ite, *, modHost_mem]

theorem fireIrq_mem (s : State) (q : Nat) (h_s : MemOk s) :
    MemOk (fireIrq s q) := by
  unfold fireIrq; simp +contextual [mem_mk, mem_cells, mem_foldl, mem_foldl_fst, mem_ite, *, msixRaise_mem, modQueue_mem]

theorem countIrq_mem (s : State) (q : Nat) (signal : Bool) (h_s : MemOk s) :
    MemOk (countIrq s q signal) := by
  unfold countIrq; grind [mem_mk, mem_cells, mem_foldl, mem_foldl_fst, modQueue_mem, fireIrq_mem]

theorem readCqHead_mem (s : State) (q : Nat) (h_s : MemOk s) :
    MemOk (readCqHead s q) := by
  unfold readCqHead
  split
  · exact h_s
  · have hr := nrRead_mem s (‹Queue›.headw + 8) 8 h_s
    dsimp only
    generalize nrRead s (‹Queue›.headw + 8) 8 = r at hr
    split
    · exact hr
    · split
      · exact consumeNr_mem _ _ hr
      · split
        · exact modQueue_mem _ _ _ hr
        · exact bump_mem _ _ hr

theorem writeComp_mem (s : State) (q : Nat) (x : Queue) (c : Comp) (h_s : MemOk s) :
    MemOk (writeComp s q x c) := by
  unfold writeComp; grind [mem_mk, mem_cells, mem_foldl, mem_foldl_fst, nrPut_mem, modQueue_mem, countIrq_mem]

theorem drainCq_mem (reads : Bool) (y0_ : Nat) (y1_ : State) (y2_ : Nat) (h_y1_ : MemOk y1_) :
    MemOk (drainCq reads y0_ y1_ y2_) := by
  induction y0_ generalizing y1_ with
  | zero => exact h_y1_
  | succ n ih =>
    unfold drainCq
    split
    · exact h_y1_
    · split
      · exact h_y1_
      · split
        · exact ih _ (writeComp_mem _ _ _ _ h_y1_)
        · dsimp only
          generalize hs : (if reads = true then readCqHead y1_ y2_ else y1_) = s1
          have h1 : MemOk s1 := by
            rw [← hs]; split
            · exact readCqHead_mem _ _ h_y1_
            · exact h_y1_
          split
          · exact h1
          · split
            · exact ih _ (writeComp_mem _ _ _ _ h1)
            · split
              · exact ih _ (bump_mem _ _ (modQueue_mem _ _ _ h1))
              · exact h1

theorem pushComp_mem (s : State) (q : Nat) (orphan : Bool) (c : Comp) (h_s : MemOk s) :
    MemOk (pushComp s q orphan c) := by
  unfold pushComp; (repeat' split) <;> simp +contextual [mem_mk, mem_cells, mem_foldl, mem_foldl_fst, mem_ite, *, bump_mem, modQueue_mem, drainCq_mem]

theorem countStatus_mem (s : State) (st : Status) (h_s : MemOk s) :
    MemOk (countStatus s st) := by
  unfold countStatus; (repeat' split) <;> simp +contextual [mem_mk, mem_cells, mem_foldl, mem_foldl_fst, mem_ite, *, bump_mem]

theorem complete_mem (s : State) (w : Work) (st : Status) (value reason : Nat) (sup : Bool) (res : List Byte) (h_s : MemOk s) :
    MemOk (complete s w st value reason sup res) := by
  unfold complete; grind [mem_mk, mem_cells, mem_foldl, mem_foldl_fst, modQueue_mem, dropWork_mem, pushComp_mem, countStatus_mem]

theorem completeId_mem (s : State) (id : Nat) (st : Status) (value reason : Nat) (sup : Bool) (res : List Byte) (h_s : MemOk s) :
    MemOk (completeId s id st value reason sup res) := by
  unfold completeId; (repeat' split) <;> simp +contextual [mem_mk, mem_cells, mem_foldl, mem_foldl_fst, mem_ite, *, complete_mem]

theorem completeWith_mem (s : State) (w : Work) (addr : Nat) (bs : List Byte) (st : Status) (value reason : Nat) (res : List Byte) (h_s : MemOk s) :
    MemOk (completeWith s w addr bs st value reason res) := by
  unfold completeWith; grind [mem_mk, mem_cells, mem_foldl, mem_foldl_fst, nrWrite_mem, complete_mem]

theorem onWork_mem (s : State) (id cls : Nat) (k : State → Work → State) (h_s : MemOk s) (h_k : ∀ x0_ x1_, MemOk x0_ → MemOk (k x0_ x1_)) :
    MemOk (onWork s id cls k) := by
  unfold onWork
  repeat' split
  all_goals first | exact h_s | exact h_k _ _ h_s

theorem onAdminF_mem (s : State) (id cmd len : Nat) (rootOnly : Bool) (fail : State → State) (k : State → Work → List Byte → State) (h_s : MemOk s) (h_fail : ∀ x0_, MemOk x0_ → MemOk (fail x0_)) (h_k : ∀ x0_ x1_ x2_, MemOk x0_ → MemOk (k x0_ x1_ x2_)) :
    MemOk (onAdminF s id cmd len rootOnly fail k) := by
  unfold onAdminF; grind [mem_mk, mem_cells, mem_foldl, mem_foldl_fst, nrRead_mem, consumeNr_mem, complete_mem, onWork_mem]

theorem onAdmin_mem (s : State) (id cmd len : Nat) (rootOnly : Bool) (k : State → Work → List Byte → State) (h_s : MemOk s) (h_k : ∀ x0_ x1_ x2_, MemOk x0_ → MemOk (k x0_ x1_ x2_)) :
    MemOk (onAdmin s id cmd len rootOnly k) := by
  unfold onAdmin; simp +contextual [mem_mk, mem_cells, mem_foldl, mem_foldl_fst, mem_ite, *, onAdminF_mem]

theorem meterTake_mem (s : State) (fabric : Bool) (t b : Nat) (h_s : MemOk s) :
    MemOk (meterTake s fabric t b).1 := by
  unfold meterTake; grind [mem_mk, mem_cells, mem_foldl, mem_foldl_fst, modHost_mem]

end Sys2Proof.Machine
end

