-- ==== Sys2Proof/Laws/KeepTiers.lean ====
section
/-! SUPPORT. Every function of Machine/Tiers.lean that answers a state keeps the canonical form of the stored bytes. -/
set_option linter.unusedSimpArgs false
namespace Sys2Proof.Machine
open Sys2Proof

theorem spoilHome_mem (s : State) (bad : List (Nat × Nat)) (h_s : MemOk s) :
    MemOk (spoilHome s bad) := by
  unfold spoilHome; simp +contextual [mem_mk, mem_cells, mem_foldl, mem_foldl_fst, mem_ite, *, modTiers_mem]

theorem arrive_mem (s : State) (a : WaitAcc) (h_s : MemOk s) :
    MemOk (arrive s a) := by
  unfold arrive; grind [mem_mk, mem_cells, mem_foldl, mem_foldl_fst, bump_mem, emit_mem, mayRetry_mem, homeCheck_mem, startForWrite_mem, serveOrWait_mem]

theorem access_mem (s : State) (req : Nat) (host : Bool) (addr len : Nat) (write : Option (List Byte × List Nat)) (bad : List (Nat × Nat)) (path : List PathUps) (h_s : MemOk s) :
    MemOk (access s req host addr len write bad path) := by
  unfold access; grind [mem_mk, mem_cells, mem_foldl, mem_foldl_fst, pathHits_mem, spoilHome_mem, arrive_mem]

theorem nodeRangeAccess_mem (req addr len : Nat) (write : Option (List Byte × List Nat)) (bad : List (Nat × Nat)) (path : List PathUps) (s : State) (h_s : MemOk s) :
    MemOk (nodeRangeAccess req addr len write bad path s) := by
  unfold nodeRangeAccess; simp +contextual [mem_mk, mem_cells, mem_foldl, mem_foldl_fst, mem_ite, *, access_mem]

theorem hostMemRead_mem (addr len : Nat) (bad : List (Nat × Nat)) (path : List PathUps) (s : State) (h_s : MemOk s) :
    MemOk (hostMemRead addr len bad path s) := by
  unfold hostMemRead; simp +contextual [mem_mk, mem_cells, mem_foldl, mem_foldl_fst, mem_ite, *, access_mem]

theorem hostMemWrite_mem (addr : Nat) (bs : List Byte) (pois : List Nat) (bad : List (Nat × Nat)) (path : List PathUps) (s : State) (h_s : MemOk s) :
    MemOk (hostMemWrite addr bs pois bad path s) := by
  unfold hostMemWrite; (repeat' split) <;> simp +contextual [mem_mk, mem_cells, mem_foldl, mem_foldl_fst, mem_ite, *, bumpBy_mem, access_mem]

theorem frameAllocate_mem (s : State) (h_s : MemOk s) :
    MemOk (frameAllocate s) := by
  unfold frameAllocate; simp +contextual [mem_mk, mem_cells, mem_foldl, mem_foldl_fst, mem_ite, *, resumeWaits_mem]

theorem moveStart_mem (page : Nat) (dst : MoveDst) (s : State) (h_s : MemOk s) :
    MemOk (moveStart page dst s) := by
  unfold moveStart
  split
  · exact mem_getD h_s (fun u hu => startMove_mem _ _ _ _ h_s _ hu)
  · exact h_s

theorem moveCommit_mem (slot : Nat) (s : State) (h_s : MemOk s) :
    MemOk (moveCommit slot s) := by
  unfold moveCommit; (repeat' split) <;> simp +contextual [mem_mk, mem_cells, mem_foldl, mem_foldl_fst, mem_ite, *, finishMove_mem, resumeWaits_mem]

theorem moveAbandon_mem (slot : Nat) (s : State) (h_s : MemOk s) :
    MemOk (moveAbandon slot s) := by
  unfold moveAbandon; (repeat' split) <;> simp +contextual [mem_mk, mem_cells, mem_foldl, mem_foldl_fst, mem_ite, *, abandonMove_mem, resumeWaits_mem]

theorem askLenders_mem (s : State) (offers : List (Nat × Nat)) (h_s : MemOk s) :
    MemOk (askLenders s offers).1 := by
  unfold askLenders; (repeat' split) <;> simp +contextual [mem_mk, mem_cells, mem_foldl, mem_foldl_fst, mem_ite, *, emit_mem]

theorem abandonAt_mem (s : State) (page lender handle : Nat) (h_s : MemOk s) :
    MemOk (abandonAt s page lender handle) := by
  unfold abandonAt; grind [mem_mk, mem_cells, mem_foldl, mem_foldl_fst, bump_mem, emit_mem, modTiers_mem]

theorem demoteOne_mem (s : State) (offers : List (Nat × Nat)) (p : Nat) (e : PageEnt) (h_s : MemOk s) :
    ∀ x_, demoteOne s offers p e = some x_ → MemOk x_.1 := by
  intro x_ hx_
  unfold demoteOne at hx_
  have h4 : ∀ t, MemOk t → ∀ u, (commitMove t p e.home (.t4 0)).map (·, offers) = some u → MemOk u.1 := by
    intro t ht u hu
    simp only [Option.map_eq_some_iff] at hu
    obtain ⟨v, hv, rfl⟩ := hu
    exact commitMove_mem _ _ _ _ ht _ hv
  dsimp only at hx_
  split at hx_
  · have h := askLenders_mem s offers h_s
    split at hx_
    · rename_i e1; rw [e1] at h; exact h4 _ h _ hx_
    · rename_i o e1
      rw [e1] at h
      simp at hx_; subst hx_
      exact mem_getD (abandonAt_mem _ _ _ _ h) (fun t ht => commitMove_mem _ _ _ _ h _ ht)
  · exact h4 _ h_s _ hx_

theorem demoteLoop_mem  (y0_ : Nat) (y1_ : State) (y2_ : List (Nat × Nat)) (y3_ : Nat) (h_y1_ : MemOk y1_) :
    MemOk (demoteLoop y0_ y1_ y2_ y3_) := by
  induction y0_ generalizing y1_ y2_ with
  | zero => exact h_y1_
  | succ n ih =>
    unfold demoteLoop
    split
    · exact h_y1_
    · split
      · exact h_y1_
      · split
        · rename_i t o ht
          exact ih _ _ (demoteOne_mem _ _ _ _ h_y1_ _ ht)
        · exact h_y1_

theorem demotionRound_mem (offers : List (Nat × Nat)) (s : State) (h_s : MemOk s) :
    MemOk (demotionRound offers s) := by
  unfold demotionRound; (repeat' split) <;> simp +contextual [mem_mk, mem_cells, mem_foldl, mem_foldl_fst, mem_ite, *, demoteLoop_mem]

theorem agerSweep_mem (s : State) (h_s : MemOk s) :
    MemOk (agerSweep s) := by
  unfold agerSweep; simp +contextual [mem_mk, mem_cells, mem_foldl, mem_foldl_fst, mem_ite, *, modTiers_mem]

theorem offerFrame_mem (s : State) (h_s : MemOk s) :
    MemOk (offerFrame s) := by
  unfold offerFrame
  split
  · exact h_s
  · split
    · exact modTiers_mem _ _ h_s
    · exact h_s

theorem offerAll_mem (s : State) (h_s : MemOk s) :
    MemOk (offerAll s) := by
  exact mem_foldl _ (fun t _ h => offerFrame_mem _ h) _ _ h_s

theorem trimLent_mem (s : State) (es : List (Nat × LentFrame)) (h_s : MemOk s) :
    MemOk (trimLent s es) := by
  unfold trimLent; grind [mem_mk, mem_cells, mem_foldl, mem_foldl_fst, emit_mem, modTiers_mem]

theorem recallExcess_mem (s : State) (n : Nat) (h_s : MemOk s) :
    MemOk (recallExcess s n) := by
  unfold recallExcess; simp +contextual [mem_mk, mem_cells, mem_foldl, mem_foldl_fst, mem_ite, *, trimLent_mem]

theorem lendSet_mem (s : State) (frames sites : Nat) (h_s : MemOk s) :
    MemOk (lendSet s frames sites) := by
  unfold lendSet; grind [mem_mk, mem_cells, mem_foldl, mem_foldl_fst, setF_mem, offerAll_mem, trimLent_mem, recallExcess_mem]

theorem recallPage_mem (s : State) (p : Nat) (h_s : MemOk s) :
    MemOk (recallPage s p) := by
  unfold recallPage
  split
  · exact moveToT2_mem _ _ _ h_s _ ‹_›
  · exact mem_getD h_s (fun u hu => commitMove_mem _ _ _ _ h_s _ hu)

theorem lentUnknown_mem (s : State) (lender handle : Nat) (h_s : MemOk s) :
    MemOk (lentUnknown s lender handle) := by
  unfold lentUnknown; grind [mem_mk, mem_cells, mem_foldl, mem_foldl_fst, intLog_mem, homeLost_mem]

theorem lendTo_mem (s : State) (node : Nat) (h_s : MemOk s) :
    MemOk (lendTo s node) := by
  unfold lendTo; grind [mem_mk, mem_cells, mem_foldl, mem_foldl_fst, emit_mem, modTiers_mem, offerAll_mem]

theorem takeBack_mem (s : State) (node handle : Nat) (h_s : MemOk s) :
    MemOk (takeBack s node handle) := by
  unfold takeBack; grind [mem_mk, mem_cells, mem_foldl, mem_foldl_fst, releaseFrame_mem, modTiers_mem, offerAll_mem]

theorem lentFrameRequest_mem (m : LentMsg) (s : State) (h_s : MemOk s) :
    MemOk (lentFrameRequest m s) := by
  unfold lentFrameRequest; (repeat' split) <;> simp +contextual [mem_mk, mem_cells, mem_foldl, mem_foldl_fst, mem_ite, *, modTiers_mem, recallPage_mem, lentUnknown_mem, lendTo_mem, takeBack_mem]

theorem rangeSet_mem (s : State) (pages : Nat) (h_s : MemOk s) :
    MemOk (rangeSet s pages) := by
  unfold rangeSet; simp +contextual [mem_mk, mem_cells, mem_foldl, mem_foldl_fst, mem_ite, *, setF_mem, bump_mem]

theorem floorSet_mem (s : State) (t n : Nat) (h_s : MemOk s) :
    MemOk (floorSet s t n) := by
  unfold floorSet; simp +contextual [mem_mk, mem_cells, mem_foldl, mem_foldl_fst, mem_ite, *, setF_mem, bump_mem]

theorem moveTo_mem (s : State) (t : MoveTally) (page : Nat) (dst : Home) (h_s : MemOk s) :
    MemOk (moveTo s t page dst).1 := by
  unfold moveTo; grind [mem_mk, mem_cells, mem_foldl, mem_foldl_fst, bump_mem, emit_mem, modTiers_mem, commitMove_mem]

theorem moveToFrame_mem (s : State) (t : MoveTally) (page : Nat) (site : Option Nat) (h_s : MemOk s) :
    MemOk (moveToFrame s t page site).1 := by
  unfold moveToFrame; grind [mem_mk, mem_cells, mem_foldl, mem_foldl_fst, seekFrame_mem, moveTo_mem]

theorem movePage_mem (op site : Nat) (a : State × MoveTally × List (Nat × Nat)) (page : Nat) (h_a : MemOk a.1) :
    MemOk (movePage op site a page).1 := by
  unfold movePage; (repeat' split) <;> grind [mem_mk, mem_cells, mem_foldl, mem_foldl_fst, setEnt_mem, releaseHome_mem, mayRetry_mem, homeCheck_mem, dropStaged_mem, settle_mem, askLenders_mem, moveTo_mem, moveToFrame_mem]

theorem moveDesc_mem (id : Nat) (offers : List (Nat × Nat)) (s : State) (h_s : MemOk s) :
    MemOk (moveDesc id offers s) := by
  unfold moveDesc
  refine onWork_mem _ _ _ _ h_s (fun s w h => ?_)
  grind [mem_mk, mem_cells, mem_foldl, mem_foldl_fst, resumeWaits_mem, complete_mem, completeWith_mem, onWork_mem, movePage_mem]

end Sys2Proof.Machine
end

