-- ==== Sys2Proof/Laws/KeepSched.lean ====
section
/-! SUPPORT. Every function of Machine/Sched.lean that answers a state keeps the canonical form of the stored bytes. -/
set_option linter.unusedSimpArgs false
namespace Sys2Proof.Machine
open Sys2Proof

theorem modBow_mem (s : State) (f : Bow → Bow) (h_s : MemOk s) :
    MemOk (modBow s f) := by
  unfold modBow; simp +contextual [mem_mk, mem_cells, mem_foldl, mem_foldl_fst, mem_ite, *]

theorem schedAdd_mem (s : State) (k : EvtKind) (tick : Nat) (w : Work) (h_s : MemOk s) :
    MemOk (schedAdd s k tick w) := by
  unfold schedAdd; grind [mem_mk, mem_cells, mem_foldl, mem_foldl_fst, raiseHigh_mem, beginWork_mem, modBow_mem]

theorem schedRefuse_mem (s : State) (w : Work) (h_s : MemOk s) :
    MemOk (schedRefuse s w) := by
  unfold schedRefuse; simp +contextual [mem_mk, mem_cells, mem_foldl, mem_foldl_fst, mem_ite, *, bump_mem, complete_mem]

theorem schedFree_mem (s : State) (p : SchedEvt → Bool) (h_s : MemOk s) :
    MemOk (schedFree s p) := by
  unfold schedFree; simp +contextual [mem_mk, mem_cells, mem_foldl, mem_foldl_fst, mem_ite, *, modBow_mem]

end Sys2Proof.Machine
end

