-- ==== Sys2Proof/Laws/KeepBrim.lean ====
section
/-! SUPPORT. Every function of Machine/Brim.lean that answers a state keeps the canonical form of the stored bytes. -/
set_option linter.unusedSimpArgs false
namespace Sys2Proof.Machine
open Sys2Proof

theorem modBrim_mem (s : State) (f : Brim → Brim) (h_s : MemOk s) :
    MemOk (modBrim s f) := by
  unfold modBrim; simp +contextual [mem_mk, mem_cells, mem_foldl, mem_foldl_fst, mem_ite, *]

theorem modPort_mem (s : State) (p : Nat) (f : Port → Port) (h_s : MemOk s) :
    MemOk (modPort s p f) := by
  unfold modPort; simp +contextual [mem_mk, mem_cells, mem_foldl, mem_foldl_fst, mem_ite, *, modBrim_mem]

theorem setPortSt_mem (s : State) (p v : Nat) (h_s : MemOk s) :
    MemOk (setPortSt s p v) := by
  unfold setPortSt; simp +contextual [mem_mk, mem_cells, mem_foldl, mem_foldl_fst, mem_ite, *, setF_mem]

theorem startPacket_mem (s : State) (port : Nat) (p : Packet) (tag : Option (Nat × Nat)) (h_s : MemOk s) :
    MemOk (startPacket s port p tag) := by
  unfold startPacket; simp +contextual [mem_mk, mem_cells, mem_foldl, mem_foldl_fst, mem_ite, *, emit_mem, modPort_mem]

theorem sendOn_mem (s : State) (port : Nat) (p : Packet) (tag : Option (Nat × Nat)) (h_s : MemOk s) :
    MemOk (sendOn s port p tag) := by
  unfold sendOn; (repeat' split) <;> simp +contextual [mem_mk, mem_cells, mem_foldl, mem_foldl_fst, mem_ite, *, bump_mem, modPort_mem, startPacket_mem]

theorem drainPort_mem (s : State) (port : Nat) (h_s : MemOk s) :
    MemOk (drainPort s port) := by
  unfold drainPort; grind [mem_mk, mem_cells, mem_foldl, mem_foldl_fst, modPort_mem, startPacket_mem]

theorem sendMsg_mem (s : State) (dest : Nat) (h : Packet) (bytes : List Byte) (pois : List Nat) (work : Option Nat) (sys : Option SysMsg) (h_s : MemOk s) :
    ∀ x_, sendMsg s dest h bytes pois work sys = some x_ → MemOk x_.1 := by
  intro x_ hx_; unfold sendMsg at hx_; grind [mem_mk, mem_cells, mem_foldl, mem_foldl_fst, modBrim_mem, sendOn_mem]

theorem sendNak_mem (s : State) (p : Packet) (reason : Nat) (h_s : MemOk s) :
    MemOk (sendNak s p reason) := by
  unfold sendNak
  split
  · exact h_s
  · dsimp only
    split
    · exact sendMsg_mem _ _ _ _ _ _ _ (bump_mem _ _ h_s) _ ‹_›
    · exact bump_mem _ _ h_s

theorem settleFlushes_mem (s : State) (h_s : MemOk s) :
    MemOk (settleFlushes s) := by
  unfold settleFlushes; grind [mem_mk, mem_cells, mem_foldl, mem_foldl_fst, bump_mem, completeId_mem, modBrim_mem]

theorem failWrite_mem (s : State) (msgid : Nat) (st : Status) (h_s : MemOk s) :
    MemOk (failWrite s msgid st) := by
  unfold failWrite; (repeat' split) <;> simp +contextual [mem_mk, mem_cells, mem_foldl, mem_foldl_fst, mem_ite, *, modBrim_mem, settleFlushes_mem]

theorem endOp_mem (s : State) (req : Nat) (st : Status) (h_s : MemOk s) :
    MemOk (endOp s req st) := by
  unfold endOp; grind [mem_mk, mem_cells, mem_foldl, mem_foldl_fst, bump_mem, completeId_mem, modBrim_mem]

theorem failMsg_mem (s : State) (id : Nat) (st : Status) (h_s : MemOk s) :
    MemOk (failMsg s id st) := by
  unfold failMsg; grind [mem_mk, mem_cells, mem_foldl, mem_foldl_fst, modBrim_mem, settleFlushes_mem, failWrite_mem, endOp_mem]

theorem stopMsg_mem (s : State) (id : Nat) (h_s : MemOk s) :
    MemOk (stopMsg s id) := by
  unfold stopMsg; simp +contextual [mem_mk, mem_cells, mem_foldl, mem_foldl_fst, mem_ite, *, modBrim_mem, modPort_mem]

theorem resend_mem (s : State) (id i : Nat) (h_s : MemOk s) :
    ∀ x_, resend s id i = some x_ → MemOk x_ := by
  intro x_ hx_; unfold resend at hx_; grind [mem_mk, mem_cells, mem_foldl, mem_foldl_fst, modBrim_mem, sendOn_mem]

theorem dropForwards_mem (s : State) (port : Nat) (h_s : MemOk s) :
    MemOk (dropForwards s port) := by
  unfold dropForwards; grind [mem_mk, mem_cells, mem_foldl, mem_foldl_fst, bump_mem, modBrim_mem, sendOn_mem]

theorem cutMsg_mem (s : State) (id : Nat) (h_s : MemOk s) :
    MemOk (cutMsg s id) := by
  unfold cutMsg; (repeat' split) <;> simp +contextual [mem_mk, mem_cells, mem_foldl, mem_foldl_fst, mem_ite, *, modBrim_mem, failMsg_mem]

theorem leaveUp_mem (s : State) (port : Nat) (h_s : MemOk s) :
    MemOk (leaveUp s port) := by
  unfold leaveUp
  apply dropForwards_mem
  apply mem_foldl
  · intro t x ht
    exact mem_getD (cutMsg_mem _ _ ht) (fun u hu => resend_mem _ _ _ ht _ hu)
  · split <;> simp [modPort_mem, modBrim_mem, h_s]

theorem portEvent_mem (s : State) (p : Nat) (h_s : MemOk s) :
    MemOk (portEvent s p) := by
  unfold portEvent; simp +contextual [mem_mk, mem_cells, mem_foldl, mem_foldl_fst, mem_ite, *, crownEvent_mem]

theorem startTraining_mem (s : State) (p : Nat) (h_s : MemOk s) :
    MemOk (startTraining s p) := by
  unfold startTraining; grind [mem_mk, mem_cells, mem_foldl, mem_foldl_fst, bump_mem, modPort_mem, setPortSt_mem]

theorem portUpdate_mem (s : State) (p : Nat) (h_s : MemOk s) :
    MemOk (portUpdate s p) := by
  unfold portUpdate; grind [mem_mk, mem_cells, mem_foldl, mem_foldl_fst, setPortSt_mem, leaveUp_mem, startTraining_mem]

theorem portEnSet_mem (s : State) (p v : Nat) (h_s : MemOk s) :
    MemOk (portEnSet s p v) := by
  unfold portEnSet; simp +contextual [mem_mk, mem_cells, mem_foldl, mem_foldl_fst, mem_ite, *, setF_mem, portUpdate_mem]

theorem portFenceSet_mem (s : State) (p v : Nat) (h_s : MemOk s) :
    MemOk (portFenceSet s p v) := by
  unfold portFenceSet; simp +contextual [mem_mk, mem_cells, mem_foldl, mem_foldl_fst, mem_ite, *, setF_mem, portUpdate_mem]

theorem portTraining_mem (p node role strap : Nat) (s : State) (h_s : MemOk s) :
    MemOk (portTraining p node role strap s) := by
  unfold portTraining; grind [mem_mk, mem_cells, mem_foldl, mem_foldl_fst, setF_mem, bump_mem, modPort_mem, setPortSt_mem, portEvent_mem]

theorem trainingRetry_mem (p : Nat) (s : State) (h_s : MemOk s) :
    MemOk (trainingRetry p s) := by
  unfold trainingRetry; simp +contextual [mem_mk, mem_cells, mem_foldl, mem_foldl_fst, mem_ite, *, startTraining_mem]

theorem portDown_mem (p : Nat) (s : State) (h_s : MemOk s) :
    MemOk (portDown p s) := by
  unfold portDown; grind [mem_mk, mem_cells, mem_foldl, mem_foldl_fst, setPortSt_mem, leaveUp_mem, startTraining_mem]

theorem ackMsg_mem (s : State) (x : Nat × Nat) (h_s : MemOk s) :
    MemOk (ackMsg s x) := by
  unfold ackMsg; grind [mem_mk, mem_cells, mem_foldl, mem_foldl_fst, completeId_mem, modBrim_mem]

theorem takeAck_mem (s : State) (p ack : Nat) (h_s : MemOk s) :
    MemOk (takeAck s p ack) := by
  unfold takeAck; simp +contextual [mem_mk, mem_cells, mem_foldl, mem_foldl_fst, mem_ite, *, modPort_mem, ackMsg_mem]

theorem flitReceive_mem (p : Nat) (decoded corrected : Bool) (flit : Nat) (s : State) (h_s : MemOk s) :
    MemOk (flitReceive p decoded corrected flit s) := by
  unfold flitReceive; grind [mem_mk, mem_cells, mem_foldl, mem_foldl_fst, bumpBy_mem, bump_mem, emit_mem, modPort_mem, drainPort_mem, takeAck_mem]

theorem autoCount_mem (s : State) (key : Nat) (h_s : MemOk s) :
    MemOk (autoCount s key).1 := by
  unfold autoCount; simp +contextual [mem_mk, mem_cells, mem_foldl, mem_foldl_fst, mem_ite, *]

theorem autoFenced_mem (s : State) (h_s : MemOk s) :
    MemOk (autoFenced s) := by
  unfold autoFenced; simp +contextual [mem_mk, mem_cells, mem_foldl, mem_foldl_fst, mem_ite, *, bump_mem, crownEventOpen_mem]

theorem autoPort_mem (s : State) (p : Nat) (h_s : MemOk s) :
    MemOk (autoPort s p) := by
  unfold autoPort; grind [mem_mk, mem_cells, mem_foldl, mem_foldl_fst, portFenceSet_mem, autoCount_mem, autoFenced_mem]

theorem violation_mem (s : State) (p : Nat) (h_s : MemOk s) :
    MemOk (violation s p) := by
  unfold violation; grind [mem_mk, mem_cells, mem_foldl, mem_foldl_fst, bump_mem, modPort_mem, setPortSt_mem, leaveUp_mem, autoPort_mem]

theorem quarantineEnd_mem (p : Nat) (s : State) (h_s : MemOk s) :
    MemOk (quarantineEnd p s) := by
  unfold quarantineEnd; grind [mem_mk, mem_cells, mem_foldl, mem_foldl_fst, cxlEvent_mem, setPortSt_mem, portEvent_mem]

theorem dropPacket_mem (s : State) (port : Nat) (p : Packet) (reason : Nat) (viol : Bool) (h_s : MemOk s) :
    MemOk (dropPacket s port p reason viol) := by
  unfold dropPacket; grind [mem_mk, mem_cells, mem_foldl, mem_foldl_fst, bump_mem, sendNak_mem, violation_mem]

theorem arrives_mem (s : State) (port : Nat) (p : Packet) (h_s : MemOk s) :
    MemOk (arrives s port p) := by
  unfold arrives; simp +contextual [mem_mk, mem_cells, mem_foldl, mem_foldl_fst, mem_ite, *, bumpBy_mem, pathHits_mem]

theorem forwardOn_mem (port : Nat) (p : Packet) (s : State) (h_s : MemOk s) :
    MemOk (forwardOn port p s) := by
  unfold forwardOn; grind [mem_mk, mem_cells, mem_foldl, mem_foldl_fst, bump_mem, modBrim_mem, sendOn_mem, dropPacket_mem]

theorem packetForward_mem (port : Nat) (p : Packet) (s : State) (h_s : MemOk s) :
    MemOk (packetForward port p s) := by
  unfold packetForward; (repeat' split) <;> simp +contextual [mem_mk, mem_cells, mem_foldl, mem_foldl_fst, mem_ite, *, bump_mem, arrives_mem, forwardOn_mem]

theorem portmapSend_mem (s : State) (h_s : MemOk s) :
    MemOk (portmapSend s) := by
  unfold portmapSend; grind [mem_mk, mem_cells, mem_foldl, mem_foldl_fst, emit_mem, modBrim_mem, sendOn_mem]

end Sys2Proof.Machine
end

