-- ==== Sys2Proof/Laws/KeepRma.lean ====
section
/-! SUPPORT. Every function of Machine/Rma.lean that answers a state keeps the canonical form of the stored bytes. -/
set_option linter.unusedSimpArgs false
namespace Sys2Proof.Machine
open Sys2Proof

theorem placeBytes_mem (s : State) (addr : Nat) (bs : List Byte) (pois : List Nat) (h_s : MemOk s) :
    MemOk (placeBytes s addr bs pois) := by
  unfold placeBytes; simp +contextual [mem_mk, mem_cells, mem_foldl, mem_foldl_fst, mem_ite, *, nrWrite_mem]

theorem Target.put_mem (t : Target) (s : State) (off : Nat) (bs : List Byte) (pois : List Nat) (h_s : MemOk s) :
    MemOk (Target.put t s off bs pois) := by
  unfold Target.put; (repeat' split) <;> simp +contextual [mem_mk, mem_cells, mem_foldl, mem_foldl_fst, mem_ite, *, dramWrite_mem, placeBytes_mem]

theorem Target.get_mem (t : Target) (s : State) (len : Nat) (h_s : MemOk s) :
    MemOk (Target.get t s len).1 := by
  unfold Target.get; (repeat' split) <;> simp +contextual [mem_mk, mem_cells, mem_foldl, mem_foldl_fst, mem_ite, *, dramRead_mem, nrRead_mem]

theorem Target.consume_mem (t : Target) (s : State) (h_s : MemOk s) :
    MemOk (Target.consume t s) := by
  unfold Target.consume
  split
  · exact consumeNr_mem _ _ h_s
  · exact Machine.consume_mem _ _ _ _ h_s

theorem takeEntry_mem (s : State) (w : Work) (k : State → State) (h_s : MemOk s) (h_k : ∀ x0_, MemOk x0_ → MemOk (k x0_)) :
    MemOk (takeEntry s w k) := by
  unfold takeEntry; (repeat' split) <;> simp +contextual [mem_mk, mem_cells, mem_foldl, mem_foldl_fst, mem_ite, *, bump_mem, complete_mem]

theorem startOp_mem (s : State) (w : Work) (kind total : Nat) (bytes : List Byte) (pois : List Nat) (h_s : MemOk s) :
    MemOk (startOp s w kind total bytes pois) := by
  unfold startOp
  split
  · exact complete_mem _ _ _ _ _ _ _ h_s
  · dsimp only
    split
    · exact complete_mem _ _ _ _ _ _ _ h_s
    · exact beginWork_mem _ _ (modBrim_mem _ _ (sendMsg_mem _ _ _ _ _ _ _ h_s _ ‹_›))

theorem applyAtomic_mem (s : State) (t : Target) (swap : Bool) (a b : Nat) (opPois : Bool) (h_s : MemOk s) :
    MemOk (applyAtomic s t swap a b opPois).1 := by
  unfold applyAtomic; grind [mem_mk, mem_cells, mem_foldl, mem_foldl_fst, bump_mem, Target.put_mem, Target.get_mem, Target.consume_mem]

theorem onRma_mem (s : State) (id cls len : Nat) (k : State → Work → State) (h_s : MemOk s) (h_k : ∀ x0_ x1_, MemOk x0_ → MemOk (k x0_ x1_)) :
    MemOk (onRma s id cls len k) := by
  unfold onRma
  refine onWork_mem _ _ _ _ h_s (fun s w h => ?_)
  (repeat' split) <;> simp +contextual [mem_mk, mem_cells, mem_foldl, mem_foldl_fst, mem_ite, *, complete_mem, onWork_mem, takeEntry_mem, h]

theorem rmaWrite_mem (work : Nat) (s : State) (h_s : MemOk s) :
    MemOk (rmaWrite work s) := by
  unfold rmaWrite
  refine onRma_mem _ _ _ _ _ h_s (fun s w h => ?_)
  have hr := nrRead_mem s (w.f 24 8) (w.f 32 4) h
  dsimp only
  generalize nrRead s (w.f 24 8) (w.f 32 4) = r at hr
  repeat' split
  all_goals first | exact complete_mem _ _ _ _ _ _ _ hr | exact startOp_mem _ _ _ _ _ _ hr | exact complete_mem _ _ _ _ _ _ _ (Target.put_mem _ _ _ _ _ hr)

theorem rmaRead_mem (work : Nat) (s : State) (h_s : MemOk s) :
    MemOk (rmaRead work s) := by
  unfold rmaRead
  refine onRma_mem _ _ _ _ _ h_s (fun s w h => ?_)
  have hr := Target.get_mem (localTarget s w) s (w.f 32 4) h
  dsimp only
  repeat' split
  all_goals first | exact complete_mem _ _ _ _ _ _ _ (placeBytes_mem _ _ _ _ hr) | exact complete_mem _ _ _ _ _ _ _ h | exact startOp_mem _ _ _ _ _ _ h

theorem rmaAtomic_mem (s : State) (work cls : Nat) (h_s : MemOk s) :
    MemOk (rmaAtomic s work cls) := by
  unfold rmaAtomic
  refine onRma_mem _ _ _ _ _ h_s (fun s w h => ?_)
  grind [mem_mk, mem_cells, mem_foldl, mem_foldl_fst, complete_mem, placeBytes_mem, startOp_mem, applyAtomic_mem, onRma_mem]

theorem rmaFetchAdd_mem (work : Nat) (s : State) (h_s : MemOk s) :
    MemOk (rmaFetchAdd work s) := by
  unfold rmaFetchAdd; simp +contextual [mem_mk, mem_cells, mem_foldl, mem_foldl_fst, mem_ite, *, rmaAtomic_mem]

theorem rmaCompareSwap_mem (work : Nat) (s : State) (h_s : MemOk s) :
    MemOk (rmaCompareSwap work s) := by
  unfold rmaCompareSwap; simp +contextual [mem_mk, mem_cells, mem_foldl, mem_foldl_fst, mem_ite, *, rmaAtomic_mem]

theorem rmaFlush_mem (work : Nat) (s : State) (h_s : MemOk s) :
    MemOk (rmaFlush work s) := by
  unfold rmaFlush
  refine onWork_mem _ _ _ _ h_s (fun s w h => ?_)
  grind [mem_mk, mem_cells, mem_foldl, mem_foldl_fst, beginWork_mem, complete_mem, onWork_mem, settleFlushes_mem, takeEntry_mem]

theorem rmaWait_mem (work : Nat) (s : State) (h_s : MemOk s) :
    MemOk (rmaWait work s) := by
  unfold rmaWait
  refine onWork_mem _ _ _ _ h_s (fun s w h => ?_)
  (repeat' split) <;> simp +contextual [mem_mk, mem_cells, mem_foldl, mem_foldl_fst, mem_ite, *, beginWork_mem, complete_mem, onWork_mem, takeEntry_mem, h]

theorem waitRelease_mem (work : Nat) (s : State) (h_s : MemOk s) :
    MemOk (waitRelease work s) := by
  unfold waitRelease; (repeat' split) <;> simp +contextual [mem_mk, mem_cells, mem_foldl, mem_foldl_fst, mem_ite, *, complete_mem]

theorem receive_mem (s : State) (port kind : Nat) (p0 : Packet) (k : State → Packet → State) (h_s : MemOk s) (h_k : ∀ x0_ x1_, MemOk x0_ → MemOk (k x0_ x1_)) :
    MemOk (receive s port kind p0 k) := by
  unfold receive; (repeat' split) <;> grind [mem_mk, mem_cells, mem_foldl, mem_foldl_fst, bump_mem, meterTake_mem, dropPacket_mem, arrives_mem, forwardOn_mem]

theorem madeWhole_mem (s : State) (key expiry : Nat) (h_s : MemOk s) :
    MemOk (madeWhole s key expiry) := by
  unfold madeWhole; simp +contextual [mem_mk, mem_cells, mem_foldl, mem_foldl_fst, mem_ite, *, modBrim_mem]

theorem reassemble_mem (s : State) (port : Nat) (p : Packet) (t : Option Target) (k : State → State) (h_s : MemOk s) (h_k : ∀ x0_, MemOk x0_ → MemOk (k x0_)) :
    MemOk (reassemble s port p t k) := by
  unfold reassemble; grind [mem_mk, mem_cells, mem_foldl, mem_foldl_fst, bump_mem, modBrim_mem, dropPacket_mem, Target.put_mem, madeWhole_mem]

theorem write_mem (port : Nat) (p : Packet) (s : State) (h_s : MemOk s) :
    MemOk (write port p s) := by
  unfold write
  refine receive_mem _ _ _ _ _ h_s (fun s p h => ?_)
  split
  · refine reassemble_mem _ _ _ _ _ h (fun s h => ?_)
    dsimp only
    split
    · exact sendMsg_mem _ _ _ _ _ _ _ h _ ‹_›
    · exact h
  · exact dropPacket_mem _ _ _ _ _ h

theorem readReq_mem (port : Nat) (p : Packet) (s : State) (h_s : MemOk s) :
    MemOk (readReq port p s) := by
  unfold readReq
  refine receive_mem _ _ _ _ _ h_s (fun s p h => ?_)
  split
  · have hr := bumpBy_mem _ Reg.intPoisonCarried ((targetOf s p).get s p.total).2.2.length (Target.get_mem (targetOf s p) s p.total h)
    dsimp only
    split
    · exact sendMsg_mem _ _ _ _ _ _ _ hr _ ‹_›
    · exact hr
  · exact dropPacket_mem _ _ _ _ _ h

theorem readData_mem (port : Nat) (p : Packet) (s : State) (h_s : MemOk s) :
    MemOk (readData port p s) := by
  unfold readData
  refine receive_mem _ _ _ _ _ h_s (fun s p h => ?_)
  (repeat' split) <;> simp +contextual [mem_mk, mem_cells, mem_foldl, mem_foldl_fst, mem_ite, *, bump_mem, modBrim_mem, endOp_mem, receive_mem, reassemble_mem, h]

theorem sendAtomicResp_mem (s : State) (p : Packet) (r : Replay) (h_s : MemOk s) :
    MemOk (sendAtomicResp s p r) := by
  unfold sendAtomicResp
  dsimp only
  split
  · exact sendMsg_mem _ _ _ _ _ _ _ h_s _ ‹_›
  · exact h_s

theorem atomicIn_mem (s : State) (port kind : Nat) (p : Packet) (h_s : MemOk s) :
    MemOk (atomicIn s port kind p) := by
  unfold atomicIn
  refine receive_mem _ _ _ _ _ h_s (fun s p h => ?_)
  grind [mem_mk, mem_cells, mem_foldl, mem_foldl_fst, bump_mem, modBrim_mem, dropPacket_mem, applyAtomic_mem, receive_mem, sendAtomicResp_mem]

theorem fetchAdd_mem (port : Nat) (p : Packet) (s : State) (h_s : MemOk s) :
    MemOk (fetchAdd port p s) := by
  unfold fetchAdd; simp +contextual [mem_mk, mem_cells, mem_foldl, mem_foldl_fst, mem_ite, *, atomicIn_mem]

theorem compareSwap_mem (port : Nat) (p : Packet) (s : State) (h_s : MemOk s) :
    MemOk (compareSwap port p s) := by
  unfold compareSwap; simp +contextual [mem_mk, mem_cells, mem_foldl, mem_foldl_fst, mem_ite, *, atomicIn_mem]

theorem atomicResp_mem (port : Nat) (p : Packet) (s : State) (h_s : MemOk s) :
    MemOk (atomicResp port p s) := by
  unfold atomicResp
  refine receive_mem _ _ _ _ _ h_s (fun s p h => ?_)
  (repeat' split) <;> simp +contextual [mem_mk, mem_cells, mem_foldl, mem_foldl_fst, mem_ite, *, bump_mem, placeBytes_mem, endOp_mem, receive_mem, h]

theorem placed_mem (port : Nat) (p : Packet) (s : State) (h_s : MemOk s) :
    MemOk (placed port p s) := by
  unfold placed
  refine receive_mem _ _ _ _ _ h_s (fun s p h => ?_)
  (repeat' split) <;> simp +contextual [mem_mk, mem_cells, mem_foldl, mem_foldl_fst, mem_ite, *, bump_mem, modBrim_mem, settleFlushes_mem, receive_mem, h]

theorem nakIn_mem (s : State) (port : Nat) (p : Packet) (k : State → Nat → SysMsg → Status → State) (h_s : MemOk s) (h_k : ∀ x0_ x1_ x2_ x3_, MemOk x0_ → MemOk (k x0_ x1_ x2_ x3_)) :
    MemOk (nakIn s port p k) := by
  unfold nakIn
  refine receive_mem _ _ _ _ _ h_s (fun s p h => ?_)
  grind [mem_mk, mem_cells, mem_foldl, mem_foldl_fst, bump_mem, lentUnknown_mem, modBrim_mem, failMsg_mem, stopMsg_mem, resend_mem, receive_mem]

theorem portmap_mem (port : Nat) (p : Packet) (s : State) (h_s : MemOk s) :
    MemOk (portmap port p s) := by
  unfold portmap
  refine receive_mem _ _ _ _ _ h_s (fun s p h => ?_)
  simp +contextual [mem_mk, mem_cells, mem_foldl, mem_foldl_fst, mem_ite, *, modBrim_mem, receive_mem, h]

theorem lenderTimeout_mem (s : State) (slot : Nat) (h_s : MemOk s) :
    MemOk (lenderTimeout s slot) := by
  unfold lenderTimeout; (repeat' split) <;> simp +contextual [mem_mk, mem_cells, mem_foldl, mem_foldl_fst, mem_ite, *, abandonMove_mem, resumeWaits_mem]

theorem rmaTimeout_mem (msgid : Nat) (s : State) (h_s : MemOk s) :
    MemOk (rmaTimeout msgid s) := by
  unfold rmaTimeout; (repeat' split) <;> simp +contextual [mem_mk, mem_cells, mem_foldl, mem_foldl_fst, mem_ite, *, failMsg_mem, lenderTimeout_mem]

theorem undefBytes_mem (s : State) (t : Target) (off n : Nat) (h_s : MemOk s) :
    MemOk (undefBytes s t off n) := by
  unfold undefBytes; simp +contextual [mem_mk, mem_cells, mem_foldl, mem_foldl_fst, mem_ite, *, freeVal_mem, Target.put_mem]

theorem reassemblyTimeout_mem (src msgid : Nat) (s : State) (h_s : MemOk s) :
    MemOk (reassemblyTimeout src msgid s) := by
  unfold reassemblyTimeout; grind [mem_mk, mem_cells, mem_foldl, mem_foldl_fst, bump_mem, freeVal_mem, crownEventOpen_mem, modBrim_mem, endOp_mem, undefBytes_mem]

theorem wholeKeyExpiry_mem (src msgid : Nat) (s : State) (h_s : MemOk s) :
    MemOk (wholeKeyExpiry src msgid s) := by
  unfold wholeKeyExpiry; simp +contextual [mem_mk, mem_cells, mem_foldl, mem_foldl_fst, mem_ite, *, modBrim_mem]

theorem atomicReplayExpiry_mem (src req : Nat) (s : State) (h_s : MemOk s) :
    MemOk (atomicReplayExpiry src req s) := by
  unfold atomicReplayExpiry; simp +contextual [mem_mk, mem_cells, mem_foldl, mem_foldl_fst, mem_ite, *, modBrim_mem]

theorem pinPages_mem (s : State) (pages : List Nat) (up : Bool) (h_s : MemOk s) :
    MemOk (pinPages s pages up) := by
  unfold pinPages; simp +contextual [mem_mk, mem_cells, mem_foldl, mem_foldl_fst, mem_ite, *, setEnt_mem]

theorem homePages_mem (s : State) (pages : List Nat) (h_s : MemOk s) :
    ∀ x_, homePages s pages = some x_ → MemOk x_ := by
  intro x_ hx_
  unfold homePages at hx_
  refine mem_foldl_opt _ (fun t p u ht hu => ?_) _ _ (by simp [h_s]) _ hx_
  have hs := settle_mem (homeCheck (mayRetry t p) p) p (homeCheck_mem _ _ (mayRetry_mem _ _ ht))
  dsimp only at hu
  split at hu
  · simp at hu; subst hu; exact hs
  · exact moveToT2_mem _ _ _ (seekFrame_mem _ _ hs) _ hu

theorem regionRegister_mem (work : Nat) (s : State) (h_s : MemOk s) :
    MemOk (regionRegister work s) := by
  unfold regionRegister
  refine onAdmin_mem _ _ _ _ _ _ h_s (fun s w b h => ?_)
  have hf := complete_mem (bump s Reg.rmaRefuseTableFull) w .tableFull 0 0 false [] (bump_mem _ _ h)
  dsimp only
  repeat' (with_reducible apply mem_ite)
  · exact complete_mem _ _ _ _ _ _ _ h
  · exact complete_mem _ _ _ _ _ _ _ h
  · exact hf
  · split
    · exact completeWith_mem _ _ _ _ _ _ _ _ (modBrim_mem _ _ (pinPages_mem _ _ _ (homePages_mem _ _ h _ ‹_›)))
    · exact hf

theorem regionDeregister_mem (work : Nat) (s : State) (h_s : MemOk s) :
    MemOk (regionDeregister work s) := by
  unfold regionDeregister
  refine onAdmin_mem _ _ _ _ _ _ h_s (fun s w b h => ?_)
  grind [mem_mk, mem_cells, mem_foldl, mem_foldl_fst, beginWork_mem, complete_mem, onAdmin_mem, modBrim_mem]

theorem regionDeregisterDone_mem (slot : Nat) (s : State) (h_s : MemOk s) :
    MemOk (regionDeregisterDone slot s) := by
  unfold regionDeregisterDone; grind [mem_mk, mem_cells, mem_foldl, mem_foldl_fst, completeId_mem, modBrim_mem, pinPages_mem]

end Sys2Proof.Machine
end

