-- ==== Sys2Proof/Laws/KeepSearchData.lean ====
section
/-! SUPPORT. Every function of Machine/SearchData.lean that answers a state keeps the canonical form of the stored bytes. -/
set_option linter.unusedSimpArgs false
namespace Sys2Proof.Machine
open Sys2Proof

theorem modSrch_mem (s : State) (f : Srch → Srch) (h_s : MemOk s) :
    MemOk (modSrch s f) := by
  unfold modSrch; simp +contextual [mem_mk, mem_cells, mem_foldl, mem_foldl_fst, mem_ite, *]

theorem rdB_mem (s : State) (addr n : Nat) (h_s : MemOk s) :
    MemOk (rdB s addr n).1 := by
  unfold rdB; (repeat' split) <;> simp +contextual [mem_mk, mem_cells, mem_foldl, mem_foldl_fst, mem_ite, *, nrRead_mem]

theorem rdC_mem (s : State) (addr n : Nat) (h_s : MemOk s) :
    MemOk (rdC s addr n).1 := by
  unfold rdC; grind [mem_mk, mem_cells, mem_foldl, mem_foldl_fst, nrRead_mem, consumeNr_mem]

theorem areaFetch_mem (s : State) (a : Area) (page n : Nat) (h_s : MemOk s) :
    MemOk (areaFetch s a page n) := by
  unfold areaFetch; simp +contextual [mem_mk, mem_cells, mem_foldl, mem_foldl_fst, mem_ite, *, recoverFlu_mem]

theorem areaRead_mem (s : State) (a : Area) (page off n : Nat) (h_s : MemOk s) :
    MemOk (areaRead s a page off n).1 := by
  unfold areaRead; simp +contextual [mem_mk, mem_cells, mem_foldl, mem_foldl_fst, mem_ite, *, areaFetch_mem]

theorem areaWrite_mem (s : State) (a : Area) (page off : Nat) (bs : List Byte) (pois : List Nat) (h_s : MemOk s) :
    ∀ x_, areaWrite s a page off bs pois = some x_ → MemOk x_ := by
  intro x_ hx_; unfold areaWrite at hx_; grind [mem_mk, mem_cells, mem_foldl, mem_foldl_fst, recoverFlu_mem, fluWriteRu_mem, makeRoom_mem]

theorem itemId_mem (s : State) (c : Ctx3) (loc e : Nat) (h_s : MemOk s) :
    MemOk (itemId s c loc e).1 := by
  unfold itemId; (repeat' split) <;> simp +contextual [mem_mk, mem_cells, mem_foldl, mem_foldl_fst, mem_ite, *, rdC_mem]

theorem itemCode_mem (s : State) (c : Ctx3) (loc e : Nat) (h_s : MemOk s) :
    MemOk (itemCode s c loc e).1 := by
  unfold itemCode; (repeat' split) <;> simp +contextual [mem_mk, mem_cells, mem_foldl, mem_foldl_fst, mem_ite, *, rdC_mem]

theorem itemNorm_mem (s : State) (c : Ctx3) (loc e : Nat) (h_s : MemOk s) :
    MemOk (itemNorm s c loc e).1 := by
  unfold itemNorm; (repeat' split) <;> simp +contextual [mem_mk, mem_cells, mem_foldl, mem_foldl_fst, mem_ite, *, rdC_mem]

theorem itemAttr_mem (s : State) (c : Ctx3) (loc e j : Nat) (h_s : MemOk s) :
    MemOk (itemAttr s c loc e j).1 := by
  unfold itemAttr; (repeat' split) <;> simp +contextual [mem_mk, mem_cells, mem_foldl, mem_foldl_fst, mem_ite, *, rdB_mem]

theorem baseRecord_mem (s : State) (c : Ctx3) (loc : Nat) (used : Bool) (h_s : MemOk s) :
    MemOk (baseRecord s c loc used).1 := by
  unfold baseRecord; grind [mem_mk, mem_cells, mem_foldl, mem_foldl_fst, freeVal_mem, consume_mem, rdB_mem, rdC_mem, areaRead_mem]

theorem rowRecord_mem (s : State) (c : Ctx3) (loc e : Nat) (h_s : MemOk s) :
    MemOk (rowRecord s c loc e).1 := by
  unfold rowRecord; (repeat' split) <;> simp +contextual [mem_mk, mem_cells, mem_foldl, mem_foldl_fst, mem_ite, *, baseRecord_mem]

theorem recordWords_mem (s : State) (c : Ctx3) (loc e : Nat) (h_s : MemOk s) :
    MemOk (recordWords s c loc e).1 := by
  unfold recordWords; (repeat' split) <;> simp +contextual [mem_mk, mem_cells, mem_foldl, mem_foldl_fst, mem_ite, *, nrReadWords_mem, areaFetch_mem]

theorem stageRecord_mem (c : Ctx3) (e : Nat) (a : State × List Staged) (loc : Nat) (h_a : MemOk a.1) :
    MemOk (stageRecord c e a loc).1 := by
  unfold stageRecord; grind [mem_mk, mem_cells, mem_foldl, mem_foldl_fst, recordWords_mem]

theorem fetchRecord_mem (s : State) (c : Ctx3) (gs : List Staged) (loc e : Nat) (h_s : MemOk s) :
    MemOk (fetchRecord s c gs loc e).1 := by
  unfold fetchRecord; (repeat' split) <;> simp +contextual [mem_mk, mem_cells, mem_foldl, mem_foldl_fst, mem_ite, *, consume_mem, rowRecord_mem]

theorem trimStaged_mem (s : State) (h_s : MemOk s) :
    MemOk (trimStaged s) := by
  unfold trimStaged; simp +contextual [mem_mk, mem_cells, mem_foldl, mem_foldl_fst, mem_ite, *, modSrch_mem]

theorem poisonStaged_mem (s : State) (line w : Nat) (h_s : MemOk s) :
    MemOk (poisonStaged s line w) := by
  unfold poisonStaged; simp +contextual [mem_mk, mem_cells, mem_foldl, mem_foldl_fst, mem_ite, *, modSrch_mem]

theorem readBook_mem (s : State) (c : Ctx3) (h_s : MemOk s) :
    MemOk (readBook s c).1 := by
  unfold readBook; (repeat' split) <;> simp +contextual [mem_mk, mem_cells, mem_foldl, mem_foldl_fst, mem_ite, *, rdC_mem]

theorem approxOf_mem (s : State) (c : Ctx3) (q : Query) (loc e : Nat) (h_s : MemOk s) :
    MemOk (approxOf s c q loc e).1 := by
  unfold approxOf; grind [mem_mk, mem_cells, mem_foldl, mem_foldl_fst, itemId_mem, itemCode_mem, itemNorm_mem]

theorem hotEntry_mem (s : State) (c : Ctx3) (level slot : Nat) (h_s : MemOk s) :
    MemOk (hotEntry s c level slot).1 := by
  unfold hotEntry; grind [mem_mk, mem_cells, mem_foldl, mem_foldl_fst, rdC_mem]

end Sys2Proof.Machine
end

