-- ==== Sys2Proof/Laws/KeepSearch.lean ====
section
/-! SUPPORT. Every function of Machine/Search.lean that answers a state keeps the canonical form of the stored bytes. -/
set_option linter.unusedSimpArgs false
namespace Sys2Proof.Machine
open Sys2Proof

theorem setSearch_mem (s : State) (id : Nat) (x : SSearch) (h_s : MemOk s) :
    MemOk (setSearch s id x) := by
  unfold setSearch; simp +contextual [mem_mk, mem_cells, mem_foldl, mem_foldl_fst, mem_ite, *, modSrch_mem]

theorem countItems_mem (s : State) (n : Nat) (h_s : MemOk s) :
    MemOk (countItems s n) := by
  unfold countItems; simp +contextual [mem_mk, mem_cells, mem_foldl, mem_foldl_fst, mem_ite, *, bumpBy_mem]

theorem readCols_mem (s : State) (c : Ctx3) (os : List FOp) (loc e : Nat) (h_s : MemOk s) :
    MemOk (readCols s c os loc e).1 := by
  unfold readCols; grind [mem_mk, mem_cells, mem_foldl, mem_foldl_fst, itemAttr_mem]

theorem evalFilter_mem (s : State) (c : Ctx3) (os : List FOp) (loc e : Nat) (h_s : MemOk s) :
    MemOk (evalFilter s c os loc e).1 := by
  unfold evalFilter; simp +contextual [mem_mk, mem_cells, mem_foldl, mem_foldl_fst, mem_ite, *, readCols_mem]

theorem evalScan_mem (s : State) (c : Ctx3) (got : SMap Nat) (os : List FOp) (loc : Nat) (h_s : MemOk s) :
    MemOk (evalScan s c got os loc).1 := by
  unfold evalScan; simp +contextual [mem_mk, mem_cells, mem_foldl, mem_foldl_fst, mem_ite, *, readCols_mem]

theorem scanBase_mem (c : Ctx3) (got : SMap Nat) (os : List FOp) (a : State × Scan) (i : Nat) (h_a : MemOk a.1) :
    MemOk (scanBase c got os a i).1 := by
  unfold scanBase; grind [mem_mk, mem_cells, mem_foldl, mem_foldl_fst, itemId_mem, evalScan_mem]

theorem scanFix_mem (c : Ctx3) (os : List FOp) (e : Nat) (a : State × List Nat) (i : Nat) (h_a : MemOk a.1) :
    MemOk (scanFix c os e a i).1 := by
  unfold scanFix; (repeat' split) <;> simp +contextual [mem_mk, mem_cells, mem_foldl, mem_foldl_fst, mem_ite, *, evalFilter_mem]

theorem preScan_mem (s : State) (c : Ctx3) (got : SMap Nat) (os : List FOp) (e : Nat) (h_s : MemOk s) :
    MemOk (preScan s c got os e).1 := by
  unfold preScan; grind [mem_mk, mem_cells, mem_foldl, mem_foldl_fst, consumeNr_mem, scanBase_mem, scanFix_mem]

theorem arrivePart_mem (s : State) (ref : Nat) (p : Partial) (h_s : MemOk s) :
    MemOk (arrivePart s ref p) := by
  unfold arrivePart; grind [mem_mk, mem_cells, mem_foldl, mem_foldl_fst, modSrch_mem]

theorem sendSys_mem (s : State) (node : Nat) (m : SysMsg) (h_s : MemOk s) :
    ∀ x_, sendSys s node m = some x_ → MemOk x_ := by
  intro x_ hx_
  unfold sendSys at hx_
  dsimp only at hx_
  split at hx_
  · simp at hx_; subst hx_; exact emit_mem _ _ (sendMsg_mem _ _ _ _ _ _ _ h_s _ ‹_›)
  · simp at hx_

theorem freeSearch_mem (s : State) (id : Nat) (h_s : MemOk s) :
    MemOk (freeSearch s id) := by
  unfold freeSearch; simp +contextual [mem_mk, mem_cells, mem_foldl, mem_foldl_fst, mem_ite, *, modSrch_mem]

theorem endSearch_mem (s : State) (id : Nat) (x : SSearch) (p : Partial) (h_s : MemOk s) :
    MemOk (endSearch s id x p) := by
  unfold endSearch
  have h1 : MemOk (if p.status = Status.poisoned.code then bump (freeSearch s id) Reg.srcPoisonShardWide
           else if p.status = Status.busy.code then bump (freeSearch s id) Reg.srcRefuseBusy else freeSearch s id) := by
    repeat' split
    all_goals first | exact bump_mem _ _ (freeSearch_mem _ _ h_s) | exact freeSearch_mem _ _ h_s
  dsimp only
  split
  · exact arrivePart_mem _ _ _ h1
  · exact mem_getD h1 (fun u hu => sendSys_mem _ _ _ h1 _ hu)

theorem failSearch_mem (s : State) (id : Nat) (st : Status) (h_s : MemOk s) :
    MemOk (failSearch s id st) := by
  unfold failSearch; (repeat' split) <;> simp +contextual [mem_mk, mem_cells, mem_foldl, mem_foldl_fst, mem_ite, *, endSearch_mem]

theorem lookHot_mem (c : Ctx3) (q : Query) (e level : Nat) (a : State × (Nat × Nat) × Option Hot × Nat) (n : Nat) (h_a : MemOk a.1) :
    MemOk (lookHot c q e level a n).1 := by
  unfold lookHot; grind [mem_mk, mem_cells, mem_foldl, mem_foldl_fst, approxOf_mem, hotEntry_mem]

theorem walkLevel_mem (c : Ctx3) (q : Query) (e level : Nat) (y0_ : Nat) (y1_ : State) (y2_ : Hot) (y3_ : Nat × Nat) (y4_ : Nat) (h_y1_ : MemOk y1_) :
    MemOk (walkLevel c q e level y0_ y1_ y2_ y3_ y4_).1 := by
  induction y0_ generalizing y1_ y2_ y3_ y4_ with
  | zero => exact h_y1_
  | succ n ih =>
    unfold walkLevel
    have h := mem_foldl_fst (lookHot c q e level) (fun t x ht => lookHot_mem c q e level t x ht) y2_.nbrs (y1_, y3_, none, y4_) h_y1_
    split
    · rename_i h2; rw [h2] at h; exact h
    · rename_i h2; rw [h2] at h; exact ih _ _ _ _ h

theorem descend_mem (c : Ctx3) (q : Query) (e : Nat) (y0_ : Nat) (y1_ : State) (y2_ : Hot) (y3_ : Nat × Nat) (y4_ : Nat) (h_y1_ : MemOk y1_) :
    MemOk (descend c q e y0_ y1_ y2_ y3_ y4_).1 := by
  induction y0_ generalizing y1_ y2_ y3_ y4_ with
  | zero => exact h_y1_
  | succ n ih =>
    unfold descend
    have h := walkLevel_mem c q e (n + 1) (shLevelN c.desc (n + 1) + 1) y1_ y2_ y3_ y4_ h_y1_
    dsimp only
    split
    · exact h
    · have h2 := hotEntry_mem _ c n (walkLevel c q e (n + 1) (shLevelN c.desc (n + 1) + 1) y1_ y2_ y3_ y4_).2.1.down h
      split
      · rename_i e; rw [e] at h2; exact h2
      · rename_i e; rw [e] at h2; exact ih _ _ _ _ h2

theorem startItem_mem (s : State) (c : Ctx3) (q : Query) (e : Nat) (h_s : MemOk s) :
    MemOk (startItem s c q e).1 := by
  unfold startItem; grind [mem_mk, mem_cells, mem_foldl, mem_foldl_fst, approxOf_mem, hotEntry_mem, descend_mem]

theorem firstList_mem (s : State) (c : Ctx3) (q : Query) (e start : Nat) (h_s : MemOk s) :
    MemOk (firstList s c q e start).1 := by
  unfold firstList; grind [mem_mk, mem_cells, mem_foldl, mem_foldl_fst, approxOf_mem]

theorem prefetch_mem (s : State) (c : Ctx3) (x : SSearch) (h_s : MemOk s) :
    MemOk (prefetch s c x).1 := by
  unfold prefetch; simp +contextual [mem_mk, mem_cells, mem_foldl, mem_foldl_fst, mem_ite, *, stageRecord_mem]

theorem passes_mem (s : State) (c : Ctx3) (x : SSearch) (loc : Nat) (h_s : MemOk s) :
    MemOk (passes s c x loc).1 := by
  unfold passes; (repeat' split) <;> simp +contextual [mem_mk, mem_cells, mem_foldl, mem_foldl_fst, mem_ite, *, consumeNr_mem, rdC_mem, evalFilter_mem]

theorem newNbrs_mem (c : Ctx3) (q : Query) (x : SSearch) (y0_ : List Nat) (y1_ : State) (y2_ : List Cand) (y3_ : Nat) (h_y1_ : MemOk y1_) :
    MemOk (newNbrs c q x y0_ y1_ y2_ y3_).1 := by
  induction y0_ generalizing y1_ y2_ y3_ with
  | nil => exact h_y1_
  | cons n ns ih =>
    unfold newNbrs
    split
    · exact ih _ _ _ h_y1_
    · have h := approxOf_mem y1_ c q n x.epoch h_y1_
      split <;> (rename_i e; rw [e] at h; exact ih _ _ _ h)

theorem mergeEntry_mem (c : Ctx3) (q : Query) (a : State × SSearch × List Cand) (e : Cand) (h_a : MemOk a.1) :
    MemOk (mergeEntry c q a e).1 := by
  unfold mergeEntry; grind [mem_mk, mem_cells, mem_foldl, mem_foldl_fst, fetchRecord_mem, passes_mem, newNbrs_mem]

theorem oneRound_mem (s : State) (c : Ctx3) (x : SSearch) (h_s : MemOk s) :
    MemOk (oneRound s c x).1 := by
  unfold oneRound; simp +contextual [mem_mk, mem_cells, mem_foldl, mem_foldl_fst, mem_ite, *, mergeEntry_mem]

theorem allowed_mem (s : State) (c : Ctx3) (x : SSearch) (h_s : MemOk s) :
    MemOk (allowed s c x).1 := by
  unfold allowed; simp +contextual [mem_mk, mem_cells, mem_foldl, mem_foldl_fst, mem_ite, *, passes_mem]

theorem exhaust_mem (s : State) (c : Ctx3) (x : SSearch) (locs : List Nat) (h_s : MemOk s) :
    MemOk (exhaust s c x locs).1 := by
  unfold exhaust; grind [mem_mk, mem_cells, mem_foldl, mem_foldl_fst, rowRecord_mem, passes_mem]

theorem continueSearch_mem (s : State) (c : Ctx3) (id : Nat) (x : SSearch) (h_s : MemOk s) :
    MemOk (continueSearch s c id x) := by
  unfold continueSearch; grind [mem_mk, mem_cells, mem_foldl, mem_foldl_fst, setSearch_mem, endSearch_mem, prefetch_mem]

theorem beginTraversal_mem (s : State) (c : Ctx3) (id : Nat) (x : SSearch) (h_s : MemOk s) :
    MemOk (beginTraversal s c id x) := by
  unfold beginTraversal; grind [mem_mk, mem_cells, mem_foldl, mem_foldl_fst, setSearch_mem, countItems_mem, endSearch_mem, startItem_mem, firstList_mem, continueSearch_mem]

theorem afterScan_mem (s : State) (c : Ctx3) (id : Nat) (x : SSearch) (h_s : MemOk s) :
    MemOk (afterScan s c id x) := by
  unfold afterScan; grind [mem_mk, mem_cells, mem_foldl, mem_foldl_fst, bump_mem, nrPut_mem, setSearch_mem, countItems_mem, preScan_mem, beginTraversal_mem]

theorem consumeQuery_mem (s : State) (y0_ : Option (Option Nat)) (h_s : MemOk s) :
    MemOk (consumeQuery s y0_) := by
  unfold consumeQuery
  repeat' split
  all_goals first | exact consumeNr_mem _ _ h_s | exact consume_mem _ _ _ _ (freeVal_mem _ h_s) | exact h_s

theorem shardSearchAdmit_mem (s : State) (h_s : MemOk s) :
    MemOk (shardSearchAdmit s) := by
  unfold shardSearchAdmit; grind [mem_mk, mem_cells, mem_foldl, mem_foldl_fst, bump_mem, modSrch_mem, readBook_mem, setSearch_mem, failSearch_mem, beginTraversal_mem, afterScan_mem, consumeQuery_mem]

theorem searchDeadline_mem (id : Nat) (s : State) (h_s : MemOk s) :
    MemOk (searchDeadline id s) := by
  unfold searchDeadline; (repeat' split) <;> simp +contextual [mem_mk, mem_cells, mem_foldl, mem_foldl_fst, mem_ite, *, endSearch_mem]

theorem kettleScanned_mem (s : State) (id : Nat) (ok : Bool) (h_s : MemOk s) :
    MemOk (kettleScanned s id ok) := by
  unfold kettleScanned; (repeat' split) <;> simp +contextual [mem_mk, mem_cells, mem_foldl, mem_foldl_fst, mem_ite, *, bump_mem, afterScan_mem, searchDeadline_mem]

theorem scanCollect_mem (s : State) (id place : Nat) (bits : List (Nat × Nat)) (h_s : MemOk s) :
    MemOk (scanCollect s id place bits) := by
  unfold scanCollect; (repeat' split) <;> simp +contextual [mem_mk, mem_cells, mem_foldl, mem_foldl_fst, mem_ite, *, setSearch_mem]

theorem admitTimeout_mem (id : Nat) (s : State) (h_s : MemOk s) :
    MemOk (admitTimeout id s) := by
  unfold admitTimeout; (repeat' split) <;> simp +contextual [mem_mk, mem_cells, mem_foldl, mem_foldl_fst, mem_ite, *, failSearch_mem]

theorem traversalRound_mem (id : Nat) (s : State) (h_s : MemOk s) :
    MemOk (traversalRound id s) := by
  unfold traversalRound; grind [mem_mk, mem_cells, mem_foldl, mem_foldl_fst, wantUnits_mem, countItems_mem, endSearch_mem, oneRound_mem, allowed_mem, exhaust_mem, continueSearch_mem, searchDeadline_mem]

theorem shardSearchExpiry_mem (id : Nat) (s : State) (h_s : MemOk s) :
    MemOk (shardSearchExpiry id s) := by
  unfold shardSearchExpiry; (repeat' split) <;> simp +contextual [mem_mk, mem_cells, mem_foldl, mem_foldl_fst, mem_ite, *, failSearch_mem]

theorem joinSearch_mem (s : State) (x : SSearch) (h_s : MemOk s) :
    MemOk (joinSearch s x) := by
  unfold joinSearch; grind [mem_mk, mem_cells, mem_foldl, mem_foldl_fst, modSrch_mem, setSearch_mem, failSearch_mem]

theorem startShard_mem (ref index shard mapBase : Nat) (par : SearchPar) (filter query : List Byte) (qfmt : Nat) (qpois : Option Nat) (expiry : Nat) (s : State) (h_s : MemOk s) :
    MemOk (startShard ref index shard mapBase par filter query qfmt qpois expiry s) := by
  unfold startShard; grind [mem_mk, mem_cells, mem_foldl, mem_foldl_fst, bump_mem, rdC_mem, arrivePart_mem, sendSys_mem, joinSearch_mem]

theorem search_mem (work : Nat) (s : State) (h_s : MemOk s) :
    MemOk (search work s) := by
  unfold search
  refine onWork_mem _ _ _ _ h_s (fun s w h => ?_)
  dsimp only
  split
  · exact complete_mem _ _ _ _ _ _ _ h
  · rename_i r e
    have c1 : ∀ u st, MemOk u → MemOk (complete u w st) := fun u st hu => complete_mem _ _ _ _ _ _ _ hu
    have h1 := nrRead_mem s (w.f 40 8) 8 h
    generalize nrRead s (w.f 40 8) 8 = hd at h1
    have h2 := nrRead_mem hd.1 (w.f 40 8) (roundUp (8 + 2 * getLE hd.2.bytes 0 2) 16 + 16 * getLE hd.2.bytes 5 1) h1
    generalize nrRead hd.1 (w.f 40 8) (roundUp (8 + 2 * getLE hd.2.bytes 0 2) 16 + 16 * getLE hd.2.bytes 5 1) = b at h2
    have h3 := nrRead_mem b.1 (w.f 40 8 + (roundUp (8 + 2 * getLE hd.2.bytes 0 2) 16 + 16 * getLE hd.2.bytes 5 1)) (2 * ixDims r) h2
    generalize nrRead b.1 (w.f 40 8 + (roundUp (8 + 2 * getLE hd.2.bytes 0 2) 16 + 16 * getLE hd.2.bytes 5 1)) (2 * ixDims r) = q at h3
    repeat' (with_reducible apply mem_ite)
    all_goals first | exact c1 _ _ h | exact c1 _ _ h1 | exact c1 _ _ h2 | exact c1 _ _ h3 | exact c1 _ _ (consumeNr_mem _ _ h1) | exact c1 _ _ (consumeNr_mem _ _ h2) | skip
    apply mem_foldl
    · intro t p ht
      exact startShard_mem _ _ _ _ _ _ _ _ _ _ _ ht
    · exact beginWork_mem _ _ (modSrch_mem _ _ h3)

theorem sys_mem (port : Nat) (p : Packet) (m : SysMsg) (s : State) (h_s : MemOk s) :
    MemOk (sys port p m s) := by
  unfold sys
  refine receive_mem _ _ _ _ _ h_s (fun s p h => ?_)
  grind [mem_mk, mem_cells, mem_foldl, mem_foldl_fst, bump_mem, receive_mem, reassemble_mem, arrivePart_mem, joinSearch_mem]

theorem sysFailed_mem (s : State) (_node : Nat) (m : SysMsg) (st : Status) (h_s : MemOk s) :
    MemOk (sysFailed s _node m st) := by
  unfold sysFailed; (repeat' split) <;> simp +contextual [mem_mk, mem_cells, mem_foldl, mem_foldl_fst, mem_ite, *, arrivePart_mem]

theorem sysLost_mem (s : State) (h_s : MemOk s) :
    MemOk (sysLost s) := by
  unfold sysLost; grind [mem_mk, mem_cells, mem_foldl, mem_foldl_fst, modBrim_mem, sysFailed_mem]

theorem nak_mem (port : Nat) (p : Packet) (s : State) (h_s : MemOk s) :
    MemOk (nak port p s) := by
  unfold nak
  refine nakIn_mem _ _ _ _ h_s (fun s i m st h => ?_)
  simp +contextual [mem_mk, mem_cells, mem_foldl, mem_foldl_fst, mem_ite, *, nakIn_mem, sysFailed_mem, h]

theorem sysReassemblyTimeout_mem (src msgid : Nat) (m : Option SysMsg) (s : State) (h_s : MemOk s) :
    MemOk (sysReassemblyTimeout src msgid m s) := by
  unfold sysReassemblyTimeout; (repeat' split) <;> simp +contextual [mem_mk, mem_cells, mem_foldl, mem_foldl_fst, mem_ite, *, reassemblyTimeout_mem, arrivePart_mem]

theorem runMerge_mem (s : State) (cid : Nat) (c : Coord) (h_s : MemOk s) :
    MemOk (runMerge s cid c) := by
  unfold runMerge; grind [mem_mk, mem_cells, mem_foldl, mem_foldl_fst, bumpBy_mem, bump_mem, completeWith_mem, modSrch_mem]

theorem merge_mem (s : State) (h_s : MemOk s) :
    MemOk (merge s) := by
  unfold merge; (repeat' split) <;> simp +contextual [mem_mk, mem_cells, mem_foldl, mem_foldl_fst, mem_ite, *, modSrch_mem, runMerge_mem]

theorem searchTimeout_mem (s : State) (work : Nat) (h_s : MemOk s) :
    MemOk (searchTimeout s work) := by
  unfold searchTimeout; grind [mem_mk, mem_cells, mem_foldl, mem_foldl_fst, arrivePart_mem, freeSearch_mem, runMerge_mem]

end Sys2Proof.Machine
end

