-- ==== Sys2Proof/Laws/KeepGather.lean ====
section
/-! SUPPORT. Every function of Machine/Gather.lean that answers a state keeps the canonical form of the stored bytes. -/
set_option linter.unusedSimpArgs false
namespace Sys2Proof.Machine
open Sys2Proof

theorem modCard_mem (s : State) (f : Card → Card) (h_s : MemOk s) :
    MemOk (modCard s f) := by
  unfold modCard; simp +contextual [mem_mk, mem_cells, mem_foldl, mem_foldl_fst, mem_ite, *]

theorem rdW_mem (s : State) (addr n : Nat) (h_s : MemOk s) :
    MemOk (rdW s addr n).1 := by
  unfold rdW; (repeat' split) <;> simp +contextual [mem_mk, mem_cells, mem_foldl, mem_foldl_fst, mem_ite, *, nrRead_mem]

theorem tableRegister_mem (work : Nat) (s : State) (h_s : MemOk s) :
    MemOk (tableRegister work s) := by
  unfold tableRegister
  refine onAdmin_mem _ _ _ _ _ _ h_s (fun s w b h => ?_)
  grind [mem_mk, mem_cells, mem_foldl, mem_foldl_fst, bump_mem, complete_mem, onAdmin_mem, modCard_mem]

theorem tableDeregister_mem (work : Nat) (s : State) (h_s : MemOk s) :
    MemOk (tableDeregister work s) := by
  unfold tableDeregister
  refine onAdmin_mem _ _ _ _ _ _ h_s (fun s w b h => ?_)
  grind [mem_mk, mem_cells, mem_foldl, mem_foldl_fst, complete_mem, onAdmin_mem, modCard_mem]

theorem pin_mem (work : Nat) (s : State) (h_s : MemOk s) :
    MemOk (pin work s) := by
  unfold pin
  refine onAdmin_mem _ _ _ _ _ _ h_s (fun s w b h => ?_)
  grind [mem_mk, mem_cells, mem_foldl, mem_foldl_fst, bump_mem, complete_mem, onAdmin_mem, modCard_mem]

theorem unpin_mem (work : Nat) (s : State) (h_s : MemOk s) :
    MemOk (unpin work s) := by
  unfold unpin
  refine onAdmin_mem _ _ _ _ _ _ h_s (fun s w b h => ?_)
  grind [mem_mk, mem_cells, mem_foldl, mem_foldl_fst, complete_mem, onAdmin_mem, modCard_mem]

theorem rowPtr_mem (s : State) (r : List Byte) (row : Nat) (h_s : MemOk s) :
    MemOk (rowPtr s r row).1 := by
  exact rdW_mem _ _ _ h_s

theorem slotHead_mem (s : State) (r : List Byte) (slot : Nat) (h_s : MemOk s) :
    MemOk (slotHead s r slot).1 := by
  unfold slotHead; simp +contextual [mem_mk, mem_cells, mem_foldl, mem_foldl_fst, mem_ite, *, rdW_mem]

theorem locateRow_mem (s : State) (r : List Byte) (row : Nat) (v : Option Nat) (h_s : MemOk s) :
    MemOk (locateRow s r row v).1 := by
  unfold locateRow
  have h := rowPtr_mem s r row h_s
  dsimp only
  generalize rowPtr s r row = p at h
  have h2 := slotHead_mem p.1 r p.2.slot h
  generalize slotHead p.1 r p.2.slot = u at h2
  repeat' split
  all_goals first | exact h | exact h2

theorem readRow_mem (s : State) (r : List Byte) (row slot : Nat) (h_s : MemOk s) :
    MemOk (readRow s r row slot).1 := by
  unfold readRow; simp +contextual [mem_mk, mem_cells, mem_foldl, mem_foldl_fst, mem_ite, *, rdW_mem]

theorem gather_mem (work : Nat) (s : State) (h_s : MemOk s) :
    MemOk (gather work s) := by
  unfold gather
  refine onWork_mem _ _ _ _ h_s (fun s w h => ?_)
  simp +contextual [mem_mk, mem_cells, mem_foldl, mem_foldl_fst, mem_ite, *, beginWork_mem, onWork_mem, modCard_mem, h]

theorem serveEntry_mem (s : State) (r : List Byte) (v : Option Nat) (tver : Nat) (k0 : Carder) (pos row : Nat) (h_s : MemOk s) :
    MemOk (serveEntry s r v tver k0 pos row).1 := by
  unfold serveEntry; grind [mem_mk, mem_cells, mem_foldl, mem_foldl_fst, locateRow_mem, readRow_mem]

theorem readWeights_mem (s : State) (w : Work) (h_s : MemOk s) :
    MemOk (readWeights s w).1 := by
  unfold readWeights; (repeat' split) <;> simp +contextual [mem_mk, mem_cells, mem_foldl, mem_foldl_fst, mem_ite, *, rdW_mem]

theorem gatherLoop_mem (r : List Byte) (w : Work) (v : Option Nat) (tver : Nat) (wts : Option (List (Nat × Option Nat))) (y0_ : List Nat) (y1_ : Nat) (y2_ : List Nat) (y3_ : State) (y4_ : Carder) (y5_ : Bag) (y6_ : List OutRow) (h_y3_ : MemOk y3_) :
    MemOk (gatherLoop r w v tver wts y0_ y1_ y2_ y3_ y4_ y5_ y6_).1 := by
  induction y0_ generalizing y1_ y2_ y3_ y4_ y5_ y6_ with
  | nil => exact h_y3_
  | cons row rows ih =>
    have h := serveEntry_mem y3_ r v tver y4_ y1_ row h_y3_
    unfold gatherLoop
    dsimp only
    generalize serveEntry y3_ r v tver y4_ y1_ row = x at h
    repeat' split
    all_goals first | exact h | exact ih _ _ _ _ _ _ h

theorem countLoad_mem (s : State) (t : Nat) (rows : List Nat) (h_s : MemOk s) :
    MemOk (countLoad s t rows) := by
  unfold countLoad; simp +contextual [mem_mk, mem_cells, mem_foldl, mem_foldl_fst, mem_ite, *, modCard_mem]

theorem putRows_mem (out stride : Nat) (y0_ : List OutRow) (y1_ : Nat) (y2_ : State) (h_y2_ : MemOk y2_) :
    MemOk (putRows out stride y0_ y1_ y2_).1 := by
  induction y0_ generalizing y1_ y2_ with
  | nil => exact h_y2_
  | cons o os ih =>
    unfold putRows
    have h := nrWrite_mem y2_ (out + y1_ * stride) o.bytes o.pois h_y2_
    split
    · rename_i e; rw [e] at h; exact ih _ _ h
    · rename_i e; rw [e] at h; exact h

theorem endGather_mem (s : State) (w : Work) (r : List Byte) (tver : Nat) (k : Carder) (rows : List OutRow) (st : Status) (h_s : MemOk s) :
    MemOk (endGather s w r tver k rows st) := by
  unfold endGather; grind [mem_mk, mem_cells, mem_foldl, mem_foldl_fst, bumpBy_mem, consumeNr_mem, completeWith_mem, undefBytes_mem, countLoad_mem, putRows_mem]

theorem gatherCheck_mem (s : State) (w : Work) (h_s : MemOk s) :
    MemOk (gatherCheck s w).1 := by
  unfold gatherCheck; grind [mem_mk, mem_cells, mem_foldl, mem_foldl_fst, consumeNr_mem, rdW_mem]

theorem runGather_mem (s : State) (w : Work) (h_s : MemOk s) :
    MemOk (runGather s w) := by
  unfold runGather; grind [mem_mk, mem_cells, mem_foldl, mem_foldl_fst, complete_mem, readWeights_mem, gatherLoop_mem, endGather_mem, gatherCheck_mem]

theorem gatherAdmit_mem (s : State) (h_s : MemOk s) :
    MemOk (gatherAdmit s) := by
  unfold gatherAdmit; grind [mem_mk, mem_cells, mem_foldl, mem_foldl_fst, modCard_mem, runGather_mem]

theorem gatherTimeout_mem (s : State) (w : Work) (h_s : MemOk s) :
    MemOk (gatherTimeout s w) := by
  unfold gatherTimeout; grind [mem_mk, mem_cells, mem_foldl, mem_foldl_fst, complete_mem, modCard_mem, endGather_mem, gatherCheck_mem]

theorem setScat_mem (s : State) (id : Nat) (x : Scat) (h_s : MemOk s) :
    MemOk (setScat s id x) := by
  unfold setScat; simp +contextual [mem_mk, mem_cells, mem_foldl, mem_foldl_fst, mem_ite, *, modCard_mem]

theorem scatterCheck_mem (s : State) (w : Work) (h_s : MemOk s) :
    MemOk (scatterCheck s w).1 := by
  unfold scatterCheck; grind [mem_mk, mem_cells, mem_foldl, mem_foldl_fst, consumeNr_mem, rdW_mem]

theorem srcRow_mem (s : State) (w : Work) (dim i : Nat) (h_s : MemOk s) :
    MemOk (srcRow s w dim i).1 := by
  unfold srcRow; simp +contextual [mem_mk, mem_cells, mem_foldl, mem_foldl_fst, mem_ite, *, rdW_mem]

theorem addSources_mem (s : State) (w : Work) (dim : Nat) (a0 : Sum) (is : List Nat) (h_s : MemOk s) :
    MemOk (addSources s w dim a0 is).1 := by
  unfold addSources; simp +contextual [mem_mk, mem_cells, mem_foldl, mem_foldl_fst, mem_ite, *, srcRow_mem]

theorem newVersion_mem (s : State) (w : Work) (r : List Byte) (idx : List Nat) (row slot : Nat) (h_s : MemOk s) :
    MemOk (newVersion s w r idx row slot).1 := by
  unfold newVersion; grind [mem_mk, mem_cells, mem_foldl, mem_foldl_fst, readRow_mem, srcRow_mem, addSources_mem]

theorem currentRow_mem (s : State) (r : List Byte) (row : Nat) (h_s : MemOk s) :
    MemOk (currentRow s r row).1 := by
  unfold currentRow; grind [mem_mk, mem_cells, mem_foldl, mem_foldl_fst, rowPtr_mem, slotHead_mem]

theorem endScatter_mem (s : State) (w : Work) (x : Scat) (st : Status) (h_s : MemOk s) :
    MemOk (endScatter s w x st) := by
  unfold endScatter; grind [mem_mk, mem_cells, mem_foldl, mem_foldl_fst, bump_mem, completeWith_mem, modCard_mem]

theorem swapRow_mem (s : State) (r : List Byte) (row free slot rver tver : Nat) (vals : List Nat) (h_s : MemOk s) :
    MemOk (swapRow s r row free slot rver tver vals).1 := by
  unfold swapRow; grind [mem_mk, mem_cells, mem_foldl, mem_foldl_fst, bump_mem, nrWrite_mem]

theorem keepRow_mem (s : State) (word : Option Nat) (h_s : MemOk s) :
    MemOk (keepRow s word) := by
  unfold keepRow; (repeat' split) <;> simp +contextual [mem_mk, mem_cells, mem_foldl, mem_foldl_fst, mem_ite, *, bump_mem, consumeNr_mem]

theorem scatterRows_mem (w : Work) (t : Nat) (r : List Byte) (tver : Nat) (y0_ : List Nat) (y1_ : State) (y2_ : Scat) (h_y1_ : MemOk y1_) :
    MemOk (scatterRows w t r tver y0_ y1_ y2_) := by
  induction y0_ generalizing y1_ y2_ with
  | nil => exact endScatter_mem _ _ _ _ h_y1_
  | cons row rows ih =>
    unfold scatterRows
    have h := currentRow_mem y1_ r row h_y1_
    split
    · rename_i e; rw [e] at h; exact endScatter_mem _ _ _ _ h
    · rename_i e; rw [e] at h; exact ih _ _ (keepRow_mem _ _ h)
    · rename_i s1 slot rver hd e
      rw [e] at h
      have h2 := newVersion_mem s1 w r y2_.idx row slot h
      split
      · rename_i e; rw [e] at h2; exact endScatter_mem _ _ _ _ h2
      · rename_i e; rw [e] at h2; exact ih _ _ (keepRow_mem _ _ h2)
      · rename_i s2 v e; rw [e] at h2
        apply mem_ite
        · apply setScat_mem
          split
          · exact h2
          · exact bump_mem _ _ h2
        · split
          · exact endScatter_mem _ _ _ _ h2
          · rename_i f _
            have h3 := swapRow_mem s2 r row f slot rver tver v h2
            split
            · rename_i e; rw [e] at h3; exact ih _ _ h3
            · rename_i e; rw [e] at h3; exact endScatter_mem _ _ _ _ h3

theorem scatterRaw_mem (w : Work) (dim : Nat) (y0_ : List Nat) (y1_ : Nat) (y2_ : State) (y3_ : Scat) (h_y2_ : MemOk y2_) :
    MemOk (scatterRaw w dim y0_ y1_ y2_ y3_) := by
  induction y0_ generalizing y1_ y2_ y3_ with
  | nil => exact endScatter_mem _ _ _ _ h_y2_
  | cons a as ih =>
    unfold scatterRaw
    dsimp only
    have h := rdW_mem y2_ (w.f 32 8 + y1_ * srcStride dim) (2 * dim) h_y2_
    generalize rdW y2_ (w.f 32 8 + y1_ * srcStride dim) (2 * dim) = v at h
    split
    · exact endScatter_mem _ _ _ _ h
    · have h2 := nrWrite_mem v.1 a v.2.bytes (movedPois (w.f 32 8 + y1_ * srcStride dim) a (2 * dim) v.2.pois) h
      split
      · rename_i e; rw [e] at h2; exact endScatter_mem _ _ _ _ h2
      · rename_i e; rw [e] at h2; exact ih _ _ _ (bumpBy_mem _ _ _ h2)

theorem scatter_mem (work : Nat) (s : State) (h_s : MemOk s) :
    MemOk (scatter work s) := by
  unfold scatter
  refine onWork_mem _ _ _ _ h_s (fun s w h => ?_)
  grind [mem_mk, mem_cells, mem_foldl, mem_foldl_fst, beginWork_mem, complete_mem, onWork_mem, modCard_mem, setScat_mem, scatterCheck_mem, endScatter_mem]

theorem scatterStart_mem (work : Nat) (s : State) (h_s : MemOk s) :
    MemOk (scatterStart work s) := by
  unfold scatterStart; (repeat' split) <;> simp +contextual [mem_mk, mem_cells, mem_foldl, mem_foldl_fst, mem_ite, *, complete_mem, modCard_mem, scatterRows_mem, scatterRaw_mem]

theorem scatterRowResume_mem (work : Nat) (s : State) (h_s : MemOk s) :
    MemOk (scatterRowResume work s) := by
  unfold scatterRowResume; (repeat' split) <;> simp +contextual [mem_mk, mem_cells, mem_foldl, mem_foldl_fst, mem_ite, *, scatterRows_mem]

theorem scatterTimeout_mem (s : State) (w : Work) (h_s : MemOk s) :
    MemOk (scatterTimeout s w) := by
  unfold scatterTimeout; grind [mem_mk, mem_cells, mem_foldl, mem_foldl_fst, complete_mem, scatterCheck_mem, endScatter_mem]

theorem skewMigrate_mem (s : State) (h_s : MemOk s) :
    MemOk (skewMigrate s) := by
  unfold skewMigrate
  split
  · exact h_s
  · dsimp only
    apply mem_foldl _ _ _ _ h_s
    intro t x ht
    split
    · exact ht
    · have hb := rdW_mem t (getLE x.2.reg 24 4 * 65536) (4 * loadShards x.2.reg) ht
      generalize rdW t (getLE x.2.reg 24 4 * 65536) (4 * loadShards x.2.reg) = b at hb
      apply mem_foldl _ _ _ _ hb
      intro t k ht
      apply mem_foldl _ _ _ _ ht
      intro t p ht
      have hm : MemOk ((startMove t p (.site (quietSite b.1)) none).getD t) := mem_getD ht (fun u hu => startMove_mem _ _ _ _ ht _ hu)
      split
      · split
        · exact ht
        · exact hm
      · exact hm

theorem loadWindowEnd_mem (s : State) (h_s : MemOk s) :
    MemOk (loadWindowEnd s) := by
  unfold loadWindowEnd; grind [mem_mk, mem_cells, mem_foldl, mem_foldl_fst, nrPut_mem, modCard_mem, skewMigrate_mem]

end Sys2Proof.Machine
end

