-- ==== Sys2Proof/Laws/KeepFeltCore.lean ====
section
/-! SUPPORT. Every function of Machine/FeltCore.lean that answers a state keeps the canonical form of the stored bytes. -/
set_option linter.unusedSimpArgs false
namespace Sys2Proof.Machine
open Sys2Proof

theorem modFelt_mem (s : State) (f : Felt → Felt) (h_s : MemOk s) :
    MemOk (modFelt s f) := by
  unfold modFelt; simp +contextual [mem_mk, mem_cells, mem_foldl, mem_foldl_fst, mem_ite, *]

theorem setImage_mem (s : State) (i : Nat) (x : Image) (h_s : MemOk s) :
    MemOk (setImage s i x) := by
  unfold setImage; simp +contextual [mem_mk, mem_cells, mem_foldl, mem_foldl_fst, mem_ite, *, modFelt_mem]

theorem applyFences_mem (s : State) (h_s : MemOk s) :
    MemOk (applyFences s) := by
  unfold applyFences; grind [mem_mk, mem_cells, mem_foldl, mem_foldl_fst, modFelt_mem]

theorem autoBlock_mem (s : State) (phys : Nat) (h_s : MemOk s) :
    MemOk (autoBlock s phys) := by
  unfold autoBlock; grind [mem_mk, mem_cells, mem_foldl, mem_foldl_fst, setF_mem, autoCount_mem, autoFenced_mem]

theorem countHits_mem (s : State) (cell : Nat) (hits : List (Nat × Nat)) (h_s : MemOk s) :
    MemOk (countHits s cell hits) := by
  unfold countHits; grind [mem_mk, mem_cells, mem_foldl, mem_foldl_fst, bump_mem, intLog_mem, logCorrected_mem, autoBlock_mem]

theorem tapWord_mem (s : State) (blk : Nat) (w : List Byte) (h_s : MemOk s) :
    MemOk (tapWord s blk w) := by
  unfold tapWord; grind [mem_mk, mem_cells, mem_foldl, mem_foldl_fst]

theorem tapOut_mem (s : State) (blk : Nat) (ws : List (List Byte)) (h_s : MemOk s) :
    MemOk (tapOut s blk ws) := by
  unfold tapOut; (repeat' split) <;> simp +contextual [mem_mk, mem_cells, mem_foldl, mem_foldl_fst, mem_ite, *, tapWord_mem]

theorem moveRow_mem (s : State) (img cell : Nat) (w : Win) (e : StageEnt) (addr j : Nat) (h_s : MemOk s) :
    MemOk (moveRow s img cell w e addr j) := by
  unfold moveRow; grind [mem_mk, mem_cells, mem_foldl, mem_foldl_fst, bumpBy_mem, nrWrite_mem, rdW_mem, setImage_mem, countHits_mem, tapOut_mem]

theorem moveXfer_mem (s : State) (img : Nat) (t : Xfer) (h_s : MemOk s) :
    MemOk (moveXfer s img t) := by
  unfold moveXfer; (repeat' split) <;> simp +contextual [mem_mk, mem_cells, mem_foldl, mem_foldl_fst, mem_ite, *, moveRow_mem]

theorem transferReady_mem (img cell win felt : Nat) (s : State) (h_s : MemOk s) :
    MemOk (transferReady img cell win felt s) := by
  unfold transferReady; grind [mem_mk, mem_cells, mem_foldl, mem_foldl_fst, setImage_mem, moveXfer_mem]

end Sys2Proof.Machine
end

