-- ==== Sys2Proof/Laws/KeepRuns.lean ====
section
/-! SUPPORT. Every function of Machine/Runs.lean that answers a state keeps the canonical form of the stored bytes. -/
set_option linter.unusedSimpArgs false
namespace Sys2Proof.Machine
open Sys2Proof

theorem modImage_mem (s : State) (i : Nat) (f : Image → Image) (h_s : MemOk s) :
    MemOk (modImage s i f) := by
  unfold modImage; (repeat' split) <;> simp +contextual [mem_mk, mem_cells, mem_foldl, mem_foldl_fst, mem_ite, *, setImage_mem]

theorem pokeCell_mem (s : State) (img cell a : Nat) (bs : List Byte) (pois : Bool) (h_s : MemOk s) :
    MemOk (pokeCell s img cell a bs pois) := by
  unfold pokeCell; (repeat' split) <;> simp +contextual [mem_mk, mem_cells, mem_foldl, mem_foldl_fst, mem_ite, *, countHits_mem, modImage_mem]

theorem closeStep_mem (s : State) (img : Nat) (st : Status) (final : Bool) (fault : Nat) (h_s : MemOk s) :
    MemOk (closeStep s img st final fault) := by
  unfold closeStep; (repeat' split) <;> simp +contextual [mem_mk, mem_cells, mem_foldl, mem_foldl_fst, mem_ite, *, nrPut_mem, setImage_mem]

theorem putScales_mem (s : State) (img : Nat) (x : Image) (r : Run) (h_s : MemOk s) :
    MemOk (putScales s img x r) := by
  unfold putScales; grind [mem_mk, mem_cells, mem_foldl, mem_foldl_fst, pokeCell_mem]

theorem stepWord_mem (s : State) (img step : Nat) (w : Nat × Nat × Nat) (h_s : MemOk s) :
    MemOk (stepWord s img step w) := by
  unfold stepWord; grind [mem_mk, mem_cells, mem_foldl, mem_foldl_fst, bumpBy_mem, rdW_mem, pokeCell_mem]

theorem startStep_mem (s : State) (img : Nat) (h_s : MemOk s) :
    MemOk (startStep s img) := by
  unfold startStep; grind [mem_mk, mem_cells, mem_foldl, mem_foldl_fst, setImage_mem, putScales_mem, stepWord_mem]

theorem finishXfers_mem (s : State) (img : Nat) (h_s : MemOk s) :
    MemOk (finishXfers s img) := by
  unfold finishXfers; grind [mem_mk, mem_cells, mem_foldl, mem_foldl_fst, moveXfer_mem, modImage_mem]

theorem dropImage_mem (s : State) (img : Nat) (h_s : MemOk s) :
    MemOk (dropImage s img) := by
  unfold dropImage; simp +contextual [mem_mk, mem_cells, mem_foldl, mem_foldl_fst, mem_ite, *, modFelt_mem]

theorem endRun_mem (s : State) (img : Nat) (st : Status) (fault : Nat) (h_s : MemOk s) :
    MemOk (endRun s img st fault) := by
  unfold endRun; grind [mem_mk, mem_cells, mem_foldl, mem_foldl_fst, completeId_mem, modImage_mem, closeStep_mem, finishXfers_mem, dropImage_mem]

theorem nextStep_mem (s : State) (img : Nat) (h_s : MemOk s) :
    MemOk (nextStep s img) := by
  unfold nextStep; simp +contextual [mem_mk, mem_cells, mem_foldl, mem_foldl_fst, mem_ite, *, modImage_mem, startStep_mem]

theorem oneBoundary_mem (img : Nat) (s : State) (h_s : MemOk s) :
    MemOk (oneBoundary img s) := by
  unfold oneBoundary; grind [mem_mk, mem_cells, mem_foldl, mem_foldl_fst, bump_mem, modBow_mem, setImage_mem, modImage_mem, closeStep_mem, endRun_mem, nextStep_mem]

end Sys2Proof.Machine
end

