-- ==== Sys2Proof/Laws/KeepCycle.lean ====
section
/-! SUPPORT. Every function of Machine/Cycle.lean that answers a state keeps the canonical form of the stored bytes. -/
set_option linter.unusedSimpArgs false
namespace Sys2Proof.Machine
open Sys2Proof

theorem recordFault_mem (s : State) (img : Nat) (x : Image) (r : Run) (cell cls pc slots : Nat) (h_s : MemOk s) :
    MemOk (recordFault s img x r cell cls pc slots) := by
  unfold recordFault; grind [mem_mk, mem_cells, mem_foldl, mem_foldl_fst, setF_mem, modFelt_mem]

theorem cellFault_mem (s : State) (img cell : Nat) (fs : List (Nat × Option Nat)) (h_s : MemOk s) :
    MemOk (cellFault s img cell fs) := by
  unfold cellFault; grind [mem_mk, mem_cells, mem_foldl, mem_foldl_fst, bump_mem, freeVal_mem, consume_mem, setImage_mem, recordFault_mem]

theorem endCycle_mem (s : State) (img : Nat) (h_s : MemOk s) :
    MemOk (endCycle s img) := by
  unfold endCycle; (repeat' split) <;> grind [mem_mk, mem_cells, mem_foldl, mem_foldl_fst, setImage_mem, endRun_mem]

theorem freezeImage_mem (s : State) (img : Nat) (x : Image) (r : Run) (h_s : MemOk s) :
    MemOk (freezeImage s img x r) := by
  unfold freezeImage; simp +contextual [mem_mk, mem_cells, mem_foldl, mem_foldl_fst, mem_ite, *, setImage_mem]

theorem logCode_mem (s : State) (cell e : Nat) (h_s : MemOk s) :
    MemOk (logCode s cell e) := by
  unfold logCode; grind [mem_mk, mem_cells, mem_foldl, mem_foldl_fst, bump_mem, freeVal_mem, intLog_mem, logCorrected_mem]

theorem readCode_mem (s : State) (img cell ecc : Nat) (c : Cell) (h_s : MemOk s) :
    MemOk (readCode s img cell ecc c).1 := by
  unfold readCode; grind [mem_mk, mem_cells, mem_foldl, mem_foldl_fst, modImage_mem, logCode_mem]

theorem cellOp_mem (img cell ecc : Nat) (ups : List (Nat × Nat)) (slot op : Nat) (s : State) (h_s : MemOk s) :
    MemOk (cellOp img cell ecc ups slot op s) := by
  unfold cellOp; grind [mem_mk, mem_cells, mem_foldl, mem_foldl_fst, modImage_mem, cellFault_mem, countHits_mem, endCycle_mem, freezeImage_mem, readCode_mem]

theorem lateReleaseResume_mem (img : Nat) (s : State) (h_s : MemOk s) :
    MemOk (lateReleaseResume img s) := by
  unfold lateReleaseResume; grind [mem_mk, mem_cells, mem_foldl, mem_foldl_fst, bumpBy_mem, bump_mem, setImage_mem]

theorem feltWatchdog_mem (img : Nat) (s : State) (h_s : MemOk s) :
    MemOk (feltWatchdog img s) := by
  unfold feltWatchdog; grind [mem_mk, mem_cells, mem_foldl, mem_foldl_fst, bumpBy_mem, bump_mem, setImage_mem, cellFault_mem, endCycle_mem]

end Sys2Proof.Machine
end

