-- ==== Sys2Proof/Laws/KeepUpdates.lean ====
section
/-! SUPPORT. Every function of Machine/Updates.lean that answers a state keeps the canonical form of the stored bytes. -/
set_option linter.unusedSimpArgs false
namespace Sys2Proof.Machine
open Sys2Proof

theorem putVersion_mem (s : State) (sk loc : Nat) (v : RowVer) (h_s : MemOk s) :
    MemOk (putVersion s sk loc v) := by
  unfold putVersion; simp +contextual [mem_mk, mem_cells, mem_foldl, mem_foldl_fst, mem_ite, *, raiseHigh_mem, modSrch_mem]

theorem modShard_mem (s : State) (sk : Nat) (f : Shard → Shard) (h_s : MemOk s) :
    MemOk (modShard s sk f) := by
  unfold modShard; simp +contextual [mem_mk, mem_cells, mem_foldl, mem_foldl_fst, mem_ite, *, modSrch_mem]

theorem buildRound_mem (s : State) (c : Ctx3) (q : Query) (x : SSearch) (h_s : MemOk s) :
    MemOk (buildRound s c q x).1 := by
  unfold buildRound; simp +contextual [mem_mk, mem_cells, mem_foldl, mem_foldl_fst, mem_ite, *, mergeEntry_mem]

theorem buildRounds_mem (c : Ctx3) (q : Query) (y0_ : Nat) (y1_ : State) (y2_ : SSearch) (h_y1_ : MemOk y1_) :
    ∀ x_, buildRounds c q y0_ y1_ y2_ = some x_ → MemOk x_.1 := by
  induction y0_ generalizing y1_ y2_ with
  | zero => intro x_ hx_; simp [buildRounds] at hx_; subst hx_; exact h_y1_
  | succ n ih =>
    intro x_ hx_
    unfold buildRounds at hx_
    dsimp only at hx_
    split at hx_
    · simp at hx_; subst hx_; exact h_y1_
    · split at hx_
      · exact ih _ _ (buildRound_mem _ _ _ _ h_y1_) _ hx_
      · simp at hx_

theorem buildSearch_mem (s : State) (c : Ctx3) (e l w : Nat) (q : Query) (h_s : MemOk s) :
    MemOk (buildSearch s c e l w q).1 := by
  unfold buildSearch
  have h := startItem_mem s c q e h_s
  split
  · rename_i e; rw [e] at h; exact h
  · rename_i e1; rw [e1] at h
    dsimp only
    split
    · exact h_s
    · exact countItems_mem _ _ (buildRounds_mem _ _ _ _ _ (firstList_mem _ _ _ _ _ h) _ ‹_›)

theorem baseUpper_mem (s : State) (c : Ctx3) (loc : Nat) (used : Bool) (h_s : MemOk s) :
    MemOk (baseUpper s c loc used).1 := by
  unfold baseUpper; simp +contextual [mem_mk, mem_cells, mem_foldl, mem_foldl_fst, mem_ite, *, baseRecord_mem]

theorem baseUnused_mem (s : State) (c : Ctx3) (loc : Nat) (used : Bool) (h_s : MemOk s) :
    MemOk (baseUnused s c loc used).1 := by
  unfold baseUnused; grind [mem_mk, mem_cells, mem_foldl, mem_foldl_fst, rdB_mem, rdC_mem, baseUpper_mem]

theorem lowestUnused_mem (c : Ctx3) (y0_ : Nat) (y1_ : State) (y2_ : Nat) (h_y1_ : MemOk y1_) :
    MemOk (lowestUnused c y0_ y1_ y2_).1 := by
  induction y0_ generalizing y1_ y2_ with
  | zero => exact h_y1_
  | succ n ih =>
    unfold lowestUnused
    split
    · exact ih _ _ h_y1_
    · have h := baseUnused_mem y1_ c y2_ false h_y1_
      split
      · rename_i e; rw [e] at h; exact h
      · rename_i e; rw [e] at h; exact ih _ _ h

theorem namedLocal_mem (s : State) (c : Ctx3) (loc e : Nat) (h_s : MemOk s) :
    MemOk (namedLocal s c loc e).1 := by
  unfold namedLocal; grind [mem_mk, mem_cells, mem_foldl, mem_foldl_fst, rowRecord_mem, baseUnused_mem]

theorem rankNbrs_mem (c : Ctx3) (q : Query) (e new : Nat) (newKey : Nat × Nat) (y0_ : List Nat) (y1_ : State) (h_y1_ : MemOk y1_) :
    MemOk (rankNbrs c q e new newKey y0_ y1_).1 := by
  induction y0_ generalizing y1_ with
  | nil => exact h_y1_
  | cons n ns ih =>
    unfold rankNbrs
    split
    · exact ih _ h_y1_
    · exact ih _ (approxOf_mem y1_ c q n e h_y1_)

theorem bestNbrs_mem (s : State) (c : Ctx3) (q : Query) (e new : Nat) (newKey : Nat × Nat) (cur : List Nat) (h_s : MemOk s) :
    MemOk (bestNbrs s c q e new newKey cur).1 := by
  unfold bestNbrs; simp +contextual [mem_mk, mem_cells, mem_foldl, mem_foldl_fst, mem_ite, *, rankNbrs_mem]

theorem neverUsed_mem (s : State) (c : Ctx3) (j : Nat) (h_s : MemOk s) :
    MemOk (neverUsed s c j).1 := by
  unfold neverUsed; (repeat' split) <;> simp +contextual [mem_mk, mem_cells, mem_foldl, mem_foldl_fst, mem_ite, *, baseUnused_mem]

theorem backlink_mem (s : State) (c : Ctx3) (book : List Byte) (e new id : Nat) (code : List Byte) (norm j : Nat) (h_s : MemOk s) :
    MemOk (backlink s c book e new id code norm j).1 := by
  unfold backlink; grind [mem_mk, mem_cells, mem_foldl, mem_foldl_fst, rowRecord_mem, countItems_mem, bestNbrs_mem, neverUsed_mem]

theorem backlinks_mem (c : Ctx3) (book : List Byte) (e new id : Nat) (code : List Byte) (norm : Nat) (y0_ : List Nat) (y1_ : State) (h_y1_ : MemOk y1_) :
    MemOk (backlinks c book e new id code norm y0_ y1_).1 := by
  induction y0_ generalizing y1_ with
  | nil => exact h_y1_
  | cons j js ih =>
    unfold backlinks
    exact ih _ (backlink_mem y1_ c book e new id code norm j h_y1_)

theorem insertRows_mem (s : State) (c : Ctx3) (e loc : Nat) (w : Work) (blk : Block) (fwd0 : Option (List Nat)) (held : Option Nat) (h_s : MemOk s) :
    MemOk (insertRows s c e loc w blk fwd0 held).1 := by
  unfold insertRows; grind [mem_mk, mem_cells, mem_foldl, mem_foldl_fst, readBook_mem, buildSearch_mem, backlinks_mem]

theorem planInsert_mem (s : State) (c : Ctx3) (e : Nat) (w : Work) (fwd : Option (List Nat)) (held : Option Nat) (h_s : MemOk s) :
    MemOk (planInsert s c e w fwd held).1 := by
  unfold planInsert; (repeat' split) <;> grind [mem_mk, mem_cells, mem_foldl, mem_foldl_fst, rdC_mem, lowestUnused_mem, namedLocal_mem, insertRows_mem]

theorem planDelete_mem (s : State) (c : Ctx3) (e : Nat) (w : Work) (h_s : MemOk s) :
    MemOk (planDelete s c e w).1 := by
  unfold planDelete; grind [mem_mk, mem_cells, mem_foldl, mem_foldl_fst, write_mem, itemId_mem, rowRecord_mem]

theorem dropUpd_mem (s : State) (work : Nat) (h_s : MemOk s) :
    MemOk (dropUpd s work) := by
  unfold dropUpd; simp +contextual [mem_mk, mem_cells, mem_foldl, mem_foldl_fst, mem_ite, *, modSrch_mem]

theorem failUpdate_mem (s : State) (w : Work) (st : Status) (h_s : MemOk s) :
    MemOk (failUpdate s w st) := by
  unfold failUpdate; grind [mem_mk, mem_cells, mem_foldl, mem_foldl_fst, bump_mem, complete_mem, dropUpd_mem]

theorem planUpdate_mem (s : State) (h : Shard) (c : Ctx3) (w : Work) (u : Option Upd) (h_s : MemOk s) :
    MemOk (planUpdate s h c w u).1 := by
  unfold planUpdate; (repeat' split) <;> simp +contextual [mem_mk, mem_cells, mem_foldl, mem_foldl_fst, mem_ite, *, planInsert_mem, planDelete_mem]

theorem writeRows_mem (s : State) (sk : Nat) (w : Work) (rows : List (Nat × RowVer)) (out : Nat) (h_s : MemOk s) :
    MemOk (writeRows s sk w rows out) := by
  unfold writeRows; grind [mem_mk, mem_cells, mem_foldl, mem_foldl_fst, nrWrite_mem, complete_mem, putVersion_mem, modShard_mem, dropUpd_mem, failUpdate_mem]

theorem runUpdate_mem (s : State) (w : Work) (h_s : MemOk s) :
    MemOk (runUpdate s w) := by
  unfold runUpdate; grind [mem_mk, mem_cells, mem_foldl, mem_foldl_fst, bump_mem, beginWork_mem, write_mem, modSrch_mem, failUpdate_mem, planUpdate_mem, writeRows_mem]

theorem insert_mem (work : Nat) (s : State) (h_s : MemOk s) :
    MemOk (insert work s) := by
  unfold insert
  refine onWork_mem _ _ _ _ h_s (fun s w h => ?_)
  simp +contextual [mem_mk, mem_cells, mem_foldl, mem_foldl_fst, mem_ite, *, onWork_mem, runUpdate_mem, h]

theorem delete_mem (work : Nat) (s : State) (h_s : MemOk s) :
    MemOk (delete work s) := by
  unfold delete
  refine onWork_mem _ _ _ _ h_s (fun s w h => ?_)
  simp +contextual [mem_mk, mem_cells, mem_foldl, mem_foldl_fst, mem_ite, *, onWork_mem, runUpdate_mem, h]

theorem updatePrepareComplete_mem (work : Nat) (s : State) (h_s : MemOk s) :
    MemOk (updatePrepareComplete work s) := by
  unfold updatePrepareComplete; (repeat' split) <;> simp +contextual [mem_mk, mem_cells, mem_foldl, mem_foldl_fst, mem_ite, *, runUpdate_mem]

theorem commit_mem (work : Nat) (s : State) (h_s : MemOk s) :
    MemOk (commit work s) := by
  unfold commit
  refine onWork_mem _ _ _ _ h_s (fun s w h => ?_)
  grind [mem_mk, mem_cells, mem_foldl, mem_foldl_fst, complete_mem, onWork_mem, schedAdd_mem, schedRefuse_mem]

theorem fixShard_mem (s : State) (sk tick : Nat) (h_s : MemOk s) :
    MemOk (fixShard s sk tick) := by
  unfold fixShard; (repeat' split) <;> simp +contextual [mem_mk, mem_cells, mem_foldl, mem_foldl_fst, mem_ite, *, modSrch_mem, modShard_mem]

theorem commitAt_mem (s : State) (sk tick : Nat) (h_s : MemOk s) :
    MemOk (commitAt s sk tick) := by
  unfold commitAt; grind [mem_mk, mem_cells, mem_foldl, mem_foldl_fst, completeId_mem, completeWith_mem, schedFree_mem, modSrch_mem, modShard_mem, fixShard_mem]

theorem writeRecord_mem (s : State) (c : Ctx3) (loc : Nat) (b : List Byte) (h_s : MemOk s) :
    ∀ x_, writeRecord s c loc b = some x_ → MemOk x_ := by
  intro x_ hx_
  unfold writeRecord at hx_
  dsimp only at hx_
  split at hx_
  · exact nrTry_mem _ _ _ h_s _ hx_
  · split at hx_
    · simp at hx_; subst hx_; exact h_s
    · exact mem_foldl_opt _ (fun t i u ht hu => areaWrite_mem _ _ _ _ _ _ ht _ hu) _ _ (by simp [h_s]) _ hx_

theorem writeParts_mem (s : State) (c : Ctx3) (loc : Nat) (d : RowData) (h_s : MemOk s) :
    ∀ x_, writeParts s c loc d = some x_ → MemOk x_ := by
  intro x_ hx_
  unfold writeParts at hx_
  exact mem_foldl_opt _ (fun t p u ht hu => nrTry_mem _ _ _ ht _ hu) _ _ (by simp [h_s]) _ hx_

theorem foldRow_mem (s : State) (c : Ctx3) (loc : Nat) (v : RowVer) (h_s : MemOk s) :
    ∀ x_, foldRow s c loc v = some x_ → MemOk x_ := by
  intro x_ hx_
  unfold foldRow at hx_
  simp only [Option.map_eq_some_iff] at hx_
  obtain ⟨t, ht, rfl⟩ := hx_
  obtain ⟨u, hu, hv⟩ := Option.bind_eq_some_iff.1 ht
  have h := writeRecord_mem _ _ _ _ h_s _ hu
  apply modSrch_mem
  split at hv
  · exact writeParts_mem _ _ _ _ h _ hv
  · simp at hv; subst hv; exact h

theorem rowFold_mem (index shard loc : Nat) (s : State) (h_s : MemOk s) :
    MemOk (rowFold index shard loc s) := by
  unfold rowFold
  dsimp only
  split
  · split
    · exact mem_getD h_s (fun u hu => foldRow_mem _ _ _ _ h_s _ hu)
    · exact h_s
  · exact h_s

theorem retire_mem (s : State) (xs : List (Nat × SSearch)) (h_s : MemOk s) :
    MemOk (retire s xs) := by
  unfold retire; grind [mem_mk, mem_cells, mem_foldl, mem_foldl_fst, bump_mem, failSearch_mem]

theorem retireBelow_mem (s : State) (sk e : Nat) (h_s : MemOk s) :
    MemOk (retireBelow s sk e) := by
  unfold retireBelow; simp +contextual [mem_mk, mem_cells, mem_foldl, mem_foldl_fst, mem_ite, *, modSrch_mem, retire_mem]

theorem forcedRetirement_mem (work : Nat) (s : State) (h_s : MemOk s) :
    MemOk (forcedRetirement work s) := by
  unfold forcedRetirement; (repeat' split) <;> simp +contextual [mem_mk, mem_cells, mem_foldl, mem_foldl_fst, mem_ite, *, planUpdate_mem, retireBelow_mem]

theorem versionPressureRetire_mem (s : State) (h_s : MemOk s) :
    MemOk (versionPressureRetire s) := by
  unfold versionPressureRetire; grind [mem_mk, mem_cells, mem_foldl, mem_foldl_fst, retireBelow_mem]

theorem indexRegister_mem (work : Nat) (s : State) (h_s : MemOk s) :
    MemOk (indexRegister work s) := by
  unfold indexRegister
  refine onAdmin_mem _ _ _ _ _ _ h_s (fun s w b h => ?_)
  grind [mem_mk, mem_cells, mem_foldl, mem_foldl_fst, bump_mem, complete_mem, onAdmin_mem, modSrch_mem]

theorem indexDeregister_mem (work : Nat) (s : State) (h_s : MemOk s) :
    MemOk (indexDeregister work s) := by
  unfold indexDeregister
  refine onAdmin_mem _ _ _ _ _ _ h_s (fun s w b h => ?_)
  grind [mem_mk, mem_cells, mem_foldl, mem_foldl_fst, complete_mem, onAdmin_mem, modSrch_mem]

theorem shardAttach_mem (work : Nat) (s : State) (h_s : MemOk s) :
    MemOk (shardAttach work s) := by
  unfold shardAttach
  refine onAdmin_mem _ _ _ _ _ _ h_s (fun s w b h => ?_)
  grind [mem_mk, mem_cells, mem_foldl, mem_foldl_fst, bump_mem, complete_mem, onAdmin_mem, modSrch_mem]

theorem endShard_mem (s : State) (sk : Nat) (work : Nat) (h_s : MemOk s) :
    MemOk (endShard s sk work) := by
  unfold endShard; grind [mem_mk, mem_cells, mem_foldl, mem_foldl_fst, modSrch_mem, failSearch_mem, modShard_mem, failUpdate_mem]

theorem shardDetach_mem (work : Nat) (s : State) (h_s : MemOk s) :
    MemOk (shardDetach work s) := by
  unfold shardDetach
  refine onAdmin_mem _ _ _ _ _ _ h_s (fun s w b h => ?_)
  grind [mem_mk, mem_cells, mem_foldl, mem_foldl_fst, beginWork_mem, complete_mem, onAdmin_mem, endShard_mem]

theorem foldAll_mem (s : State) (c : Ctx3) (h_s : MemOk s) :
    ∀ x_, foldAll s c = some x_ → MemOk x_ := by
  intro x_ hx_
  unfold foldAll at hx_
  exact mem_foldl_opt _ (fun t v u ht hu => foldRow_mem _ _ _ _ ht _ hu) _ _ (by simp [h_s]) _ hx_

theorem shardDetachComplete_mem (index shard : Nat) (s : State) (h_s : MemOk s) :
    MemOk (shardDetachComplete index shard s) := by
  unfold shardDetachComplete; grind [mem_mk, mem_cells, mem_foldl, mem_foldl_fst, completeId_mem, schedFree_mem, modSrch_mem, foldAll_mem]

end Sys2Proof.Machine
end

