-- ==== Sys2Proof/Laws/KeepKettleOps.lean ====
section
/-! SUPPORT. Every function of Machine/KettleOps.lean that answers a state keeps the canonical form of the stored bytes. -/
set_option linter.unusedSimpArgs false
namespace Sys2Proof.Machine
open Sys2Proof

theorem setKsite_mem (s : State) (site : Nat) (x : KSite) (h_s : MemOk s) :
    MemOk (setKsite s site x) := by
  unfold setKsite; simp +contextual [mem_mk, mem_cells, mem_foldl, mem_foldl_fst, mem_ite, *]

theorem modKsite_mem (s : State) (site : Nat) (f : KSite → KSite) (h_s : MemOk s) :
    MemOk (modKsite s site f) := by
  unfold modKsite; simp +contextual [mem_mk, mem_cells, mem_foldl, mem_foldl_fst, mem_ite, *, setKsite_mem]

theorem kStartPart_mem (s : State) (site id runner owner : Nat) (h_s : MemOk s) :
    MemOk (kStartPart s site id runner owner) := by
  unfold kStartPart; grind [mem_mk, mem_cells, mem_foldl, mem_foldl_fst, bump_mem, setKsite_mem]

theorem kFencedPart_mem (s : State) (site id owner : Nat) (h_s : MemOk s) :
    MemOk (kFencedPart s site id owner) := by
  unfold kFencedPart; simp +contextual [mem_mk, mem_cells, mem_foldl, mem_foldl_fst, mem_ite, *, modKsite_mem]

theorem kStartParts_mem (s : State) (site id : Nat) (h_s : MemOk s) :
    MemOk (kStartParts s site id) := by
  unfold kStartParts; grind [mem_mk, mem_cells, mem_foldl, mem_foldl_fst, kStartPart_mem, kFencedPart_mem]

theorem kCountWords_mem (s : State) (site words pois : Nat) (h_s : MemOk s) :
    MemOk (kCountWords s site words pois) := by
  unfold kCountWords; grind [mem_mk, mem_cells, mem_foldl, mem_foldl_fst, bumpBy_mem, modKsite_mem]

theorem kEndPart_mem (s : State) (site id runner code : Nat) (h_s : MemOk s) :
    MemOk (kEndPart s site id runner code) := by
  unfold kEndPart; simp +contextual [mem_mk, mem_cells, mem_foldl, mem_foldl_fst, mem_ite, *, modKsite_mem]

theorem kReap_mem (s : State) (site : Nat) (j : KJob) (p : Kettle → Bool) (h_s : MemOk s) :
    MemOk (kReap s site j p) := by
  unfold kReap; grind [mem_mk, mem_cells, mem_foldl, mem_foldl_fst, kEndPart_mem]

theorem kFenceSet_mem (s : State) (site k : Nat) (h_s : MemOk s) :
    MemOk (kFenceSet s site k) := by
  unfold kFenceSet; simp +contextual [mem_mk, mem_cells, mem_foldl, mem_foldl_fst, mem_ite, *, setF_mem]

theorem autoKettle_mem (s : State) (site k : Nat) (h_s : MemOk s) :
    MemOk (autoKettle s site k) := by
  unfold autoKettle; grind [mem_mk, mem_cells, mem_foldl, mem_foldl_fst, autoCount_mem, autoFenced_mem, kFenceSet_mem]

theorem kLate_mem (s : State) (site runner : Nat) (h_s : MemOk s) :
    MemOk (kLate s site runner) := by
  unfold kLate; simp +contextual [mem_mk, mem_cells, mem_foldl, mem_foldl_fst, mem_ite, *, bump_mem, autoKettle_mem]

theorem kAbandon_mem (s : State) (site id runner : Nat) (h_s : MemOk s) :
    MemOk (kAbandon s site id runner) := by
  unfold kAbandon; simp +contextual [mem_mk, mem_cells, mem_foldl, mem_foldl_fst, mem_ite, *, kEndPart_mem, kLate_mem]

theorem collectScan_mem (s : State) (site id place : Nat) (j : KJob) (outs : List KOut) (h_s : MemOk s) :
    MemOk (collectScan s site id place j outs) := by
  unfold collectScan; (repeat' split) <;> simp +contextual [mem_mk, mem_cells, mem_foldl, mem_foldl_fst, mem_ite, *, scanCollect_mem]

theorem kAnswer_mem (s : State) (site : Nat) (req : Option (Nat × Nat)) (job : Nat) (st : Status) (j : Option KJob) (h_s : MemOk s) :
    MemOk (kAnswer s site req job st j) := by
  unfold kAnswer; grind [mem_mk, mem_cells, mem_foldl, mem_foldl_fst, emit_mem, kettleScanned_mem, collectScan_mem]

theorem kettleJob_mem (site : Nat) (req : Option (Nat × Nat)) (prog : Nat) (lists : List (List Nat)) (lut : List Nat) (lutM : Nat) (params : List Nat) (outUnits pmapUnits : Nat) (s : State) (h_s : MemOk s) :
    MemOk (kettleJob site req prog lists lut lutM params outUnits pmapUnits s) := by
  unfold kettleJob; grind [mem_mk, mem_cells, mem_foldl, mem_foldl_fst, bump_mem, setKsite_mem, kAnswer_mem]

theorem kettleJobStart_mem (site : Nat) (s : State) (h_s : MemOk s) :
    MemOk (kettleJobStart site s) := by
  unfold kettleJobStart; grind [mem_mk, mem_cells, mem_foldl, mem_foldl_fst, bump_mem, setKsite_mem, kStartParts_mem]

theorem kettlePoll_mem (site : Nat) (s : State) (h_s : MemOk s) :
    MemOk (kettlePoll site s) := by
  unfold kettlePoll; (repeat' split) <;> simp +contextual [mem_mk, mem_cells, mem_foldl, mem_foldl_fst, mem_ite, *, kStartParts_mem, kReap_mem]

theorem fullWindowEnd_mem (site : Nat) (s : State) (h_s : MemOk s) :
    MemOk (fullWindowEnd site s) := by
  unfold fullWindowEnd; grind [mem_mk, mem_cells, mem_foldl, mem_foldl_fst, modKsite_mem, kReap_mem, kLate_mem, kAbandon_mem]

theorem kettleJobComplete_mem (site : Nat) (s : State) (h_s : MemOk s) :
    MemOk (kettleJobComplete site s) := by
  unfold kettleJobComplete; grind [mem_mk, mem_cells, mem_foldl, mem_foldl_fst, bump_mem, modKsite_mem, kAnswer_mem]

theorem kettleParityError_mem (site pc : Nat) (s : State) (h_s : MemOk s) :
    MemOk (kettleParityError site pc s) := by
  unfold kettleParityError; simp +contextual [mem_mk, mem_cells, mem_foldl, mem_foldl_fst, mem_ite, *, modKsite_mem]

theorem kettleOpTimeout_mem (site runner : Nat) (s : State) (h_s : MemOk s) :
    MemOk (kettleOpTimeout site runner s) := by
  unfold kettleOpTimeout; (repeat' split) <;> simp +contextual [mem_mk, mem_cells, mem_foldl, mem_foldl_fst, mem_ite, *, kStartParts_mem, kAbandon_mem]

theorem kettleOp_mem (op site runner : Nat) (s : State) (h_s : MemOk s) :
    MemOk (kettleOp op site runner s) := by
  unfold kettleOp; grind [mem_mk, mem_cells, mem_foldl, mem_foldl_fst, consume_mem, modKsite_mem, kStartParts_mem, kCountWords_mem, kReap_mem]

theorem knop_mem (site kettle : Nat) (s : State) (h_s : MemOk s) :
    MemOk (knop site kettle s) := by
  unfold knop; simp +contextual [mem_mk, mem_cells, mem_foldl, mem_foldl_fst, mem_ite, *, kettleOp_mem]

theorem lds_mem (site kettle : Nat) (s : State) (h_s : MemOk s) :
    MemOk (lds site kettle s) := by
  unfold lds; simp +contextual [mem_mk, mem_cells, mem_foldl, mem_foldl_fst, mem_ite, *, kettleOp_mem]

theorem sto_mem (site kettle : Nat) (s : State) (h_s : MemOk s) :
    MemOk (sto site kettle s) := by
  unfold sto; simp +contextual [mem_mk, mem_cells, mem_foldl, mem_foldl_fst, mem_ite, *, kettleOp_mem]

theorem ldi_mem (site kettle : Nat) (s : State) (h_s : MemOk s) :
    MemOk (ldi site kettle s) := by
  unfold ldi; simp +contextual [mem_mk, mem_cells, mem_foldl, mem_foldl_fst, mem_ite, *, kettleOp_mem]

theorem ldc_mem (site kettle : Nat) (s : State) (h_s : MemOk s) :
    MemOk (ldc site kettle s) := by
  unfold ldc; simp +contextual [mem_mk, mem_cells, mem_foldl, mem_foldl_fst, mem_ite, *, kettleOp_mem]

theorem ald_mem (site kettle : Nat) (s : State) (h_s : MemOk s) :
    MemOk (ald site kettle s) := by
  unfold ald; simp +contextual [mem_mk, mem_cells, mem_foldl, mem_foldl_fst, mem_ite, *, kettleOp_mem]

theorem aadd_mem (site kettle : Nat) (s : State) (h_s : MemOk s) :
    MemOk (aadd site kettle s) := by
  unfold aadd; simp +contextual [mem_mk, mem_cells, mem_foldl, mem_foldl_fst, mem_ite, *, kettleOp_mem]

theorem cmp_mem (site kettle : Nat) (s : State) (h_s : MemOk s) :
    MemOk (cmp site kettle s) := by
  unfold cmp; simp +contextual [mem_mk, mem_cells, mem_foldl, mem_foldl_fst, mem_ite, *, kettleOp_mem]

theorem tst_mem (site kettle : Nat) (s : State) (h_s : MemOk s) :
    MemOk (tst site kettle s) := by
  unfold tst; simp +contextual [mem_mk, mem_cells, mem_foldl, mem_foldl_fst, mem_ite, *, kettleOp_mem]

theorem mand_mem (site kettle : Nat) (s : State) (h_s : MemOk s) :
    MemOk (mand site kettle s) := by
  unfold mand; simp +contextual [mem_mk, mem_cells, mem_foldl, mem_foldl_fst, mem_ite, *, kettleOp_mem]

theorem mor_mem (site kettle : Nat) (s : State) (h_s : MemOk s) :
    MemOk (mor site kettle s) := by
  unfold mor; simp +contextual [mem_mk, mem_cells, mem_foldl, mem_foldl_fst, mem_ite, *, kettleOp_mem]

theorem mnot_mem (site kettle : Nat) (s : State) (h_s : MemOk s) :
    MemOk (mnot site kettle s) := by
  unfold mnot; simp +contextual [mem_mk, mem_cells, mem_foldl, mem_foldl_fst, mem_ite, *, kettleOp_mem]

theorem iadd_mem (site kettle : Nat) (s : State) (h_s : MemOk s) :
    MemOk (iadd site kettle s) := by
  unfold iadd; simp +contextual [mem_mk, mem_cells, mem_foldl, mem_foldl_fst, mem_ite, *, kettleOp_mem]

theorem iadds_mem (site kettle : Nat) (s : State) (h_s : MemOk s) :
    MemOk (iadds site kettle s) := by
  unfold iadds; simp +contextual [mem_mk, mem_cells, mem_foldl, mem_foldl_fst, mem_ite, *, kettleOp_mem]

theorem widen_mem (site kettle : Nat) (s : State) (h_s : MemOk s) :
    MemOk (widen site kettle s) := by
  unfold widen; simp +contextual [mem_mk, mem_cells, mem_foldl, mem_foldl_fst, mem_ite, *, kettleOp_mem]

theorem tlu_mem (site kettle : Nat) (s : State) (h_s : MemOk s) :
    MemOk (tlu site kettle s) := by
  unfold tlu; simp +contextual [mem_mk, mem_cells, mem_foldl, mem_foldl_fst, mem_ite, *, kettleOp_mem]

theorem gsum_mem (site kettle : Nat) (s : State) (h_s : MemOk s) :
    MemOk (gsum site kettle s) := by
  unfold gsum; simp +contextual [mem_mk, mem_cells, mem_foldl, mem_foldl_fst, mem_ite, *, kettleOp_mem]

theorem kbits_mem (site kettle : Nat) (s : State) (h_s : MemOk s) :
    MemOk (kbits site kettle s) := by
  unfold kbits; simp +contextual [mem_mk, mem_cells, mem_foldl, mem_foldl_fst, mem_ite, *, kettleOp_mem]

theorem filt_mem (site kettle : Nat) (s : State) (h_s : MemOk s) :
    MemOk (filt site kettle s) := by
  unfold filt; simp +contextual [mem_mk, mem_cells, mem_foldl, mem_foldl_fst, mem_ite, *, kettleOp_mem]

theorem kemit_mem (site kettle : Nat) (s : State) (h_s : MemOk s) :
    MemOk (kemit site kettle s) := by
  unfold kemit; simp +contextual [mem_mk, mem_cells, mem_foldl, mem_foldl_fst, mem_ite, *, kettleOp_mem]

theorem kettleLoop_mem (site kettle : Nat) (s : State) (h_s : MemOk s) :
    MemOk (kettleLoop site kettle s) := by
  unfold kettleLoop; simp +contextual [mem_mk, mem_cells, mem_foldl, mem_foldl_fst, mem_ite, *, kettleOp_mem]

theorem kettleEnd_mem (site kettle : Nat) (s : State) (h_s : MemOk s) :
    MemOk (kettleEnd site kettle s) := by
  unfold kettleEnd; simp +contextual [mem_mk, mem_cells, mem_foldl, mem_foldl_fst, mem_ite, *, kettleOp_mem]

end Sys2Proof.Machine
end

