-- ==== Sys2Proof/Laws/KeepImages.lean ====
section
/-! SUPPORT. Every function of Machine/Images.lean that answers a state keeps the canonical form of the stored bytes. -/
set_option linter.unusedSimpArgs false
namespace Sys2Proof.Machine
open Sys2Proof

theorem failLoad_mem (s : State) (w : Work) (rec_ : Nat) (st : Status) (reason : Nat) (h_s : MemOk s) :
    MemOk (failLoad s w rec_ st reason) := by
  unfold failLoad; grind [mem_mk, mem_cells, mem_foldl, mem_foldl_fst, bump_mem, complete_mem, completeWith_mem]

theorem loadPrograms_mem (s : State) (slot : Nat) (ps : List (List Nat)) (h_s : MemOk s) :
    MemOk (loadPrograms s slot ps) := by
  unfold loadPrograms; grind [mem_mk, mem_cells, mem_foldl, mem_foldl_fst, modKsite_mem]

theorem load_mem (work : Nat) (s : State) (h_s : MemOk s) :
    MemOk (load work s) := by
  unfold load; (repeat' split) <;> grind [mem_mk, mem_cells, mem_foldl, mem_foldl_fst, bump_mem, freeVal_mem, consumeNr_mem, completeWith_mem, onAdminF_mem, rdW_mem, setImage_mem, applyFences_mem, failLoad_mem, loadPrograms_mem]

theorem unload_mem (work : Nat) (s : State) (h_s : MemOk s) :
    MemOk (unload work s) := by
  unfold unload
  refine onAdmin_mem _ _ _ _ _ _ h_s (fun s w b h => ?_)
  grind [mem_mk, mem_cells, mem_foldl, mem_foldl_fst, beginWork_mem, complete_mem, onAdmin_mem, setImage_mem, dropImage_mem]

theorem stopRun_mem (work : Nat) (s : State) (h_s : MemOk s) :
    MemOk (stopRun work s) := by
  unfold stopRun
  refine onAdmin_mem _ _ _ _ _ _ h_s (fun s w b h => ?_)
  grind [mem_mk, mem_cells, mem_foldl, mem_foldl_fst, complete_mem, onAdmin_mem, setImage_mem]

theorem run_mem (work : Nat) (s : State) (h_s : MemOk s) :
    MemOk (run work s) := by
  unfold run
  refine onWork_mem _ _ _ _ h_s (fun s w h => ?_)
  grind [mem_mk, mem_cells, mem_foldl, mem_foldl_fst, bump_mem, consumeNr_mem, complete_mem, onWork_mem, schedAdd_mem, schedRefuse_mem, rdW_mem, modImage_mem]

theorem prepareEvent_mem (s : State) (e : SchedEvt) (h_s : MemOk s) :
    MemOk (prepareEvent s e) := by
  unfold prepareEvent; (repeat' split) <;> simp +contextual [mem_mk, mem_cells, mem_foldl, mem_foldl_fst, mem_ite, *, modBow_mem, modImage_mem, commit_mem, fixShard_mem]

theorem eventPrepare_mem (s : State) (h_s : MemOk s) :
    MemOk (eventPrepare s) := by
  unfold eventPrepare; (repeat' split) <;> simp +contextual [mem_mk, mem_cells, mem_foldl, mem_foldl_fst, mem_ite, *, prepareEvent_mem]

theorem dropRun_mem (s : State) (slot : Nat) (h_s : MemOk s) :
    MemOk (dropRun s slot) := by
  unfold dropRun; simp +contextual [mem_mk, mem_cells, mem_foldl, mem_foldl_fst, mem_ite, *, modImage_mem, run_mem]

theorem missLaunch_mem (s : State) (slot : Nat) (e : SchedEvt) (h_s : MemOk s) :
    MemOk (missLaunch s slot e) := by
  unfold missLaunch; grind [mem_mk, mem_cells, mem_foldl, mem_foldl_fst, bump_mem, completeId_mem, schedFree_mem, dropImage_mem, unload_mem, dropRun_mem]

theorem doLaunch_mem (s : State) (slot : Nat) (e : SchedEvt) (h_s : MemOk s) :
    MemOk (doLaunch s slot e) := by
  unfold doLaunch; grind [mem_mk, mem_cells, mem_foldl, mem_foldl_fst, setF_mem, schedFree_mem, setImage_mem, startStep_mem, run_mem, prepareEvent_mem]

theorem launchEvent_mem (s : State) (e : SchedEvt) (h_s : MemOk s) :
    MemOk (launchEvent s e) := by
  unfold launchEvent; (repeat' split) <;> simp +contextual [mem_mk, mem_cells, mem_foldl, mem_foldl_fst, mem_ite, *, missLaunch_mem, doLaunch_mem]

theorem withdraw_mem (work : Nat) (s : State) (h_s : MemOk s) :
    MemOk (withdraw work s) := by
  unfold withdraw
  refine onAdmin_mem _ _ _ _ _ _ h_s (fun s w b h => ?_)
  grind [mem_mk, mem_cells, mem_foldl, mem_foldl_fst, complete_mem, completeId_mem, onAdmin_mem, schedFree_mem, dropImage_mem, unload_mem, dropRun_mem]

theorem setStage_mem (s : State) (h_s : MemOk s) :
    MemOk (setStage s) := by
  unfold setStage; simp +contextual [mem_mk, mem_cells, mem_foldl, mem_foldl_fst, mem_ite, *, setF_mem, trimStaged_mem]

theorem role_mem (work : Nat) (s : State) (h_s : MemOk s) :
    MemOk (role work s) := by
  unfold role
  refine onAdmin_mem _ _ _ _ _ _ h_s (fun s w b h => ?_)
  grind [mem_mk, mem_cells, mem_foldl, mem_foldl_fst, setF_mem, beginWork_mem, complete_mem, onAdmin_mem, modFelt_mem]

theorem roleApply_mem (s : State) (h_s : MemOk s) :
    MemOk (roleApply s) := by
  unfold roleApply; grind [mem_mk, mem_cells, mem_foldl, mem_foldl_fst, setF_mem, completeId_mem, modFelt_mem, setStage_mem, role_mem]

end Sys2Proof.Machine
end

