-- ==== Sys2Proof/Laws/KeepAbort.lean ====
section
/-! SUPPORT. Every function of Machine/Abort.lean that answers a state keeps the canonical form of the stored bytes. -/
set_option linter.unusedSimpArgs false
namespace Sys2Proof.Machine
open Sys2Proof

theorem dropCoord_mem (s : State) (work : Nat) (h_s : MemOk s) :
    MemOk (dropCoord s work) := by
  unfold dropCoord; grind [mem_mk, mem_cells, mem_foldl, mem_foldl_fst, modSrch_mem, freeSearch_mem]

theorem abortRun_mem (s : State) (w : Work) (st : Status) (h_s : MemOk s) :
    MemOk (abortRun s w st) := by
  unfold abortRun; grind [mem_mk, mem_cells, mem_foldl, mem_foldl_fst, complete_mem, schedFree_mem, endRun_mem, run_mem, dropRun_mem]

theorem abortRma_mem (s : State) (w : Work) (st : Status) (h_s : MemOk s) :
    MemOk (abortRma s w st) := by
  unfold abortRma; (repeat' split) <;> simp +contextual [mem_mk, mem_cells, mem_foldl, mem_foldl_fst, mem_ite, *, complete_mem, endOp_mem]

theorem abortWork_mem (s : State) (w : Work) (st : Status) (h_s : MemOk s) :
    MemOk (abortWork s w st) := by
  unfold abortWork; (repeat' split) <;> simp +contextual [mem_mk, mem_cells, mem_foldl, mem_foldl_fst, mem_ite, *, modFlash_mem, complete_mem, modCard_mem, gatherTimeout_mem, endScatter_mem, failUpdate_mem, dropCoord_mem, abortRun_mem, abortRma_mem]

theorem abortTenant_mem (s : State) (tenant : Nat) (st : Status) (h_s : MemOk s) :
    MemOk (abortTenant s tenant st) := by
  unfold abortTenant; grind [mem_mk, mem_cells, mem_foldl, mem_foldl_fst, abortWork_mem]

end Sys2Proof.Machine
end

