-- ==== Sys2Proof/Laws/KeepTick.lean ====
section
/-! SUPPORT. Every function of Machine/Tick.lean that answers a state keeps the canonical form of the stored bytes. -/
set_option linter.unusedSimpArgs false
namespace Sys2Proof.Machine
open Sys2Proof

theorem tickIdle_mem (s : State) (h_s : MemOk s) :
    MemOk (tickIdle s) := by
  unfold tickIdle; grind [mem_mk, mem_cells, mem_foldl, mem_foldl_fst]

end Sys2Proof.Machine
end

