-- ==== Sys2Proof/Laws/KeepCrownCore.lean ====
section
/-! SUPPORT. Every function of Machine/CrownCore.lean that answers a state keeps the canonical form of the stored bytes. -/
set_option linter.unusedSimpArgs false
namespace Sys2Proof.Machine
open Sys2Proof

theorem modCrown_mem (s : State) (f : Crown → Crown) (h_s : MemOk s) :
    MemOk (modCrown s f) := by
  unfold modCrown; simp +contextual [mem_mk, mem_cells, mem_foldl, mem_foldl_fst, mem_ite, *]

theorem eventLogWrite_mem (s : State) (h_s : MemOk s) :
    MemOk (eventLogWrite s) := by
  unfold eventLogWrite; (repeat' split) <;> simp +contextual [mem_mk, mem_cells, mem_foldl, mem_foldl_fst, mem_ite, *, modCrown_mem]

theorem logAll_mem (s : State) (h_s : MemOk s) :
    MemOk (logAll s) := by
  unfold logAll; simp +contextual [mem_mk, mem_cells, mem_foldl, mem_foldl_fst, mem_ite, *, modCrown_mem]

theorem triggerCapture_mem (s : State) (i : Nat) (h_s : MemOk s) :
    MemOk (triggerCapture s i) := by
  unfold triggerCapture; simp +contextual [mem_mk, mem_cells, mem_foldl, mem_foldl_fst, mem_ite, *, modCrown_mem]

end Sys2Proof.Machine
end

