-- ==== Sys2Proof/Laws/KeepTwin.lean ====
section
/-! SUPPORT. Every function of Machine/Twin.lean that answers a state keeps the canonical form of the stored bytes. -/
set_option linter.unusedSimpArgs false
namespace Sys2Proof.Machine
open Sys2Proof

theorem modTwin_mem (s : State) (f : Twin → Twin) (h_s : MemOk s) :
    MemOk (modTwin s f) := by
  unfold modTwin; simp +contextual [mem_mk, mem_cells, mem_foldl, mem_foldl_fst, mem_ite, *]

theorem twinEnSet_mem (s : State) (v : Nat) (h_s : MemOk s) :
    MemOk (twinEnSet s v) := by
  unfold twinEnSet; grind [mem_mk, mem_cells, mem_foldl, mem_foldl_fst, setF_mem, setStage_mem, modTwin_mem]

theorem releaseHeld_mem (s : State) (hs : List (Nat × Comp × List SegId)) (h_s : MemOk s) :
    MemOk (releaseHeld s hs) := by
  unfold releaseHeld; simp +contextual [mem_mk, mem_cells, mem_foldl, mem_foldl_fst, mem_ite, *, pushComp_mem]

theorem twinCtrlSet_mem (s : State) (v : Nat) (h_s : MemOk s) :
    MemOk (twinCtrlSet s v) := by
  unfold twinCtrlSet; grind [mem_mk, mem_cells, mem_foldl, mem_foldl_fst, setF_mem, modTwin_mem, twinEnSet_mem, releaseHeld_mem]

theorem twinPair_mem (s : State) (h_s : MemOk s) :
    MemOk (twinPair s) := by
  unfold twinPair; simp +contextual [mem_mk, mem_cells, mem_foldl, mem_foldl_fst, mem_ite, *, modTwin_mem]

theorem twinFrameSend_mem (s : State) (h_s : MemOk s) :
    MemOk (twinFrameSend s) := by
  unfold twinFrameSend; grind [mem_mk, mem_cells, mem_foldl, mem_foldl_fst, emit_mem, modTwin_mem, twinPair_mem]

theorem twin_mem (frame : List Byte) (checks : List (List Nat)) (s : State) (h_s : MemOk s) :
    MemOk (twin frame checks s) := by
  unfold twin; grind [mem_mk, mem_cells, mem_foldl, mem_foldl_fst, modTwin_mem, twinPair_mem]

theorem recordDiff_mem (s : State) (d : Digest) (kind word : Nat) (h_s : MemOk s) :
    MemOk (recordDiff s d kind word) := by
  unfold recordDiff; grind [mem_mk, mem_cells, mem_foldl, mem_foldl_fst, setF_mem]

theorem settleHeld_mem (s : State) (matched bad : List SegId) (h_s : MemOk s) :
    MemOk (settleHeld s matched bad) := by
  unfold settleHeld; simp +contextual [mem_mk, mem_cells, mem_foldl, mem_foldl_fst, mem_ite, *, pushComp_mem, modTwin_mem]

theorem twinAct_mem (s : State) (h_s : MemOk s) :
    MemOk (twinAct s) := by
  unfold twinAct; grind [mem_mk, mem_cells, mem_foldl, mem_foldl_fst, pushComp_mem, endRun_mem, run_mem, triggerCapture_mem, abortTenant_mem, modTwin_mem]

theorem comparisonPoint_mem (s : State) (h_s : MemOk s) :
    MemOk (comparisonPoint s) := by
  unfold comparisonPoint; grind [mem_mk, mem_cells, mem_foldl, mem_foldl_fst, bump_mem, modTwin_mem, twinPair_mem, recordDiff_mem, settleHeld_mem, twinAct_mem]

theorem twinUnpair_mem (s : State) (h_s : MemOk s) :
    MemOk (twinUnpair s) := by
  unfold twinUnpair; simp +contextual [mem_mk, mem_cells, mem_foldl, mem_foldl_fst, mem_ite, *, pushComp_mem, modTwin_mem]

theorem twinLinkLost_mem (s : State) (h_s : MemOk s) :
    MemOk (twinLinkLost s) := by
  unfold twinLinkLost; grind [mem_mk, mem_cells, mem_foldl, mem_foldl_fst, setF_mem, freeVal_mem, crownEventOpen_mem, modTwin_mem, twinAct_mem, twinUnpair_mem]

end Sys2Proof.Machine
end

