-- ==== Sys2Proof/Laws/KeepBow.lean ====
section
/-! SUPPORT. Every function of Machine/Bow.lean that answers a state keeps the canonical form of the stored bytes. -/
set_option linter.unusedSimpArgs false
namespace Sys2Proof.Machine
open Sys2Proof

theorem gateShow_mem (s : State) (port : Nat) (g : GateList) (h_s : MemOk s) :
    MemOk (gateShow s port g) := by
  unfold gateShow; grind [mem_mk, mem_cells, mem_foldl, mem_foldl_fst, setF_mem, modHost_mem, drainPort_mem]

theorem gateAt_mem (s : State) (port tick : Nat) (h_s : MemOk s) :
    MemOk (gateAt s port tick) := by
  unfold gateAt; grind [mem_mk, mem_cells, mem_foldl, mem_foldl_fst, completeId_mem, schedFree_mem, gateShow_mem]

theorem gateList_mem (work : Nat) (s : State) (h_s : MemOk s) :
    MemOk (gateList work s) := by
  unfold gateList
  refine onAdmin_mem _ _ _ _ _ _ h_s (fun s w b h => ?_)
  grind [mem_mk, mem_cells, mem_foldl, mem_foldl_fst, consumeNr_mem, complete_mem, onAdmin_mem, schedAdd_mem, schedRefuse_mem, rdW_mem]

theorem gateEntryChange_mem (port : Nat) (s : State) (h_s : MemOk s) :
    MemOk (gateEntryChange port s) := by
  unfold gateEntryChange; (repeat' split) <;> simp +contextual [mem_mk, mem_cells, mem_foldl, mem_foldl_fst, mem_ite, *, gateShow_mem]

theorem bowTo_mem (s : State) (st : BowSt) (why : LostWhy) (h_s : MemOk s) :
    MemOk (bowTo s st why) := by
  unfold bowTo; grind [mem_mk, mem_cells, mem_foldl, mem_foldl_fst, setF_mem, crownEvent_mem, cxlEvent_mem, modBow_mem]

theorem badFrame_mem (s : State) (h_s : MemOk s) :
    MemOk (badFrame s) := by
  unfold badFrame; simp +contextual [mem_mk, mem_cells, mem_foldl, mem_foldl_fst, mem_ite, *, bump_mem]

theorem scrubRefill_mem (s : State) (h_s : MemOk s) :
    MemOk (scrubRefill s) := by
  unfold scrubRefill; simp +contextual [mem_mk, mem_cells, mem_foldl, mem_foldl_fst, mem_ite, *]

theorem edgeComparison_mem (s : State) (h_s : MemOk s) :
    MemOk (edgeComparison s) := by
  unfold edgeComparison; simp +contextual [mem_mk, mem_cells, mem_foldl, mem_foldl_fst, mem_ite, *, comparisonPoint_mem]

theorem edgeSteps_mem (s : State) (p : Nat → Bool) (h_s : MemOk s) :
    MemOk (edgeSteps s p) := by
  unfold edgeSteps; grind [mem_mk, mem_cells, mem_foldl, mem_foldl_fst, oneBoundary_mem]

theorem edgeCommits_mem (s : State) (p : Nat → Bool) (h_s : MemOk s) :
    MemOk (edgeCommits s p) := by
  unfold edgeCommits; grind [mem_mk, mem_cells, mem_foldl, mem_foldl_fst, commitAt_mem]

theorem edgeGates_mem (s : State) (p : Nat → Bool) (h_s : MemOk s) :
    MemOk (edgeGates s p) := by
  unfold edgeGates; grind [mem_mk, mem_cells, mem_foldl, mem_foldl_fst, gateAt_mem]

theorem edgeUpTo_mem (s : State) (k : Nat) (h_s : MemOk s) :
    MemOk (edgeUpTo s k) := by
  unfold edgeUpTo; grind [mem_mk, mem_cells, mem_foldl, mem_foldl_fst, edgeComparison_mem, edgeSteps_mem, edgeCommits_mem, edgeGates_mem]

theorem stepBoundary_mem (img : Nat) (s : State) (h_s : MemOk s) :
    MemOk (stepBoundary img s) := by
  unfold stepBoundary; grind [mem_mk, mem_cells, mem_foldl, mem_foldl_fst, oneBoundary_mem, edgeSteps_mem, edgeUpTo_mem]

theorem epochCommit_mem (index shard : Nat) (s : State) (h_s : MemOk s) :
    MemOk (epochCommit index shard s) := by
  unfold epochCommit; grind [mem_mk, mem_cells, mem_foldl, mem_foldl_fst, commitAt_mem, edgeCommits_mem, edgeUpTo_mem]

theorem gateListTakeover_mem (port : Nat) (s : State) (h_s : MemOk s) :
    MemOk (gateListTakeover port s) := by
  unfold gateListTakeover; grind [mem_mk, mem_cells, mem_foldl, mem_foldl_fst, gateAt_mem, edgeGates_mem, edgeUpTo_mem]

theorem imageLaunch_mem (slot : Nat) (s : State) (h_s : MemOk s) :
    MemOk (imageLaunch slot s) := by
  unfold imageLaunch
  split
  · exact h_s
  · with_reducible apply mem_ite
    · exact h_s
    · exact mem_foldl _ (fun t e h => launchEvent_mem _ _ h) _ _ (edgeUpTo_mem _ _ h_s)

theorem boundaryWork_mem (s : State) (h_s : MemOk s) :
    MemOk (boundaryWork s) := by
  unfold boundaryWork; (repeat' split) <;> simp +contextual [mem_mk, mem_cells, mem_foldl, mem_foldl_fst, mem_ite, *, modBow_mem, skewMigrate_mem]

theorem scrubPacing_mem (s : State) (h_s : MemOk s) :
    MemOk (scrubPacing s) := by
  unfold scrubPacing; grind [mem_mk, mem_cells, mem_foldl, mem_foldl_fst, launchEvent_mem, scrubRefill_mem, edgeUpTo_mem, boundaryWork_mem]

theorem applySkipped_mem (s : State) (h_s : MemOk s) :
    MemOk (applySkipped s) := by
  unfold applySkipped; grind [mem_mk, mem_cells, mem_foldl, mem_foldl_fst, missLaunch_mem, scrubRefill_mem, edgeUpTo_mem, boundaryWork_mem]

theorem adopt_mem (s : State) (count ago : Nat) (offset : Int) (h_s : MemOk s) :
    MemOk (adopt s count ago offset) := by
  unfold adopt; grind [mem_mk, mem_cells, mem_foldl, mem_foldl_fst, setF_mem, modBow_mem, applySkipped_mem]

theorem checkMissed_mem (s : State) (h_s : MemOk s) :
    MemOk (checkMissed s) := by
  unfold checkMissed; grind [mem_mk, mem_cells, mem_foldl, mem_foldl_fst, modBow_mem, bowTo_mem]

theorem validFrame_mem (s : State) (check : Bool) (count ago : Nat) (offset : Int) (h_s : MemOk s) :
    MemOk (validFrame s check count ago offset) := by
  unfold validFrame; (repeat' split) <;> simp +contextual [mem_mk, mem_cells, mem_foldl, mem_foldl_fst, mem_ite, *, modBow_mem, bowTo_mem, badFrame_mem, adopt_mem]

theorem takeFrame_mem (s : State) (sentCheck : Bool) (frame ago : Nat) (offset : Int) (h_s : MemOk s) :
    MemOk (takeFrame s sentCheck frame ago offset) := by
  unfold takeFrame; grind [mem_mk, mem_cells, mem_foldl, mem_foldl_fst, modBow_mem, badFrame_mem, checkMissed_mem, validFrame_mem]

theorem loadFrame_mem (frame ago : Nat) (offset : Int) (s : State) (h_s : MemOk s) :
    MemOk (loadFrame frame ago offset s) := by
  unfold loadFrame; simp +contextual [mem_mk, mem_cells, mem_foldl, mem_foldl_fst, mem_ite, *, takeFrame_mem]

theorem checkFrame_mem (frame ago : Nat) (offset : Int) (s : State) (h_s : MemOk s) :
    MemOk (checkFrame frame ago offset s) := by
  unfold checkFrame; simp +contextual [mem_mk, mem_cells, mem_foldl, mem_foldl_fst, mem_ite, *, takeFrame_mem]

theorem syncEnSet_mem (s : State) (v : Nat) (h_s : MemOk s) :
    MemOk (syncEnSet s v) := by
  unfold syncEnSet; (repeat' split) <;> simp +contextual [mem_mk, mem_cells, mem_foldl, mem_foldl_fst, mem_ite, *, setF_mem, bowTo_mem]

theorem tickRefLost_mem (s : State) (h_s : MemOk s) :
    MemOk (tickRefLost s) := by
  unfold tickRefLost; grind [mem_mk, mem_cells, mem_foldl, mem_foldl_fst, modBow_mem, bowTo_mem]

theorem phaseLost_mem (phase : Int) (s : State) (h_s : MemOk s) :
    MemOk (phaseLost phase s) := by
  unfold phaseLost; (repeat' split) <;> simp +contextual [mem_mk, mem_cells, mem_foldl, mem_foldl_fst, mem_ite, *, modBow_mem, bowTo_mem]

theorem checkMissing_mem (s : State) (h_s : MemOk s) :
    MemOk (checkMissing s) := by
  unfold checkMissing; simp +contextual [mem_mk, mem_cells, mem_foldl, mem_foldl_fst, mem_ite, *, checkMissed_mem]

theorem alignAsk_mem (s : State) (felt : Bool) (h_s : MemOk s) :
    MemOk (alignAsk s felt) := by
  unfold alignAsk; simp +contextual [mem_mk, mem_cells, mem_foldl, mem_foldl_fst, mem_ite, *, modBow_mem]

theorem crossingAlignment_mem (s : State) (h_s : MemOk s) :
    MemOk (crossingAlignment s) := by
  unfold crossingAlignment; (repeat' split) <;> simp +contextual [mem_mk, mem_cells, mem_foldl, mem_foldl_fst, mem_ite, *, setF_mem, modBow_mem]

theorem meterRefill_mem (s : State) (h_s : MemOk s) :
    MemOk (meterRefill s) := by
  unfold meterRefill; simp +contextual [mem_mk, mem_cells, mem_foldl, mem_foldl_fst, mem_ite, *, modHost_mem]

theorem meterSet_mem (s : State) (fabric : Bool) (t v : Nat) (h_s : MemOk s) :
    MemOk (meterSet s fabric t v) := by
  unfold meterSet; grind [mem_mk, mem_cells, mem_foldl, mem_foldl_fst, setF_mem, modHost_mem]

end Sys2Proof.Machine
end

