-- ==== Sys2Proof/Laws/KeepCellCmds.lean ====
section
/-! SUPPORT. Every function of Machine/CellCmds.lean that answers a state keeps the canonical form of the stored bytes. -/
set_option linter.unusedSimpArgs false
namespace Sys2Proof.Machine
open Sys2Proof

theorem cellCnop_mem (img cell ecc : Nat) (s : State) (h_s : MemOk s) :
    MemOk (cellCnop img cell ecc s) := by
  unfold cellCnop; simp +contextual [mem_mk, mem_cells, mem_foldl, mem_foldl_fst, mem_ite, *, cellOp_mem]

theorem cellAdd_mem (img cell ecc : Nat) (s : State) (h_s : MemOk s) :
    MemOk (cellAdd img cell ecc s) := by
  unfold cellAdd; simp +contextual [mem_mk, mem_cells, mem_foldl, mem_foldl_fst, mem_ite, *, cellOp_mem]

theorem cellSub_mem (img cell ecc : Nat) (s : State) (h_s : MemOk s) :
    MemOk (cellSub img cell ecc s) := by
  unfold cellSub; simp +contextual [mem_mk, mem_cells, mem_foldl, mem_foldl_fst, mem_ite, *, cellOp_mem]

theorem cellAnd_mem (img cell ecc : Nat) (s : State) (h_s : MemOk s) :
    MemOk (cellAnd img cell ecc s) := by
  unfold cellAnd; simp +contextual [mem_mk, mem_cells, mem_foldl, mem_foldl_fst, mem_ite, *, cellOp_mem]

theorem cellOr_mem (img cell ecc : Nat) (s : State) (h_s : MemOk s) :
    MemOk (cellOr img cell ecc s) := by
  unfold cellOr; simp +contextual [mem_mk, mem_cells, mem_foldl, mem_foldl_fst, mem_ite, *, cellOp_mem]

theorem cellXor_mem (img cell ecc : Nat) (s : State) (h_s : MemOk s) :
    MemOk (cellXor img cell ecc s) := by
  unfold cellXor; simp +contextual [mem_mk, mem_cells, mem_foldl, mem_foldl_fst, mem_ite, *, cellOp_mem]

theorem cellShl_mem (img cell ecc : Nat) (s : State) (h_s : MemOk s) :
    MemOk (cellShl img cell ecc s) := by
  unfold cellShl; simp +contextual [mem_mk, mem_cells, mem_foldl, mem_foldl_fst, mem_ite, *, cellOp_mem]

theorem cellShr_mem (img cell ecc : Nat) (s : State) (h_s : MemOk s) :
    MemOk (cellShr img cell ecc s) := by
  unfold cellShr; simp +contextual [mem_mk, mem_cells, mem_foldl, mem_foldl_fst, mem_ite, *, cellOp_mem]

theorem cellSar_mem (img cell ecc : Nat) (s : State) (h_s : MemOk s) :
    MemOk (cellSar img cell ecc s) := by
  unfold cellSar; simp +contextual [mem_mk, mem_cells, mem_foldl, mem_foldl_fst, mem_ite, *, cellOp_mem]

theorem cellMul_mem (img cell ecc : Nat) (s : State) (h_s : MemOk s) :
    MemOk (cellMul img cell ecc s) := by
  unfold cellMul; simp +contextual [mem_mk, mem_cells, mem_foldl, mem_foldl_fst, mem_ite, *, cellOp_mem]

theorem cellMins_mem (img cell ecc : Nat) (s : State) (h_s : MemOk s) :
    MemOk (cellMins img cell ecc s) := by
  unfold cellMins; simp +contextual [mem_mk, mem_cells, mem_foldl, mem_foldl_fst, mem_ite, *, cellOp_mem]

theorem cellMaxs_mem (img cell ecc : Nat) (s : State) (h_s : MemOk s) :
    MemOk (cellMaxs img cell ecc s) := by
  unfold cellMaxs; simp +contextual [mem_mk, mem_cells, mem_foldl, mem_foldl_fst, mem_ite, *, cellOp_mem]

theorem cellAddi_mem (img cell ecc : Nat) (s : State) (h_s : MemOk s) :
    MemOk (cellAddi img cell ecc s) := by
  unfold cellAddi; simp +contextual [mem_mk, mem_cells, mem_foldl, mem_foldl_fst, mem_ite, *, cellOp_mem]

theorem cellAndi_mem (img cell ecc : Nat) (s : State) (h_s : MemOk s) :
    MemOk (cellAndi img cell ecc s) := by
  unfold cellAndi; simp +contextual [mem_mk, mem_cells, mem_foldl, mem_foldl_fst, mem_ite, *, cellOp_mem]

theorem cellOri_mem (img cell ecc : Nat) (s : State) (h_s : MemOk s) :
    MemOk (cellOri img cell ecc s) := by
  unfold cellOri; simp +contextual [mem_mk, mem_cells, mem_foldl, mem_foldl_fst, mem_ite, *, cellOp_mem]

theorem cellLdi0_mem (img cell ecc : Nat) (s : State) (h_s : MemOk s) :
    MemOk (cellLdi0 img cell ecc s) := by
  unfold cellLdi0; simp +contextual [mem_mk, mem_cells, mem_foldl, mem_foldl_fst, mem_ite, *, cellOp_mem]

theorem cellLdi1_mem (img cell ecc : Nat) (s : State) (h_s : MemOk s) :
    MemOk (cellLdi1 img cell ecc s) := by
  unfold cellLdi1; simp +contextual [mem_mk, mem_cells, mem_foldl, mem_foldl_fst, mem_ite, *, cellOp_mem]

theorem cellLdi2_mem (img cell ecc : Nat) (s : State) (h_s : MemOk s) :
    MemOk (cellLdi2 img cell ecc s) := by
  unfold cellLdi2; simp +contextual [mem_mk, mem_cells, mem_foldl, mem_foldl_fst, mem_ite, *, cellOp_mem]

theorem cellLdi3_mem (img cell ecc : Nat) (s : State) (h_s : MemOk s) :
    MemOk (cellLdi3 img cell ecc s) := by
  unfold cellLdi3; simp +contextual [mem_mk, mem_cells, mem_foldl, mem_foldl_fst, mem_ite, *, cellOp_mem]

theorem cellLoop_mem (img cell ecc : Nat) (s : State) (h_s : MemOk s) :
    MemOk (cellLoop img cell ecc s) := by
  unfold cellLoop; simp +contextual [mem_mk, mem_cells, mem_foldl, mem_foldl_fst, mem_ite, *, cellOp_mem]

theorem cellJump_mem (img cell ecc : Nat) (s : State) (h_s : MemOk s) :
    MemOk (cellJump img cell ecc s) := by
  unfold cellJump; simp +contextual [mem_mk, mem_cells, mem_foldl, mem_foldl_fst, mem_ite, *, cellOp_mem]

theorem cellStsel_mem (img cell ecc : Nat) (s : State) (h_s : MemOk s) :
    MemOk (cellStsel img cell ecc s) := by
  unfold cellStsel; simp +contextual [mem_mk, mem_cells, mem_foldl, mem_foldl_fst, mem_ite, *, cellOp_mem]

theorem cellMnop_mem (img cell ecc : Nat) (s : State) (h_s : MemOk s) :
    MemOk (cellMnop img cell ecc s) := by
  unfold cellMnop; simp +contextual [mem_mk, mem_cells, mem_foldl, mem_foldl_fst, mem_ite, *, cellOp_mem]

theorem cellMma_mem (img cell ecc : Nat) (s : State) (h_s : MemOk s) :
    MemOk (cellMma img cell ecc s) := by
  unfold cellMma; simp +contextual [mem_mk, mem_cells, mem_foldl, mem_foldl_fst, mem_ite, *, cellOp_mem]

theorem cellMclr_mem (img cell ecc : Nat) (s : State) (h_s : MemOk s) :
    MemOk (cellMclr img cell ecc s) := by
  unfold cellMclr; simp +contextual [mem_mk, mem_cells, mem_foldl, mem_foldl_fst, mem_ite, *, cellOp_mem]

theorem cellMrd_mem (img cell ecc : Nat) (s : State) (h_s : MemOk s) :
    MemOk (cellMrd img cell ecc s) := by
  unfold cellMrd; simp +contextual [mem_mk, mem_cells, mem_foldl, mem_foldl_fst, mem_ite, *, cellOp_mem]

theorem cellMwr_mem (img cell ecc : Nat) (s : State) (h_s : MemOk s) :
    MemOk (cellMwr img cell ecc s) := by
  unfold cellMwr; simp +contextual [mem_mk, mem_cells, mem_foldl, mem_foldl_fst, mem_ite, *, cellOp_mem]

theorem cellVnop_mem (img cell ecc : Nat) (s : State) (h_s : MemOk s) :
    MemOk (cellVnop img cell ecc s) := by
  unfold cellVnop; simp +contextual [mem_mk, mem_cells, mem_foldl, mem_foldl_fst, mem_ite, *, cellOp_mem]

theorem cellVadd_mem (img cell ecc : Nat) (s : State) (h_s : MemOk s) :
    MemOk (cellVadd img cell ecc s) := by
  unfold cellVadd; simp +contextual [mem_mk, mem_cells, mem_foldl, mem_foldl_fst, mem_ite, *, cellOp_mem]

theorem cellVsub_mem (img cell ecc : Nat) (s : State) (h_s : MemOk s) :
    MemOk (cellVsub img cell ecc s) := by
  unfold cellVsub; simp +contextual [mem_mk, mem_cells, mem_foldl, mem_foldl_fst, mem_ite, *, cellOp_mem]

theorem cellVmul_mem (img cell ecc : Nat) (s : State) (h_s : MemOk s) :
    MemOk (cellVmul img cell ecc s) := by
  unfold cellVmul; simp +contextual [mem_mk, mem_cells, mem_foldl, mem_foldl_fst, mem_ite, *, cellOp_mem]

theorem cellVfma_mem (img cell ecc : Nat) (s : State) (h_s : MemOk s) :
    MemOk (cellVfma img cell ecc s) := by
  unfold cellVfma; simp +contextual [mem_mk, mem_cells, mem_foldl, mem_foldl_fst, mem_ite, *, cellOp_mem]

theorem cellVfnma_mem (img cell ecc : Nat) (s : State) (h_s : MemOk s) :
    MemOk (cellVfnma img cell ecc s) := by
  unfold cellVfnma; simp +contextual [mem_mk, mem_cells, mem_foldl, mem_foldl_fst, mem_ite, *, cellOp_mem]

theorem cellVmin_mem (img cell ecc : Nat) (s : State) (h_s : MemOk s) :
    MemOk (cellVmin img cell ecc s) := by
  unfold cellVmin; simp +contextual [mem_mk, mem_cells, mem_foldl, mem_foldl_fst, mem_ite, *, cellOp_mem]

theorem cellVmax_mem (img cell ecc : Nat) (s : State) (h_s : MemOk s) :
    MemOk (cellVmax img cell ecc s) := by
  unfold cellVmax; simp +contextual [mem_mk, mem_cells, mem_foldl, mem_foldl_fst, mem_ite, *, cellOp_mem]

theorem cellVcmp_mem (img cell ecc : Nat) (s : State) (h_s : MemOk s) :
    MemOk (cellVcmp img cell ecc s) := by
  unfold cellVcmp; simp +contextual [mem_mk, mem_cells, mem_foldl, mem_foldl_fst, mem_ite, *, cellOp_mem]

theorem cellViadd_mem (img cell ecc : Nat) (s : State) (h_s : MemOk s) :
    MemOk (cellViadd img cell ecc s) := by
  unfold cellViadd; simp +contextual [mem_mk, mem_cells, mem_foldl, mem_foldl_fst, mem_ite, *, cellOp_mem]

theorem cellVisub_mem (img cell ecc : Nat) (s : State) (h_s : MemOk s) :
    MemOk (cellVisub img cell ecc s) := by
  unfold cellVisub; simp +contextual [mem_mk, mem_cells, mem_foldl, mem_foldl_fst, mem_ite, *, cellOp_mem]

theorem cellVimul_mem (img cell ecc : Nat) (s : State) (h_s : MemOk s) :
    MemOk (cellVimul img cell ecc s) := by
  unfold cellVimul; simp +contextual [mem_mk, mem_cells, mem_foldl, mem_foldl_fst, mem_ite, *, cellOp_mem]

theorem cellVand_mem (img cell ecc : Nat) (s : State) (h_s : MemOk s) :
    MemOk (cellVand img cell ecc s) := by
  unfold cellVand; simp +contextual [mem_mk, mem_cells, mem_foldl, mem_foldl_fst, mem_ite, *, cellOp_mem]

theorem cellVor_mem (img cell ecc : Nat) (s : State) (h_s : MemOk s) :
    MemOk (cellVor img cell ecc s) := by
  unfold cellVor; simp +contextual [mem_mk, mem_cells, mem_foldl, mem_foldl_fst, mem_ite, *, cellOp_mem]

theorem cellVxor_mem (img cell ecc : Nat) (s : State) (h_s : MemOk s) :
    MemOk (cellVxor img cell ecc s) := by
  unfold cellVxor; simp +contextual [mem_mk, mem_cells, mem_foldl, mem_foldl_fst, mem_ite, *, cellOp_mem]

theorem cellVshl_mem (img cell ecc : Nat) (s : State) (h_s : MemOk s) :
    MemOk (cellVshl img cell ecc s) := by
  unfold cellVshl; simp +contextual [mem_mk, mem_cells, mem_foldl, mem_foldl_fst, mem_ite, *, cellOp_mem]

theorem cellVshr_mem (img cell ecc : Nat) (s : State) (h_s : MemOk s) :
    MemOk (cellVshr img cell ecc s) := by
  unfold cellVshr; simp +contextual [mem_mk, mem_cells, mem_foldl, mem_foldl_fst, mem_ite, *, cellOp_mem]

theorem cellVsel_mem (img cell ecc : Nat) (s : State) (h_s : MemOk s) :
    MemOk (cellVsel img cell ecc s) := by
  unfold cellVsel; simp +contextual [mem_mk, mem_cells, mem_foldl, mem_foldl_fst, mem_ite, *, cellOp_mem]

theorem cellVbc_mem (img cell ecc : Nat) (s : State) (h_s : MemOk s) :
    MemOk (cellVbc img cell ecc s) := by
  unfold cellVbc; simp +contextual [mem_mk, mem_cells, mem_foldl, mem_foldl_fst, mem_ite, *, cellOp_mem]

theorem cellVget_mem (img cell ecc : Nat) (s : State) (h_s : MemOk s) :
    MemOk (cellVget img cell ecc s) := by
  unfold cellVget; simp +contextual [mem_mk, mem_cells, mem_foldl, mem_foldl_fst, mem_ite, *, cellOp_mem]

theorem cellVput_mem (img cell ecc : Nat) (s : State) (h_s : MemOk s) :
    MemOk (cellVput img cell ecc s) := by
  unfold cellVput; simp +contextual [mem_mk, mem_cells, mem_foldl, mem_foldl_fst, mem_ite, *, cellOp_mem]

theorem cellVrot_mem (img cell ecc : Nat) (s : State) (h_s : MemOk s) :
    MemOk (cellVrot img cell ecc s) := by
  unfold cellVrot; simp +contextual [mem_mk, mem_cells, mem_foldl, mem_foldl_fst, mem_ite, *, cellOp_mem]

theorem cellPset_mem (img cell ecc : Nat) (s : State) (h_s : MemOk s) :
    MemOk (cellPset img cell ecc s) := by
  unfold cellPset; simp +contextual [mem_mk, mem_cells, mem_foldl, mem_foldl_fst, mem_ite, *, cellOp_mem]

theorem cellPget_mem (img cell ecc : Nat) (s : State) (h_s : MemOk s) :
    MemOk (cellPget img cell ecc s) := by
  unfold cellPget; simp +contextual [mem_mk, mem_cells, mem_foldl, mem_foldl_fst, mem_ite, *, cellOp_mem]

theorem cellVcvt_mem (img cell ecc : Nat) (s : State) (h_s : MemOk s) :
    MemOk (cellVcvt img cell ecc s) := by
  unfold cellVcvt; simp +contextual [mem_mk, mem_cells, mem_foldl, mem_foldl_fst, mem_ite, *, cellOp_mem]

theorem cellVrsc_mem (img cell ecc : Nat) (s : State) (h_s : MemOk s) :
    MemOk (cellVrsc img cell ecc s) := by
  unfold cellVrsc; simp +contextual [mem_mk, mem_cells, mem_foldl, mem_foldl_fst, mem_ite, *, cellOp_mem]

theorem cellVamax_mem (img cell ecc : Nat) (s : State) (h_s : MemOk s) :
    MemOk (cellVamax img cell ecc s) := by
  unfold cellVamax; simp +contextual [mem_mk, mem_cells, mem_foldl, mem_foldl_fst, mem_ite, *, cellOp_mem]

theorem cellVqenc_mem (img cell ecc : Nat) (s : State) (h_s : MemOk s) :
    MemOk (cellVqenc img cell ecc s) := by
  unfold cellVqenc; simp +contextual [mem_mk, mem_cells, mem_foldl, mem_foldl_fst, mem_ite, *, cellOp_mem]

theorem cellVqdec_mem (img cell ecc : Nat) (s : State) (h_s : MemOk s) :
    MemOk (cellVqdec img cell ecc s) := by
  unfold cellVqdec; simp +contextual [mem_mk, mem_cells, mem_foldl, mem_foldl_fst, mem_ite, *, cellOp_mem]

theorem cellXclr_mem (img cell ecc : Nat) (s : State) (h_s : MemOk s) :
    MemOk (cellXclr img cell ecc s) := by
  unfold cellXclr; simp +contextual [mem_mk, mem_cells, mem_foldl, mem_foldl_fst, mem_ite, *, cellOp_mem]

theorem cellXdot_mem (img cell ecc : Nat) (s : State) (h_s : MemOk s) :
    MemOk (cellXdot img cell ecc s) := by
  unfold cellXdot; simp +contextual [mem_mk, mem_cells, mem_foldl, mem_foldl_fst, mem_ite, *, cellOp_mem]

theorem cellXsum_mem (img cell ecc : Nat) (s : State) (h_s : MemOk s) :
    MemOk (cellXsum img cell ecc s) := by
  unfold cellXsum; simp +contextual [mem_mk, mem_cells, mem_foldl, mem_foldl_fst, mem_ite, *, cellOp_mem]

theorem cellXsqd_mem (img cell ecc : Nat) (s : State) (h_s : MemOk s) :
    MemOk (cellXsqd img cell ecc s) := by
  unfold cellXsqd; simp +contextual [mem_mk, mem_cells, mem_foldl, mem_foldl_fst, mem_ite, *, cellOp_mem]

theorem cellXdotqQi8_mem (img cell ecc : Nat) (s : State) (h_s : MemOk s) :
    MemOk (cellXdotqQi8 img cell ecc s) := by
  unfold cellXdotqQi8; simp +contextual [mem_mk, mem_cells, mem_foldl, mem_foldl_fst, mem_ite, *, cellOp_mem]

theorem cellXdotqQi4_mem (img cell ecc : Nat) (s : State) (h_s : MemOk s) :
    MemOk (cellXdotqQi4 img cell ecc s) := by
  unfold cellXdotqQi4; simp +contextual [mem_mk, mem_cells, mem_foldl, mem_foldl_fst, mem_ite, *, cellOp_mem]

theorem cellXrnd_mem (img cell ecc : Nat) (s : State) (h_s : MemOk s) :
    MemOk (cellXrnd img cell ecc s) := by
  unfold cellXrnd; simp +contextual [mem_mk, mem_cells, mem_foldl, mem_foldl_fst, mem_ite, *, cellOp_mem]

theorem cellXget_mem (img cell ecc : Nat) (s : State) (h_s : MemOk s) :
    MemOk (cellXget img cell ecc s) := by
  unfold cellXget; simp +contextual [mem_mk, mem_cells, mem_foldl, mem_foldl_fst, mem_ite, *, cellOp_mem]

theorem cellXadd_mem (img cell ecc : Nat) (s : State) (h_s : MemOk s) :
    MemOk (cellXadd img cell ecc s) := by
  unfold cellXadd; simp +contextual [mem_mk, mem_cells, mem_foldl, mem_foldl_fst, mem_ite, *, cellOp_mem]

theorem cellXnop_mem (img cell ecc : Nat) (s : State) (h_s : MemOk s) :
    MemOk (cellXnop img cell ecc s) := by
  unfold cellXnop; simp +contextual [mem_mk, mem_cells, mem_foldl, mem_foldl_fst, mem_ite, *, cellOp_mem]

theorem cellWrel_mem (img cell ecc : Nat) (s : State) (h_s : MemOk s) :
    MemOk (cellWrel img cell ecc s) := by
  unfold cellWrel; simp +contextual [mem_mk, mem_cells, mem_foldl, mem_foldl_fst, mem_ite, *, cellOp_mem]

theorem cellWgive_mem (img cell ecc : Nat) (s : State) (h_s : MemOk s) :
    MemOk (cellWgive img cell ecc s) := by
  unfold cellWgive; simp +contextual [mem_mk, mem_cells, mem_foldl, mem_foldl_fst, mem_ite, *, cellOp_mem]

theorem cellVlda_mem (img cell ecc : Nat) (ups : List (Nat × Nat)) (s : State) (h_s : MemOk s) :
    MemOk (cellVlda img cell ecc ups s) := by
  unfold cellVlda; simp +contextual [mem_mk, mem_cells, mem_foldl, mem_foldl_fst, mem_ite, *, cellOp_mem]

theorem cellVsta_mem (img cell ecc : Nat) (s : State) (h_s : MemOk s) :
    MemOk (cellVsta img cell ecc s) := by
  unfold cellVsta; simp +contextual [mem_mk, mem_cells, mem_foldl, mem_foldl_fst, mem_ite, *, cellOp_mem]

theorem cellVld_mem (img cell ecc : Nat) (ups : List (Nat × Nat)) (s : State) (h_s : MemOk s) :
    MemOk (cellVld img cell ecc ups s) := by
  unfold cellVld; simp +contextual [mem_mk, mem_cells, mem_foldl, mem_foldl_fst, mem_ite, *, cellOp_mem]

theorem cellVst_mem (img cell ecc : Nat) (s : State) (h_s : MemOk s) :
    MemOk (cellVst img cell ecc s) := by
  unfold cellVst; simp +contextual [mem_mk, mem_cells, mem_foldl, mem_foldl_fst, mem_ite, *, cellOp_mem]

theorem cellSld_mem (img cell ecc : Nat) (ups : List (Nat × Nat)) (s : State) (h_s : MemOk s) :
    MemOk (cellSld img cell ecc ups s) := by
  unfold cellSld; simp +contextual [mem_mk, mem_cells, mem_foldl, mem_foldl_fst, mem_ite, *, cellOp_mem]

theorem cellSst_mem (img cell ecc : Nat) (s : State) (h_s : MemOk s) :
    MemOk (cellSst img cell ecc s) := by
  unfold cellSst; simp +contextual [mem_mk, mem_cells, mem_foldl, mem_foldl_fst, mem_ite, *, cellOp_mem]

theorem cellSend_mem (img cell ecc : Nat) (s : State) (h_s : MemOk s) :
    MemOk (cellSend img cell ecc s) := by
  unfold cellSend; simp +contextual [mem_mk, mem_cells, mem_foldl, mem_foldl_fst, mem_ite, *, cellOp_mem]

theorem cellRecv_mem (img cell ecc : Nat) (s : State) (h_s : MemOk s) :
    MemOk (cellRecv img cell ecc s) := by
  unfold cellRecv; simp +contextual [mem_mk, mem_cells, mem_foldl, mem_foldl_fst, mem_ite, *, cellOp_mem]

theorem cellStop_mem (img cell ecc : Nat) (s : State) (h_s : MemOk s) :
    MemOk (cellStop img cell ecc s) := by
  unfold cellStop; simp +contextual [mem_mk, mem_cells, mem_foldl, mem_foldl_fst, mem_ite, *, cellOp_mem]

end Sys2Proof.Machine
end

