-- ==== Sys2Proof/Laws/KeepDramCmds.lean ====
section
/-! SUPPORT. Every function of Machine/DramCmds.lean that answers a state keeps the canonical form of the stored bytes. -/
set_option linter.unusedSimpArgs false
namespace Sys2Proof.Machine
open Sys2Proof

theorem modInteg_mem (s : State) (f : Integrity → Integrity) (h_s : MemOk s) :
    MemOk (modInteg s f) := by
  unfold modInteg; simp +contextual [mem_mk, mem_cells, mem_foldl, mem_foldl_fst, mem_ite, *]

theorem strike_mem (s : State) (site : Nat) (ups : List (Nat × Nat × Nat)) (h_s : MemOk s) :
    MemOk (strike s site ups) := by
  unfold strike; grind [mem_mk, mem_cells, mem_foldl, mem_foldl_fst, putRaw_mem]

theorem mapHit_mem (s : State) (site line err : Nat) (h_s : MemOk s) :
    MemOk (mapHit s site line err) := by
  unfold mapHit; grind [mem_mk, mem_cells, mem_foldl, mem_foldl_fst, bump_mem, freeVal_mem, intLog_mem, logCorrected_mem]

theorem readMap_mem (s : State) (site line last : Nat) (errs : List (Nat × Nat)) (h_s : MemOk s) :
    MemOk (readMap s site line last errs) := by
  unfold readMap; grind [mem_mk, mem_cells, mem_foldl, mem_foldl_fst, mapHit_mem]

theorem arriveAt_mem (s : State) (site waiting : Nat) (h_s : MemOk s) :
    MemOk (arriveAt s site waiting) := by
  unfold arriveAt; grind [mem_mk, mem_cells, mem_foldl, mem_foldl_fst, bump_mem]

theorem dramReadCmd_mem (req site addr len : Nat) (ups : List (Nat × Nat × Nat)) (mapErr : List (Nat × Nat)) (waiting : Nat) (s : State) (h_s : MemOk s) :
    MemOk (dramReadCmd req site addr len ups mapErr waiting s) := by
  unfold dramReadCmd; grind [mem_mk, mem_cells, mem_foldl, mem_foldl_fst, emit_mem, dramRead_mem, strike_mem, readMap_mem, arriveAt_mem]

theorem dramWriteCmd_mem (req site addr : Nat) (bytes : List Byte) (pois : List Nat) (ups : List (Nat × Nat × Nat)) (mapErr : List (Nat × Nat)) (waiting : Nat) (s : State) (h_s : MemOk s) :
    MemOk (dramWriteCmd req site addr bytes pois ups mapErr waiting s) := by
  unfold dramWriteCmd; grind [mem_mk, mem_cells, mem_foldl, mem_foldl_fst, emit_mem, dramWrite_mem, wakeScan_mem, strike_mem, readMap_mem, arriveAt_mem]

theorem refresh_mem (site pc : Nat) (s : State) (h_s : MemOk s) :
    MemOk (refresh site pc s) := by
  unfold refresh; simp +contextual [mem_mk, mem_cells, mem_foldl, mem_foldl_fst, mem_ite, *, emit_mem]

theorem logPop_mem (s : State) (h_s : MemOk s) :
    MemOk (logPop s) := by
  unfold logPop; simp +contextual [mem_mk, mem_cells, mem_foldl, mem_foldl_fst, mem_ite, *, modInteg_mem]

theorem scrubSet_mem (s : State) (k v : Nat) (h_s : MemOk s) :
    MemOk (scrubSet s k v) := by
  unfold scrubSet; simp +contextual [mem_mk, mem_cells, mem_foldl, mem_foldl_fst, mem_ite, *, modInteg_mem]

theorem scrubWord_mem (s : State) (site word : Nat) (h_s : MemOk s) :
    MemOk (scrubWord s site word) := by
  unfold scrubWord; grind [mem_mk, mem_cells, mem_foldl, mem_foldl_fst, putRaw_mem, readWord_mem, modInteg_mem]

theorem scrubDram_mem (s : State) (site line : Nat) (ups : List (Nat × Nat × Nat)) (h_s : MemOk s) :
    MemOk (scrubDram s site line ups) := by
  unfold scrubDram; grind [mem_mk, mem_cells, mem_foldl, mem_foldl_fst, bump_mem, countLineRead_mem, modInteg_mem, strike_mem, mapHit_mem, scrubWord_mem]

theorem scrubPass_mem (s : State) (n : Nat) (sites : List Nat) (h_s : MemOk s) :
    MemOk (scrubPass s n sites) := by
  unfold scrubPass; grind [mem_mk, mem_cells, mem_foldl, mem_foldl_fst, bump_mem, freeVal_mem, crownEventOpen_mem, intLog_mem, modInteg_mem, scrubSet_mem]

theorem scrubSite_mem (s : State) (n : Nat) (ups : List (Nat × Nat × Nat)) (h_s : MemOk s) :
    MemOk (scrubSite s n ups) := by
  unfold scrubSite; grind [mem_mk, mem_cells, mem_foldl, mem_foldl_fst, scrubSet_mem, scrubDram_mem, scrubPass_mem]

theorem scrubHit_mem (s : State) (place unit addr cls pos : Nat) (h_s : MemOk s) :
    MemOk (scrubHit s place unit addr cls pos) := by
  unfold scrubHit; grind [mem_mk, mem_cells, mem_foldl, mem_foldl_fst, bump_mem, intLog_mem, logCorrected_mem, autoBlock_mem]

theorem scrubSram_mem (s : State) (n : Nat) (ups : List (Nat × Nat × Nat)) (h_s : MemOk s) :
    MemOk (scrubSram s n ups) := by
  unfold scrubSram; grind [mem_mk, mem_cells, mem_foldl, mem_foldl_fst, poisonStaged_mem, scrubSet_mem, scrubPass_mem, scrubHit_mem]

theorem scrubLineVisit_mem (n : Nat) (ups : List (Nat × Nat × Nat)) (s : State) (h_s : MemOk s) :
    MemOk (scrubLineVisit n ups s) := by
  unfold scrubLineVisit; grind [mem_mk, mem_cells, mem_foldl, mem_foldl_fst, modInteg_mem, scrubSite_mem, scrubSram_mem]

theorem inStack_mem (s : State) (site addr len : Nat) (k : State) (h_s : MemOk s) (h_k : MemOk k) :
    ∀ x_, inStack s site addr len k = .next x_ → MemOk x_ := by
  intro x_ hx_; unfold inStack at hx_; (repeat' split at hx_) <;> simp at hx_ <;> subst hx_ <;> simp [mem_mk, mem_cells, mem_foldl, mem_foldl_fst, mem_ite, *]

theorem dramReadAt_mem (req site addr len : Nat) (ups : List (Nat × Nat × Nat)) (mapErr : List (Nat × Nat)) (waiting : Nat) (s : State) (h_s : MemOk s) :
    ∀ x_, dramReadAt req site addr len ups mapErr waiting s = .next x_ → MemOk x_ := by
  intro x_ hx_; unfold dramReadAt at hx_; grind [mem_mk, mem_cells, mem_foldl, mem_foldl_fst, dramReadCmd_mem, inStack_mem]

theorem dramWriteAt_mem (req site addr : Nat) (bytes : List Byte) (pois : List Nat) (ups : List (Nat × Nat × Nat)) (mapErr : List (Nat × Nat)) (waiting : Nat) (s : State) (h_s : MemOk s) :
    ∀ x_, dramWriteAt req site addr bytes pois ups mapErr waiting s = .next x_ → MemOk x_ := by
  intro x_ hx_; unfold dramWriteAt at hx_; grind [mem_mk, mem_cells, mem_foldl, mem_foldl_fst, dramWriteCmd_mem, inStack_mem]

end Sys2Proof.Machine
end

