-- ==== Sys2Proof/Laws/KeepFlashCmds.lean ====
section
/-! SUPPORT. Every function of Machine/FlashCmds.lean that answers a state keeps the canonical form of the stored bytes. -/
set_option linter.unusedSimpArgs false
namespace Sys2Proof.Machine
open Sys2Proof

theorem tryWrite_mem (s : State) (flu ru : Nat) (r : RUnit) (h_s : MemOk s) :
    ∀ x_, tryWrite s flu ru r = some x_ → MemOk x_ := by
  intro x_ hx_; unfold tryWrite at hx_; grind [mem_mk, mem_cells, mem_foldl, mem_foldl_fst, fluWriteRu_mem]

theorem waitWrite_mem (s : State) (req flu ru : Nat) (r : RUnit) (h_s : MemOk s) :
    MemOk (waitWrite s req flu ru r) := by
  unfold waitWrite; simp +contextual [mem_mk, mem_cells, mem_foldl, mem_foldl_fst, mem_ite, *, modFlash_mem]

theorem flashWrite_mem (req flu ru : Nat) (bytes : List Byte) (pois : Nat) (s : State) (h_s : MemOk s) :
    MemOk (flashWrite req flu ru bytes pois s) := by
  unfold flashWrite; grind [mem_mk, mem_cells, mem_foldl, mem_foldl_fst, emit_mem, placed_mem, tryWrite_mem, waitWrite_mem]

theorem writeDone_mem (s : State) (x : FReq) (st : Status) (h_s : MemOk s) :
    MemOk (writeDone s x st) := by
  unfold writeDone; (repeat' split) <;> simp +contextual [mem_mk, mem_cells, mem_foldl, mem_foldl_fst, mem_ite, *, emit_mem, modFlash_mem, completeId_mem, placed_mem]

theorem answerRead_mem (s : State) (req flu ru : Nat) (r : RUnit) (h_s : MemOk s) :
    MemOk (answerRead s req flu ru r) := by
  unfold answerRead; simp +contextual [mem_mk, mem_cells, mem_foldl, mem_foldl_fst, mem_ite, *, bumpBy_mem, emit_mem]

theorem serveRead_mem (s : State) (x : FReq) (h_s : MemOk s) :
    MemOk (serveRead s x) := by
  unfold serveRead; (repeat' split) <;> simp +contextual [mem_mk, mem_cells, mem_foldl, mem_foldl_fst, mem_ite, *, modFlash_mem, answerRead_mem]

theorem serveReads_mem (s : State) (h_s : MemOk s) :
    MemOk (serveReads s) := by
  unfold serveReads; simp +contextual [mem_mk, mem_cells, mem_foldl, mem_foldl_fst, mem_ite, *, modFlash_mem, serveRead_mem]

theorem flashWriteResume_mem (s : State) (h_s : MemOk s) :
    MemOk (flashWriteResume s) := by
  unfold flashWriteResume
  split
  · exact h_s
  · rename_i x r e
    dsimp only
    have hd := modFlash_mem s (fun f => { f with waitw := r }) h_s
    split
    · exact h_s
    · split
      · apply serveReads_mem
        split
        · exact hd
        · exact writeDone_mem _ _ _ (bump_mem _ _ hd)
      · split
        · exact serveReads_mem _ (writeDone_mem _ _ _ hd)
        · split
          · exact serveReads_mem _ (writeDone_mem _ _ _ hd)
          · split
            · rename_i t ht
              obtain ⟨k, -, hk⟩ := Option.bind_eq_some_iff.1 ht
              exact serveReads_mem _ (writeDone_mem _ _ _ (fluWriteRu_mem _ _ _ _ _ _ hd _ hk))
            · split
              · exact serveReads_mem _ hd
              · exact h_s

theorem weaken_mem (s : State) (weak : List (Nat × Nat × Nat)) (h_s : MemOk s) :
    MemOk (weaken s weak) := by
  unfold weaken; simp +contextual [mem_mk, mem_cells, mem_foldl, mem_foldl_fst, mem_ite, *, modFlash_mem]

theorem flashRead_mem (req flu ru : Nat) (weak : List (Nat × Nat × Nat)) (s : State) (h_s : MemOk s) :
    MemOk (flashRead req flu ru weak s) := by
  unfold flashRead; grind [mem_mk, mem_cells, mem_foldl, mem_foldl_fst, modFlash_mem, serveRead_mem, weaken_mem]

theorem finishRead_mem (s : State) (x : FReq) (pu step : Nat) (h_s : MemOk s) :
    MemOk (finishRead s x pu step) := by
  unfold finishRead; grind [mem_mk, mem_cells, mem_foldl, mem_foldl_fst, modFlash_mem, countStep_mem, endStep_mem, answerRead_mem]

theorem flashReadComplete_mem (id step : Nat) (s : State) (h_s : MemOk s) :
    MemOk (flashReadComplete id step s) := by
  unfold flashReadComplete; (repeat' split) <;> simp +contextual [mem_mk, mem_cells, mem_foldl, mem_foldl_fst, mem_ite, *, bump_mem, finishRead_mem]

theorem areaFail_mem (s : State) (w : Work) (st : Status) (h_s : MemOk s) :
    MemOk (areaFail s w st) := by
  unfold areaFail; (repeat' split) <;> simp +contextual [mem_mk, mem_cells, mem_foldl, mem_foldl_fst, mem_ite, *, bump_mem, complete_mem]

theorem onFlash_mem (s : State) (id cmd len : Nat) (k : State → Work → List Byte → State) (h_s : MemOk s) (h_k : ∀ x0_ x1_ x2_, MemOk x0_ → MemOk (k x0_ x1_ x2_)) :
    MemOk (onFlash s id cmd len k) := by
  unfold onFlash
  split
  · exact h_s
  · exact onAdmin_mem _ _ _ _ _ _ h_s h_k

theorem unmapRange_mem (s : State) (first n : Nat) (h_s : MemOk s) :
    MemOk (unmapRange s first n) := by
  unfold unmapRange; simp +contextual [mem_mk, mem_cells, mem_foldl, mem_foldl_fst, mem_ite, *, fluUnmap_mem]

theorem areaCreate_mem (work : Nat) (s : State) (h_s : MemOk s) :
    MemOk (areaCreate work s) := by
  unfold areaCreate
  refine onFlash_mem _ _ _ _ _ h_s (fun s w b h => ?_)
  grind [mem_mk, mem_cells, mem_foldl, mem_foldl_fst, modFlash_mem, complete_mem, areaFail_mem, onFlash_mem, unmapRange_mem]

theorem areaDelete_mem (work : Nat) (s : State) (h_s : MemOk s) :
    MemOk (areaDelete work s) := by
  unfold areaDelete
  refine onFlash_mem _ _ _ _ _ h_s (fun s w b h => ?_)
  grind [mem_mk, mem_cells, mem_foldl, mem_foldl_fst, modFlash_mem, complete_mem, areaFail_mem, onFlash_mem, unmapRange_mem]

theorem arPage_mem (s : State) (w : Work) (a : Area) (page addr : Nat) (h_s : MemOk s) :
    ∀ x_, arPage s w a page addr = some x_ → MemOk x_ := by
  intro x_ hx_; unfold arPage at hx_; grind [mem_mk, mem_cells, mem_foldl, mem_foldl_fst, bumpBy_mem, nrRead_mem, tryWrite_mem, waitWrite_mem]

theorem areaWriteCmd_mem (work : Nat) (s : State) (h_s : MemOk s) :
    MemOk (areaWriteCmd work s) := by
  unfold areaWriteCmd
  refine onFlash_mem _ _ _ _ _ h_s (fun s w op h => ?_)
  split
  · exact areaFail_mem _ _ _ h
  · exact areaFail_mem _ _ _ h
  · rename_i a e1 e2
    dsimp only
    repeat' (with_reducible apply mem_ite)
    · exact areaFail_mem _ _ _ h
    · exact areaFail_mem _ _ _ h
    · exact areaFail_mem _ _ _ h
    · split
      · exact areaFail_mem _ _ _ h
      · rename_i t ht
        have h2 := mem_foldl_opt _ (fun t i u ht hu => arPage_mem _ _ _ _ _ ht _ hu) _ _ (by simp [h]) _ ht
        exact mem_ite (beginWork_mem _ _ h2) (complete_mem _ _ _ _ _ _ _ h2)

theorem arPlace_mem (a : Area) (first addr : Nat) (y0_ : Nat) (y1_ : Nat) (y2_ : State) (h_y2_ : MemOk y2_) :
    MemOk (arPlace a first addr y0_ y1_ y2_).1 := by
  induction y0_ generalizing y1_ y2_ with
  | zero => exact h_y2_
  | succ n ih =>
    unfold arPlace
    extract_lets x s1 u ps r
    have h1 : MemOk s1 := recoverFlu_mem _ _ _ h_y2_
    have hr : MemOk r.1 := nrWrite_mem _ _ _ _ (bumpBy_mem _ _ _ h1)
    clear_value r
    split
    · exact hr
    · exact ih _ _ hr

theorem areaReadCmd_mem (work : Nat) (s : State) (h_s : MemOk s) :
    MemOk (areaReadCmd work s) := by
  unfold areaReadCmd
  refine onFlash_mem _ _ _ _ _ h_s (fun s w b h => ?_)
  grind [mem_mk, mem_cells, mem_foldl, mem_foldl_fst, modFlash_mem, complete_mem, areaFail_mem, onFlash_mem, arPlace_mem]

theorem bandRowProgram_mem (band row : Nat) (s : State) (h_s : MemOk s) :
    MemOk (bandRowProgram band row s) := by
  unfold bandRowProgram; (repeat' split) <;> simp +contextual [mem_mk, mem_cells, mem_foldl, mem_foldl_fst, mem_ite, *, modFlash_mem]

theorem retireBlk_mem (s : State) (b : Blk) (h_s : MemOk s) :
    MemOk (retireBlk s b) := by
  unfold retireBlk; (repeat' split) <;> simp +contextual [mem_mk, mem_cells, mem_foldl, mem_foldl_fst, mem_ite, *, bump_mem, modFlash_mem]

theorem clearRetired_mem (s : State) (h_s : MemOk s) :
    MemOk (clearRetired s) := by
  unfold clearRetired; simp +contextual [mem_mk, mem_cells, mem_foldl, mem_foldl_fst, mem_ite, *, relocateAll_mem]

theorem retireBlocks_mem (s : State) (id : Nat) (failed : List Nat) (h_s : MemOk s) :
    MemOk (retireBlocks s id failed) := by
  unfold retireBlocks; (repeat' split) <;> grind [mem_mk, mem_cells, mem_foldl, mem_foldl_fst, modFlash_mem, relocateAll_mem, rehome_mem, retireBlk_mem]

theorem flashProgramComplete_mem (band : Nat) (row : Option Nat) (failed : List Nat) (s : State) (h_s : MemOk s) :
    MemOk (flashProgramComplete band row failed s) := by
  unfold flashProgramComplete; grind [mem_mk, mem_cells, mem_foldl, mem_foldl_fst, modFlash_mem, programRow_mem, dropBand_mem, retireBlk_mem, clearRetired_mem, retireBlocks_mem]

theorem emptyBand_mem (s : State) (id : Nat) (b : Band) (native : Bool) (h_s : MemOk s) :
    MemOk (emptyBand s id b native).1 := by
  unfold emptyBand; grind [mem_mk, mem_cells, mem_foldl, mem_foldl_fst, modFlash_mem, relocateAll_mem]

theorem garbageCollection_mem (s : State) (h_s : MemOk s) :
    MemOk (garbageCollection s) := by
  unfold garbageCollection; grind [mem_mk, mem_cells, mem_foldl, mem_foldl_fst, bumpBy_mem, clearRetired_mem, emptyBand_mem]

theorem slcFold_mem (band : Nat) (s : State) (h_s : MemOk s) :
    MemOk (slcFold band s) := by
  unfold slcFold; (repeat' split) <;> simp +contextual [mem_mk, mem_cells, mem_foldl, mem_foldl_fst, mem_ite, *, emptyBand_mem]

theorem patrolWrap_mem (s : State) (h_s : MemOk s) :
    MemOk (patrolWrap s) := by
  unfold patrolWrap; grind [mem_mk, mem_cells, mem_foldl, mem_foldl_fst, setF_mem, bump_mem, modFlash_mem]

theorem patrolUnit_mem (s : State) (pu pct : Nat) (steps : List Nat) (h_s : MemOk s) :
    MemOk (patrolUnit s pu pct steps) := by
  unfold patrolUnit; grind [mem_mk, mem_cells, mem_foldl, mem_foldl_fst, setF_mem, bump_mem, modFlash_mem, relocate_mem, countStep_mem, loseRu_mem]

theorem patrolRead_mem (steps : List Nat) (pct : Nat) (s : State) (h_s : MemOk s) :
    MemOk (patrolRead steps pct s) := by
  unfold patrolRead; grind [mem_mk, mem_cells, mem_foldl, mem_foldl_fst, modFlash_mem, patrolWrap_mem, patrolUnit_mem]

theorem checkpointWrite_mem (segment : Nat) (s : State) (h_s : MemOk s) :
    MemOk (checkpointWrite segment s) := by
  unfold checkpointWrite; simp +contextual [mem_mk, mem_cells, mem_foldl, mem_foldl_fst, mem_ite, *, ckptSegment_mem]

theorem rebuildRow_mem (s : State) (h_s : MemOk s) :
    MemOk (rebuildRow s) := by
  unfold rebuildRow
  split
  · exact h_s
  · split
    · exact h_s
    · extract_lets drop
      have hd : ∀ t, MemOk t → MemOk (drop t) := fun t h => modFlash_mem _ _ h
      clear_value drop
      split
      · exact hd _ h_s
      · extract_lets pu rest bad pus
        split
        · exact hd _ h_s
        · split
          · exact modFlash_mem _ _ h_s
          · split
            · exact bump_mem _ _ (hd _ h_s)
            · split
              · exact hd _ h_s
              · split
                · rename_i t ht
                  have h2 : MemOk t := by
                    split at ht
                    · exact placeUnit_mem _ _ _ _ _ _ h_s _ ht
                    · simp at ht
                  exact bump_mem _ _ (modFlash_mem _ _ (hd _ h2))
                · split
                  · exact h_s
                  · exact modFlash_mem _ _ h_s

theorem rowRebuild_mem (s : State) (h_s : MemOk s) :
    MemOk (rowRebuild s) := by
  unfold rowRebuild; grind [mem_mk, mem_cells, mem_foldl, mem_foldl_fst, resumeWaits_mem, rebuildRow_mem]

theorem showFlush_mem (s : State) (h_s : MemOk s) :
    MemOk (showFlush s) := by
  unfold showFlush; grind [mem_mk, mem_cells, mem_foldl, mem_foldl_fst, setF_mem]

theorem coldStore_mem (s : State) (h_s : MemOk s) :
    MemOk (coldStore s) := by
  unfold coldStore; simp +contextual [mem_mk, mem_cells, mem_foldl, mem_foldl_fst, mem_ite, *, modFlash_mem]

theorem lostAtMount_mem (s : State) (h_s : MemOk s) :
    MemOk (lostAtMount s) := by
  unfold lostAtMount; simp +contextual [mem_mk, mem_cells, mem_foldl, mem_foldl_fst, mem_ite, *, loseDie_mem]

theorem flashMount_mem (p : MountPar) (s : State) (h_s : MemOk s) :
    MemOk (flashMount p s) := by
  unfold flashMount; grind [mem_mk, mem_cells, mem_foldl, mem_foldl_fst, setF_mem, freeVal_mem, crownEvent_mem, crownEventOpen_mem, modFlash_mem, showFlush_mem, coldStore_mem, lostAtMount_mem]

theorem mountComplete_mem (s : State) (h_s : MemOk s) :
    MemOk (mountComplete s) := by
  unfold mountComplete; grind [mem_mk, mem_cells, mem_foldl, mem_foldl_fst, modFlash_mem, writeDone_mem, serveReads_mem]

theorem suspect_mem (s : State) (ch die : Nat) (h_s : MemOk s) :
    MemOk (suspect s ch die) := by
  unfold suspect; grind [mem_mk, mem_cells, mem_foldl, mem_foldl_fst, setF_mem, bump_mem, crownEventOpen_mem, loseDie_mem]

theorem failedMove_mem (s : State) (slot : Nat) (h_s : MemOk s) :
    MemOk (failedMove s slot) := by
  unfold failedMove; (repeat' split) <;> simp +contextual [mem_mk, mem_cells, mem_foldl, mem_foldl_fst, mem_ite, *, abandonMove_mem, resumeWaits_mem]

theorem flashOpTimeout_mem (ch die op : Nat) (rate : Option Nat) (s : State) (h_s : MemOk s) :
    MemOk (flashOpTimeout ch die op rate s) := by
  unfold flashOpTimeout; grind [mem_mk, mem_cells, mem_foldl, mem_foldl_fst, setF_mem, modFlash_mem, loseDie_mem, finishRead_mem, suspect_mem, failedMove_mem]

theorem startTest_mem (s : State) (ch die : Nat) (h_s : MemOk s) :
    MemOk (startTest s ch die) := by
  unfold startTest; simp +contextual [mem_mk, mem_cells, mem_foldl, mem_foldl_fst, mem_ite, *, modFlash_mem]

theorem dfenceSet_mem (s : State) (ch v : Nat) (h_s : MemOk s) :
    MemOk (dfenceSet s ch v) := by
  unfold dfenceSet; grind [mem_mk, mem_cells, mem_foldl, mem_foldl_fst, setF_mem, loseDie_mem, startTest_mem]

theorem chFenceSet_mem (s : State) (ch v : Nat) (h_s : MemOk s) :
    MemOk (chFenceSet s ch v) := by
  unfold chFenceSet; grind [mem_mk, mem_cells, mem_foldl, mem_foldl_fst, setF_mem, loseDie_mem, startTest_mem]

theorem dieReturnTestDone_mem (ch die : Nat) (ok : Bool) (s : State) (h_s : MemOk s) :
    MemOk (dieReturnTestDone ch die ok s) := by
  unfold dieReturnTestDone; grind [mem_mk, mem_cells, mem_foldl, mem_foldl_fst, setF_mem, modFlash_mem]

theorem flushMib_mem (s : State) (h_s : MemOk s) :
    MemOk (flushMib s).1 := by
  unfold flushMib; grind [mem_mk, mem_cells, mem_foldl, mem_foldl_fst, freeVal_mem]

theorem padRow_mem (s : State) (id : Nat) (b : Band) (row : Nat) (h_s : MemOk s) :
    MemOk (padRow s id b row) := by
  unfold padRow; simp +contextual [mem_mk, mem_cells, mem_foldl, mem_foldl_fst, mem_ite, *, modFlash_mem]

theorem flushStore_mem (s : State) (h_s : MemOk s) :
    MemOk (flushStore s) := by
  unfold flushStore; grind [mem_mk, mem_cells, mem_foldl, mem_foldl_fst, modFlash_mem, programRow_mem, logMeta_mem, padRow_mem]

theorem putMarker_mem (s : State) (kind ticks mib : Nat) (h_s : MemOk s) :
    MemOk (putMarker s kind ticks mib) := by
  unfold putMarker; simp +contextual [mem_mk, mem_cells, mem_foldl, mem_foldl_fst, mem_ite, *, modFlash_mem, logMeta_mem]

end Sys2Proof.Machine
end

