-- ==== Sys2Proof/Laws/KeepHostCmds.lean ====
section
/-! SUPPORT. Every function of Machine/HostCmds.lean that answers a state keeps the canonical form of the stored bytes. -/
set_option linter.unusedSimpArgs false
namespace Sys2Proof.Machine
open Sys2Proof

theorem fstatChanged_mem (s : State) (fn : Nat) (h_s : MemOk s) :
    MemOk (fstatChanged s fn) := by
  unfold fstatChanged; simp +contextual [mem_mk, mem_cells, mem_foldl, mem_foldl_fst, mem_ite, *, msixRaise_mem]

theorem watchPin_mem (s : State) (addr : Nat) (up : Bool) (h_s : MemOk s) :
    MemOk (watchPin s addr up) := by
  unfold watchPin; simp +contextual [mem_mk, mem_cells, mem_foldl, mem_foldl_fst, mem_ite, *, setEnt_mem]

theorem clearSlot_mem (s : State) (q : Nat) (h_s : MemOk s) :
    MemOk (clearSlot s q) := by
  unfold clearSlot; grind [mem_mk, mem_cells, mem_foldl, mem_foldl_fst, setF_mem]

theorem freeQueue_mem (s : State) (q : Nat) (h_s : MemOk s) :
    MemOk (freeQueue s q) := by
  unfold freeQueue; grind [mem_mk, mem_cells, mem_foldl, mem_foldl_fst, modHost_mem, watchPin_mem, clearSlot_mem]

theorem flr_mem (s : State) (fn : Nat) (h_s : MemOk s) :
    MemOk (flr s fn) := by
  unfold flr; grind [mem_mk, mem_cells, mem_foldl, mem_foldl_fst, bumpBy_mem, modHost_mem, freeQueue_mem]

theorem functionLevelReset_mem (fn : Nat) (s : State) (h_s : MemOk s) :
    MemOk (functionLevelReset fn s) := by
  unfold functionLevelReset; simp +contextual [mem_mk, mem_cells, mem_foldl, mem_foldl_fst, mem_ite, *, flr_mem]

theorem vfEnable_mem (numVfs : Nat) (s : State) (h_s : MemOk s) :
    MemOk (vfEnable numVfs s) := by
  unfold vfEnable; simp +contextual [mem_mk, mem_cells, mem_foldl, mem_foldl_fst, mem_ite, *, modHost_mem]

theorem vfDisable_mem (numVfs : Nat) (s : State) (h_s : MemOk s) :
    MemOk (vfDisable numVfs s) := by
  unfold vfDisable; grind [mem_mk, mem_cells, mem_foldl, mem_foldl_fst, modHost_mem, flr_mem, vfEnable_mem]

theorem perstAssert_mem (s : State) (h_s : MemOk s) :
    MemOk (perstAssert s) := by
  unfold perstAssert; simp +contextual [mem_mk, mem_cells, mem_foldl, mem_foldl_fst, mem_ite, *, modHost_mem]

theorem perstRelease_mem (s : State) (h_s : MemOk s) :
    MemOk (perstRelease s) := by
  unfold perstRelease; grind [mem_mk, mem_cells, mem_foldl, mem_foldl_fst, modHost_mem, flr_mem]

theorem tenantOpen_mem (work : Nat) (s : State) (h_s : MemOk s) :
    MemOk (tenantOpen work s) := by
  unfold tenantOpen
  refine onAdmin_mem _ _ _ _ _ _ h_s (fun s w b h => ?_)
  grind [mem_mk, mem_cells, mem_foldl, mem_foldl_fst, modHost_mem, complete_mem, onAdmin_mem, fstatChanged_mem]

theorem releasePages_mem (s : State) (t : Nat) (h_s : MemOk s) :
    MemOk (releasePages s t) := by
  unfold releasePages; grind [mem_mk, mem_cells, mem_foldl, mem_foldl_fst, setEnt_mem, releaseHome_mem, dropStaged_mem, settle_mem]

theorem tenantClose_mem (work : Nat) (s : State) (h_s : MemOk s) :
    MemOk (tenantClose work s) := by
  unfold tenantClose
  refine onAdmin_mem _ _ _ _ _ _ h_s (fun s w b h => ?_)
  grind [mem_mk, mem_cells, mem_foldl, mem_foldl_fst, modHost_mem, complete_mem, onAdmin_mem, fstatChanged_mem, releasePages_mem]

theorem qcmdStatus_mem (s : State) (fn : Nat) (st : Status) (h_s : MemOk s) :
    MemOk (qcmdStatus s fn st) := by
  unfold qcmdStatus; simp +contextual [mem_mk, mem_cells, mem_foldl, mem_foldl_fst, mem_ite, *, setF_mem]

theorem watchHome_mem (s : State) (addr : Nat) (h_s : MemOk s) :
    ∀ x_, watchHome s addr = some x_ → MemOk x_ := by
  intro x_ hx_; unfold watchHome at hx_; grind [mem_mk, mem_cells, mem_foldl, mem_foldl_fst, moveToT2_mem, allocT2_mem, mayRetry_mem, homeCheck_mem, seekFrame_mem, settle_mem]

theorem slotIrq_mem (s : State) (fn q : Nat) (h_s : MemOk s) :
    MemOk (slotIrq s fn q) := by
  unfold slotIrq; grind [mem_mk, mem_cells, mem_foldl, mem_foldl_fst, setF_mem]

theorem queueCreate_mem (fn : Nat) (s : State) (h_s : MemOk s) :
    MemOk (queueCreate fn s) := by
  unfold queueCreate; grind [mem_mk, mem_cells, mem_foldl, mem_foldl_fst, setF_mem, bump_mem, modHost_mem, fstatChanged_mem, watchPin_mem, qcmdStatus_mem, watchHome_mem, slotIrq_mem]

theorem queueDestroy_mem (fn slot : Nat) (s : State) (h_s : MemOk s) :
    MemOk (queueDestroy fn slot s) := by
  unfold queueDestroy; grind [mem_mk, mem_cells, mem_foldl, mem_foldl_fst, setF_mem, bump_mem, modHost_mem, modQueue_mem, qcmdStatus_mem]

theorem queueDestroyDone_mem (fn : Nat) (s : State) (h_s : MemOk s) :
    MemOk (queueDestroyDone fn s) := by
  unfold queueDestroyDone; grind [mem_mk, mem_cells, mem_foldl, mem_foldl_fst, setF_mem, modHost_mem, drainCq_mem, fstatChanged_mem, freeQueue_mem, qcmdStatus_mem]

theorem acceptTail_mem (s : State) (q t : Nat) (h_s : MemOk s) :
    MemOk (acceptTail s q t) := by
  unfold acceptTail; simp +contextual [mem_mk, mem_cells, mem_foldl, mem_foldl_fst, mem_ite, *, modQueue_mem]

theorem watchWordWake_mem (queue : Nat) (s : State) (h_s : MemOk s) :
    MemOk (watchWordWake queue s) := by
  unfold watchWordWake
  split
  · exact h_s
  · have h := modHost_mem s (fun h => { h with wakes := h.wakes.filter (· != queue) }) h_s
    generalize modHost s (fun h => { h with wakes := h.wakes.filter (· != queue) }) = u at h
    dsimp only
    split
    · exact h
    · rename_i x e
      have hr := nrRead_mem u x.watch 8 h
      generalize nrRead u x.watch 8 = r at hr
      split
      · exact h
      · split
        · exact consumeNr_mem _ _ hr
        · split
          · exact acceptTail_mem _ _ _ hr
          · exact bump_mem _ _ hr

theorem fetchOne_mem (s : State) (q : Nat) (d : List Byte) (bad : Option Nat) (h_s : MemOk s) :
    MemOk (fetchOne s q d bad) := by
  unfold fetchOne; grind [mem_mk, mem_cells, mem_foldl, mem_foldl_fst, consumeNr_mem, modHost_mem, modQueue_mem, complete_mem]

theorem visitLoop_mem  (y0_ : Nat) (y1_ : State) (y2_ : Nat) (h_y1_ : MemOk y1_) :
    MemOk (visitLoop y0_ y1_ y2_) := by
  induction y0_ generalizing y1_ with
  | zero => exact h_y1_
  | succ n ih =>
    unfold visitLoop
    split
    · exact h_y1_
    · split
      · exact h_y1_
      · dsimp only
        split
        · exact h_y1_
        · have hm := meterTake_mem y1_ false (queueTenant y2_) 1000 h_y1_
          generalize meterTake y1_ false (queueTenant y2_) 1000 = m at hm
          split
          · exact bump_mem _ _ (modQueue_mem _ _ _ hm)
          · apply ih
            apply fetchOne_mem
            apply nrRead_mem
            split
            · exact bump_mem _ _ hm
            · exact hm

theorem queueVisit_mem (s : State) (h_s : MemOk s) :
    MemOk (queueVisit s) := by
  unfold queueVisit; grind [mem_mk, mem_cells, mem_foldl, mem_foldl_fst, nrPut_mem, modHost_mem, visitLoop_mem]

theorem cqHeadRead_mem (queue : Nat) (s : State) (h_s : MemOk s) :
    MemOk (cqHeadRead queue s) := by
  unfold cqHeadRead; (repeat' split) <;> simp +contextual [mem_mk, mem_cells, mem_foldl, mem_foldl_fst, mem_ite, *, readCqHead_mem, drainCq_mem]

theorem irqCoalesceTimeout_mem (queue : Nat) (s : State) (h_s : MemOk s) :
    MemOk (irqCoalesceTimeout queue s) := by
  unfold irqCoalesceTimeout; (repeat' split) <;> simp +contextual [mem_mk, mem_cells, mem_foldl, mem_foldl_fst, mem_ite, *, fireIrq_mem]

theorem msixUnmask_mem (fn : Nat) (entry : Option Nat) (s : State) (h_s : MemOk s) :
    MemOk (msixUnmask fn entry s) := by
  unfold msixUnmask; (repeat' split) <;> simp +contextual [mem_mk, mem_cells, mem_foldl, mem_foldl_fst, mem_ite, *, setMsix_mem, msixFlush_mem]

theorem sampleOne_mem (s : State) (q : Nat) (x : Queue) (h_s : MemOk s) :
    MemOk (sampleOne s q x) := by
  unfold sampleOne
  dsimp only
  split
  · exact setF_mem _ _ _ (nrPut_mem _ _ _ h_s)
  · exact bump_mem _ _ h_s

theorem queueSample_mem (s : State) (h_s : MemOk s) :
    MemOk (queueSample s) := by
  unfold queueSample; grind [mem_mk, mem_cells, mem_foldl, mem_foldl_fst, sampleOne_mem]

end Sys2Proof.Machine
end

