-- ==== Sys2Proof/Laws/KeepResetCore.lean ====
section
/-! SUPPORT. Every function of Machine/ResetCore.lean that answers a state keeps the canonical form of the stored bytes. -/
set_option linter.unusedSimpArgs false
namespace Sys2Proof.Machine
open Sys2Proof

theorem modPower_mem (s : State) (f : Power → Power) (h_s : MemOk s) :
    MemOk (modPower s f) := by
  unfold modPower; simp +contextual [mem_mk, mem_cells, mem_foldl, mem_foldl_fst, mem_ite, *]

theorem setCause_mem (s : State) (i : Nat) (h_s : MemOk s) :
    MemOk (setCause s i) := by
  unfold setCause; simp +contextual [mem_mk, mem_cells, mem_foldl, mem_foldl_fst, mem_ite, *, setF_mem]

theorem askCold_mem (s : State) (i : Nat) (h_s : MemOk s) :
    MemOk (askCold s i) := by
  unfold askCold; simp +contextual [mem_mk, mem_cells, mem_foldl, mem_foldl_fst, mem_ite, *, modPower_mem, setCause_mem]

theorem askWarm_mem (s : State) (i : Nat) (h_s : MemOk s) :
    MemOk (askWarm s i) := by
  unfold askWarm; (repeat' split) <;> simp +contextual [mem_mk, mem_cells, mem_foldl, mem_foldl_fst, mem_ite, *, modPower_mem, setCause_mem]

theorem askFelt_mem (s : State) (i : Nat) (h_s : MemOk s) :
    MemOk (askFelt s i) := by
  unfold askFelt; (repeat' split) <;> simp +contextual [mem_mk, mem_cells, mem_foldl, mem_foldl_fst, mem_ite, *, modPower_mem, setCause_mem]

theorem stopWork_mem (s : State) (h_s : MemOk s) :
    MemOk (stopWork s) := by
  unfold stopWork; grind [mem_mk, mem_cells, mem_foldl, mem_foldl_fst, modFlash_mem, modTiers_mem, modHost_mem, modBow_mem, modBrim_mem, modSrch_mem, modCard_mem, modFelt_mem, unload_mem, run_mem, role_mem, modTwin_mem]

theorem foldCommitted_mem (s : State) (h_s : MemOk s) :
    MemOk (foldCommitted s) := by
  unfold foldCommitted
  apply modSrch_mem
  apply mem_foldl _ _ _ _ h_s
  intro t x ht
  split
  · exact ht
  · apply mem_foldl _ _ _ _ ht
    intro u v hu
    exact mem_getD hu (fun w hw => foldRow_mem _ _ _ _ hu _ hw)

theorem abandonMoves_mem (s : State) (h_s : MemOk s) :
    MemOk (abandonMoves s) := by
  unfold abandonMoves; simp +contextual [mem_mk, mem_cells, mem_foldl, mem_foldl_fst, mem_ite, *, abandonMove_mem]

theorem captureReset_mem (s : State) (i : Nat) (h_s : MemOk s) :
    MemOk (captureReset s i) := by
  unfold captureReset; simp +contextual [mem_mk, mem_cells, mem_foldl, mem_foldl_fst, mem_ite, *, modCrown_mem, triggerCapture_mem]

theorem pickCause_mem (s : State) (h_s : MemOk s) :
    MemOk (pickCause s).1 := by
  unfold pickCause; (repeat' split) <;> simp +contextual [mem_mk, mem_cells, mem_foldl, mem_foldl_fst, mem_ite, *, freeVal_mem]

theorem closeJob_mem (s : State) (h_s : MemOk s) :
    MemOk (closeJob s) := by
  unfold closeJob; grind [mem_mk, mem_cells, mem_foldl, mem_foldl_fst, crownEvent_mem, modCrown_mem, pickCause_mem]

theorem dropTransfer_mem (s : State) (h_s : MemOk s) :
    MemOk (dropTransfer s) := by
  unfold dropTransfer; (repeat' split) <;> simp +contextual [mem_mk, mem_cells, mem_foldl, mem_foldl_fst, mem_ite, *, modCrown_mem]

theorem recordReset_mem (s : State) (reach : Nat) (h_s : MemOk s) :
    MemOk (recordReset s reach) := by
  unfold recordReset; grind [mem_mk, mem_cells, mem_foldl, mem_foldl_fst, setF_mem, crownEventOpen_mem, captureReset_mem, closeJob_mem, dropTransfer_mem]

theorem keepFlds_mem (s : State) (p : Nat → Bool) (h_s : MemOk s) :
    MemOk (keepFlds s p) := by
  unfold keepFlds; simp +contextual [mem_mk, mem_cells, mem_foldl, mem_foldl_fst, mem_ite, *]

theorem clearBlocks_mem (s : State) (cold : Bool) (h_s : MemOk s) :
    MemOk (clearBlocks s cold) := by
  unfold clearBlocks
  dsimp only
  show memWf _ = true
  dsimp only
  split
  · rfl
  · exact memWf_filter _ h_s

theorem startAt_mem (s : State) (step : Nat) (h_s : MemOk s) :
    MemOk (startAt s step) := by
  unfold startAt; grind [mem_mk, mem_cells, mem_foldl, mem_foldl_fst, setF_mem, modCrown_mem, modPower_mem]

theorem logDrain_mem (s : State) (h_s : MemOk s) :
    MemOk (logDrain s) := by
  unfold logDrain; (repeat' split) <;> simp +contextual [mem_mk, mem_cells, mem_foldl, mem_foldl_fst, mem_ite, *, freeVal_mem, crownEventOpen_mem]

theorem doWarm_mem (s : State) (h_s : MemOk s) :
    MemOk (doWarm s) := by
  unfold doWarm; grind [mem_mk, mem_cells, mem_foldl, mem_foldl_fst, foldCommitted_mem, abandonMoves_mem, recordReset_mem, keepFlds_mem, clearBlocks_mem, startAt_mem, logDrain_mem]

theorem doCold_mem (s : State) (h_s : MemOk s) :
    MemOk (doCold s) := by
  unfold doCold; grind [mem_mk, mem_cells, mem_foldl, mem_foldl_fst, recordReset_mem, keepFlds_mem, clearBlocks_mem, startAt_mem]

end Sys2Proof.Machine
end

