-- ==== Sys2Proof/Laws/KeepCrownBoot.lean ====
section
/-! SUPPORT. Every function of Machine/CrownBoot.lean that answers a state keeps the canonical form of the stored bytes. -/
set_option linter.unusedSimpArgs false
namespace Sys2Proof.Machine
open Sys2Proof

theorem freeDigest_mem (s : State) (h_s : MemOk s) :
    MemOk (freeDigest s).1 := by
  unfold freeDigest; simp +contextual [mem_mk, mem_cells, mem_foldl, mem_foldl_fst, mem_ite, *, freeVal_mem]

theorem measureComp_mem (s : State) (b : List Byte) (ty : Nat) (h_s : MemOk s) :
    MemOk (measureComp s b ty).1 := by
  unfold measureComp; (repeat' split) <;> simp +contextual [mem_mk, mem_cells, mem_foldl, mem_foldl_fst, mem_ite, *, freeDigest_mem]

theorem measure_mem (s : State) (b : List Byte) (h_s : MemOk s) :
    MemOk (measure s b) := by
  unfold measure; grind [mem_mk, mem_cells, mem_foldl, mem_foldl_fst, modCrown_mem, freeDigest_mem, measureComp_mem]

theorem deriveKeys_mem (s : State) (b : List Byte) (h_s : MemOk s) :
    MemOk (deriveKeys s b) := by
  unfold deriveKeys; simp +contextual [mem_mk, mem_cells, mem_foldl, mem_foldl_fst, mem_ite, *, modCrown_mem]

theorem bootFrom_mem (s : State) (k : Nat) (h_s : MemOk s) :
    MemOk (bootFrom s k) := by
  unfold bootFrom; grind [mem_mk, mem_cells, mem_foldl, mem_foldl_fst, modCrown_mem, measure_mem, deriveKeys_mem]

theorem fallBack_mem (s : State) (k : Nat) (h_s : MemOk s) :
    MemOk (fallBack s k) := by
  unfold fallBack; grind [mem_mk, mem_cells, mem_foldl, mem_foldl_fst, setF_mem, crownEventOpen_mem, modCrown_mem, modPower_mem]

theorem slotBooted_mem (s : State) (h_s : MemOk s) :
    MemOk (slotBooted s) := by
  unfold slotBooted; (repeat' split) <;> simp +contextual [mem_mk, mem_cells, mem_foldl, mem_foldl_fst, mem_ite, *, crownEventOpen_mem, modCrown_mem]

theorem readStrap_mem (s : State) (code : Nat) (h_s : MemOk s) :
    MemOk (readStrap s code) := by
  unfold readStrap; grind [mem_mk, mem_cells, mem_foldl, mem_foldl_fst, setF_mem, freeVal_mem, twin_mem]

end Sys2Proof.Machine
end

