-- ==== Sys2Proof/Laws/KeepFirmware.lean ====
section
/-! SUPPORT. Every function of Machine/Firmware.lean that answers a state keeps the canonical form of the stored bytes. -/
set_option linter.unusedSimpArgs false
namespace Sys2Proof.Machine
open Sys2Proof

theorem modFw_mem (s : State) (f : Fw → Fw) (h_s : MemOk s) :
    MemOk (modFw s f) := by
  unfold modFw; simp +contextual [mem_mk, mem_cells, mem_foldl, mem_foldl_fst, mem_ite, *]

theorem recallSite_mem (s : State) (site : Nat) (h_s : MemOk s) :
    MemOk (recallSite s site) := by
  unfold recallSite; simp +contextual [mem_mk, mem_cells, mem_foldl, mem_foldl_fst, mem_ite, *, trimLent_mem]

theorem drain_mem (site : Nat) (s : State) (h_s : MemOk s) :
    MemOk (drain site s) := by
  unfold drain; grind [mem_mk, mem_cells, mem_foldl, mem_foldl_fst, setF_mem, modFw_mem, recallSite_mem]

theorem cancel_mem (s : State) (h_s : MemOk s) :
    MemOk (cancel s) := by
  unfold cancel; (repeat' split) <;> simp +contextual [mem_mk, mem_cells, mem_foldl, mem_foldl_fst, mem_ite, *, setF_mem, modFw_mem]

theorem unfence_mem (site : Nat) (s : State) (h_s : MemOk s) :
    MemOk (unfence site s) := by
  unfold unfence; grind [mem_mk, mem_cells, mem_foldl, mem_foldl_fst, setF_mem, modFw_mem]

theorem testResult_mem (s : State) (result reason : Nat) (h_s : MemOk s) :
    MemOk (testResult s result reason) := by
  unfold testResult; grind [mem_mk, mem_cells, mem_foldl, mem_foldl_fst, setF_mem]

theorem testGo_mem (s : State) (h_s : MemOk s) :
    MemOk (testGo s) := by
  unfold testGo; grind [mem_mk, mem_cells, mem_foldl, mem_foldl_fst, testResult_mem]

theorem testStart_mem (kind unit : Nat) (s : State) (h_s : MemOk s) :
    MemOk (testStart kind unit s) := by
  unfold testStart; grind [mem_mk, mem_cells, mem_foldl, mem_foldl_fst, setF_mem, testGo_mem]

theorem testComplete_mem (errors : Nat) (s : State) (h_s : MemOk s) :
    MemOk (testComplete errors s) := by
  unfold testComplete; (repeat' split) <;> simp +contextual [mem_mk, mem_cells, mem_foldl, mem_foldl_fst, mem_ite, *, setF_mem]

theorem jobCmd_mem (s : State) (op id gen : Nat) (h_s : MemOk s) :
    MemOk (jobCmd s op id gen) := by
  unfold jobCmd; simp +contextual [mem_mk, mem_cells, mem_foldl, mem_foldl_fst, mem_ite, *, modFw_mem]

theorem attach_mem (id gen : Nat) (s : State) (h_s : MemOk s) :
    MemOk (attach id gen s) := by
  unfold attach; simp +contextual [mem_mk, mem_cells, mem_foldl, mem_foldl_fst, mem_ite, *, jobCmd_mem]

theorem detach_mem (s : State) (h_s : MemOk s) :
    MemOk (detach s) := by
  unfold detach; simp +contextual [mem_mk, mem_cells, mem_foldl, mem_foldl_fst, mem_ite, *, jobCmd_mem]

theorem clear_mem (s : State) (h_s : MemOk s) :
    MemOk (clear s) := by
  unfold clear; simp +contextual [mem_mk, mem_cells, mem_foldl, mem_foldl_fst, mem_ite, *, jobCmd_mem]

theorem jobStatus_mem (s : State) (v : Nat) (h_s : MemOk s) :
    MemOk (jobStatus s v) := by
  unfold jobStatus; simp +contextual [mem_mk, mem_cells, mem_foldl, mem_foldl_fst, mem_ite, *, setF_mem]

theorem jobRecordWritten_mem (s : State) (h_s : MemOk s) :
    MemOk (jobRecordWritten s) := by
  unfold jobRecordWritten; grind [mem_mk, mem_cells, mem_foldl, mem_foldl_fst, freeVal_mem, modCrown_mem, modFw_mem, jobCmd_mem, attach_mem, jobStatus_mem]

theorem timeoutWork_mem (s : State) (w : Work) (h_s : MemOk s) :
    MemOk (timeoutWork s w) := by
  unfold timeoutWork; simp +contextual [mem_mk, mem_cells, mem_foldl, mem_foldl_fst, mem_ite, *, searchTimeout_mem, abortWork_mem]

theorem descriptorTimeout_mem (work : Nat) (wedged : Option Engine) (s : State) (h_s : MemOk s) :
    MemOk (descriptorTimeout work wedged s) := by
  unfold descriptorTimeout; (repeat' split) <;> simp +contextual [mem_mk, mem_cells, mem_foldl, mem_foldl_fst, mem_ite, *, modFw_mem, timeoutWork_mem]

theorem engineClear_mem (s : State) (e : Engine) (h_s : MemOk s) :
    MemOk (engineClear s e) := by
  unfold engineClear; (repeat' split) <;> simp +contextual [mem_mk, mem_cells, mem_foldl, mem_foldl_fst, mem_ite, *, failSearch_mem]

theorem engineReset_mem (e : Engine) (s : State) (h_s : MemOk s) :
    MemOk (engineReset e s) := by
  unfold engineReset; grind [mem_mk, mem_cells, mem_foldl, mem_foldl_fst, bump_mem, crownEventOpen_mem, modFw_mem, timeoutWork_mem, engineClear_mem]

theorem engineResetComplete_mem (e : Engine) (s : State) (h_s : MemOk s) :
    MemOk (engineResetComplete e s) := by
  unfold engineResetComplete; simp +contextual [mem_mk, mem_cells, mem_foldl, mem_foldl_fst, mem_ite, *, modFw_mem]

theorem coreWatchdogExpiry_mem (core : Nat) (works moves : List Nat) (s : State) (h_s : MemOk s) :
    MemOk (coreWatchdogExpiry core works moves s) := by
  unfold coreWatchdogExpiry; grind [mem_mk, mem_cells, mem_foldl, mem_foldl_fst, setF_mem, bump_mem, crownEventOpen_mem, abandonMove_mem, modFw_mem, timeoutWork_mem]

theorem coreRestartComplete_mem (core : Nat) (s : State) (h_s : MemOk s) :
    MemOk (coreRestartComplete core s) := by
  unfold coreRestartComplete; simp +contextual [mem_mk, mem_cells, mem_foldl, mem_foldl_fst, mem_ite, *, setF_mem]

theorem crownWatchdogExpiry_mem (s : State) (h_s : MemOk s) :
    MemOk (crownWatchdogExpiry s) := by
  unfold crownWatchdogExpiry; simp +contextual [mem_mk, mem_cells, mem_foldl, mem_foldl_fst, mem_ite, *, askWarm_mem]

end Sys2Proof.Machine
end

