-- ==== Sys2Proof/Laws/KeepResetPower.lean ====
section
/-! SUPPORT. Every function of Machine/ResetPower.lean that answers a state keeps the canonical form of the stored bytes. -/
set_option linter.unusedSimpArgs false
namespace Sys2Proof.Machine
open Sys2Proof

theorem warmResetRequest_mem (s : State) (h_s : MemOk s) :
    MemOk (warmResetRequest s) := by
  unfold warmResetRequest; simp +contextual [mem_mk, mem_cells, mem_foldl, mem_foldl_fst, mem_ite, *, askWarm_mem]

theorem feltResetRequest_mem (s : State) (h_s : MemOk s) :
    MemOk (feltResetRequest s) := by
  unfold feltResetRequest; simp +contextual [mem_mk, mem_cells, mem_foldl, mem_foldl_fst, mem_ite, *, askFelt_mem]

theorem coreRefLost_mem (s : State) (h_s : MemOk s) :
    MemOk (coreRefLost s) := by
  unfold coreRefLost; simp +contextual [mem_mk, mem_cells, mem_foldl, mem_foldl_fst, mem_ite, *, askWarm_mem]

theorem portRefLost_mem (s : State) (h_s : MemOk s) :
    MemOk (portRefLost s) := by
  unfold portRefLost; simp +contextual [mem_mk, mem_cells, mem_foldl, mem_foldl_fst, mem_ite, *, askWarm_mem]

theorem dramPllUnlock_mem (s : State) (h_s : MemOk s) :
    MemOk (dramPllUnlock s) := by
  unfold dramPllUnlock; simp +contextual [mem_mk, mem_cells, mem_foldl, mem_foldl_fst, mem_ite, *, askCold_mem]

theorem coreDoubleFault_mem (s : State) (h_s : MemOk s) :
    MemOk (coreDoubleFault s) := by
  unfold coreDoubleFault; simp +contextual [mem_mk, mem_cells, mem_foldl, mem_foldl_fst, mem_ite, *, askWarm_mem]

theorem ringDeadlock_mem (s : State) (h_s : MemOk s) :
    MemOk (ringDeadlock s) := by
  unfold ringDeadlock; simp +contextual [mem_mk, mem_cells, mem_foldl, mem_foldl_fst, mem_ite, *, askWarm_mem]

theorem resetNAssert_mem (s : State) (h_s : MemOk s) :
    MemOk (resetNAssert s) := by
  unfold resetNAssert; grind [mem_mk, mem_cells, mem_foldl, mem_foldl_fst, modPower_mem, askCold_mem, askWarm_mem]

theorem resetNRelease_mem (s : State) (h_s : MemOk s) :
    MemOk (resetNRelease s) := by
  unfold resetNRelease; simp +contextual [mem_mk, mem_cells, mem_foldl, mem_foldl_fst, mem_ite, *, modPower_mem]

theorem vddMgmtRemoved_mem (s : State) (h_s : MemOk s) :
    MemOk (vddMgmtRemoved s) := by
  unfold vddMgmtRemoved; grind [mem_mk, mem_cells, mem_foldl, mem_foldl_fst, emit_mem, pin_mem, clearBlocks_mem]

theorem powerOn_mem (s : State) (h_s : MemOk s) :
    MemOk (powerOn s) := by
  unfold powerOn; grind [mem_mk, mem_cells, mem_foldl, mem_foldl_fst, crownEventOpen_mem, modPower_mem, closeJob_mem]

theorem brownOut_mem (rail : Nat) (s : State) (h_s : MemOk s) :
    MemOk (brownOut rail s) := by
  unfold brownOut; grind [mem_mk, mem_cells, mem_foldl, mem_foldl_fst, setF_mem, crownEvent_mem, modPower_mem, askCold_mem, vddMgmtRemoved_mem]

theorem mapFlush_mem (s : State) (ticks : Nat) (h_s : MemOk s) :
    MemOk (mapFlush s ticks) := by
  unfold mapFlush; grind [mem_mk, mem_cells, mem_foldl, mem_foldl_fst, flushMib_mem, flushStore_mem, putMarker_mem]

theorem warmResetPreparation_mem (flushTicks : Nat) (s : State) (h_s : MemOk s) :
    MemOk (warmResetPreparation flushTicks s) := by
  unfold warmResetPreparation; grind [mem_mk, mem_cells, mem_foldl, mem_foldl_fst, modPower_mem, stopWork_mem, foldCommitted_mem, abandonMoves_mem, mapFlush_mem]

theorem warmReset_mem (s : State) (h_s : MemOk s) :
    MemOk (warmReset s) := by
  unfold warmReset; simp +contextual [mem_mk, mem_cells, mem_foldl, mem_foldl_fst, mem_ite, *, doWarm_mem]

theorem coldReset_mem (s : State) (h_s : MemOk s) :
    MemOk (coldReset s) := by
  unfold coldReset; simp +contextual [mem_mk, mem_cells, mem_foldl, mem_foldl_fst, mem_ite, *, doCold_mem]

theorem feltDrop_mem (s : State) (img : Nat) (h_s : MemOk s) :
    MemOk (feltDrop s img) := by
  unfold feltDrop; grind [mem_mk, mem_cells, mem_foldl, mem_foldl_fst, completeId_mem, dropImage_mem, endRun_mem, unload_mem, abortRun_mem]

theorem dropResident_mem (s : State) (h_s : MemOk s) :
    MemOk (dropResident s) := by
  unfold dropResident; simp +contextual [mem_mk, mem_cells, mem_foldl, mem_foldl_fst, mem_ite, *]

theorem feltOnlyReset_mem (s : State) (h_s : MemOk s) :
    MemOk (feltOnlyReset s) := by
  unfold feltOnlyReset; grind [mem_mk, mem_cells, mem_foldl, mem_foldl_fst, modFelt_mem, applyFences_mem, setStage_mem, alignAsk_mem, modPower_mem, recordReset_mem, feltDrop_mem, dropResident_mem]

theorem stepFail_mem (s : State) (n : Nat) (h_s : MemOk s) :
    MemOk (stepFail s n) := by
  unfold stepFail; grind [mem_mk, mem_cells, mem_foldl, mem_foldl_fst, setF_mem, crownEventOpen_mem, triggerCapture_mem]

theorem toStep_mem (s : State) (n : Nat) (h_s : MemOk s) :
    MemOk (toStep s n) := by
  unfold toStep; simp +contextual [mem_mk, mem_cells, mem_foldl, mem_foldl_fst, mem_ite, *, setF_mem]

theorem readRecords_mem (s : State) (p : StartPar) (h_s : MemOk s) :
    MemOk (readRecords s p) := by
  unfold readRecords; grind [mem_mk, mem_cells, mem_foldl, mem_foldl_fst, freeVal_mem, crownEventOpen_mem, modCrown_mem, attach_mem]

theorem step1_mem (s : State) (p : StartPar) (h_s : MemOk s) :
    MemOk (step1 s p) := by
  unfold step1; grind [mem_mk, mem_cells, mem_foldl, mem_foldl_fst, modCrown_mem, bootFrom_mem, fallBack_mem, readStrap_mem, stepFail_mem, toStep_mem, readRecords_mem]

theorem step2_mem (s : State) (p : StartPar) (h_s : MemOk s) :
    MemOk (step2 s p) := by
  unfold step2; (repeat' split) <;> simp +contextual [mem_mk, mem_cells, mem_foldl, mem_foldl_fst, mem_ite, *, stepFail_mem, toStep_mem]

theorem step3_mem (s : State) (p : StartPar) (h_s : MemOk s) :
    MemOk (step3 s p) := by
  unfold step3; grind [mem_mk, mem_cells, mem_foldl, mem_foldl_fst, modPower_mem, askCold_mem, stepFail_mem, toStep_mem]

theorem step4_mem (s : State) (p : StartPar) (h_s : MemOk s) :
    MemOk (step4 s p) := by
  unfold step4; grind [mem_mk, mem_cells, mem_foldl, mem_foldl_fst, modFw_mem, stepFail_mem, toStep_mem]

theorem step5_mem (s : State) (p : StartPar) (h_s : MemOk s) :
    MemOk (step5 s p) := by
  unfold step5; grind [mem_mk, mem_cells, mem_foldl, mem_foldl_fst, setF_mem, modTiers_mem, alignAsk_mem, fallBack_mem, slotBooted_mem, stepFail_mem, toStep_mem]

theorem step6_mem (s : State) (h_s : MemOk s) :
    MemOk (step6 s) := by
  unfold step6; simp +contextual [mem_mk, mem_cells, mem_foldl, mem_foldl_fst, mem_ite, *, toStep_mem]

theorem step7_mem (s : State) (p : StartPar) (h_s : MemOk s) :
    MemOk (step7 s p) := by
  unfold step7; simp +contextual [mem_mk, mem_cells, mem_foldl, mem_foldl_fst, mem_ite, *, modFelt_mem, toStep_mem]

theorem linkUp_mem (s : State) (p : StartPar) (h_s : MemOk s) :
    MemOk (linkUp s p) := by
  unfold linkUp; simp +contextual [mem_mk, mem_cells, mem_foldl, mem_foldl_fst, mem_ite, *, modHost_mem]

theorem step8_mem (s : State) (p : StartPar) (h_s : MemOk s) :
    MemOk (step8 s p) := by
  unfold step8; grind [mem_mk, mem_cells, mem_foldl, mem_foldl_fst, setF_mem, toStep_mem, linkUp_mem]

theorem startupStepComplete_mem (p : StartPar) (s : State) (h_s : MemOk s) :
    MemOk (startupStepComplete p s) := by
  unfold startupStepComplete; grind [mem_mk, mem_cells, mem_foldl, mem_foldl_fst, step1_mem, step2_mem, step3_mem, step4_mem, step5_mem, step6_mem, step7_mem, linkUp_mem, step8_mem]

theorem powerMeasure_mem (rails : List (Nat × Nat)) (s : State) (h_s : MemOk s) :
    MemOk (powerMeasure rails s) := by
  unfold powerMeasure; grind [mem_mk, mem_cells, mem_foldl, mem_foldl_fst, setF_mem, bump_mem, modCrown_mem, modPower_mem]

theorem warnPoint_mem (s : State) (i : Nat) (h_s : MemOk s) :
    MemOk (warnPoint s i) := by
  unfold warnPoint; grind [mem_mk, mem_cells, mem_foldl, mem_foldl_fst, crownEventOpen_mem, modCrown_mem]

theorem refreshTemps_mem (s : State) (temps : List Int) (h_s : MemOk s) :
    MemOk (refreshTemps s temps) := by
  unfold refreshTemps; simp +contextual [mem_mk, mem_cells, mem_foldl, mem_foldl_fst, mem_ite, *, modCrown_mem, warnPoint_mem]

theorem tripNow_mem (s : State) (h_s : MemOk s) :
    MemOk (tripNow s) := by
  unfold tripNow; grind [mem_mk, mem_cells, mem_foldl, mem_foldl_fst, emit_mem, crownEventOpen_mem, pin_mem, logAll_mem, triggerCapture_mem, modPower_mem]

theorem sensorRefresh_mem (temps : List Int) (s : State) (h_s : MemOk s) :
    MemOk (sensorRefresh temps s) := by
  unfold sensorRefresh; grind [mem_mk, mem_cells, mem_foldl, mem_foldl_fst, refreshTemps_mem, tripNow_mem]

theorem thermalTrip_mem (temps : List Int) (s : State) (h_s : MemOk s) :
    MemOk (thermalTrip temps s) := by
  unfold thermalTrip; (repeat' split) <;> simp +contextual [mem_mk, mem_cells, mem_foldl, mem_foldl_fst, mem_ite, *, refreshTemps_mem, tripNow_mem]

theorem plossGlitch_mem (s : State) (h_s : MemOk s) :
    MemOk (plossGlitch s) := by
  unfold plossGlitch; simp +contextual [mem_mk, mem_cells, mem_foldl, mem_foldl_fst, mem_ite, *, bump_mem]

theorem plossRecognised_mem (s : State) (h_s : MemOk s) :
    MemOk (plossRecognised s) := by
  unfold plossRecognised; grind [mem_mk, mem_cells, mem_foldl, mem_foldl_fst, freeVal_mem, cxlEvent_mem, modFlash_mem, logAll_mem, modPower_mem, stopWork_mem]

theorem flushMarkerWritten_mem (s : State) (h_s : MemOk s) :
    MemOk (flushMarkerWritten s) := by
  unfold flushMarkerWritten; grind [mem_mk, mem_cells, mem_foldl, mem_foldl_fst, modFlash_mem, flushMib_mem, flushStore_mem, putMarker_mem, modPower_mem]

end Sys2Proof.Machine
end

