-- ==== Sys2Proof/Laws/KeepCrown.lean ====
section
/-! SUPPORT. Every function of Machine/Crown.lean that answers a state keeps the canonical form of the stored bytes. -/
set_option linter.unusedSimpArgs false
namespace Sys2Proof.Machine
open Sys2Proof

theorem answer_mem (s : State) (path code : Nat) (payload : List Byte) (h_s : MemOk s) :
    MemOk (answer s path code payload) := by
  unfold answer; simp +contextual [mem_mk, mem_cells, mem_foldl, mem_foldl_fst, mem_ite, *, emit_mem]

theorem onPath_mem (s : State) (path : Nat) (k : State → State) (h_s : MemOk s) (h_k : ∀ x0_, MemOk x0_ → MemOk (k x0_)) :
    MemOk (onPath s path k) := by
  unfold onPath; simp +contextual [mem_mk, mem_cells, mem_foldl, mem_foldl_fst, mem_ite, *]

theorem onOnly_mem (s : State) (path only : Nat) (k : State → State) (h_s : MemOk s) (h_k : ∀ x0_, MemOk x0_ → MemOk (k x0_)) :
    MemOk (onOnly s path only k) := by
  unfold onOnly
  refine onPath_mem _ _ _ h_s (fun s h => ?_)
  simp +contextual [mem_mk, mem_cells, mem_foldl, mem_foldl_fst, mem_ite, *, answer_mem, onPath_mem, h]

theorem tell_mem (s : State) (path opcode : Nat) (content : List Byte) (h_s : MemOk s) :
    MemOk (tell s path opcode content) := by
  unfold tell; simp +contextual [mem_mk, mem_cells, mem_foldl, mem_foldl_fst, mem_ite, *, answer_mem]

theorem identifyMemoryDevice_mem (path : Nat) (s : State) (h_s : MemOk s) :
    MemOk (identifyMemoryDevice path s) := by
  unfold identifyMemoryDevice
  refine onPath_mem _ _ _ h_s (fun s h => ?_)
  simp +contextual [mem_mk, mem_cells, mem_foldl, mem_foldl_fst, mem_ite, *, onPath_mem, tell_mem, h]

theorem getSupportedLogs_mem (path : Nat) (s : State) (h_s : MemOk s) :
    MemOk (getSupportedLogs path s) := by
  unfold getSupportedLogs
  refine onPath_mem _ _ _ h_s (fun s h => ?_)
  simp +contextual [mem_mk, mem_cells, mem_foldl, mem_foldl_fst, mem_ite, *, onPath_mem, tell_mem, h]

theorem getLog_mem (path : Nat) (uuid : List Byte) (offset len : Nat) (s : State) (h_s : MemOk s) :
    MemOk (getLog path uuid offset len s) := by
  unfold getLog
  refine onPath_mem _ _ _ h_s (fun s h => ?_)
  simp +contextual [mem_mk, mem_cells, mem_foldl, mem_foldl_fst, mem_ite, *, freeVal_mem, answer_mem, onPath_mem, h]

theorem getEventRecords_mem (path sev : Nat) (s : State) (h_s : MemOk s) :
    MemOk (getEventRecords path sev s) := by
  unfold getEventRecords
  refine onPath_mem _ _ _ h_s (fun s h => ?_)
  simp +contextual [mem_mk, mem_cells, mem_foldl, mem_foldl_fst, mem_ite, *, answer_mem, onPath_mem, tell_mem, h]

theorem clearEventRecords_mem (path sev : Nat) (all : Bool) (handles : List Nat) (s : State) (h_s : MemOk s) :
    MemOk (clearEventRecords path sev all handles s) := by
  unfold clearEventRecords
  refine onPath_mem _ _ _ h_s (fun s h => ?_)
  grind [mem_mk, mem_cells, mem_foldl, mem_foldl_fst, modHost_mem, answer_mem, onPath_mem]

theorem getEventInterruptPolicy_mem (path : Nat) (s : State) (h_s : MemOk s) :
    MemOk (getEventInterruptPolicy path s) := by
  unfold getEventInterruptPolicy
  refine onPath_mem _ _ _ h_s (fun s h => ?_)
  simp +contextual [mem_mk, mem_cells, mem_foldl, mem_foldl_fst, mem_ite, *, onPath_mem, tell_mem, h]

theorem setEventInterruptPolicy_mem (path : Nat) (modes : List Nat) (s : State) (h_s : MemOk s) :
    MemOk (setEventInterruptPolicy path modes s) := by
  unfold setEventInterruptPolicy
  refine onPath_mem _ _ _ h_s (fun s h => ?_)
  (repeat' split) <;> simp +contextual [mem_mk, mem_cells, mem_foldl, mem_foldl_fst, mem_ite, *, modHost_mem, answer_mem, onPath_mem, h]

theorem getTimestamp_mem (path : Nat) (s : State) (h_s : MemOk s) :
    MemOk (getTimestamp path s) := by
  unfold getTimestamp
  refine onPath_mem _ _ _ h_s (fun s h => ?_)
  simp +contextual [mem_mk, mem_cells, mem_foldl, mem_foldl_fst, mem_ite, *, answer_mem, onPath_mem, h]

theorem setTimestamp_mem (path value : Nat) (s : State) (h_s : MemOk s) :
    MemOk (setTimestamp path value s) := by
  unfold setTimestamp
  refine onPath_mem _ _ _ h_s (fun s h => ?_)
  simp +contextual [mem_mk, mem_cells, mem_foldl, mem_foldl_fst, mem_ite, *, modCrown_mem, answer_mem, onPath_mem, h]

theorem getHealthInfo_mem (path : Nat) (s : State) (h_s : MemOk s) :
    MemOk (getHealthInfo path s) := by
  unfold getHealthInfo
  refine onPath_mem _ _ _ h_s (fun s h => ?_)
  simp +contextual [mem_mk, mem_cells, mem_foldl, mem_foldl_fst, mem_ite, *, onPath_mem, tell_mem, h]

theorem getFwInfo_mem (path : Nat) (s : State) (h_s : MemOk s) :
    MemOk (getFwInfo path s) := by
  unfold getFwInfo
  refine onPath_mem _ _ _ h_s (fun s h => ?_)
  simp +contextual [mem_mk, mem_cells, mem_foldl, mem_foldl_fst, mem_ite, *, onPath_mem, tell_mem, h]

theorem unsupportedOpcode_mem (path : Nat) (s : State) (h_s : MemOk s) :
    MemOk (unsupportedOpcode path s) := by
  unfold unsupportedOpcode
  refine onPath_mem _ _ _ h_s (fun s h => ?_)
  simp +contextual [mem_mk, mem_cells, mem_foldl, mem_foldl_fst, mem_ite, *, answer_mem, onPath_mem, h]

theorem storePart_mem (s : State) (k offset : Nat) (bytes : List Byte) (path : Nat) (h_s : MemOk s) :
    MemOk (storePart s k offset bytes path) := by
  unfold storePart; simp +contextual [mem_mk, mem_cells, mem_foldl, mem_foldl_fst, mem_ite, *, modCrown_mem]

theorem endTransfer_mem (s : State) (k path : Nat) (h_s : MemOk s) :
    MemOk (endTransfer s k path) := by
  unfold endTransfer; grind [mem_mk, mem_cells, mem_foldl, mem_foldl_fst, crownEventOpen_mem, modCrown_mem, answer_mem]

theorem transferFw_mem (path slot offset : Nat) (bytes : List Byte) (last : Bool) (s : State) (h_s : MemOk s) :
    MemOk (transferFw path slot offset bytes last s) := by
  unfold transferFw
  refine onPath_mem _ _ _ h_s (fun s h => ?_)
  grind [mem_mk, mem_cells, mem_foldl, mem_foldl_fst, answer_mem, onPath_mem, storePart_mem, endTransfer_mem]

theorem activateFw_mem (path slot : Nat) (online : Bool) (s : State) (h_s : MemOk s) :
    MemOk (activateFw path slot online s) := by
  unfold activateFw
  refine onPath_mem _ _ _ h_s (fun s h => ?_)
  (repeat' split) <;> simp +contextual [mem_mk, mem_cells, mem_foldl, mem_foldl_fst, mem_ite, *, modCrown_mem, answer_mem, onPath_mem, h]

theorem commitSvn_mem (path : Nat) (s : State) (h_s : MemOk s) :
    MemOk (commitSvn path s) := by
  unfold commitSvn; grind [mem_mk, mem_cells, mem_foldl, mem_foldl_fst, crownEventOpen_mem, modCrown_mem, answer_mem, onOnly_mem]

theorem getSensors_mem (path : Nat) (s : State) (h_s : MemOk s) :
    MemOk (getSensors path s) := by
  unfold getSensors
  refine onPath_mem _ _ _ h_s (fun s h => ?_)
  simp +contextual [mem_mk, mem_cells, mem_foldl, mem_foldl_fst, mem_ite, *, answer_mem, onPath_mem, h]

theorem getEventLog_mem (path first count : Nat) (s : State) (h_s : MemOk s) :
    MemOk (getEventLog path first count s) := by
  unfold getEventLog
  refine onPath_mem _ _ _ h_s (fun s h => ?_)
  simp +contextual [mem_mk, mem_cells, mem_foldl, mem_foldl_fst, mem_ite, *, answer_mem, onPath_mem, h]

theorem getCert_mem (path : Nat) (s : State) (h_s : MemOk s) :
    MemOk (getCert path s) := by
  unfold getCert
  refine onPath_mem _ _ _ h_s (fun s h => ?_)
  simp +contextual [mem_mk, mem_cells, mem_foldl, mem_foldl_fst, mem_ite, *, answer_mem, onPath_mem, h]

theorem getReport_mem (path : Nat) (nonce : List Byte) (s : State) (h_s : MemOk s) :
    MemOk (getReport path nonce s) := by
  unfold getReport
  refine onPath_mem _ _ _ h_s (fun s h => ?_)
  simp +contextual [mem_mk, mem_cells, mem_foldl, mem_foldl_fst, mem_ite, *, answer_mem, onPath_mem, h]

theorem spdmGetMeasurements_mem (path : Nat) (s : State) (h_s : MemOk s) :
    MemOk (spdmGetMeasurements path s) := by
  unfold spdmGetMeasurements
  refine onPath_mem _ _ _ h_s (fun s h => ?_)
  simp +contextual [mem_mk, mem_cells, mem_foldl, mem_foldl_fst, mem_ite, *, answer_mem, onPath_mem, h]

theorem spdmKeyExchange_mem (path : Nat) (request : List Byte) (s : State) (h_s : MemOk s) :
    MemOk (spdmKeyExchange path request s) := by
  unfold spdmKeyExchange
  refine onPath_mem _ _ _ h_s (fun s h => ?_)
  simp +contextual [mem_mk, mem_cells, mem_foldl, mem_foldl_fst, mem_ite, *, answer_mem, onPath_mem, h]

theorem capture_mem (s : State) (h_s : MemOk s) :
    MemOk (capture s) := by
  unfold capture; simp +contextual [mem_mk, mem_cells, mem_foldl, mem_foldl_fst, mem_ite, *, triggerCapture_mem]

theorem frecBytes_mem (s : State) (h_s : MemOk s) :
    MemOk (frecBytes s).1 := by
  unfold frecBytes; simp +contextual [mem_mk, mem_cells, mem_foldl, mem_foldl_fst, mem_ite, *, freeVal_mem]

theorem failureRecordWritten_mem (s : State) (h_s : MemOk s) :
    MemOk (failureRecordWritten s) := by
  unfold failureRecordWritten; grind [mem_mk, mem_cells, mem_foldl, mem_foldl_fst, bump_mem, crownEvent_mem, modCrown_mem, capture_mem, frecBytes_mem]

theorem frecList_mem (path : Nat) (s : State) (h_s : MemOk s) :
    MemOk (frecList path s) := by
  unfold frecList
  refine onPath_mem _ _ _ h_s (fun s h => ?_)
  simp +contextual [mem_mk, mem_cells, mem_foldl, mem_foldl_fst, mem_ite, *, onPath_mem, tell_mem, h]

theorem frecRead_mem (path record offset len : Nat) (s : State) (h_s : MemOk s) :
    MemOk (frecRead path record offset len s) := by
  unfold frecRead
  refine onPath_mem _ _ _ h_s (fun s h => ?_)
  (repeat' split) <;> simp +contextual [mem_mk, mem_cells, mem_foldl, mem_foldl_fst, mem_ite, *, freeVal_mem, answer_mem, onPath_mem, h]

theorem frecHold_mem (path record : Nat) (hold : Bool) (s : State) (h_s : MemOk s) :
    MemOk (frecHold path record hold s) := by
  unfold frecHold
  refine onPath_mem _ _ _ h_s (fun s h => ?_)
  (repeat' split) <;> simp +contextual [mem_mk, mem_cells, mem_foldl, mem_foldl_fst, mem_ite, *, modCrown_mem, answer_mem, onPath_mem, h]

theorem getChallenge_mem (path : Nat) (s : State) (h_s : MemOk s) :
    MemOk (getChallenge path s) := by
  unfold getChallenge
  refine onPath_mem _ _ _ h_s (fun s h => ?_)
  grind [mem_mk, mem_cells, mem_foldl, mem_foldl_fst, freeVal_mem, modCrown_mem, answer_mem, onPath_mem]

theorem useNonce_mem (s : State) (n : List Byte) (h_s : MemOk s) :
    MemOk (useNonce s n) := by
  unfold useNonce; simp +contextual [mem_mk, mem_cells, mem_foldl, mem_foldl_fst, mem_ite, *, modCrown_mem]

theorem signed_mem (s : State) (path : Nat) (nonce : List Byte) (ok : Bool) (k : State → State) (h_s : MemOk s) (h_k : ∀ x0_, MemOk x0_ → MemOk (k x0_)) :
    MemOk (signed s path nonce ok k) := by
  unfold signed; grind [mem_mk, mem_cells, mem_foldl, mem_foldl_fst, answer_mem, useNonce_mem]

theorem ownerEnroll_mem (path : Nat) (key : List Byte) (s : State) (h_s : MemOk s) :
    MemOk (ownerEnroll path key s) := by
  unfold ownerEnroll; grind [mem_mk, mem_cells, mem_foldl, mem_foldl_fst, modCrown_mem, answer_mem, onOnly_mem]

theorem ownerRevoke_mem (path slot : Nat) (nonce sig : List Byte) (s : State) (h_s : MemOk s) :
    MemOk (ownerRevoke path slot nonce sig s) := by
  unfold ownerRevoke
  refine onPath_mem _ _ _ h_s (fun s h => ?_)
  (repeat' split) <;> simp +contextual [mem_mk, mem_cells, mem_foldl, mem_foldl_fst, mem_ite, *, modCrown_mem, answer_mem, onPath_mem, signed_mem, h]

theorem debugReset_mem (path : Nat) (nonce sig : List Byte) (s : State) (h_s : MemOk s) :
    MemOk (debugReset path nonce sig s) := by
  unfold debugReset; grind [mem_mk, mem_cells, mem_foldl, mem_foldl_fst, askWarm_mem, onOnly_mem, signed_mem]

theorem setSetting_mem (path : Nat) (nonce sig : List Byte) (pinCold : Bool) (s : State) (h_s : MemOk s) :
    MemOk (setSetting path nonce sig pinCold s) := by
  unfold setSetting
  refine onPath_mem _ _ _ h_s (fun s h => ?_)
  simp +contextual [mem_mk, mem_cells, mem_foldl, mem_foldl_fst, mem_ite, *, modCrown_mem, onPath_mem, signed_mem, h]

theorem vendorUnlock_mem (path : Nat) (nonce sig : List Byte) (s : State) (h_s : MemOk s) :
    MemOk (vendorUnlock path nonce sig s) := by
  unfold vendorUnlock
  refine onPath_mem _ _ _ h_s (fun s h => ?_)
  simp +contextual [mem_mk, mem_cells, mem_foldl, mem_foldl_fst, mem_ite, *, setF_mem, onPath_mem, signed_mem, h]

end Sys2Proof.Machine
end

