-- ==== Sys2Proof/Laws/KeepRegWrite.lean ====
section
/-! SUPPORT. Every function of Machine/RegWrite.lean that answers a state keeps the canonical form of the stored bytes. -/
set_option linter.unusedSimpArgs false
namespace Sys2Proof.Machine
open Sys2Proof

theorem msixDword_mem (s : State) (fn e k v : Nat) (h_s : MemOk s) :
    MemOk (msixDword s fn e k v) := by
  unfold msixDword; simp +contextual [mem_mk, mem_cells, mem_foldl, mem_foldl_fst, mem_ite, *, setMsix_mem, msixFlush_mem]

theorem msixWrite_mem (s : State) (fn o size v : Nat) (h_s : MemOk s) :
    MemOk (msixWrite s fn o size v) := by
  unfold msixWrite; (repeat' split) <;> simp +contextual [mem_mk, mem_cells, mem_foldl, mem_foldl_fst, mem_ite, *, msixDword_mem]

theorem w1cPut_mem (s : State) (f : Fld) (v : Nat) (h_s : MemOk s) :
    MemOk (w1cPut s f v) := by
  unfold w1cPut; (repeat' split) <;> simp +contextual [mem_mk, mem_cells, mem_foldl, mem_foldl_fst, mem_ite, *, setF_mem]

theorem woPut_mem (s : State) (f : Fld) (t val : Nat) (h_s : MemOk s) :
    MemOk (woPut s f t val) := by
  unfold woPut; grind [mem_mk, mem_cells, mem_foldl, mem_foldl_fst, triggerCapture_mem, queueCreate_mem, queueDestroy_mem, logPop_mem, askWarm_mem, askFelt_mem, drain_mem, cancel_mem, unfence_mem, testStart_mem, jobCmd_mem]

theorem rwPut_mem (s : State) (f : Fld) (t i val : Nat) (h_s : MemOk s) :
    MemOk (rwPut s f t i val) := by
  unfold rwPut
  dsimp only
  repeat' (with_reducible apply mem_ite)
  all_goals with_reducible first
    | exact h_s
    | exact syncEnSet_mem _ _ h_s
    | exact twinCtrlSet_mem _ _ h_s
    | exact rangeSet_mem _ _ h_s
    | exact lendSet_mem _ _ _ h_s
    | exact floorSet_mem _ _ _ h_s
    | exact chFenceSet_mem _ _ _ h_s
    | exact dfenceSet_mem _ _ _ h_s
    | exact sysLost_mem _ (portEnSet_mem _ _ _ h_s)
    | exact sysLost_mem _ (portFenceSet_mem _ _ _ h_s)
    | exact sysLost_mem _ (portUpdate_mem _ _ (setF_mem _ _ _ h_s))
    | exact meterSet_mem _ _ _ _ h_s
    | exact setF_mem _ _ _ h_s

theorem fieldPut_mem (s : State) (f : Fld) (t i val : Nat) (locked : Bool) (h_s : MemOk s) :
    MemOk (fieldPut s f t i val locked) := by
  unfold fieldPut; (repeat' split) <;> simp +contextual [mem_mk, mem_cells, mem_foldl, mem_foldl_fst, mem_ite, *, w1cPut_mem, woPut_mem, rwPut_mem]

theorem regWrite_mem (s : State) (a : Nat) (r : RegRun) (t i val : Nat) (h_s : MemOk s) :
    MemOk (regWrite s a r t i val) := by
  unfold regWrite; grind [mem_mk, mem_cells, mem_foldl, mem_foldl_fst, bump_mem, fieldPut_mem]

theorem barWrite_mem (fn off size val : Nat) (s : State) (h_s : MemOk s) :
    MemOk (barWrite fn off size val s) := by
  unfold barWrite; (repeat' split) <;> simp +contextual [mem_mk, mem_cells, mem_foldl, mem_foldl_fst, mem_ite, *, bump_mem, msixWrite_mem, regWrite_mem]

theorem registerWrite_mem (fn off size val : Nat) (s : State) (h_s : MemOk s) :
    MemOk (registerWrite fn off size val s) := by
  unfold registerWrite; simp +contextual [mem_mk, mem_cells, mem_foldl, mem_foldl_fst, mem_ite, *, barWrite_mem]

theorem fieldWrite_mem (f : Fld) (v : Nat) (s : State) (h_s : MemOk s) :
    MemOk (fieldWrite f v s) := by
  unfold fieldWrite; simp +contextual [mem_mk, mem_cells, mem_foldl, mem_foldl_fst, mem_ite, *, barWrite_mem]

theorem syncEnWrite_mem (value : Nat) (s : State) (h_s : MemOk s) :
    MemOk (syncEnWrite value s) := by
  unfold syncEnWrite; simp +contextual [mem_mk, mem_cells, mem_foldl, mem_foldl_fst, mem_ite, *, fieldWrite_mem]

theorem logPopWrite_mem (s : State) (h_s : MemOk s) :
    MemOk (logPopWrite s) := by
  unfold logPopWrite; simp +contextual [mem_mk, mem_cells, mem_foldl, mem_foldl_fst, mem_ite, *, fieldWrite_mem]

theorem twinEnWrite_mem (value : Nat) (s : State) (h_s : MemOk s) :
    MemOk (twinEnWrite value s) := by
  unfold twinEnWrite; simp +contextual [mem_mk, mem_cells, mem_foldl, mem_foldl_fst, mem_ite, *, fieldWrite_mem]

theorem fltFenceWrite_mem (hi : Bool) (value : Nat) (s : State) (h_s : MemOk s) :
    MemOk (fltFenceWrite hi value s) := by
  unfold fltFenceWrite; simp +contextual [mem_mk, mem_cells, mem_foldl, mem_foldl_fst, mem_ite, *, fieldWrite_mem]

theorem kettleFenceWrite_mem (site : Nat) (hi : Bool) (value : Nat) (s : State) (h_s : MemOk s) :
    MemOk (kettleFenceWrite site hi value s) := by
  unfold kettleFenceWrite; simp +contextual [mem_mk, mem_cells, mem_foldl, mem_foldl_fst, mem_ite, *, fieldWrite_mem]

theorem kettleModeWrite_mem (site mode : Nat) (s : State) (h_s : MemOk s) :
    MemOk (kettleModeWrite site mode s) := by
  unfold kettleModeWrite; simp +contextual [mem_mk, mem_cells, mem_foldl, mem_foldl_fst, mem_ite, *, fieldWrite_mem]

theorem flashFenceWrite_mem (ch : Nat) (dies : Bool) (value : Nat) (s : State) (h_s : MemOk s) :
    MemOk (flashFenceWrite ch dies value s) := by
  unfold flashFenceWrite; simp +contextual [mem_mk, mem_cells, mem_foldl, mem_foldl_fst, mem_ite, *, fieldWrite_mem]

theorem portEnableWrite_mem (port value : Nat) (s : State) (h_s : MemOk s) :
    MemOk (portEnableWrite port value s) := by
  unfold portEnableWrite; simp +contextual [mem_mk, mem_cells, mem_foldl, mem_foldl_fst, mem_ite, *, fieldWrite_mem]

theorem portFenceWrite_mem (port value : Nat) (s : State) (h_s : MemOk s) :
    MemOk (portFenceWrite port value s) := by
  unfold portFenceWrite; simp +contextual [mem_mk, mem_cells, mem_foldl, mem_foldl_fst, mem_ite, *, fieldWrite_mem]

theorem rangePagesWrite_mem (pages : Nat) (s : State) (h_s : MemOk s) :
    MemOk (rangePagesWrite pages s) := by
  unfold rangePagesWrite; simp +contextual [mem_mk, mem_cells, mem_foldl, mem_foldl_fst, mem_ite, *, fieldWrite_mem]

theorem floorWrite_mem (tenant floor : Nat) (s : State) (h_s : MemOk s) :
    MemOk (floorWrite tenant floor s) := by
  unfold floorWrite; simp +contextual [mem_mk, mem_cells, mem_foldl, mem_foldl_fst, mem_ite, *, fieldWrite_mem]

theorem lendWrite_mem (frames sites : Nat) (s : State) (h_s : MemOk s) :
    MemOk (lendWrite frames sites s) := by
  unfold lendWrite; simp +contextual [mem_mk, mem_cells, mem_foldl, mem_foldl_fst, mem_ite, *, barWrite_mem]

theorem meterWrite_mem (fabric : Bool) (tenant value : Nat) (s : State) (h_s : MemOk s) :
    MemOk (meterWrite fabric tenant value s) := by
  unfold meterWrite; simp +contextual [mem_mk, mem_cells, mem_foldl, mem_foldl_fst, mem_ite, *, barWrite_mem]

end Sys2Proof.Machine
end

