-- ==== Sys2Proof/Laws/Kettles.lean ====
section
/-! SUPPORT. What a kettle's micro-op does when it runs. -/
namespace Sys2Proof.Machine

/-- A micro-op that goes on with `y` leaves the kettle where the order of issue takes it. -/
theorem kettleOp_go {s site kettle op j x prog w y n bad} (h : OpReady s site kettle op j x prog w)
    (ha : kAct s (opEnv s site j prog) (opRun s site x) w = .go y n bad) :
    kettleOp op site kettle s = opDone s site kettle j x (kNext (y.x.cws.drop 7) y.x w) y.sc n bad := by
  obtain ⟨name, hp⟩ := h.store
  unfold kettleOp
  simp only [opEnv, opRun] at ha
  simp only [h.job, h.part, hp, h.word, h.running, h.holds, ha, opDone]
  simp

/-- A micro-op that faults ends its part with the result of a fault. -/
theorem kettleOp_fault {s site kettle op j x prog w} (h : OpReady s site kettle op j x prog w)
    (ha : kAct s (opEnv s site j prog) (opRun s site x) w = .fault) :
    kettleOp op site kettle s = opDone s site kettle j x (kFault x) (ksiteOf s site).scratch 0 [] := by
  obtain ⟨name, hp⟩ := h.store
  unfold kettleOp
  simp only [opEnv, opRun] at ha
  simp only [h.job, h.part, hp, h.word, h.running, h.holds, ha, opDone]
  simp

end Sys2Proof.Machine
end

