-- ==== Sys2Proof/Laws/Packets.lean ====
section
/-! SUPPORT. Packets that this node takes. -/
namespace Sys2Proof.Machine

/-- The destination of a packet is what it was. -/
@[simp] theorem takenAs_dest (kind : Nat) (p : Packet) : (takenAs kind p).dest = p.dest := rfl

/-- The sender of a packet is what it was. -/
@[simp] theorem takenAs_src (kind : Nat) (p : Packet) : (takenAs kind p).src = p.src := rfl

/-- The tenant of a packet is what it was. -/
@[simp] theorem takenAs_tenant (kind : Nat) (p : Packet) : (takenAs kind p).tenant = p.tenant := rfl

/-- A packet that is ready is acted on by its kind's operation, as its buffer holds it. -/
theorem receive_ready {s : State} {port kind : Nat} {p : Packet} {t : State} {q : Packet} (h : PacketReady s port kind p t q)
    (k : State → Packet → State) : receive s port kind p k = k t q := by
  obtain ⟨h1, h2, h3, h4, h0, h5, h6, h7, h8⟩ := h
  subst h0
  have q5 : (p.dest != nodeNo (arrives s port p) && !(decide (port ≥ 14) && destOk p.dest)) = false := by
    rcases h5 with h | ⟨h, g⟩
    · simp [h]
    · simp [h, g]
  unfold receive
  simp only [h2, h3, h6, h7, takenAs_dest, takenAs_src, takenAs_tenant]
  rw [if_neg (by simp; omega), if_neg (by decide), if_neg (by decide), if_neg (by rw [h4]; simp), if_neg (by rw [q5]; decide), if_neg (by decide)]
  rcases h8 with ⟨a, rfl⟩ | ⟨a, w, b | ⟨u, b, rfl⟩⟩
  · rw [if_neg (by simp [a]), if_neg (by rw [a]; decide)]
  · rw [if_neg (by rw [w]; simp), if_pos a, b]
  · rw [if_neg (by rw [w]; simp), if_pos a, b]

end Sys2Proof.Machine
end

