-- ==== Sys2Proof/Laws/RegTable.lean ====
section
/-! SUPPORT. Where the register table finds the registers of a run. -/
namespace Sys2Proof.Machine

/-- Whether two runs lie one above the other. -/
def apart (q r : RegRun) : Bool :=
  q.stride != 0 && (decide (q.off + q.stride * q.count ≤ r.off) || decide (r.off + r.stride * r.count ≤ q.off))

/-- Register `i` of a run is found at its offset, where every run before it in the table lies apart from it. -/
theorem findReg_run {k : Nat} {r : RegRun} (hk : regTable[k]? = some r) (hd : (regTable.take k).all (apart · r) = true)
    (hs : r.stride ≠ 0) (hp : r.off + r.stride * r.count ≤ pageBase) {i : Nat} (hi : i < r.count) :
    findReg (r.off + r.stride * i) = some (r, 0, i) := by
  have hlt : r.stride * i + r.stride ≤ r.stride * r.count := by
    rw [← Nat.mul_succ]; exact Nat.mul_le_mul_left _ hi
  have hpos : 0 < r.stride := Nat.pos_of_ne_zero hs
  obtain ⟨hlen, hget⟩ := List.getElem?_eq_some_iff.1 hk
  have hsplit : regTable = regTable.take k ++ r :: regTable.drop (k + 1) := by
    rw [← hget, List.getElem_cons_drop, List.take_append_drop]
  unfold findReg
  simp only [show ¬ r.off + r.stride * i ≥ pageBase by omega, if_false, Nat.zero_mul, Nat.sub_zero]
  rw [hsplit, List.find?_append, List.find?_eq_none.2, Option.none_or, List.find?_cons_of_pos]
  · simp [Nat.add_sub_cancel_left, Nat.mul_div_cancel_left _ hpos]
  · simp [Nat.add_sub_cancel_left, Nat.mul_div_cancel_left _ hpos, hi]
  · intro q hq
    have ha := List.all_eq_true.1 hd q hq
    simp only [apart, Bool.and_eq_true, bne_iff_ne, ne_eq, Bool.or_eq_true, decide_eq_true_eq] at ha
    simp only [Bool.and_eq_true, decide_eq_true_eq]
    rintro ⟨⟨h1, _⟩, h3⟩
    rcases ha.2 with h | h
    · have : ¬ (r.off + r.stride * i - q.off) / q.stride < q.count := by
        have hq : 0 < q.stride := Nat.pos_of_ne_zero ha.1
        rw [Nat.not_lt, Nat.le_div_iff_mul_le hq, Nat.mul_comm]
        omega
      exact this h3
    · omega

end Sys2Proof.Machine
end

