-- ==== Sys2Proof/Laws/State.lean ====
section
/-! SUPPORT. The laws of the state's updates: which field an operation writes, and that it leaves every other field as it was; one lemma per
field per update, so that no proof unfolds a record update. -/
namespace Sys2Proof.Machine
open Sys2Proof

@[simp] theorem setF_flds (s : State) (f : Fld) (v : Nat) : (setF s f v).flds = mput s.flds f.key (v % 2 ^ f.wid) := rfl
@[simp] theorem setF_pending (s : State) (f : Fld) (v : Nat) : (setF s f v).pending = s.pending := rfl
@[simp] theorem setF_part (s : State) (f : Fld) (v : Nat) : (setF s f v).part = s.part := rfl
@[simp] theorem setF_now (s : State) (f : Fld) (v : Nat) : (setF s f v).now = s.now := rfl
@[simp] theorem setF_fresh (s : State) (f : Fld) (v : Nat) : (setF s f v).fresh = s.fresh := rfl
@[simp] theorem setF_sent (s : State) (f : Fld) (v : Nat) : (setF s f v).sent = s.sent := rfl
@[simp] theorem setF_bow (s : State) (f : Fld) (v : Nat) : (setF s f v).bow = s.bow := rfl
@[simp] theorem setF_twin (s : State) (f : Fld) (v : Nat) : (setF s f v).twin = s.twin := rfl
@[simp] theorem setF_dram (s : State) (f : Fld) (v : Nat) : (setF s f v).dram = s.dram := rfl
@[simp] theorem setF_integ (s : State) (f : Fld) (v : Nat) : (setF s f v).integ = s.integ := rfl
@[simp] theorem setF_kettle (s : State) (f : Fld) (v : Nat) : (setF s f v).kettle = s.kettle := rfl
@[simp] theorem setF_tiers (s : State) (f : Fld) (v : Nat) : (setF s f v).tiers = s.tiers := rfl
@[simp] theorem setF_host (s : State) (f : Fld) (v : Nat) : (setF s f v).host = s.host := rfl
@[simp] theorem setF_fw (s : State) (f : Fld) (v : Nat) : (setF s f v).fw = s.fw := rfl
@[simp] theorem setF_power (s : State) (f : Fld) (v : Nat) : (setF s f v).power = s.power := rfl
@[simp] theorem setF_crown (s : State) (f : Fld) (v : Nat) : (setF s f v).crown = s.crown := rfl
@[simp] theorem setF_srch (s : State) (f : Fld) (v : Nat) : (setF s f v).srch = s.srch := rfl
@[simp] theorem setF_card (s : State) (f : Fld) (v : Nat) : (setF s f v).card = s.card := rfl
@[simp] theorem setF_felt (s : State) (f : Fld) (v : Nat) : (setF s f v).felt = s.felt := rfl
@[simp] theorem setF_flash (s : State) (f : Fld) (v : Nat) : (setF s f v).flash = s.flash := rfl
@[simp] theorem setF_brim (s : State) (f : Fld) (v : Nat) : (setF s f v).brim = s.brim := rfl

@[simp] theorem emit_sent (s : State) (x : Sent) : (emit s x).sent = s.sent ++ [x] := rfl
@[simp] theorem emit_pending (s : State) (x : Sent) : (emit s x).pending = s.pending := rfl
@[simp] theorem emit_part (s : State) (x : Sent) : (emit s x).part = s.part := rfl
@[simp] theorem emit_now (s : State) (x : Sent) : (emit s x).now = s.now := rfl
@[simp] theorem emit_fresh (s : State) (x : Sent) : (emit s x).fresh = s.fresh := rfl
@[simp] theorem emit_flds (s : State) (x : Sent) : (emit s x).flds = s.flds := rfl
@[simp] theorem emit_bow (s : State) (x : Sent) : (emit s x).bow = s.bow := rfl
@[simp] theorem emit_twin (s : State) (x : Sent) : (emit s x).twin = s.twin := rfl
@[simp] theorem emit_dram (s : State) (x : Sent) : (emit s x).dram = s.dram := rfl
@[simp] theorem emit_integ (s : State) (x : Sent) : (emit s x).integ = s.integ := rfl
@[simp] theorem emit_kettle (s : State) (x : Sent) : (emit s x).kettle = s.kettle := rfl
@[simp] theorem emit_tiers (s : State) (x : Sent) : (emit s x).tiers = s.tiers := rfl
@[simp] theorem emit_host (s : State) (x : Sent) : (emit s x).host = s.host := rfl
@[simp] theorem emit_fw (s : State) (x : Sent) : (emit s x).fw = s.fw := rfl
@[simp] theorem emit_power (s : State) (x : Sent) : (emit s x).power = s.power := rfl
@[simp] theorem emit_crown (s : State) (x : Sent) : (emit s x).crown = s.crown := rfl
@[simp] theorem emit_srch (s : State) (x : Sent) : (emit s x).srch = s.srch := rfl
@[simp] theorem emit_card (s : State) (x : Sent) : (emit s x).card = s.card := rfl
@[simp] theorem emit_felt (s : State) (x : Sent) : (emit s x).felt = s.felt := rfl
@[simp] theorem emit_flash (s : State) (x : Sent) : (emit s x).flash = s.flash := rfl
@[simp] theorem emit_brim (s : State) (x : Sent) : (emit s x).brim = s.brim := rfl

@[simp] theorem modFlash_flash (s : State) (f : Flash → Flash) : (modFlash s f).flash = f s.flash := rfl
@[simp] theorem modFlash_pending (s : State) (f : Flash → Flash) : (modFlash s f).pending = s.pending := rfl
@[simp] theorem modFlash_part (s : State) (f : Flash → Flash) : (modFlash s f).part = s.part := rfl
@[simp] theorem modFlash_now (s : State) (f : Flash → Flash) : (modFlash s f).now = s.now := rfl
@[simp] theorem modFlash_fresh (s : State) (f : Flash → Flash) : (modFlash s f).fresh = s.fresh := rfl
@[simp] theorem modFlash_flds (s : State) (f : Flash → Flash) : (modFlash s f).flds = s.flds := rfl
@[simp] theorem modFlash_sent (s : State) (f : Flash → Flash) : (modFlash s f).sent = s.sent := rfl
@[simp] theorem modFlash_bow (s : State) (f : Flash → Flash) : (modFlash s f).bow = s.bow := rfl
@[simp] theorem modFlash_twin (s : State) (f : Flash → Flash) : (modFlash s f).twin = s.twin := rfl
@[simp] theorem modFlash_dram (s : State) (f : Flash → Flash) : (modFlash s f).dram = s.dram := rfl
@[simp] theorem modFlash_integ (s : State) (f : Flash → Flash) : (modFlash s f).integ = s.integ := rfl
@[simp] theorem modFlash_kettle (s : State) (f : Flash → Flash) : (modFlash s f).kettle = s.kettle := rfl
@[simp] theorem modFlash_tiers (s : State) (f : Flash → Flash) : (modFlash s f).tiers = s.tiers := rfl
@[simp] theorem modFlash_host (s : State) (f : Flash → Flash) : (modFlash s f).host = s.host := rfl
@[simp] theorem modFlash_fw (s : State) (f : Flash → Flash) : (modFlash s f).fw = s.fw := rfl
@[simp] theorem modFlash_power (s : State) (f : Flash → Flash) : (modFlash s f).power = s.power := rfl
@[simp] theorem modFlash_crown (s : State) (f : Flash → Flash) : (modFlash s f).crown = s.crown := rfl
@[simp] theorem modFlash_srch (s : State) (f : Flash → Flash) : (modFlash s f).srch = s.srch := rfl
@[simp] theorem modFlash_card (s : State) (f : Flash → Flash) : (modFlash s f).card = s.card := rfl
@[simp] theorem modFlash_felt (s : State) (f : Flash → Flash) : (modFlash s f).felt = s.felt := rfl
@[simp] theorem modFlash_brim (s : State) (f : Flash → Flash) : (modFlash s f).brim = s.brim := rfl

@[simp] theorem modTiers_tiers (s : State) (f : Tiers → Tiers) : (modTiers s f).tiers = f s.tiers := rfl
@[simp] theorem modTiers_pending (s : State) (f : Tiers → Tiers) : (modTiers s f).pending = s.pending := rfl
@[simp] theorem modTiers_part (s : State) (f : Tiers → Tiers) : (modTiers s f).part = s.part := rfl
@[simp] theorem modTiers_now (s : State) (f : Tiers → Tiers) : (modTiers s f).now = s.now := rfl
@[simp] theorem modTiers_fresh (s : State) (f : Tiers → Tiers) : (modTiers s f).fresh = s.fresh := rfl
@[simp] theorem modTiers_flds (s : State) (f : Tiers → Tiers) : (modTiers s f).flds = s.flds := rfl
@[simp] theorem modTiers_sent (s : State) (f : Tiers → Tiers) : (modTiers s f).sent = s.sent := rfl
@[simp] theorem modTiers_bow (s : State) (f : Tiers → Tiers) : (modTiers s f).bow = s.bow := rfl
@[simp] theorem modTiers_twin (s : State) (f : Tiers → Tiers) : (modTiers s f).twin = s.twin := rfl
@[simp] theorem modTiers_dram (s : State) (f : Tiers → Tiers) : (modTiers s f).dram = s.dram := rfl
@[simp] theorem modTiers_integ (s : State) (f : Tiers → Tiers) : (modTiers s f).integ = s.integ := rfl
@[simp] theorem modTiers_kettle (s : State) (f : Tiers → Tiers) : (modTiers s f).kettle = s.kettle := rfl
@[simp] theorem modTiers_host (s : State) (f : Tiers → Tiers) : (modTiers s f).host = s.host := rfl
@[simp] theorem modTiers_fw (s : State) (f : Tiers → Tiers) : (modTiers s f).fw = s.fw := rfl
@[simp] theorem modTiers_power (s : State) (f : Tiers → Tiers) : (modTiers s f).power = s.power := rfl
@[simp] theorem modTiers_crown (s : State) (f : Tiers → Tiers) : (modTiers s f).crown = s.crown := rfl
@[simp] theorem modTiers_srch (s : State) (f : Tiers → Tiers) : (modTiers s f).srch = s.srch := rfl
@[simp] theorem modTiers_card (s : State) (f : Tiers → Tiers) : (modTiers s f).card = s.card := rfl
@[simp] theorem modTiers_felt (s : State) (f : Tiers → Tiers) : (modTiers s f).felt = s.felt := rfl
@[simp] theorem modTiers_flash (s : State) (f : Tiers → Tiers) : (modTiers s f).flash = s.flash := rfl
@[simp] theorem modTiers_brim (s : State) (f : Tiers → Tiers) : (modTiers s f).brim = s.brim := rfl

@[simp] theorem modHost_host (s : State) (f : HostIf → HostIf) : (modHost s f).host = f s.host := rfl
@[simp] theorem modHost_pending (s : State) (f : HostIf → HostIf) : (modHost s f).pending = s.pending := rfl
@[simp] theorem modHost_part (s : State) (f : HostIf → HostIf) : (modHost s f).part = s.part := rfl
@[simp] theorem modHost_now (s : State) (f : HostIf → HostIf) : (modHost s f).now = s.now := rfl
@[simp] theorem modHost_fresh (s : State) (f : HostIf → HostIf) : (modHost s f).fresh = s.fresh := rfl
@[simp] theorem modHost_flds (s : State) (f : HostIf → HostIf) : (modHost s f).flds = s.flds := rfl
@[simp] theorem modHost_sent (s : State) (f : HostIf → HostIf) : (modHost s f).sent = s.sent := rfl
@[simp] theorem modHost_bow (s : State) (f : HostIf → HostIf) : (modHost s f).bow = s.bow := rfl
@[simp] theorem modHost_twin (s : State) (f : HostIf → HostIf) : (modHost s f).twin = s.twin := rfl
@[simp] theorem modHost_dram (s : State) (f : HostIf → HostIf) : (modHost s f).dram = s.dram := rfl
@[simp] theorem modHost_integ (s : State) (f : HostIf → HostIf) : (modHost s f).integ = s.integ := rfl
@[simp] theorem modHost_kettle (s : State) (f : HostIf → HostIf) : (modHost s f).kettle = s.kettle := rfl
@[simp] theorem modHost_tiers (s : State) (f : HostIf → HostIf) : (modHost s f).tiers = s.tiers := rfl
@[simp] theorem modHost_fw (s : State) (f : HostIf → HostIf) : (modHost s f).fw = s.fw := rfl
@[simp] theorem modHost_power (s : State) (f : HostIf → HostIf) : (modHost s f).power = s.power := rfl
@[simp] theorem modHost_crown (s : State) (f : HostIf → HostIf) : (modHost s f).crown = s.crown := rfl
@[simp] theorem modHost_srch (s : State) (f : HostIf → HostIf) : (modHost s f).srch = s.srch := rfl
@[simp] theorem modHost_card (s : State) (f : HostIf → HostIf) : (modHost s f).card = s.card := rfl
@[simp] theorem modHost_felt (s : State) (f : HostIf → HostIf) : (modHost s f).felt = s.felt := rfl
@[simp] theorem modHost_flash (s : State) (f : HostIf → HostIf) : (modHost s f).flash = s.flash := rfl
@[simp] theorem modHost_brim (s : State) (f : HostIf → HostIf) : (modHost s f).brim = s.brim := rfl

@[simp] theorem modBow_bow (s : State) (f : Bow → Bow) : (modBow s f).bow = f s.bow := rfl
@[simp] theorem modBow_pending (s : State) (f : Bow → Bow) : (modBow s f).pending = s.pending := rfl
@[simp] theorem modBow_part (s : State) (f : Bow → Bow) : (modBow s f).part = s.part := rfl
@[simp] theorem modBow_now (s : State) (f : Bow → Bow) : (modBow s f).now = s.now := rfl
@[simp] theorem modBow_fresh (s : State) (f : Bow → Bow) : (modBow s f).fresh = s.fresh := rfl
@[simp] theorem modBow_flds (s : State) (f : Bow → Bow) : (modBow s f).flds = s.flds := rfl
@[simp] theorem modBow_sent (s : State) (f : Bow → Bow) : (modBow s f).sent = s.sent := rfl
@[simp] theorem modBow_twin (s : State) (f : Bow → Bow) : (modBow s f).twin = s.twin := rfl
@[simp] theorem modBow_dram (s : State) (f : Bow → Bow) : (modBow s f).dram = s.dram := rfl
@[simp] theorem modBow_integ (s : State) (f : Bow → Bow) : (modBow s f).integ = s.integ := rfl
@[simp] theorem modBow_kettle (s : State) (f : Bow → Bow) : (modBow s f).kettle = s.kettle := rfl
@[simp] theorem modBow_tiers (s : State) (f : Bow → Bow) : (modBow s f).tiers = s.tiers := rfl
@[simp] theorem modBow_host (s : State) (f : Bow → Bow) : (modBow s f).host = s.host := rfl
@[simp] theorem modBow_fw (s : State) (f : Bow → Bow) : (modBow s f).fw = s.fw := rfl
@[simp] theorem modBow_power (s : State) (f : Bow → Bow) : (modBow s f).power = s.power := rfl
@[simp] theorem modBow_crown (s : State) (f : Bow → Bow) : (modBow s f).crown = s.crown := rfl
@[simp] theorem modBow_srch (s : State) (f : Bow → Bow) : (modBow s f).srch = s.srch := rfl
@[simp] theorem modBow_card (s : State) (f : Bow → Bow) : (modBow s f).card = s.card := rfl
@[simp] theorem modBow_felt (s : State) (f : Bow → Bow) : (modBow s f).felt = s.felt := rfl
@[simp] theorem modBow_flash (s : State) (f : Bow → Bow) : (modBow s f).flash = s.flash := rfl
@[simp] theorem modBow_brim (s : State) (f : Bow → Bow) : (modBow s f).brim = s.brim := rfl

@[simp] theorem modBrim_brim (s : State) (f : Brim → Brim) : (modBrim s f).brim = f s.brim := rfl
@[simp] theorem modBrim_pending (s : State) (f : Brim → Brim) : (modBrim s f).pending = s.pending := rfl
@[simp] theorem modBrim_part (s : State) (f : Brim → Brim) : (modBrim s f).part = s.part := rfl
@[simp] theorem modBrim_now (s : State) (f : Brim → Brim) : (modBrim s f).now = s.now := rfl
@[simp] theorem modBrim_fresh (s : State) (f : Brim → Brim) : (modBrim s f).fresh = s.fresh := rfl
@[simp] theorem modBrim_flds (s : State) (f : Brim → Brim) : (modBrim s f).flds = s.flds := rfl
@[simp] theorem modBrim_sent (s : State) (f : Brim → Brim) : (modBrim s f).sent = s.sent := rfl
@[simp] theorem modBrim_bow (s : State) (f : Brim → Brim) : (modBrim s f).bow = s.bow := rfl
@[simp] theorem modBrim_twin (s : State) (f : Brim → Brim) : (modBrim s f).twin = s.twin := rfl
@[simp] theorem modBrim_dram (s : State) (f : Brim → Brim) : (modBrim s f).dram = s.dram := rfl
@[simp] theorem modBrim_integ (s : State) (f : Brim → Brim) : (modBrim s f).integ = s.integ := rfl
@[simp] theorem modBrim_kettle (s : State) (f : Brim → Brim) : (modBrim s f).kettle = s.kettle := rfl
@[simp] theorem modBrim_tiers (s : State) (f : Brim → Brim) : (modBrim s f).tiers = s.tiers := rfl
@[simp] theorem modBrim_host (s : State) (f : Brim → Brim) : (modBrim s f).host = s.host := rfl
@[simp] theorem modBrim_fw (s : State) (f : Brim → Brim) : (modBrim s f).fw = s.fw := rfl
@[simp] theorem modBrim_power (s : State) (f : Brim → Brim) : (modBrim s f).power = s.power := rfl
@[simp] theorem modBrim_crown (s : State) (f : Brim → Brim) : (modBrim s f).crown = s.crown := rfl
@[simp] theorem modBrim_srch (s : State) (f : Brim → Brim) : (modBrim s f).srch = s.srch := rfl
@[simp] theorem modBrim_card (s : State) (f : Brim → Brim) : (modBrim s f).card = s.card := rfl
@[simp] theorem modBrim_felt (s : State) (f : Brim → Brim) : (modBrim s f).felt = s.felt := rfl
@[simp] theorem modBrim_flash (s : State) (f : Brim → Brim) : (modBrim s f).flash = s.flash := rfl

@[simp] theorem modSrch_srch (s : State) (f : Srch → Srch) : (modSrch s f).srch = f s.srch := rfl
@[simp] theorem modSrch_pending (s : State) (f : Srch → Srch) : (modSrch s f).pending = s.pending := rfl
@[simp] theorem modSrch_part (s : State) (f : Srch → Srch) : (modSrch s f).part = s.part := rfl
@[simp] theorem modSrch_now (s : State) (f : Srch → Srch) : (modSrch s f).now = s.now := rfl
@[simp] theorem modSrch_fresh (s : State) (f : Srch → Srch) : (modSrch s f).fresh = s.fresh := rfl
@[simp] theorem modSrch_flds (s : State) (f : Srch → Srch) : (modSrch s f).flds = s.flds := rfl
@[simp] theorem modSrch_sent (s : State) (f : Srch → Srch) : (modSrch s f).sent = s.sent := rfl
@[simp] theorem modSrch_bow (s : State) (f : Srch → Srch) : (modSrch s f).bow = s.bow := rfl
@[simp] theorem modSrch_twin (s : State) (f : Srch → Srch) : (modSrch s f).twin = s.twin := rfl
@[simp] theorem modSrch_dram (s : State) (f : Srch → Srch) : (modSrch s f).dram = s.dram := rfl
@[simp] theorem modSrch_integ (s : State) (f : Srch → Srch) : (modSrch s f).integ = s.integ := rfl
@[simp] theorem modSrch_kettle (s : State) (f : Srch → Srch) : (modSrch s f).kettle = s.kettle := rfl
@[simp] theorem modSrch_tiers (s : State) (f : Srch → Srch) : (modSrch s f).tiers = s.tiers := rfl
@[simp] theorem modSrch_host (s : State) (f : Srch → Srch) : (modSrch s f).host = s.host := rfl
@[simp] theorem modSrch_fw (s : State) (f : Srch → Srch) : (modSrch s f).fw = s.fw := rfl
@[simp] theorem modSrch_power (s : State) (f : Srch → Srch) : (modSrch s f).power = s.power := rfl
@[simp] theorem modSrch_crown (s : State) (f : Srch → Srch) : (modSrch s f).crown = s.crown := rfl
@[simp] theorem modSrch_card (s : State) (f : Srch → Srch) : (modSrch s f).card = s.card := rfl
@[simp] theorem modSrch_felt (s : State) (f : Srch → Srch) : (modSrch s f).felt = s.felt := rfl
@[simp] theorem modSrch_flash (s : State) (f : Srch → Srch) : (modSrch s f).flash = s.flash := rfl
@[simp] theorem modSrch_brim (s : State) (f : Srch → Srch) : (modSrch s f).brim = s.brim := rfl

@[simp] theorem modCard_card (s : State) (f : Card → Card) : (modCard s f).card = f s.card := rfl
@[simp] theorem modCard_pending (s : State) (f : Card → Card) : (modCard s f).pending = s.pending := rfl
@[simp] theorem modCard_part (s : State) (f : Card → Card) : (modCard s f).part = s.part := rfl
@[simp] theorem modCard_now (s : State) (f : Card → Card) : (modCard s f).now = s.now := rfl
@[simp] theorem modCard_fresh (s : State) (f : Card → Card) : (modCard s f).fresh = s.fresh := rfl
@[simp] theorem modCard_flds (s : State) (f : Card → Card) : (modCard s f).flds = s.flds := rfl
@[simp] theorem modCard_sent (s : State) (f : Card → Card) : (modCard s f).sent = s.sent := rfl
@[simp] theorem modCard_bow (s : State) (f : Card → Card) : (modCard s f).bow = s.bow := rfl
@[simp] theorem modCard_twin (s : State) (f : Card → Card) : (modCard s f).twin = s.twin := rfl
@[simp] theorem modCard_dram (s : State) (f : Card → Card) : (modCard s f).dram = s.dram := rfl
@[simp] theorem modCard_integ (s : State) (f : Card → Card) : (modCard s f).integ = s.integ := rfl
@[simp] theorem modCard_kettle (s : State) (f : Card → Card) : (modCard s f).kettle = s.kettle := rfl
@[simp] theorem modCard_tiers (s : State) (f : Card → Card) : (modCard s f).tiers = s.tiers := rfl
@[simp] theorem modCard_host (s : State) (f : Card → Card) : (modCard s f).host = s.host := rfl
@[simp] theorem modCard_fw (s : State) (f : Card → Card) : (modCard s f).fw = s.fw := rfl
@[simp] theorem modCard_power (s : State) (f : Card → Card) : (modCard s f).power = s.power := rfl
@[simp] theorem modCard_crown (s : State) (f : Card → Card) : (modCard s f).crown = s.crown := rfl
@[simp] theorem modCard_srch (s : State) (f : Card → Card) : (modCard s f).srch = s.srch := rfl
@[simp] theorem modCard_felt (s : State) (f : Card → Card) : (modCard s f).felt = s.felt := rfl
@[simp] theorem modCard_flash (s : State) (f : Card → Card) : (modCard s f).flash = s.flash := rfl
@[simp] theorem modCard_brim (s : State) (f : Card → Card) : (modCard s f).brim = s.brim := rfl

@[simp] theorem modFelt_felt (s : State) (f : Felt → Felt) : (modFelt s f).felt = f s.felt := rfl
@[simp] theorem modFelt_pending (s : State) (f : Felt → Felt) : (modFelt s f).pending = s.pending := rfl
@[simp] theorem modFelt_part (s : State) (f : Felt → Felt) : (modFelt s f).part = s.part := rfl
@[simp] theorem modFelt_now (s : State) (f : Felt → Felt) : (modFelt s f).now = s.now := rfl
@[simp] theorem modFelt_fresh (s : State) (f : Felt → Felt) : (modFelt s f).fresh = s.fresh := rfl
@[simp] theorem modFelt_flds (s : State) (f : Felt → Felt) : (modFelt s f).flds = s.flds := rfl
@[simp] theorem modFelt_sent (s : State) (f : Felt → Felt) : (modFelt s f).sent = s.sent := rfl
@[simp] theorem modFelt_bow (s : State) (f : Felt → Felt) : (modFelt s f).bow = s.bow := rfl
@[simp] theorem modFelt_twin (s : State) (f : Felt → Felt) : (modFelt s f).twin = s.twin := rfl
@[simp] theorem modFelt_dram (s : State) (f : Felt → Felt) : (modFelt s f).dram = s.dram := rfl
@[simp] theorem modFelt_integ (s : State) (f : Felt → Felt) : (modFelt s f).integ = s.integ := rfl
@[simp] theorem modFelt_kettle (s : State) (f : Felt → Felt) : (modFelt s f).kettle = s.kettle := rfl
@[simp] theorem modFelt_tiers (s : State) (f : Felt → Felt) : (modFelt s f).tiers = s.tiers := rfl
@[simp] theorem modFelt_host (s : State) (f : Felt → Felt) : (modFelt s f).host = s.host := rfl
@[simp] theorem modFelt_fw (s : State) (f : Felt → Felt) : (modFelt s f).fw = s.fw := rfl
@[simp] theorem modFelt_power (s : State) (f : Felt → Felt) : (modFelt s f).power = s.power := rfl
@[simp] theorem modFelt_crown (s : State) (f : Felt → Felt) : (modFelt s f).crown = s.crown := rfl
@[simp] theorem modFelt_srch (s : State) (f : Felt → Felt) : (modFelt s f).srch = s.srch := rfl
@[simp] theorem modFelt_card (s : State) (f : Felt → Felt) : (modFelt s f).card = s.card := rfl
@[simp] theorem modFelt_flash (s : State) (f : Felt → Felt) : (modFelt s f).flash = s.flash := rfl
@[simp] theorem modFelt_brim (s : State) (f : Felt → Felt) : (modFelt s f).brim = s.brim := rfl

@[simp] theorem modCrown_crown (s : State) (f : Crown → Crown) : (modCrown s f).crown = f s.crown := rfl
@[simp] theorem modCrown_pending (s : State) (f : Crown → Crown) : (modCrown s f).pending = s.pending := rfl
@[simp] theorem modCrown_part (s : State) (f : Crown → Crown) : (modCrown s f).part = s.part := rfl
@[simp] theorem modCrown_now (s : State) (f : Crown → Crown) : (modCrown s f).now = s.now := rfl
@[simp] theorem modCrown_fresh (s : State) (f : Crown → Crown) : (modCrown s f).fresh = s.fresh := rfl
@[simp] theorem modCrown_flds (s : State) (f : Crown → Crown) : (modCrown s f).flds = s.flds := rfl
@[simp] theorem modCrown_sent (s : State) (f : Crown → Crown) : (modCrown s f).sent = s.sent := rfl
@[simp] theorem modCrown_bow (s : State) (f : Crown → Crown) : (modCrown s f).bow = s.bow := rfl
@[simp] theorem modCrown_twin (s : State) (f : Crown → Crown) : (modCrown s f).twin = s.twin := rfl
@[simp] theorem modCrown_dram (s : State) (f : Crown → Crown) : (modCrown s f).dram = s.dram := rfl
@[simp] theorem modCrown_integ (s : State) (f : Crown → Crown) : (modCrown s f).integ = s.integ := rfl
@[simp] theorem modCrown_kettle (s : State) (f : Crown → Crown) : (modCrown s f).kettle = s.kettle := rfl
@[simp] theorem modCrown_tiers (s : State) (f : Crown → Crown) : (modCrown s f).tiers = s.tiers := rfl
@[simp] theorem modCrown_host (s : State) (f : Crown → Crown) : (modCrown s f).host = s.host := rfl
@[simp] theorem modCrown_fw (s : State) (f : Crown → Crown) : (modCrown s f).fw = s.fw := rfl
@[simp] theorem modCrown_power (s : State) (f : Crown → Crown) : (modCrown s f).power = s.power := rfl
@[simp] theorem modCrown_srch (s : State) (f : Crown → Crown) : (modCrown s f).srch = s.srch := rfl
@[simp] theorem modCrown_card (s : State) (f : Crown → Crown) : (modCrown s f).card = s.card := rfl
@[simp] theorem modCrown_felt (s : State) (f : Crown → Crown) : (modCrown s f).felt = s.felt := rfl
@[simp] theorem modCrown_flash (s : State) (f : Crown → Crown) : (modCrown s f).flash = s.flash := rfl
@[simp] theorem modCrown_brim (s : State) (f : Crown → Crown) : (modCrown s f).brim = s.brim := rfl

@[simp] theorem modTwin_twin (s : State) (f : Twin → Twin) : (modTwin s f).twin = f s.twin := rfl
@[simp] theorem modTwin_pending (s : State) (f : Twin → Twin) : (modTwin s f).pending = s.pending := rfl
@[simp] theorem modTwin_part (s : State) (f : Twin → Twin) : (modTwin s f).part = s.part := rfl
@[simp] theorem modTwin_now (s : State) (f : Twin → Twin) : (modTwin s f).now = s.now := rfl
@[simp] theorem modTwin_fresh (s : State) (f : Twin → Twin) : (modTwin s f).fresh = s.fresh := rfl
@[simp] theorem modTwin_flds (s : State) (f : Twin → Twin) : (modTwin s f).flds = s.flds := rfl
@[simp] theorem modTwin_sent (s : State) (f : Twin → Twin) : (modTwin s f).sent = s.sent := rfl
@[simp] theorem modTwin_bow (s : State) (f : Twin → Twin) : (modTwin s f).bow = s.bow := rfl
@[simp] theorem modTwin_dram (s : State) (f : Twin → Twin) : (modTwin s f).dram = s.dram := rfl
@[simp] theorem modTwin_integ (s : State) (f : Twin → Twin) : (modTwin s f).integ = s.integ := rfl
@[simp] theorem modTwin_kettle (s : State) (f : Twin → Twin) : (modTwin s f).kettle = s.kettle := rfl
@[simp] theorem modTwin_tiers (s : State) (f : Twin → Twin) : (modTwin s f).tiers = s.tiers := rfl
@[simp] theorem modTwin_host (s : State) (f : Twin → Twin) : (modTwin s f).host = s.host := rfl
@[simp] theorem modTwin_fw (s : State) (f : Twin → Twin) : (modTwin s f).fw = s.fw := rfl
@[simp] theorem modTwin_power (s : State) (f : Twin → Twin) : (modTwin s f).power = s.power := rfl
@[simp] theorem modTwin_crown (s : State) (f : Twin → Twin) : (modTwin s f).crown = s.crown := rfl
@[simp] theorem modTwin_srch (s : State) (f : Twin → Twin) : (modTwin s f).srch = s.srch := rfl
@[simp] theorem modTwin_card (s : State) (f : Twin → Twin) : (modTwin s f).card = s.card := rfl
@[simp] theorem modTwin_felt (s : State) (f : Twin → Twin) : (modTwin s f).felt = s.felt := rfl
@[simp] theorem modTwin_flash (s : State) (f : Twin → Twin) : (modTwin s f).flash = s.flash := rfl
@[simp] theorem modTwin_brim (s : State) (f : Twin → Twin) : (modTwin s f).brim = s.brim := rfl

@[simp] theorem modInteg_integ (s : State) (f : Integrity → Integrity) : (modInteg s f).integ = f s.integ := rfl
@[simp] theorem modInteg_pending (s : State) (f : Integrity → Integrity) : (modInteg s f).pending = s.pending := rfl
@[simp] theorem modInteg_part (s : State) (f : Integrity → Integrity) : (modInteg s f).part = s.part := rfl
@[simp] theorem modInteg_now (s : State) (f : Integrity → Integrity) : (modInteg s f).now = s.now := rfl
@[simp] theorem modInteg_fresh (s : State) (f : Integrity → Integrity) : (modInteg s f).fresh = s.fresh := rfl
@[simp] theorem modInteg_flds (s : State) (f : Integrity → Integrity) : (modInteg s f).flds = s.flds := rfl
@[simp] theorem modInteg_sent (s : State) (f : Integrity → Integrity) : (modInteg s f).sent = s.sent := rfl
@[simp] theorem modInteg_bow (s : State) (f : Integrity → Integrity) : (modInteg s f).bow = s.bow := rfl
@[simp] theorem modInteg_twin (s : State) (f : Integrity → Integrity) : (modInteg s f).twin = s.twin := rfl
@[simp] theorem modInteg_dram (s : State) (f : Integrity → Integrity) : (modInteg s f).dram = s.dram := rfl
@[simp] theorem modInteg_kettle (s : State) (f : Integrity → Integrity) : (modInteg s f).kettle = s.kettle := rfl
@[simp] theorem modInteg_tiers (s : State) (f : Integrity → Integrity) : (modInteg s f).tiers = s.tiers := rfl
@[simp] theorem modInteg_host (s : State) (f : Integrity → Integrity) : (modInteg s f).host = s.host := rfl
@[simp] theorem modInteg_fw (s : State) (f : Integrity → Integrity) : (modInteg s f).fw = s.fw := rfl
@[simp] theorem modInteg_power (s : State) (f : Integrity → Integrity) : (modInteg s f).power = s.power := rfl
@[simp] theorem modInteg_crown (s : State) (f : Integrity → Integrity) : (modInteg s f).crown = s.crown := rfl
@[simp] theorem modInteg_srch (s : State) (f : Integrity → Integrity) : (modInteg s f).srch = s.srch := rfl
@[simp] theorem modInteg_card (s : State) (f : Integrity → Integrity) : (modInteg s f).card = s.card := rfl
@[simp] theorem modInteg_felt (s : State) (f : Integrity → Integrity) : (modInteg s f).felt = s.felt := rfl
@[simp] theorem modInteg_flash (s : State) (f : Integrity → Integrity) : (modInteg s f).flash = s.flash := rfl
@[simp] theorem modInteg_brim (s : State) (f : Integrity → Integrity) : (modInteg s f).brim = s.brim := rfl

@[simp] theorem modPower_power (s : State) (f : Power → Power) : (modPower s f).power = f s.power := rfl
@[simp] theorem modPower_pending (s : State) (f : Power → Power) : (modPower s f).pending = s.pending := rfl
@[simp] theorem modPower_part (s : State) (f : Power → Power) : (modPower s f).part = s.part := rfl
@[simp] theorem modPower_now (s : State) (f : Power → Power) : (modPower s f).now = s.now := rfl
@[simp] theorem modPower_fresh (s : State) (f : Power → Power) : (modPower s f).fresh = s.fresh := rfl
@[simp] theorem modPower_flds (s : State) (f : Power → Power) : (modPower s f).flds = s.flds := rfl
@[simp] theorem modPower_sent (s : State) (f : Power → Power) : (modPower s f).sent = s.sent := rfl
@[simp] theorem modPower_bow (s : State) (f : Power → Power) : (modPower s f).bow = s.bow := rfl
@[simp] theorem modPower_twin (s : State) (f : Power → Power) : (modPower s f).twin = s.twin := rfl
@[simp] theorem modPower_dram (s : State) (f : Power → Power) : (modPower s f).dram = s.dram := rfl
@[simp] theorem modPower_integ (s : State) (f : Power → Power) : (modPower s f).integ = s.integ := rfl
@[simp] theorem modPower_kettle (s : State) (f : Power → Power) : (modPower s f).kettle = s.kettle := rfl
@[simp] theorem modPower_tiers (s : State) (f : Power → Power) : (modPower s f).tiers = s.tiers := rfl
@[simp] theorem modPower_host (s : State) (f : Power → Power) : (modPower s f).host = s.host := rfl
@[simp] theorem modPower_fw (s : State) (f : Power → Power) : (modPower s f).fw = s.fw := rfl
@[simp] theorem modPower_crown (s : State) (f : Power → Power) : (modPower s f).crown = s.crown := rfl
@[simp] theorem modPower_srch (s : State) (f : Power → Power) : (modPower s f).srch = s.srch := rfl
@[simp] theorem modPower_card (s : State) (f : Power → Power) : (modPower s f).card = s.card := rfl
@[simp] theorem modPower_felt (s : State) (f : Power → Power) : (modPower s f).felt = s.felt := rfl
@[simp] theorem modPower_flash (s : State) (f : Power → Power) : (modPower s f).flash = s.flash := rfl
@[simp] theorem modPower_brim (s : State) (f : Power → Power) : (modPower s f).brim = s.brim := rfl

@[simp] theorem modFw_fw (s : State) (f : Fw → Fw) : (modFw s f).fw = f s.fw := rfl
@[simp] theorem modFw_pending (s : State) (f : Fw → Fw) : (modFw s f).pending = s.pending := rfl
@[simp] theorem modFw_part (s : State) (f : Fw → Fw) : (modFw s f).part = s.part := rfl
@[simp] theorem modFw_now (s : State) (f : Fw → Fw) : (modFw s f).now = s.now := rfl
@[simp] theorem modFw_fresh (s : State) (f : Fw → Fw) : (modFw s f).fresh = s.fresh := rfl
@[simp] theorem modFw_flds (s : State) (f : Fw → Fw) : (modFw s f).flds = s.flds := rfl
@[simp] theorem modFw_sent (s : State) (f : Fw → Fw) : (modFw s f).sent = s.sent := rfl
@[simp] theorem modFw_bow (s : State) (f : Fw → Fw) : (modFw s f).bow = s.bow := rfl
@[simp] theorem modFw_twin (s : State) (f : Fw → Fw) : (modFw s f).twin = s.twin := rfl
@[simp] theorem modFw_dram (s : State) (f : Fw → Fw) : (modFw s f).dram = s.dram := rfl
@[simp] theorem modFw_integ (s : State) (f : Fw → Fw) : (modFw s f).integ = s.integ := rfl
@[simp] theorem modFw_kettle (s : State) (f : Fw → Fw) : (modFw s f).kettle = s.kettle := rfl
@[simp] theorem modFw_tiers (s : State) (f : Fw → Fw) : (modFw s f).tiers = s.tiers := rfl
@[simp] theorem modFw_host (s : State) (f : Fw → Fw) : (modFw s f).host = s.host := rfl
@[simp] theorem modFw_power (s : State) (f : Fw → Fw) : (modFw s f).power = s.power := rfl
@[simp] theorem modFw_crown (s : State) (f : Fw → Fw) : (modFw s f).crown = s.crown := rfl
@[simp] theorem modFw_srch (s : State) (f : Fw → Fw) : (modFw s f).srch = s.srch := rfl
@[simp] theorem modFw_card (s : State) (f : Fw → Fw) : (modFw s f).card = s.card := rfl
@[simp] theorem modFw_felt (s : State) (f : Fw → Fw) : (modFw s f).felt = s.felt := rfl
@[simp] theorem modFw_flash (s : State) (f : Fw → Fw) : (modFw s f).flash = s.flash := rfl
@[simp] theorem modFw_brim (s : State) (f : Fw → Fw) : (modFw s f).brim = s.brim := rfl

@[simp] theorem freeVal_fresh (s : State) : (freeVal s).1.fresh = s.fresh + 1 := rfl
@[simp] theorem freeVal_pending (s : State) : (freeVal s).1.pending = s.pending := rfl
@[simp] theorem freeVal_part (s : State) : (freeVal s).1.part = s.part := rfl
@[simp] theorem freeVal_now (s : State) : (freeVal s).1.now = s.now := rfl
@[simp] theorem freeVal_flds (s : State) : (freeVal s).1.flds = s.flds := rfl
@[simp] theorem freeVal_sent (s : State) : (freeVal s).1.sent = s.sent := rfl
@[simp] theorem freeVal_bow (s : State) : (freeVal s).1.bow = s.bow := rfl
@[simp] theorem freeVal_twin (s : State) : (freeVal s).1.twin = s.twin := rfl
@[simp] theorem freeVal_dram (s : State) : (freeVal s).1.dram = s.dram := rfl
@[simp] theorem freeVal_integ (s : State) : (freeVal s).1.integ = s.integ := rfl
@[simp] theorem freeVal_kettle (s : State) : (freeVal s).1.kettle = s.kettle := rfl
@[simp] theorem freeVal_tiers (s : State) : (freeVal s).1.tiers = s.tiers := rfl
@[simp] theorem freeVal_host (s : State) : (freeVal s).1.host = s.host := rfl
@[simp] theorem freeVal_fw (s : State) : (freeVal s).1.fw = s.fw := rfl
@[simp] theorem freeVal_power (s : State) : (freeVal s).1.power = s.power := rfl
@[simp] theorem freeVal_crown (s : State) : (freeVal s).1.crown = s.crown := rfl
@[simp] theorem freeVal_srch (s : State) : (freeVal s).1.srch = s.srch := rfl
@[simp] theorem freeVal_card (s : State) : (freeVal s).1.card = s.card := rfl
@[simp] theorem freeVal_felt (s : State) : (freeVal s).1.felt = s.felt := rfl
@[simp] theorem freeVal_flash (s : State) : (freeVal s).1.flash = s.flash := rfl
@[simp] theorem freeVal_brim (s : State) : (freeVal s).1.brim = s.brim := rfl

end Sys2Proof.Machine
end

