-- ==== Sys2Proof/Laws/Registers.lean ====
section
/-! SUPPORT. The laws of the register fields: what a field reads after a write of itself or of another field, what counters do, and where
the registers that the commands name stand in the table. -/
namespace Sys2Proof.Machine
open Sys2Proof

theorem getF_lt (s : State) (f : Fld) : getF s f < 2 ^ f.wid := Nat.mod_lt _ (Nat.two_pow_pos _)

@[simp] theorem getF_mod (s : State) (f : Fld) : getF s f % 2 ^ f.wid = getF s f := Nat.mod_eq_of_lt (getF_lt s f)

@[simp] theorem getF_setF_same (s : State) (f : Fld) (v : Nat) : getF (setF s f v) f = v % 2 ^ f.wid := by
  simp [getF, mget_mput_same]

theorem getF_setF_other (s : State) (f g : Fld) (v : Nat) (h : g.key ≠ f.key) : getF (setF s f v) g = getF s g := by
  simp [getF, mget_mput_other _ _ _ _ h]

theorem getF_setF (s : State) (f g : Fld) (v : Nat) :
    getF (setF s f v) g = if g.key = f.key then v % 2 ^ f.wid % 2 ^ g.wid else getF s g := by
  by_cases h : g.key = f.key
  · simp [getF, h, mget_mput_same]
  · simp [h, getF_setF_other]

theorem getF_congr {s t : State} (h : t.flds = s.flds) (f : Fld) : getF t f = getF s f := by simp [getF, h]

@[simp] theorem getF_emit (s : State) (x : Sent) (f : Fld) : getF (emit s x) f = getF s f := rfl
@[simp] theorem getF_modHost (s : State) (k : HostIf → HostIf) (f : Fld) : getF (modHost s k) f = getF s f := rfl
@[simp] theorem getF_modTiers (s : State) (k : Tiers → Tiers) (f : Fld) : getF (modTiers s k) f = getF s f := rfl
@[simp] theorem getF_modBow (s : State) (k : Bow → Bow) (f : Fld) : getF (modBow s k) f = getF s f := rfl
@[simp] theorem getF_modPower (s : State) (k : Power → Power) (f : Fld) : getF (modPower s k) f = getF s f := rfl
@[simp] theorem getF_modCrown (s : State) (k : Crown → Crown) (f : Fld) : getF (modCrown s k) f = getF s f := rfl
@[simp] theorem getF_modFlash (s : State) (k : Flash → Flash) (f : Fld) : getF (modFlash s k) f = getF s f := rfl
@[simp] theorem getF_modFw (s : State) (k : Fw → Fw) (f : Fld) : getF (modFw s k) f = getF s f := rfl
@[simp] theorem getF_modBrim (s : State) (k : Brim → Brim) (f : Fld) : getF (modBrim s k) f = getF s f := rfl
@[simp] theorem getF_modSrch (s : State) (k : Srch → Srch) (f : Fld) : getF (modSrch s k) f = getF s f := rfl
@[simp] theorem getF_modCard (s : State) (k : Card → Card) (f : Fld) : getF (modCard s k) f = getF s f := rfl
@[simp] theorem getF_modFelt (s : State) (k : Felt → Felt) (f : Fld) : getF (modFelt s k) f = getF s f := rfl
@[simp] theorem getF_modTwin (s : State) (k : Twin → Twin) (f : Fld) : getF (modTwin s k) f = getF s f := rfl
@[simp] theorem getF_modInteg (s : State) (k : Integrity → Integrity) (f : Fld) : getF (modInteg s k) f = getF s f := rfl

theorem bits_zero_low (v w : Nat) : bits v 0 w = v % 2 ^ w := by simp [bits]

/-- A field put into a word reads back as it was put. -/
theorem bits_setBits (n lo w v : Nat) : bits (setBits n lo w v) lo w = v % 2 ^ w := by
  have e : setBits n lo w v = n - (n / 2 ^ lo % 2 ^ w) * 2 ^ lo + (v % 2 ^ w) * 2 ^ lo := by
    simp [setBits, bits, Nat.shiftLeft_eq, Nat.shiftRight_eq_div_pow]
  have hp : 0 < 2 ^ lo := Nat.two_pow_pos lo
  have h1 : n = n % 2 ^ lo + 2 ^ lo * (n / 2 ^ lo) := (Nat.mod_add_div n (2 ^ lo)).symm
  have h2 : n / 2 ^ lo = n / 2 ^ lo % 2 ^ w + 2 ^ w * (n / 2 ^ lo / 2 ^ w) := (Nat.mod_add_div _ _).symm
  have h3 : n - (n / 2 ^ lo % 2 ^ w) * 2 ^ lo = n % 2 ^ lo + 2 ^ lo * (2 ^ w * (n / 2 ^ lo / 2 ^ w)) := by
    generalize n / 2 ^ lo / 2 ^ w = q at *
    generalize n / 2 ^ lo % 2 ^ w = r at *
    generalize n % 2 ^ lo = z at *
    rw [h2] at h1
    rw [h1, Nat.mul_add, Nat.mul_comm r, ← Nat.add_assoc, Nat.add_right_comm, Nat.add_sub_cancel]
  have h4 : setBits n lo w v = n % 2 ^ lo + 2 ^ lo * (v % 2 ^ w + 2 ^ w * (n / 2 ^ lo / 2 ^ w)) := by
    rw [e, h3, Nat.add_assoc, Nat.mul_comm (v % 2 ^ w), ← Nat.mul_add, Nat.add_comm (2 ^ w * _)]
  have h5 : setBits n lo w v / 2 ^ lo = v % 2 ^ w + 2 ^ w * (n / 2 ^ lo / 2 ^ w) := by
    rw [h4, Nat.add_mul_div_left _ _ hp, Nat.div_eq_of_lt (Nat.mod_lt _ hp), Nat.zero_add]
  rw [bits, Nat.shiftRight_eq_div_pow, h5, Nat.add_mul_mod_self_left, Nat.mod_mod]

end Sys2Proof.Machine
end

