-- ==== Sys2Proof/Laws/Work.lean ====
section
/-! SUPPORT. Descriptors that wait to begin. -/
namespace Sys2Proof.Machine

/-- Work that waits to begin runs its class's operation. -/
theorem onWork_ready {s : State} {id cls : Nat} {w : Work} (h : WorkReady s id cls w) (k : State → Work → State) :
    onWork s id cls k = k s w := by
  obtain ⟨h1, h2, h3⟩ := h
  simp [onWork, h1, h2, h3]

/-- An ADMIN command whose operand is ready runs on it. -/
theorem onAdminF_ready {s : State} {id cmd len : Nat} {root : Bool} {w : Work} {t : State} {op : List Byte}
    (h : AdminReady s id cmd len root w t op) (fail : State → State) (k : State → Work → List Byte → State) :
    onAdminF s id cmd len root fail k = k t w op := by
  have hr : (root && w.tenant != 0) = false := by
    cases hroot : root with
    | false => rfl
    | true => simp [h.root hroot]
  unfold onAdminF
  rw [onWork_ready h.work]
  simp only [h.cmd, h.shape, h.inside, h.inTime, h.clean, h.read, h.bytes, hr]
  simp [Nat.not_lt.2 h.long]

/-- An ADMIN command whose operand is ready runs on it. -/
theorem onAdmin_ready {s : State} {id cmd len : Nat} {root : Bool} {w : Work} {t : State} {op : List Byte}
    (h : AdminReady s id cmd len root w t op) (k : State → Work → List Byte → State) : onAdmin s id cmd len root k = k t w op :=
  onAdminF_ready h _ k

end Sys2Proof.Machine
end

