-- ==== Sys2Proof/WellFormed.lean ====
section
/-! DEFINITION. Which commands are well formed: every operand that names a unit or carries a field lies in the range the spec gives it.
The meanings answer ill-formed commands too (they change nothing, or are refused by a status). -/
namespace Sys2Proof

/-- The number of a function (R413). -/
def isFn (n : Nat) : Bool := decide (n < 512)
/-- The number of a tenant (R8). -/
def isTenant (n : Nat) : Bool := decide (n < 512)
/-- The number of a queue (R8). -/
def isQueue (n : Nat) : Bool := decide (n < 4096)
/-- The number of a brim port (R9). -/
def isPort (n : Nat) : Bool := decide (n < 16)
/-- The number of a DRAM site (R9). -/
def isSite (n : Nat) : Bool := decide (n < 8)

/-- Who asks a DRAM controller, the batt store or a Ring tap (R19). -/
inductive Requester where
  | queueEngine | host | rma | tierManager | flashEngine
  | carder (i : Nat) | traversal (i : Nat) | tap (block : Nat) | core (i : Nat) | scrubber (i : Nat)
  deriving DecidableEq, Repr

/-- The requester number (R19): of two requests of one Ring cycle the lower is served first. Commands of one cycle are sent in that order
(log entry 73). -/
def Requester.no : Requester → Nat
  | .queueEngine => 0 | .host => 1 | .rma => 2 | .tierManager => 3 | .flashEngine => 4
  | .carder i => 5 + i | .traversal i => 13 + i | .tap b => 77 + b | .core i => 149 + i | .scrubber i => 165 + i

/-- The requester of a number; 169 to 255 are not assigned (R19). -/
def requesterOf (n : Nat) : Option Requester :=
  if n = 0 then some .queueEngine else if n = 1 then some .host else if n = 2 then some .rma
  else if n = 3 then some .tierManager else if n = 4 then some .flashEngine
  else if n < 13 then some (.carder (n - 5)) else if n < 77 then some (.traversal (n - 13))
  else if n < 149 then some (.tap (n - 77)) else if n < 165 then some (.core (n - 149))
  else if n < 169 then some (.scrubber (n - 165)) else none
/-- A word damaged on its way (R307, R323): a place between stores, and an error that the code tells (R304). -/
def PathUps.ok (u : PathUps) : Bool := decide (3 ≤ u.place) && decide (u.place ≤ 6) && decide (1 ≤ u.code) && decide (u.code ≤ 19)

/-- Home-table copies gone bad (R329): each a page of the node range and at least one of its two copies. -/
def homeBadOk (bad : List (Nat × Nat)) : Bool := bad.all (fun b => decide (b.1 < 2 ^ 28) && decide (1 ≤ b.2) && decide (b.2 ≤ 3))
/-- What an access meets: each damage well-formed. -/
def Met.ok (m : Met) : Bool := homeBadOk m.homeBad && m.path.all PathUps.ok
/-- The number of a path to the Crown (R485). -/
def isPath (n : Nat) : Bool := decide (n < 2)
/-- A 16-bit field. -/
def isHalf (n : Nat) : Bool := decide (n < 2 ^ 16)
/-- A 32-bit field. -/
def isWord (n : Nat) : Bool := decide (n < 2 ^ 32)
/-- A 64-bit field. -/
def isLong (n : Nat) : Bool := decide (n < 2 ^ 64)
/-- The number of a flash channel (R9). -/
def isChannel (n : Nat) : Bool := decide (n < 32)
/-- The number of a die of a channel (R352). -/
def isDie (n : Nat) : Bool := decide (n < 64)
/-- The number of a read unit of an FLU (R364). -/
def isReadUnit (n : Nat) : Bool := decide (n < 4)
/-- The number of a page of the node range (R327). -/
def isPage (n : Nat) : Bool := decide (n < 2 ^ 28)
/-- The number of an image slot (R257). -/
def isImage (n : Nat) : Bool := decide (n < 16)
/-- The number of a cell (R203). -/
def isCell (n : Nat) : Bool := decide (n < 1024)
/-- The number of a kettle of a site (R285). -/
def isKettle (n : Nat) : Bool := decide (n < 128)
/-- What an upset makes a bundle read: 0 none, 1 corrected, 2 uncorrectable. -/
def isEcc (n : Nat) : Bool := decide (n < 3)
/-- The number of a control core (R18). -/
def isCore (n : Nat) : Bool := decide (n < 16)
/-- The number of a rail monitor (R473). -/
def isRail (n : Nat) : Bool := decide (n < 16)
/-- The number of a node (R25). -/
def isNode (n : Nat) : Bool := decide (n < 64)
/-- The number of a pseudo-channel (R276). -/
def isChan (n : Nat) : Bool := decide (n < 32)
/-- The number of a staging window (R206). -/
def isWindow (n : Nat) : Bool := decide (n < 4)
/-- The number of a scrubber (R317). -/
def isScrubber (n : Nat) : Bool := decide (n < 4)
/-- A TICK_SYNC frame (R30). -/
def isFrame (n : Nat) : Bool := decide (n < 2 ^ 96)
/-- KTL_CTRL.MODE (R294). -/
def isMode (n : Nat) : Bool := decide (n < 4)
/-- An engine that can be reset (R18, R447). -/
def isEngine : Engine → Bool
  | .traversal n => decide (n < 64)
  | .tree n => decide (n < 32)
  | .carder n => decide (n < 8)
/-- The 72 temperatures of R480. -/
def isTemps (l : List Int) : Bool := l.length = 72
/-- The 16 rail readings of R480. -/
def isRails (l : List (Nat × Nat)) : Bool := l.length = 16
/-- A register access of 1 to 8 bytes (R11). -/
def isAccess (size val : Nat) : Bool := decide (1 ≤ size) && decide (size ≤ 8) && decide (val < 2 ^ (8 * size))

/-- Whether a command is well formed. -/
def Instr.wellFormed : Instr → Bool
  | .registerWrite fn _ size val => isFn fn && isAccess size val
  | .syncEnWrite _ => true
  | .logPop => true
  | .queueCreate fn => isFn fn
  | .queueDestroy fn _ => isFn fn
  | .queueDestroyDone fn => isFn fn
  | .warmResetRequest => true
  | .feltResetRequest => true
  | .drain site => isSite site
  | .cancel => true
  | .unfence site => isSite site
  | .testStart _ _ => true
  | .testComplete _ => true
  | .attach id gen => isWord id && isHalf gen
  | .detach => true
  | .clear => true
  | .jobRecordWritten => true
  | .capture => true
  | .failureRecordWritten => true
  | .fltFenceWrite _ _ => true
  | .kettleFenceWrite site _ _ => isSite site
  | .kettleModeWrite site mode => isSite site && isMode mode
  | .flashFenceWrite ch _ _ => isChannel ch
  | .dieReturnTestDone ch die _ => isChannel ch && isDie die
  | .portEnableWrite port _ => isPort port
  | .portFenceWrite port _ => isPort port
  | .rangePagesWrite _ => true
  | .floorWrite tenant _ => isTenant tenant
  | .lendWrite _ _ => true
  | .twinEnWrite _ => true
  | .meterWrite _ tenant _ => isTenant tenant
  | .msixUnmask fn _ => isFn fn
  | .hostMemRead _ met => met.ok
  | .hostMemWrite _ _ met => met.ok
  | .watchWordWake queue => isQueue queue
  | .queueVisit => true
  | .cqHeadRead queue => isQueue queue
  | .irqCoalesceTimeout queue => isQueue queue
  | .functionLevelReset fn => isFn fn
  | .vfDisable _ => true
  | .perstAssert => true
  | .perstRelease => true
  | .identifyMemoryDevice path => isPath path
  | .getSupportedLogs path => isPath path
  | .getLog path _ _ _ => isPath path
  | .getEventRecords path _ => isPath path
  | .clearEventRecords path _ _ _ => isPath path
  | .getEventInterruptPolicy path => isPath path
  | .setEventInterruptPolicy path _ => isPath path
  | .getTimestamp path => isPath path
  | .setTimestamp path value => isPath path && isLong value
  | .getHealthInfo path => isPath path
  | .getFwInfo path => isPath path
  | .transferFw path _ _ _ _ => isPath path
  | .activateFw path _ _ => isPath path
  | .unsupportedOpcode path => isPath path
  | .getSensors path => isPath path
  | .getEventLog path _ _ => isPath path
  | .getCert path => isPath path
  | .getReport path _ => isPath path
  | .commitSvn path => isPath path
  | .frecList path => isPath path
  | .frecRead path _ _ _ => isPath path
  | .frecHold path _ _ => isPath path
  | .getChallenge path => isPath path
  | .ownerEnroll path _ => isPath path
  | .ownerRevoke path _ _ _ => isPath path
  | .debugReset path _ _ => isPath path
  | .setSetting path _ _ _ => isPath path
  | .vendorUnlock path _ _ => isPath path
  | .spdmGetMeasurements path => isPath path
  | .search _ => true
  | .insert _ => true
  | .delete _ => true
  | .updatePrepareComplete _ => true
  | .commit _ => true
  | .gather _ => true
  | .gatherAdmit => true
  | .scatter _ => true
  | .scatterStart _ => true
  | .scatterRowResume _ => true
  | .run _ => true
  | .move _ _ => true
  | .rmaWrite _ => true
  | .rmaRead _ => true
  | .rmaFetchAdd _ => true
  | .rmaCompareSwap _ => true
  | .rmaFlush _ => true
  | .rmaWait _ => true
  | .waitRelease _ => true
  | .tenantOpen _ => true
  | .tenantClose _ => true
  | .indexRegister _ => true
  | .indexDeregister _ => true
  | .shardAttach _ => true
  | .shardDetach _ => true
  | .shardDetachComplete index shard => isHalf index && isHalf shard
  | .tableRegister _ => true
  | .tableDeregister _ => true
  | .pin _ => true
  | .unpin _ => true
  | .load _ => true
  | .unload _ => true
  | .stopRun _ => true
  | .withdraw _ => true
  | .role _ => true
  | .areaCreate _ => true
  | .areaDelete _ => true
  | .areaWrite _ => true
  | .areaRead _ => true
  | .regionRegister _ => true
  | .regionDeregister _ => true
  | .regionDeregisterDone _ => true
  | .gateList _ => true
  | .loadFrame frame _ _ => isFrame frame
  | .checkFrame frame _ _ => isFrame frame
  | .tickRefLost => true
  | .phaseLost _ => true
  | .checkMissing => true
  | .crossingAlignment => true
  | .eventPrepare => true
  | .comparisonPoint => true
  | .stepBoundary img => isImage img
  | .epochCommit index shard => isHalf index && isHalf shard
  | .gateListTakeover port => isPort port
  | .gateEntryChange port => isPort port
  | .imageLaunch img => isImage img
  | .scrubPacing => true
  | .roleApply => true
  | .meterRefill => true
  | .twinFrameSend => true
  | .twinLinkLost => true
  | .shardSearchAdmit => true
  | .admitTimeout _ => true
  | .traversalRound _ => true
  | .searchDeadline _ => true
  | .shardSearchExpiry _ => true
  | .merge => true
  | .rowFold index shard loc => isHalf index && isHalf shard && isWord loc
  | .forcedRetirement _ => true
  | .versionPressureRetire => true
  | .loadWindowEnd => true
  | .transferReady img cell win _ => isImage img && isCell cell && isWindow win
  | .lateReleaseResume img => isImage img
  | .feltWatchdog img => isImage img
  | .stop img cell ecc => isImage img && isCell cell && isEcc ecc
  | .cnop img cell ecc => isImage img && isCell cell && isEcc ecc
  | .add img cell ecc => isImage img && isCell cell && isEcc ecc
  | .sub img cell ecc => isImage img && isCell cell && isEcc ecc
  | .and img cell ecc => isImage img && isCell cell && isEcc ecc
  | .or img cell ecc => isImage img && isCell cell && isEcc ecc
  | .xor img cell ecc => isImage img && isCell cell && isEcc ecc
  | .shl img cell ecc => isImage img && isCell cell && isEcc ecc
  | .shr img cell ecc => isImage img && isCell cell && isEcc ecc
  | .sar img cell ecc => isImage img && isCell cell && isEcc ecc
  | .mul img cell ecc => isImage img && isCell cell && isEcc ecc
  | .mins img cell ecc => isImage img && isCell cell && isEcc ecc
  | .maxs img cell ecc => isImage img && isCell cell && isEcc ecc
  | .addi img cell ecc => isImage img && isCell cell && isEcc ecc
  | .andi img cell ecc => isImage img && isCell cell && isEcc ecc
  | .ori img cell ecc => isImage img && isCell cell && isEcc ecc
  | .ldi0 img cell ecc => isImage img && isCell cell && isEcc ecc
  | .ldi1 img cell ecc => isImage img && isCell cell && isEcc ecc
  | .ldi2 img cell ecc => isImage img && isCell cell && isEcc ecc
  | .ldi3 img cell ecc => isImage img && isCell cell && isEcc ecc
  | .loop img cell ecc => isImage img && isCell cell && isEcc ecc
  | .jump img cell ecc => isImage img && isCell cell && isEcc ecc
  | .stsel img cell ecc => isImage img && isCell cell && isEcc ecc
  | .mnop img cell ecc => isImage img && isCell cell && isEcc ecc
  | .mma img cell ecc => isImage img && isCell cell && isEcc ecc
  | .mclr img cell ecc => isImage img && isCell cell && isEcc ecc
  | .mrd img cell ecc => isImage img && isCell cell && isEcc ecc
  | .mwr img cell ecc => isImage img && isCell cell && isEcc ecc
  | .vnop img cell ecc => isImage img && isCell cell && isEcc ecc
  | .vadd img cell ecc => isImage img && isCell cell && isEcc ecc
  | .vsub img cell ecc => isImage img && isCell cell && isEcc ecc
  | .vmul img cell ecc => isImage img && isCell cell && isEcc ecc
  | .vfma img cell ecc => isImage img && isCell cell && isEcc ecc
  | .vfnma img cell ecc => isImage img && isCell cell && isEcc ecc
  | .vmin img cell ecc => isImage img && isCell cell && isEcc ecc
  | .vmax img cell ecc => isImage img && isCell cell && isEcc ecc
  | .vcmp img cell ecc => isImage img && isCell cell && isEcc ecc
  | .viadd img cell ecc => isImage img && isCell cell && isEcc ecc
  | .visub img cell ecc => isImage img && isCell cell && isEcc ecc
  | .vimul img cell ecc => isImage img && isCell cell && isEcc ecc
  | .vand img cell ecc => isImage img && isCell cell && isEcc ecc
  | .vor img cell ecc => isImage img && isCell cell && isEcc ecc
  | .vxor img cell ecc => isImage img && isCell cell && isEcc ecc
  | .vshl img cell ecc => isImage img && isCell cell && isEcc ecc
  | .vshr img cell ecc => isImage img && isCell cell && isEcc ecc
  | .vsel img cell ecc => isImage img && isCell cell && isEcc ecc
  | .vbc img cell ecc => isImage img && isCell cell && isEcc ecc
  | .vget img cell ecc => isImage img && isCell cell && isEcc ecc
  | .vput img cell ecc => isImage img && isCell cell && isEcc ecc
  | .vrot img cell ecc => isImage img && isCell cell && isEcc ecc
  | .pset img cell ecc => isImage img && isCell cell && isEcc ecc
  | .pget img cell ecc => isImage img && isCell cell && isEcc ecc
  | .vcvt img cell ecc => isImage img && isCell cell && isEcc ecc
  | .vrsc img cell ecc => isImage img && isCell cell && isEcc ecc
  | .vamax img cell ecc => isImage img && isCell cell && isEcc ecc
  | .vqenc img cell ecc => isImage img && isCell cell && isEcc ecc
  | .vqdec img cell ecc => isImage img && isCell cell && isEcc ecc
  | .xclr img cell ecc => isImage img && isCell cell && isEcc ecc
  | .xdot img cell ecc => isImage img && isCell cell && isEcc ecc
  | .xsum img cell ecc => isImage img && isCell cell && isEcc ecc
  | .xsqd img cell ecc => isImage img && isCell cell && isEcc ecc
  | .xdotqQi8 img cell ecc => isImage img && isCell cell && isEcc ecc
  | .xdotqQi4 img cell ecc => isImage img && isCell cell && isEcc ecc
  | .xrnd img cell ecc => isImage img && isCell cell && isEcc ecc
  | .xget img cell ecc => isImage img && isCell cell && isEcc ecc
  | .xadd img cell ecc => isImage img && isCell cell && isEcc ecc
  | .xnop img cell ecc => isImage img && isCell cell && isEcc ecc
  | .wrel img cell ecc => isImage img && isCell cell && isEcc ecc
  | .wgive img cell ecc => isImage img && isCell cell && isEcc ecc
  | .vlda img cell ecc _ => isImage img && isCell cell && isEcc ecc
  | .vsta img cell ecc => isImage img && isCell cell && isEcc ecc
  | .vld img cell ecc _ => isImage img && isCell cell && isEcc ecc
  | .vst img cell ecc => isImage img && isCell cell && isEcc ecc
  | .sld img cell ecc _ => isImage img && isCell cell && isEcc ecc
  | .sst img cell ecc => isImage img && isCell cell && isEcc ecc
  | .send img cell ecc => isImage img && isCell cell && isEcc ecc
  | .recv img cell ecc => isImage img && isCell cell && isEcc ecc
  | .dramRead req site _ _ _ _ _ => isSite site && (requesterOf req).isSome
  | .dramWrite req site _ _ _ _ _ _ => isSite site && (requesterOf req).isSome
  | .refresh site pc => isSite site && isChan pc
  | .kettleJob site _ _ _ _ _ _ _ _ => isSite site
  | .kettleJobStart site => isSite site
  | .kettlePoll site => isSite site
  | .fullWindowEnd site => isSite site
  | .kettleJobComplete site => isSite site
  | .kettleParityError site pc => isSite site && isChan pc
  | .knop site kettle => isSite site && isKettle kettle
  | .lds site kettle => isSite site && isKettle kettle
  | .sto site kettle => isSite site && isKettle kettle
  | .ldi site kettle => isSite site && isKettle kettle
  | .ldc site kettle => isSite site && isKettle kettle
  | .ald site kettle => isSite site && isKettle kettle
  | .aadd site kettle => isSite site && isKettle kettle
  | .cmp site kettle => isSite site && isKettle kettle
  | .tst site kettle => isSite site && isKettle kettle
  | .mand site kettle => isSite site && isKettle kettle
  | .mor site kettle => isSite site && isKettle kettle
  | .mnot site kettle => isSite site && isKettle kettle
  | .iadd site kettle => isSite site && isKettle kettle
  | .iadds site kettle => isSite site && isKettle kettle
  | .widen site kettle => isSite site && isKettle kettle
  | .tlu site kettle => isSite site && isKettle kettle
  | .gsum site kettle => isSite site && isKettle kettle
  | .bits site kettle => isSite site && isKettle kettle
  | .filt site kettle => isSite site && isKettle kettle
  | .emit site kettle => isSite site && isKettle kettle
  | .kettleLoop site kettle => isSite site && isKettle kettle
  | .kettleEnd site kettle => isSite site && isKettle kettle
  | .scrubLineVisit n _ => isScrubber n
  | .nodeRangeAccess req _ _ _ met => (requesterOf req).isSome && met.ok
  | .frameAllocate => true
  | .moveStart page _ => isPage page
  | .moveCommit _ => true
  | .moveAbandon _ => true
  | .demotionRound _ => true
  | .agerSweep => true
  | .lentFrameRequest _ => true
  | .flashWrite _ _ ru _ _ => isReadUnit ru
  | .flashWriteResume => true
  | .bandRowProgram _ _ => true
  | .flashProgramComplete _ _ _ => true
  | .flashRead _ unit weak => isReadUnit unit.ru && weak.all (fun w => isReadUnit w.2.1 && decide (2 ≤ w.2.2) && decide (w.2.2 ≤ 5))
  | .flashReadComplete _ _ => true
  | .garbageCollection => true
  | .slcFold _ => true
  | .patrolRead _ _ => true
  | .checkpointWrite _ => true
  | .rowRebuild => true
  | .flashMount _ => true
  | .mountComplete => true
  | .plossRecognised => true
  | .plossGlitch => true
  | .flushMarkerWritten => true
  | .flashOpTimeout ch die _ _ => isChannel ch && isDie die
  | .portTraining port node _ _ => isPort port && isNode node
  | .trainingRetry port => isPort port
  | .portDown port => isPort port
  | .flitReceive port _ _ words head ctl rest crc => isPort port && decide (words < 2 ^ 4608) && decide (head < 2 ^ 45) && decide (ctl < 2 ^ 49)
      && decide (rest < 2 ^ 406) && isWord crc
  | .quarantineEnd port => isPort port
  | .packetForward port p => isPort port && p.path.all PathUps.ok
  | .write port p => isPort port && p.path.all PathUps.ok
  | .readReq port p => isPort port && p.path.all PathUps.ok
  | .readData port p => isPort port && p.path.all PathUps.ok
  | .fetchAdd port p => isPort port && p.path.all PathUps.ok
  | .compareSwap port p => isPort port && p.path.all PathUps.ok
  | .atomicResp port p => isPort port && p.path.all PathUps.ok
  | .placed port p => isPort port && p.path.all PathUps.ok
  | .nak port p => isPort port && p.path.all PathUps.ok
  | .sys port p _ => isPort port && p.path.all PathUps.ok
  | .portmap port p => isPort port && p.path.all PathUps.ok
  | .portmapSend => true
  | .twin msg => decide (msg.frame.length = 32 + 24 * msg.checks.length)
  | .queueSample => true
  | .descriptorTimeout _ _ => true
  | .rmaTimeout _ => true
  | .reassemblyTimeout _ _ _ => true
  | .kettleOpTimeout site kettle => isSite site && isKettle kettle
  | .engineReset engine => isEngine engine
  | .coreWatchdogExpiry core _ _ => isCore core
  | .crownWatchdogExpiry => true
  | .powerOn => true
  | .brownOut rail => isRail rail
  | .resetNAssert => true
  | .resetNRelease => true
  | .coreRefLost => true
  | .portRefLost => true
  | .dramPllUnlock => true
  | .coreDoubleFault => true
  | .ringDeadlock => true
  | .warmResetPreparation _ => true
  | .warmReset => true
  | .coldReset => true
  | .feltOnlyReset => true
  | .startupStepComplete _ => true
  | .powerMeasure rails => isRails rails
  | .sensorRefresh temps => isTemps temps
  | .thermalTrip temps => isTemps temps
  | .eventLogWrite => true
  | .vfEnable _ => true
  | .vddMgmtRemoved => true
  | .atomicReplayExpiry _ _ => true
  | .wholeKeyExpiry _ _ => true
  | .engineResetComplete engine => isEngine engine
  | .coreRestartComplete core => isCore core
  | .spdmKeyExchange path _ => isPath path

end Sys2Proof
end

