-- ==== Sys2Proof/Tests/Slice0.lean ====
section
/-! SUPPORT. Tests: ill-formed terms, worked examples of the spec, and for each statement concrete states and operands that meet its hypotheses. -/
namespace Sys2Proof.Tests
open Sys2Proof Sys2Proof.Machine

set_option Elab.async false

/-! ### Well-formedness -/

theorem test_wf_numbers :
    [Instr.functionLevelReset 512, .floorWrite 512 0, .watchWordWake 4096, .portEnableWrite 16 0, .drain 8, .getCert 2, .attach 0 65536,
      .attach (2 ^ 32) 0, .setTimestamp 0 (2 ^ 64), .flashFenceWrite 32 false 0, .dieReturnTestDone 0 64 true, .flashRead 0 ⟨0, 4⟩ [],
      .stepBoundary 16, .stop 0 1024 0, .stop 0 0 3, .knop 0 128, .coreRestartComplete 16, .brownOut 16, .portTraining 0 64 0 0,
      .refresh 0 32, .transferReady 0 0 4 0, .scrubLineVisit 4 [], .loadFrame (2 ^ 96) 0 0, .kettleModeWrite 0 4,
      .engineReset (.traversal 64), .engineReset (.tree 32), .engineReset (.carder 8), .sensorRefresh [], .powerMeasure [],
      .registerWrite 0 0 0 0, .registerWrite 0 0 9 0, .registerWrite 0 0 1 256].all (fun i => !i.wellFormed) = true := by decide +kernel
theorem test_wf_page : Instr.wellFormed (.moveStart (2 ^ 28) .t2) = false := by decide +kernel
theorem test_wf_bounds :
    [Instr.functionLevelReset 511, .watchWordWake 4095, .portEnableWrite 15 0, .drain 7, .getCert 1, .attach (2 ^ 32 - 1) 65535,
      .stop 15 1023 2, .knop 7 127, .refresh 7 31, .scrubLineVisit 3 [], .loadFrame (2 ^ 96 - 1) 0 0, .registerWrite 511 0 8 (2 ^ 64 - 1),
      .engineReset (.tree 31)].all (fun i => i.wellFormed) = true := by decide +kernel
/-- The table gives no row any bits. -/
theorem test_decode_none : decodeTableWord 8 0 = none ∧ decodeTableWord 64 (2 ^ 64 - 1) = none := by decide +kernel

/-! ### Steps, reset, memory and the guard code -/

/-- A node at the end of start-up with its CXL link up. -/
def up : State := setF { State.reset with host := { State.reset.host with linkUp := true } } Reg.rstStatusStep 9

theorem witness_StepRunsFront : up.pending = [] ∧ clocksRun up = true ∧ State.reset.pending = [] ∧ clocksRun State.reset = false := by decide +kernel
/-- The state that an outcome goes on with. -/
def after (o : Host.Outcome State Fault Refusal) : Option State :=
  match o with
  | .next t => some t
  | .fault _ => none
  | .refused _ => none
theorem witness_MemoryCanonical : memWf up.dram.cells = true ∧
    (after (step { up with pending := [.dramWrite 1 0 0 [1, 2, 3] [] [] [] 0] })).any (fun t => t.dram.cells.length = 5) = true := by decide +kernel
/-- The example words of R303 and R305. -/
def exWord : List Nat := [0x66, 0x43, 0, 0x3C, 0, 0, 0, 0, 0, 0, 0, 0, 0, 0, 0, 0]
theorem test_guard_example : (encodeWord exWord).take 2 = [0xC9, 0xD0] ∧ (poisonWord exWord).take 2 = [0xC3, 0xDB] := by decide +kernel
theorem test_guard_corrects : classify (0xC9 :: 0xD0 :: 0x66 :: 0x47 :: exWord.drop 2) = .corrected 3 ∧
    correctWord (0xC9 :: 0xD0 :: 0x66 :: 0x47 :: exWord.drop 2) = encodeWord exWord := by decide +kernel
theorem witness_Guard : exWord.length = 16 ∧ (∀ b ∈ exWord, b < 256) ∧ (encodeWord exWord).length = 18 ∧ classify (encodeWord exWord) = .clean := by
  decide +kernel
/-- A stack that answers takes a write of one whole word and part of the next at its first line, which no word covers yet. -/
theorem witness_StackMemory : siteUp up 7 = true ∧ 0 + 20 ≤ siteBytes up 7 ∧ up.dram.badMap = [] ∧
    isWritten up 7 0 = false ∧ (after (exec (.dramWrite 1 7 0 (List.replicate 20 7) [] [] [(0, 18)] 0) up)).any (fun t => isWritten t 7 0) = true := by
  decide +kernel
theorem witness_StackAccess : siteUp up 0 = true ∧ siteUp State.reset 0 = false ∧ siteBytes up 0 - 1 + 1 ≤ siteBytes up 0 ∧
    siteBytes up 0 < siteBytes up 0 + 1 ∧ nodeAddr up 0 0x2000 = none := by decide +kernel
theorem test_dram_edge : goesOn (exec (.dramRead 1 4 (64 * 2 ^ 30 - 1) 1 [] [] 0) up) = true ∧
    after (exec (.dramRead 1 4 (64 * 2 ^ 30 - 1) 2 [] [] 0) up) = none := by decide +kernel
/-- A site that is fenced, and one more scrubber with budget. -/
def fencedNode : State := { up with
  fw := { up.fw with fencedSites := 128 }, integ := { up.integ with budget := [(0, 1), (3, 1), (2, 0)] } }
theorem witness_RefreshAndScrub : siteFenced up 7 = false ∧ up.power.vddMgmt = true ∧ up.power.tripped = false ∧
    5 ≤ getF up Reg.rstStatusStep ∧ (modPower up (fun p => { p with fromStep := 2 })).power.fromStep = 2 ∧ siteFenced fencedNode 7 = true ∧ ringUp fencedNode = true ∧ flagF fencedNode (Reg.intScrubEn.ix 3) = true ∧
    flagF fencedNode (Reg.intScrubEn.ix 0) = true ∧ mget fencedNode.integ.budget 3 = some 1 ∧ mget fencedNode.integ.budget 0 = some 1 ∧
    mget fencedNode.integ.budget 2 = some 0 ∧ mget fencedNode.integ.budget 1 = none := by decide +kernel

/-! ### Registers and the host -/

theorem witness_RegisterWrites : portOpen up = true ∧ fnEnabled up 0 = true ∧ hasKettles up.part = true ∧
    barAddr 0 0 = some 0 ∧ (regAt up 0).isSome = true ∧ barAddr 0 4 = some 4 ∧ barAddr 0 0x7FF8 = some 0x7FF8 ∧ regAt up 0x7FF8 = none ∧
    [0, 4, 0x7FF8].all (fun a => !(cxlRange a) && (msixOff a).isNone) = true := by decide +kernel
/-- Locks set. -/
def locked : State := setF up Reg.tckCtrlLock 1
theorem witness_FieldAndUnitWrites : portOpen up = true ∧ getF up Reg.tckCtrlLock = 0 ∧ portOpen locked = true ∧ getF locked Reg.tckCtrlLock = 1 ∧
    hasKettles up.part = true ∧ (List.range 4).all (fun k => getF up (Reg.ktlCtrlLock.ix k) = 0) = true ∧ getF up Reg.tirCtrlLock = 0 := by decide +kernel
theorem test_locked_write : getF locked Reg.tckCtrlSyncEn = 0 ∧
    (after (exec (.syncEnWrite 1) locked)).any (fun t => getF t Reg.idRsvdwrLockedWr = 1 && getF t Reg.tckCtrlSyncEn = 0) = true := by decide +kernel

/-- The node with 16 pages in its range and every function enabled. -/
def ranged : State := setF { up with host := { up.host with vfEnable := true, numVfs := 511 } } Reg.tirRangePages 16
/-- A queue of tenant 0. -/
def queue0 : Queue := ⟨0, 4, 0x1000, 4, 0x2000, 0x2010, 0, 0, false, 0, 0, [], 0, 0, none, [], false⟩
/-- A new queue's parameters in function 0's QNEW registers. -/
def qnewNode : State :=
  setF (setF (setF (setF (setF (setF ranged (Reg.qeQnewSqLog2.pg 0) 1) (Reg.qeQnewCqLog2.pg 0) 1) (Reg.qeQnewCqBase.pg 0) 0x1000)
    (Reg.qeQnewWatchAddr.pg 0) 0x2000) (Reg.qeQnewHeadAddr.pg 0) 0x2010) (Reg.qeQnewSqBase.pg 0) 0x3000
/-- The queue in slot 0 of function 0, and then under destroyal. -/
def withQueue (q : Queue) : State := { ranged with host := { ranged.host with queues := [(0, q)], wakes := [0] } }
def destroying : State := { withQueue queue0 with host := { (withQueue queue0).host with qcmdBusy := [(0, 0)] } }
/-- A descriptor of tenant 0. -/
def work0 (cls : Nat) (desc : List Byte) : Work := ⟨1, 0, 0, 0, cls, 0, false, desc, 0, 1000, false, false⟩
def withWork (s : State) (w : Work) : State := { s with host := { s.host with work := [w] } }
theorem witness_QueueCreate : portOpen qnewNode = true ∧ fnEnabled qnewNode 511 = true ∧ qcmdBusy qnewNode 0 = false ∧ ctxOpen qnewNode 511 = false ∧
    ctxOpen qnewNode 0 = true ∧ queueOf qnewNode (8 * 0 + 0) = none ∧ qnewOk qnewNode 0 = true ∧ qnewIn qnewNode 0 = true ∧
    (pageEnt qnewNode (pageNo (qnew qnewNode 0 Reg.qeQnewWatchAddr))).pins < 255 ∧
    (watchHome qnewNode (qnew qnewNode 0 Reg.qeQnewWatchAddr)).isSome = true := by decide +kernel
theorem witness_QueueDestroy : portOpen (withQueue queue0) = true ∧ qcmdBusy (withQueue queue0) 0 = false ∧
    (queueOf (withQueue queue0) (8 * 0 + 8 % 8)).isSome = true ∧ queueOf (withQueue queue0) (8 * 0 + 7 % 8) = none ∧
    mget destroying.host.qcmdBusy 0 = some 0 ∧ queueOpenWork destroying (8 * 0 + 0) = false ∧
    queueOpenWork (withWork destroying (work0 1 [])) (8 * 0 + 0) = true := by decide +kernel
/-- The watch word reads zero: the queue's tail is 0, or lies behind its head. -/
theorem witness_WatchWord : ringUp (withQueue queue0) = true ∧ (withQueue queue0).host.wakes.contains 0 = true ∧
    (let r := nrRead (withQueue queue0) 0x2000 8; r.2.timeout = false ∧ r.2.bad = false ∧ getLE r.2.bytes 0 4 = 0) ∧
    (2 ^ 32 - 3) % 2 ^ 32 ≤ (2 ^ 32 - 1) % 2 ^ 32 ∧ ¬ (2 ^ 32 - 1) % 2 ^ 32 ≤ 2 ^ queue0.sqLog2 := by decide +kernel
/-- Page 0 lies in frame 0 of site 0, whose word at 0x2000 is poisoned. -/
def poisonedPage : State :=
  match exec (.dramWrite 1 0 0x2000 (List.replicate 16 0) [0] [] [] 0) (withQueue queue0) with
  | .next t => { t with tiers := { t.tiers with home := [(0, ⟨.t2 0 0, 0, 0, 0, 0⟩)] } }
  | _ => up
theorem witness_WatchWordPoisoned : ringUp poisonedPage = true ∧ poisonedPage.host.wakes.contains 0 = true ∧
    (nrRead poisonedPage 0x2000 8).2.timeout = false ∧ (nrRead poisonedPage 0x2000 8).2.bad = true ∧ nodeAddr poisonedPage 0 0x2000 = some 0x2000 := by decide +kernel
/-- A queue with a descriptor to fetch, and the same with its ring in a page whose lender does not answer. -/
def fetching : State := withQueue { queue0 with tail := 1 }
def fetchingLent : State := { fetching with tiers := { fetching.tiers with home := [(0, ⟨.lent 0 5 1, 0, 0, 0, 0⟩)] } }
theorem witness_QueueVisit : ringUp fetching = true ∧ fetching.power.warmPend = false ∧ fetching.power.flushing = false ∧
    visitNext fetching = some 0 ∧ visitNext fetchingLent = some 0 ∧
    (queueOf (visitLoop (atLeast1 fetching Reg.qeCtrlBurst) (modHost fetching (fun h => { h with lastVisit := 0 })) 0) 0).any
      (fun y => y.head != 0) = true ∧
    (queueOf (visitLoop (atLeast1 fetchingLent Reg.qeCtrlBurst) (modHost fetchingLent (fun h => { h with lastVisit := 0 })) 0) 0).any
      (fun y => y.head = 0) = true := by decide +kernel
def sampling : State := setF (setF (setF (withQueue { queue0 with waitc := [⟨0, 0, 0, 0, false, 0, 0, false⟩], irqN := 1 }) (slotF Reg.qeQirqIrqEn 0) 1)
  (slotF Reg.qeQirqTicks 0) 1) Reg.tsCtrlSampleEn 1
theorem witness_QueueTimers : ringUp sampling = true ∧ sampling.power.flushing = false ∧ (queueOf sampling 0).any (fun x => !x.waitc.isEmpty && x.irqN != 0) = true ∧
    flagF { sampling with bow := { sampling.bow with count := 1 } } (slotF Reg.qeQirqIrqEn 0) = true ∧ getF sampling (slotF Reg.qeQirqTicks 0) = 1 ∧
    0 + 1 ≤ tickOf { sampling with bow := { sampling.bow with count := 1 } } ∧ flagF sampling Reg.tsCtrlSampleEn = true ∧
    tickOf sampling % atLeast1 sampling Reg.tsCtrlPeriod = 0 := by decide +kernel
theorem witness_HostAccess : portOpen ranged = true ∧ mustWait ranged ⟨1, true, false, 0x20000, 8, [], [], 9⟩ = false ∧ portOpen State.reset = false ∧ rangePages ranged * 65536 < 16 * 65536 - 4 + 8 ∧ fnEnabled ranged 511 = true ∧
    (ranged.host.vfEnable = true → ranged.host.numVfs ≤ 511) ∧ (up.host.vfEnable = true → up.host.numVfs ≤ 1) ∧ ranged.host.vfEnable = true ∧
    510 < ranged.host.numVfs ∧ (modHost up (fun h => { h with perstLow := true })).host.perstLow = true := by decide +kernel
theorem test_perst : (after (exec .perstAssert up)).any (fun t => t.host.perstLow && !t.host.linkUp && !(portOpen t)) = true := by decide +kernel

/-! ### The Crown and the firmware -/

theorem witness_CrownPaths : crownHears up 0 = true ∧ crownHears State.reset 1 = true ∧ crownHears State.reset 0 = false := by decide +kernel
/-- A Crown with a clock, a full set of failure records but one held, an owner, a nonce, a package and an event. -/
def crownBusy : State := modCrown up (fun c => { c with
  timeSet := some (5, 0), frecs := (List.range 8).map (fun r => (r, ⟨r, 1, 0, decide (r < 7), [1, 2, 3, 4]⟩)), owners := [(3, List.replicate 97 1)],
  nonces := [⟨List.replicate 32 1, 0⟩], slots := [(1, ⟨List.replicate 64 0, true⟩)], transfer := some ⟨1, 1, 4⟩, capture := some 1,
  buffer := [⟨0, 0, 0, 0x201, 0, 0, 0, 0⟩] })
theorem witness_CrownReads : crownHears crownBusy 1 = true ∧ crownBusy.crown.timeSet.isSome = true ∧ up.crown.timeSet = none ∧ (3 : Nat) ≤ 3 ∧ 0 < 64 ∧ 64 ≤ 64 ∧
    (List.replicate 32 (1 : Byte)).length = 32 ∧ (mget crownBusy.crown.frecs 7).isSome = true ∧ 4096 ≤ 4096 ∧ 131072 - 4096 + 4096 ≤ 131072 := by
  decide +kernel
theorem witness_CrownWrites : crownHears crownBusy 1 = true ∧ [0, 1, 2, 6].length = 4 ∧ [0, 1, 2, 6].any (fun m => decide (m % 4 = 3)) = false ∧
    ((cxlLogOf up 3).recs.take 0).map (·.handle) = [] ∧ slotRuns crownBusy (2 - 1) = false ∧ slotRuns crownBusy (1 - 1) = true ∧
    crownBusy.crown.transfer.all (fun t => t.path = 1) = true ∧ crownBusy.crown.transfer = some ⟨1, 2 - 1, 4⟩ ∧
    up.crown.transfer.all (fun t => t.path = 0) = true ∧ up.crown.transfer = none ∧ 4 + (2 ^ 24 - 4) ≤ 2 ^ 24 ∧ (slotPkg crownBusy (2 - 1)).isSome = true ∧
    crownHears up 0 = true ∧ flagF up Reg.crnStatusFallback = false := by decide +kernel
theorem witness_CrownSigned : crownHears crownBusy 0 = true ∧ crownHears crownBusy 1 = true ∧ nonceGood crownBusy (List.replicate 32 1) = true ∧
    nonceGood crownBusy (List.replicate 32 2) = false ∧ (mget crownBusy.crown.owners 3).isSome = true ∧ mhas crownBusy.crown.owners 0 = false ∧
    (List.replicate 97 (1 : Byte)).length = 97 := by decide +kernel
/-- A drain in progress, and a node with little DRAM left unfenced. -/
def draining : State := modFw up (fun f => { f with draining := some 7, fencedSites := 2 ^ 7 })
theorem witness_FirmwareSites : fwRuns up = true ∧ up.fw.draining = none ∧ drainRefused (setF up Reg.fwStackSite 7) 7 = false ∧
    fwRuns (modFw up (fun f => { f with fencedSites := 128 })) = true ∧
    drainRefused (setF (modFw up (fun f => { f with fencedSites := 128 })) Reg.fwStackSite 7) 7 = true ∧ fwRuns draining = true ∧
    siteFenced draining 7 = true ∧ getF up Reg.fwTestResult ≠ 1 ∧
    testUnitOk (setF (setF up Reg.fwTestKind 2) Reg.fwTestUnit 16) 2 16 = false ∧ testUnitOk (setF (setF up Reg.fwTestKind 2) Reg.fwTestUnit 15) 2 15 = true ∧
    testFenced (setF (setF up Reg.fwTestKind 2) Reg.fwTestUnit 15) 2 15 = flagF up (Reg.brmPortFence.ix 15) ∧
    testFenced (setF (setF (setF up (Reg.intScrubEn.ix 0) 0) Reg.fwTestKind 5) Reg.fwTestUnit 0) 5 0 = true ∧
    testFenced (setF (setF (setF up (Reg.intScrubEn.ix 0) 1) Reg.fwTestKind 5) Reg.fwTestUnit 0) 5 0 = false ∧
    fwRuns (setF up Reg.fwTestResult 1) = true ∧ getF (setF up Reg.fwTestResult 1) Reg.fwTestResult = 1 := by decide +kernel
/-- A job command that waits for its record. -/
def jobWaits (op : Nat) : State := { up with bow := { up.bow with st := .synced }, fw := { up.fw with jobCmd := some (op, 7, 1) } }
theorem witness_JobsAndRecords : fwRuns up = true ∧ up.fw.jobCmd = none ∧
    attachStatus (modFw (jobWaits 1) (fun f => { f with jobCmd := none })) 7 1 = .ok ∧
    attachStatus (modFw { jobWaits 1 with bow := up.bow } (fun f => { f with jobCmd := none })) 7 1 ≠ .ok ∧ (jobWaits 2).fw.jobCmd = some (2, 7, 1) ∧
    (jobWaits 3).fw.jobCmd = some (3, 7, 1) ∧ (jobWaits 3).crown.attach = none ∧ live up = true ∧ portOpen up = true ∧
    crownBusy.crown.capture = some 1 ∧ crownBusy.power.vddMgmt = true ∧ frecTarget crownBusy = some 7 ∧
    frecTarget (modCrown crownBusy (fun c => { c with frecs := c.frecs.map (fun r => (r.1, { r.2 with held := true })) })) = none ∧
    crownBusy.crown.buffer ≠ [] := by decide +kernel
/-- Work out of time, its engine wedged, and a core that expired twice before. -/
def expired : State :=
  { withWork up (work0 1 []) with
    bow := { up.bow with count := 1000000 }
    fw := { up.fw with aborting := [(.carder 7, 0, 1)], expiries := [(15, [1000000, 1000000])] } }
theorem witness_FirmwareRecovery : fwRuns expired = true ∧
    (workOf expired 1).any (fun w => descExpired expired w) = true ∧ expired.fw.aborting.any (fun a => a.2.2 = 2) = false ∧
    { expired with fw := { expired.fw with aborting := [] } }.fw.aborting.any (fun a => a.2.2 = 1) = false ∧ engineOk (.carder 7) = true ∧
    expired.fw.aborting.any (fun a => a.1 = .carder 7 && decide (tickOf expired ≥ a.2.1 + 1000)) = true ∧
    expired.fw.inReset.any (fun x => x.1 = .carder 7) = false ∧ (getF (setF expired Reg.fwStatusCores 0x8001) Reg.fwStatusCores).testBit 15 = true ∧
    expired.fw.stopped.contains 15 = false ∧ (modFw up (fun f => { f with stopped := [15] })).fw.stopped.contains 15 = true ∧
    (1 :: ((mget expired.fw.expiries 15).getD []).filter (fun t => decide (t + atLeast1 expired Reg.fwAutoWindow ≥ tickOf expired))).length = 3 ∧
    (1 :: ((mget expired.fw.expiries 0).getD []).filter (fun t => decide (t + atLeast1 expired Reg.fwAutoWindow ≥ tickOf expired))).length < 3 := by
  decide +kernel

/-! ### Resets, start-up and power -/

theorem witness_ResetSources : live up = true ∧ portOpen up = true ∧ (15 : Nat) ≤ 15 ∧ up.power.coldPend = false ∧ 2 ≤ getF up Reg.rstStatusStep ∧
    up.power.warmPend = false ∧ getF up Reg.rstStatusStep = 9 ∧ (askCold up 7).power.coldPend = true := by decide +kernel
theorem test_cold_covers_warm : (askWarm (askCold up 1) 4).power.coldPend = true ∧ (askWarm (askCold up 1) 4).power.warmPend = false ∧
    getF (askWarm (askCold up 1) 4) Reg.rstCauseCause = 0x12 + getF up Reg.rstCauseCause := by decide +kernel
/-- Resets that are pending. -/
def warmPending (done : Bool) : State := modPower up (fun p => { p with warmPend := true, prepDone := done })
theorem witness_ResetsApplied : (modPower up (fun p => { p with vddMgmt := false })).power.vddMgmt = false ∧ live (warmPending false) = true ∧
    (warmPending false).power.warmPend = true ∧ (warmPending false).power.prepDone = false ∧ (warmPending false).power.flushing = false ∧
    prepares (warmPending false) = true ∧ prepOver (warmPending false) = false ∧ (warmPending true).power.prepDone = true ∧
    live (modPower up (fun p => { p with coldPend := true })) = true ∧ live (modPower up (fun p => { p with feltPend := true })) = true ∧
    getF (modPower up (fun p => { p with feltPend := true })) Reg.rstStatusStep = 9 ∧ up.power.vddMgmt = true ∧ up.power.coldPend = false := by
  decide +kernel
/-- A node at a step of start-up. -/
def atStep (n : Nat) : State := setF State.reset Reg.rstStatusStep n
theorem witness_StartupSteps :
    (List.range 10).all (fun n => live (atStep n) && !(atStep n).power.coldPend && !(atStep n).power.warmPend && !(atStep n).power.halted
      && !(atStep n).power.flushing && !(atStep n).power.resetNLow && getF (atStep n) Reg.rstStatusStep = n && (getF (atStep n) Reg.rstStatusFail != n || n = 0)) = true ∧
    getF (setF (atStep 2) Reg.rstRailOk (2 ^ 16 - 1)) Reg.rstRailOk = 2 ^ 16 - 1 ∧ getF (atStep 2) Reg.rstRailOk ≠ 2 ^ 16 - 1 ∧
    (atStep 6).bow.align = none ∧ (atStep 9).host.perstLow = false ∧
    getF (setF (atStep 2) Reg.rstStatusFail 2) Reg.rstStatusFail = 2 := by decide +kernel
def capOn : State := setF (setF (setF up Reg.rstPcapEn 1) Reg.rstPcapLimit 300) Reg.rstPcapWindow 1
theorem witness_PowerAndHeat : up.power.vddMgmt = true ∧ overCap capOn [300 * 40000 + 1] = true ∧ overCap capOn [300 * 40000] = false ∧
    tripPoint (refreshTemps up (List.replicate 64 0x72F)) = false ∧ tripPoint (refreshTemps up (List.replicate 63 0 ++ [0x730])) = true ∧
    (refreshTemps up (List.replicate 63 0 ++ [0x730])).power.tripped = false ∧ live up = true ∧
    (((List.replicate 63 0 ++ [0x730]).take 64).any (fun t => decide (t ≥ (0x730 : Int)))) = true ∧ up.power.flushing = false ∧ up.power.halted = false ∧
    (modFlash up (fun f => { f with st := 2 })).flash.st = 2 ∧ up.flash.st ≠ 2 ∧ live (modPower up (fun p => { p with flushing := true })) = true := by
  decide +kernel
theorem test_powerMeasure : (after (exec (.powerMeasure (List.replicate 16 (65535, 65535))) capOn)).any (fun t => getF t Reg.rstPowerCapTicks = 1) = true ∧
    (after (exec (.powerMeasure []) capOn)).any (fun t => getF t Reg.rstPowerCapTicks = 0) = true := by decide +kernel

/-! ### Ticks -/

/-- A frame of a type and a count, with its CRC. -/
def frame (ty count : Nat) : Nat :=
  0xD5 + ty * 2 ^ 8 + count * 2 ^ 16 + crc16 (toBytes 9 (ty + count * 2 ^ 8)) * 2 ^ 80
def bowIs (st : BowSt) : State := setF { up with bow := { up.bow with st := st, refPresent := true, count := 700 } } Reg.tckCtrlSyncEn 1
theorem witness_Frames : clocksRun (bowIs .synced) = true ∧ (bowIs .free).bow.refPresent = true ∧ bits (frame 1 700) 0 8 = 0xD5 ∧
    frOk (frame 1 700) = true ∧ frOk (frame 2 699) = true ∧ frOk (frame 3 700) = false ∧ frOk (frame 1 700 + 2 ^ 80) = false ∧
    bits (frame 3 700) 0 8 = 0xD5 ∧ frType (frame 1 700) = 1 ∧ frType (frame 2 699) = 2 ∧ (frCount (frame 2 699) + 1) % 2 ^ 64 = 700 ∧
    (frCount (frame 1 (2 ^ 64 - 1)) + 701) % 2 ^ 64 = (bowIs .adopted).bow.count ∧ (frCount (frame 2 699) + 0) % 2 ^ 64 ≠ (bowIs .synced).bow.count ∧
    getF (bowIs .lost) Reg.tckCtrlSyncEn = 1 ∧ getF up Reg.tckCtrlSyncEn = 0 := by decide +kernel
theorem test_load_frame_synced : (after (exec (.loadFrame (frame 1 800) 0 0) (bowIs .synced))).any (fun t =>
    getF t Reg.tckStatusBadFrames = 1 && t.bow.count = 700 && t.bow.st = .synced) = true := by decide +kernel
theorem test_check_frame_agrees : (after (exec (.checkFrame (frame 2 699) 1 0) (bowIs .adopted))).any (fun t => t.bow.st = .synced) = true := by
  decide +kernel
theorem test_check_frame_differs : (after (exec (.checkFrame (frame 2 699) 0 0) (bowIs .synced))).any (fun t =>
    t.bow.st = .lost && t.bow.why = .mismatch && getF t Reg.tckStatusStateChg = 1) = true := by decide +kernel
theorem witness_BowStates : (bowIs .adopted).bow.phase.natAbs ≤ 16 ∧ 16 < (17 : Int).natAbs ∧ 16 < (-17 : Int).natAbs ∧
    { (bowIs .adopted) with bow := { (bowIs .adopted).bow with phase := -17 } }.bow.phase.natAbs = 17 ∧
    (setF (bowIs .synced) Reg.tckCtrlCheckMiss 2).bow.missed + 1 < atLeast1 (setF (bowIs .synced) Reg.tckCtrlCheckMiss 2) Reg.tckCtrlCheckMiss ∧
    atLeast1 (setF (bowIs .synced) Reg.tckCtrlCheckMiss 1) Reg.tckCtrlCheckMiss ≤ (bowIs .synced).bow.missed + 1 := by decide +kernel
/-- A schedule with an event of each kind, at the tick 700. -/
def scheduled (tick : Nat) : State :=
  { bowIs .synced with
    bow := { (bowIs .synced).bow with
      sched := [⟨.launch 15, tick, 1, 0, 0, false⟩, ⟨.commit 3 4, tick, 2, 0, 1, true⟩, ⟨.gate 15 [⟨1, 255⟩], tick, 3, 0, 2, true⟩], align := some 700 }
    host := { up.host with gates := [(15, ⟨690, [⟨10, 1⟩, ⟨5, 2⟩], 0⟩)] }
    felt := { up.felt with role := some (2, 700, 1) } }
def edged (tick : Nat) : State := edgeCommits (edgeUpTo (scheduled tick) 2) (fun j => decide (j < shardKey 3 4))
def edgedG (tick : Nat) : State := edgeGates (edgeUpTo (scheduled tick) 3) (fun j => decide (j < 15))
/-- One event, and shard 4 of index 3 at the last epoch but one. -/
def one (e : SchedEvt) : State :=
  let s : State := { scheduled 700 with bow := { (scheduled 700).bow with sched := [e] } }
  { s with srch := { s.srch with shards := [(shardKey 3 4, ⟨[], 2 ^ 48 - 3, none, 0, 0, []⟩)] } }
theorem witness_TickEvents : (scheduled 700).bow.align = some 700 ∧ 700 ≤ tickOf (scheduled 700) ∧ tickOf up < 700 ∧
    schedFirst (scheduled 704) (fun e => !e.prepared) = some 704 ∧ 704 ≤ tickOf (scheduled 704) + 4 ∧ tickOf (scheduled 705) + 4 < 705 ∧
    ((scheduled 704).bow.sched.find? (fun e => !e.prepared && e.tick = 704)).any (fun e => e.kind = .launch 15) = true ∧
    [EvtKind.commit 3 4, .gate 15 []].all (fun k => schedFirst (one ⟨k, 700, 2, 0, 1, false⟩) (fun e => !e.prepared) = some 700) = true ∧
    schedFirst (edged 700) (isCommitOf (shardKey 3 4)) = some 700 ∧ 700 ≤ tickOf (edged 700) ∧ bowRests (edged 700) = false ∧
    schedFirst (edged 701) (isCommitOf (shardKey 3 4)) = some 701 ∧ tickOf (edged 701) < 701 ∧
    schedFirst up (isCommitOf (shardKey 3 4)) = none ∧ schedFirst up (isGateOf 15) = none ∧
    (mget (one ⟨.commit 3 4, 700, 2, 0, 1, true⟩).srch.shards (shardKey 3 4)).any (fun h => h.detaching.isNone && decide (h.epoch + 1 < 2 ^ 48 - 1)) = true ∧
    ((one ⟨.commit 3 4, 700, 2, 0, 1, true⟩).bow.sched.all (fun e => !(isCommitOf (shardKey 3 4) e && e.tick = 700) || e.prepared)) = true ∧
    schedFirst (edgedG 700) (isGateOf 15) = some 700 ∧ 700 ≤ tickOf (edgedG 700) ∧ bowRests (edgedG 700) = false ∧
    schedFirst (edgedG 701) (isGateOf 15) = some 701 ∧ tickOf (edgedG 701) < 701 ∧
    (one ⟨.gate 15 [⟨1, 255⟩], 700, 3, 0, 2, true⟩).bow.sched.filter (fun e => isGateOf 15 e && e.tick = 700) = [⟨.gate 15 [⟨1, 255⟩], 700, 3, 0, 2, true⟩] ∧
    gateOf ⟨.gate 15 [⟨1, 255⟩], 700, 3, 0, 2, true⟩ = some (15, [⟨1, 255⟩]) ∧
    (mget (scheduled 700).host.gates 15).any (fun g => decide (g.tick ≤ tickOf (scheduled 700)) && gateCur (scheduled 700) g.tick g.ents != g.cur) = true ∧
    gateCur up 690 [] = 0 ∧ tickOf up < 690 := by decide +kernel
theorem witness_Launches : ((scheduled 700).bow.sched.find? (isLaunchOf 15)).any (fun e => decide (e.tick ≤ tickOf (scheduled 700))) = true ∧
    bowRests (scheduled 700) = false ∧ ((scheduled 701).bow.sched.find? (isLaunchOf 15)).any (fun e => decide (tickOf (scheduled 701) < e.tick)) = true ∧
    (scheduled 700).bow.st = .synced ∧ { scheduled 700 with bow := { (scheduled 700).bow with st := .lost } }.bow.st ≠ .synced ∧
    (imageOf (scheduled 700) 15).bind (·.unload) = none ∧ (scheduled 700).felt.role = some (2, 700, 1) ∧ (scheduled 700).felt.role.any (fun r => decide (tickOf up < r.2.1)) = true ∧
    (let u := (dueLaunches (edgeUpTo up 4)).foldl launchEvent (edgeUpTo up 4)
     (modInteg u (fun i => { i with budget := (List.range 4).map (fun n => (n, atLeast1 u (Reg.intScrubRate.ix n))) })).bow.edgeWork = false) ∧
    (let s := modBow up (fun b => { b with edgeWork := true })
     let u := (dueLaunches (edgeUpTo s 4)).foldl launchEvent (edgeUpTo s 4)
     (modInteg u (fun i => { i with budget := (List.range 4).map (fun n => (n, atLeast1 u (Reg.intScrubRate.ix n))) })).bow.edgeWork = true) := by
  decide +kernel
/-- Twins that are paired, with one digest of each. -/
def twinned (tick crc : Nat) : State :=
  setF { setF (setF up (Reg.brmPortState.ix 15) 2) (Reg.brmPortRole.ix 15) 2 with
    twin := { up.twin with st := 2, own := [⟨⟨0, 0, 0, 0, 0⟩, 5, 10, []⟩], peer := [⟨⟨0, 0, 0, 0, 0⟩, crc, tick, []⟩] } } Reg.tckTwinCtrlEn 1

theorem witness_TwinRows : (twinned 26 5).twin.st = 2 ∧ twinUp (twinned 26 5) = true ∧ { twinned 26 5 with twin := { (twinned 26 5).twin with st := 1 } }.twin.st = 1 ∧
    flagF (twinned 26 5) Reg.tckTwinCtrlEn = true ∧ twinUp (setF (twinned 26 5) (Reg.brmPortState.ix 15) 1) = false ∧
    flagF (twinned 26 5) Reg.tckTwinStatusLinkLost = false ∧ flagF (setF up Reg.tckTwinStatusLinkLost 1) Reg.tckTwinStatusLinkLost = true ∧
    26 ≤ 10 + twinLag (twinned 26 5) ∧ (twinned 26 6).twin.peer ≠ (twinned 26 5).twin.peer ∧
    tickOf up ≤ 10 + twinLag up ∧ 10 + twinLag up < tickOf { up with bow := { up.bow with count := 75 } } := by decide +kernel
theorem test_twin_differs : (after (exec .comparisonPoint (twinned 26 6))).any (fun t => getF t Reg.tckTwinStatusMismatches = 1 && t.twin.own.isEmpty) = true ∧
    (after (exec .comparisonPoint (twinned 26 5))).any (fun t => getF t Reg.tckTwinStatusMismatches = 0 && t.twin.own.isEmpty) = true := by decide +kernel

/-! ### Images and cells -/

/-- A cell at its entry with bundles `code`, some registers set, and one window that it owns. -/
def coreA : Machine.Core :=
  { seq := ⟨0, 0, [], none, false⟩, s := [(1, ⟨7, false⟩), (2, ⟨1, true⟩)], v := [(1, ⟨(127 - 24) * 2 ^ 23 * 2 ^ 256, false⟩), (2, ⟨0, true⟩)],
    p := [(1, ⟨1, false⟩)], acc := [], accSeen := [], lanes := [], lanesSeen := [], form := [], sets := [], sel := 0, sram := [],
    wins := [⟨0, 16, 0, true, 0, none⟩, ⟨16, 16, 0, false, 0, some 0⟩], pend := [], gave := [], send := none }
def cellA (code : List Nat) : Cell := ⟨0, code, [], coreA, coreA, [], false⟩
def runA : Run := ⟨1, 0, 1000, 2, 0, 0, 0, [], true, 0, 0, true, 0, 0, 0, false, 0, false, false, 0, [], [], none⟩
def imageA (c : Cell) : Image :=
  ⟨0, 1, 0x138, 100, [(0, c)], [], [⟨0, 1, 1, 0, 16, 1, 0, 0⟩], [], [], 8, 0, [⟨8, 0, 0, 5, false⟩], [], none, some runA, none⟩
def running (x : Image) : State := { up with felt := { up.felt with images := [(3, x)] } }
/-- Slot operations placed in a bundle. -/
def inC (w : Nat) : Nat := w + 2 ^ 120
def inX (w : Nat) : Nat := w * 2 ^ 32 + 2 ^ 121
def inV (w : Nat) : Nat := w * 2 ^ 56 + 2 ^ 122
def inM (w : Nat) : Nat := w * 2 ^ 88 + 2 ^ 123
/-- The state that a slot acts on. -/
def read (c : Cell) : State :=
  let r := readCode (running (imageA c)) 3 0 0 c
  { r.1 with fresh := r.1.fresh + 1 }
/-- The checks of a slot's readiness, as one test. -/
def canAct (slot op : Nat) (c : Cell) : Bool :=
  (neededSlots (c.bundle c.base.seq.pc) c.base.seq.rep).contains slot && decide (slotOp slot (c.bundle c.base.seq.pc) c.base.seq.rep = op)
    && !(c.acted.contains slot) && decide (dueWrels (read c) (imageA c) runA = []) && decide (bundleFaults (cellEnv (read c) (imageA c) runA 0 c []) c = [])
theorem ready_of (slot op : Nat) (c : Cell) (h : canAct slot op c = true) (hs : c.base.seq.stopped = false) (hf : c.faulted = false)
    (hc : (readCode (running (imageA c)) 3 0 0 c).2 = c) :
    SlotReady (running (imageA c)) 3 0 0 [] slot op (imageA c) runA (read c) c := by
  simp only [canAct, Bool.and_eq_true, decide_eq_true_eq, Bool.not_eq_true'] at h
  obtain ⟨⟨⟨⟨h1, h2⟩, h3⟩, h4⟩, h5⟩ := h
  exact ⟨rfl, rfl, rfl, rfl, ⟨(readCode (running (imageA c)) 3 0 0 c).1, c, rfl, hs, hf, Prod.ext rfl hc, rfl⟩, h1, h2, h3, h4, h5⟩
/-- A word of each operation of a slot, with the operation's number. -/
def wordsC : List (Nat × Nat) :=
  [1, 2, 3, 4, 5, 6, 7, 8, 9, 10, 11, 0x10, 0x11, 0x12].map (fun op => (op, op * 2 ^ 26 + 2 ^ 21 + 2 ^ 16))
    ++ [0x13, 0x14, 0x15, 0x16].map (fun op => (op, op * 2 ^ 26 + 2 ^ 21 + 0xFFFF))
    ++ [(0x20, 0x20 * 2 ^ 26 + 2 ^ 12 + 1), (0x20, 0x20 * 2 ^ 26 + 2 ^ 12 + 4095), (0x21, 0x21 * 2 ^ 26 + 4095), (0x22, 0x22 * 2 ^ 26 + 15)]
def wordsX : List (Nat × Nat) :=
  [(0, 0), (1, 2 ^ 17 + 1), (2, 2 * 2 ^ 17), (3, 2 ^ 21), (4, 2 * 2 ^ 21), (5, 3 * 2 ^ 21), (6, 4 * 2 ^ 21), (7, 5 * 2 ^ 21),
    (8, 5 * 2 ^ 21 + 2 ^ 20), (9, 6 * 2 ^ 21 + 1024), (10, 7 * 2 ^ 21), (10, 7 * 2 ^ 21 + 128)]
def wordsV : List (Nat × Nat) :=
  [1, 2, 3, 4, 5, 6, 7, 8, 0x10, 0x11, 0x12, 0x13, 0x14, 0x15, 0x16, 0x17, 0x18, 0x19, 0x1A, 0x1B, 0x1C, 0x1D, 0x1E, 0x22, 0x25, 0x30, 0x32,
    0x39, 0x3A].map (fun op => (op, op * 2 ^ 26))
    ++ [(0x17, 0x17 * 2 ^ 26 + 1), (0x20, 0x20 * 2 ^ 26 + 64), (0x26, 0x26 * 2 ^ 26 + 576), (0x27, 0x27 * 2 ^ 26 + 576), (0x31, 0x31 * 2 ^ 26 + 264),
      (0x33, 0x33 * 2 ^ 26 + 264), (0x38, 0x38 * 2 ^ 26 + 128), (0x38, 0x38 * 2 ^ 26 + 2 ^ 16 + 129), (0x34, 0x34 * 2 ^ 26 + 2 ^ 21 + 512),
      (0x35, 0x35 * 2 ^ 26 + 2 ^ 21 + 768)]
def wordsM : List (Nat × Nat) :=
  [(2, 2 * 2 ^ 27), (3, 3 * 2 ^ 27), (4, 4 * 2 ^ 27), (1, 2 ^ 27 + 2 * 2 ^ 4), (1, 2 ^ 27 + 9 * 2 ^ 4)]
theorem witness_acts : wordsC.all (fun p => canAct 0 p.1 (cellA [inC p.2])) = true ∧ wordsX.all (fun p => canAct 1 p.1 (cellA [inX p.2])) = true ∧
    wordsV.all (fun p => canAct 2 p.1 (cellA [inV p.2])) = true ∧ wordsM.all (fun p => canAct 3 p.1 (cellA [inM p.2])) = true ∧
    canAct 0 0 (cellA [0]) = true ∧ canAct 2 0 (cellA [inV 0]) = true ∧ canAct 3 0 (cellA [inM 0]) = true ∧ canAct 4 0 (cellA [2 ^ 124]) = true := by
  decide +kernel
/-- Every scalar operation has a state in which its slot is ready, on registers that carry no poison; and so for the other slots. -/
theorem witness_ScalarSlots (p : Nat × Nat) (h : p ∈ wordsC) :
    SlotReady (running (imageA (cellA [inC p.2]))) 3 0 0 [] 0 p.1 (imageA (cellA [inC p.2])) runA (read (cellA [inC p.2])) (cellA [inC p.2]) :=
  ready_of 0 p.1 _ (List.all_eq_true.1 witness_acts.1 p h) rfl rfl rfl
theorem witness_ScalarOperands : wordsC.all (fun p => bEn (inC p.2) 0 && !(coreA.rs (bits (slotC (inC p.2)) 16 5)).tag
      && (decide (p.1 > 11) || !(coreA.rs (bits (slotC (inC p.2)) 11 5)).tag)) = true ∧ coreA.seq.rep = 0 ∧
    loopOk coreA.seq (inC (0x20 * 2 ^ 26 + 2 ^ 12 + 4095)) = true ∧ jumpOk coreA.seq (inC (0x21 * 2 ^ 26 + 4095)) ((cellA [inC (0x21 * 2 ^ 26 + 4095)]).bundle 1) = true := by
  decide +kernel
theorem witness_MemorySlots (p : Nat × Nat) (h : p ∈ wordsX) :
    SlotReady (running (imageA (cellA [inX p.2]))) 3 0 0 [] 1 p.1 (imageA (cellA [inX p.2])) runA (read (cellA [inX p.2])) (cellA [inX p.2]) :=
  ready_of 1 p.1 _ (List.all_eq_true.1 witness_acts.2.1 p h) rfl rfl rfl
theorem witness_MemoryOperands : lineFault coreA 0 = none ∧ (coreA.rs 0).tag = false ∧ (0 + ux 64 (8 * sx 10 0)) % 2 ^ 64 ≤ sramTop ∧
    ringOwned coreA.wins (0 / 256) = false ∧ (coreA.win 1).dir ≠ 0xFF ∧ (coreA.win 1).own = false ∧
    (if (coreA.win 1).dir = 0 then (coreA.win 1).xfer else (coreA.win 1).xfer - 1) < xferCount (imageA (cellA [])).staging 0 1 ∧
    (coreA.win 1).ready = some 0 ∧ 0 + 8 ≤ issueFelt runA 8 ∧ (coreA.win 0).own = true ∧ (coreA.win 0).dir ≠ 1 ∧
    (coreA.rp 0).val.testBit 0 = true ∧ (coreA.rp (bits (7 * 2 ^ 21 + 128) 7 3)).val.testBit 0 = true ∧ (coreA.rp 2).val.testBit 0 = false ∧
    ((imageA (cellA [])).flits.find? (fun f => f.at_ = 8 && f.cell = 0 && f.dir = bits 0 12 2)).isSome = true := by decide +kernel
theorem witness_LaneSlots (p : Nat × Nat) (h : p ∈ wordsV) :
    SlotReady (running (imageA (cellA [inV p.2]))) 3 0 0 [] 2 p.1 (imageA (cellA [inV p.2])) runA (read (cellA [inV p.2])) (cellA [inV p.2]) :=
  ready_of 2 p.1 _ (List.all_eq_true.1 witness_acts.2.2.1 p h) rfl rfl rfl
theorem witness_LaneOperands : (coreA.rv 0).tag = false ∧ (coreA.rp 0).tag = false ∧ (coreA.rs 0).tag = false ∧ (coreA.rs 1).val = 7 ∧
    wordsV.all (fun p => formOk coreA p.2) = true ∧ scaleOk (coreA.rv 1).val = true ∧ (coreA.rv 1).val.testBit 304 = false ∧
    bits (coreA.rs 0).val 18 46 = 0 ∧ bits (coreA.rs 0).val 6 2 = 0 ∧ (coreA.rv 0).val / 2 ^ (640 + 128) = 0 ∧
    [(9, sideZero (coreA.rv 0).val), (9, sideZero (coreA.rv 1).val), (10, sideZero (coreA.rv 1).val), (7, sx 8 (bits (coreA.rs 0).val 8 8))].all
      (fun z => zeroOk z.1 z.2) = true := by decide +kernel
theorem witness_MatrixSlots (p : Nat × Nat) (h : p ∈ wordsM) :
    SlotReady (running (imageA (cellA [inM p.2]))) 3 0 0 [] 3 p.1 (imageA (cellA [inM p.2])) runA (read (cellA [inM p.2])) (cellA [inM p.2]) :=
  ready_of 3 p.1 _ (List.all_eq_true.1 witness_acts.2.2.2.1 p h) rfl rfl rfl
theorem witness_MatrixOperands : (coreA.rv 0).tag = false ∧ (coreA.ac 0).tag = false ∧ (coreA.ac 0).kind = none ∧ intFmt 2 = false ∧ intFmt 9 = true := by
  decide +kernel
theorem witness_IdleSlots :
    SlotReady (running (imageA (cellA [0]))) 3 0 0 [] 0 0 (imageA (cellA [0])) runA (read (cellA [0])) (cellA [0]) ∧
    SlotReady (running (imageA (cellA [inV 0]))) 3 0 0 [] 2 0 (imageA (cellA [inV 0])) runA (read (cellA [inV 0])) (cellA [inV 0]) ∧
    SlotReady (running (imageA (cellA [inM 0]))) 3 0 0 [] 3 0 (imageA (cellA [inM 0])) runA (read (cellA [inM 0])) (cellA [inM 0]) ∧
    SlotReady (running (imageA (cellA [2 ^ 124]))) 3 0 0 [] 4 0 (imageA (cellA [2 ^ 124])) runA (read (cellA [2 ^ 124])) (cellA [2 ^ 124]) :=
  ⟨ready_of 0 0 _ witness_acts.2.2.2.2.1 rfl rfl rfl, ready_of 2 0 _ witness_acts.2.2.2.2.2.1 rfl rfl rfl,
    ready_of 3 0 _ witness_acts.2.2.2.2.2.2.1 rfl rfl rfl, ready_of 4 0 _ witness_acts.2.2.2.2.2.2.2 rfl rfl rfl⟩
/-- Bundles whose operand registers carry poison: ADD and SLD by register 2, VADD by vector register 2. -/
def poisonedSlots : List (Nat × Nat) :=
  [(0, inC (2 ^ 26 + 2 * 2 ^ 16)), (1, inX (5 * 2 ^ 21 + 2 * 2 ^ 10)), (2, inV (2 ^ 26 + 2 * 2 ^ 16))]
theorem witness_CellFaults : poisonedSlots.all (fun p => (neededSlots p.2 0).contains p.1 && bundleLegal p.2
      && decide (slotOp p.1 p.2 0 = if p.1 = 1 then 7 else 1) && decide (dueWrels (read (cellA [p.2])) (imageA (cellA [p.2])) runA = [])
      && (bundleFaults (cellEnv (read (cellA [p.2])) (imageA (cellA [p.2])) runA 0 (cellA [p.2]) []) (cellA [p.2])).contains (fPoison, some p.1)) = true ∧
    (coreA.rs (bits (slotC (inC (2 ^ 26 + 2 * 2 ^ 16))) 16 5)).tag = true ∧ (coreA.rs (bits (slotX (inX (5 * 2 ^ 21 + 2 * 2 ^ 10))) 10 5)).tag = true ∧
    (coreA.rv (bits (slotV (inV (2 ^ 26 + 2 * 2 ^ 16))) 16 5)).tag = true ∧ (mget (cellA [0]).codeErr 0).getD 0 < beyond ∧
    poisonedSlots.all (fun p => decide ((readCode (running (imageA (cellA [p.2]))) 3 0 0 (cellA [p.2])).2 = cellA [p.2])) = true := by decide +kernel
/-- A loop's last bundle with one more pass, a jump, its delay slot, a repeated bundle and a stop. -/
theorem witness_BundleOrder : isLoop (inX 0 + 2 ^ 125) = false ∧ 0 < bRepeat (inX 0 + 2 ^ 125) ∧ bStop (2 ^ 124) = true ∧ bRepeat (2 ^ 124) = 0 ∧
    isLoop (2 ^ 124) = false ∧ isJump (inC (0x21 * 2 ^ 26)) = true ∧ isJump 0 = false ∧ isLoop (inC (0x20 * 2 ^ 26 + 2 ^ 12 + 1)) = true ∧
    (cellA [0]).cur.seq.stopped = false ∧ (cellA [0]).faulted = false ∧ (cellA [0]).cur.seq.loops = [] ∧ (cellA [0]).cur.seq.jump = none := by
  decide +kernel

/-- What an image may be in at a boundary: between steps, in a step, stopped, at its last step, frozen, or with a transfer under way. -/
def boundary (f : Run → Run) (stopped : Bool) : Image :=
  let c := cellA [2 ^ 124]
  { imageA { c with base := { c.base with seq := { c.base.seq with stopped := stopped } } } with
    run := some (f runA), freeze := some ⟨8, 0, [(0, 1)]⟩, xfers := [⟨0, 0, 0, false⟩] }
def late (x : Image) : State := { running x with bow := { up.bow with count := 1000 } }
def stalled : State := { running (boundary id true) with bow := { up.bow with count := 60001 } }
def atEdge (x : Image) : State := edgeSteps (edgeUpTo (late x) 1) (fun i => decide (i < 3))
def halted (f : Run → Run) : Image := { boundary f true with freeze := none, xfers := [] }
theorem witness_RunningImages :
    [boundary (fun r => { r with inStep := false }) false, boundary id false, halted (fun r => { r with stopReq := true }), halted id].all
      (fun x => decide (imageOf (atEdge x) 3 = some x) && x.run.any (fun r => r.launched && decide (r.bound + r.period ≤ tickOf (atEdge x)))) = true ∧
    (boundary id false).run.any (fun r => (boundary id false).quiet r (r.bound + r.period)) = false ∧
    (halted id).run.any (fun r => (halted id).quiet r (r.bound + r.period) && !r.last) = true ∧
    (halted (fun r => { r with stopReq := true })).run.any (fun r => (halted id).quiet r (r.bound + r.period) && r.last) = true ∧
    tickOf (edgeSteps (edgeUpTo (running (boundary id false)) 1) (fun i => decide (i < 3))) < 0 + 1000 ∧
    (boundary id true).freeze.any (fun f => (f.waits.map (fun w => (mget (boundary id true).cells w.1).bind (fun c => (c.base.win w.2).ready))).all (·.isSome)
      && decide (f.waits.map (·.1) = [0]) && decide (f.tick + atLeast1 stalled Reg.fltCtrlWdogStall < tickOf stalled)) = true := by decide +kernel
theorem witness_Transfer : findIdx (fun (t : Xfer) => t.cell = 0 && t.win = 0) (boundary id false).xfers = some 0 ∧
    ((boundary id false).xfers[0]?).any (heldFill (boundary id false)) = false ∧
    (imageOf (((((boundary id false).xfers.take 1).filter (fun t => !t.moved && !(heldFill (boundary id false) t))).foldl
      (fun s t => moveXfer s 3 t) (running (boundary id false)))) 3).isSome = true := by decide +kernel
/-- A launch of a loaded image at its tick. -/
theorem witness_LaunchOfImage : (EvtKind.launch 3 = .launch 3) ∧ (imageOf (running (halted id)) 3).isSome = true ∧
    { running (halted id) with bow := { up.bow with st := .synced } }.bow.st = .synced := by decide +kernel

/-! ### Kettles -/

/-- Site 7 with a job on program 8, whose one part runs in kettle 127; a LOOP over a parameter of 0 and an area that is too large fault. -/
def jobA (lut : List Nat) (units : Nat) : KJob := ⟨4, none, 8, [[1048575]], lut, 0, [1], units, units, true, false, [], [(127, 127)], [], []⟩
def partA (lut : List Nat) (units : Nat) : Kettle := kettleNew (jobA lut units) 127 5 false
def kettled (j : KJob) (x : Kettle) (w : Nat) : State :=
  setKsite up 7 { ksiteNew with jobs := [j], kettles := [(127, x)], resident := [(127, (8, [w]))] }
theorem ready_kettle (j : KJob) (x : Kettle) (w op : Nat) (h : kOp w = op) (hj : j.started = true) (hr : x.running = true) (hp : x.pc = 0) :
    OpReady (kettled j x w) 7 127 op j x [w] w := by
  refine ⟨?_, rfl, ⟨8, rfl⟩, hr, by rw [hp]; rfl, h⟩
  show List.find? _ [j] = some j
  simp [hj]
def microOps : List Nat :=
  [0, 1, 2, 3, 4, 5, 6, 8, 9, 10, 11, 12, 0x10, 0x11, 0x12, 0x18, 0x19, 0x1C, 0x1D, 0x1E, 0x20, 0x3F]
theorem witness_KettleOps (op : Nat) (h : op ∈ microOps) (units : Nat) (lut : List Nat) :
    OpReady (kettled (jobA lut units) (partA lut units) (op * 2 ^ 58 + 1)) 7 127 op (jobA lut units) (partA lut units) [op * 2 ^ 58 + 1] (op * 2 ^ 58 + 1) :=
  ready_kettle _ _ _ _ ((by decide +kernel : ∀ op ∈ microOps, kOp (op * 2 ^ 58 + 1) = op) op h) rfl rfl rfl
def opS (w : Nat) : State := kettled (jobA [] 1) (partA [] 1) w
theorem witness_KettleStreams :
    (kStream (opS 1) (opEnv (opS 1) 7 (jobA [] 1) [1]) (opRun (opS 1) 7 (partA [] 1)) 0).isSome = true ∧
    kStream (opS 1) (opEnv (opS 1) 7 (jobA [] 1) [1]) (opRun (opS 1) 7 (partA [] 1)) 3 = none ∧
    bits ((partA [] 1).cw 6) 0 14 + bits ((partA [] 1).cw 6) 14 14 ≤ 16384 ∧ bits ((partA [] 1).cw 7) 0 14 + bits ((partA [] 1).cw 7) 14 14 ≤ 16384 ∧
    (let y := kettleNew { jobA [] 16383 with lists := [List.replicate 9 0] } 127 5 false
     ¬ bits (y.cw 6) 0 14 + bits (y.cw 6) 14 14 ≤ 16384) ∧ (jobA [7] 1).lut.length ≠ 0 ∧ (jobA [] 1).lut.length = 0 ∧
    bits ((partA [7] 1).cw 8) 0 14 + ceilDiv (2 * 1) 32 ≤ 16384 ∧ 0 < kCount (0x20 * 2 ^ 58 + 1) [1] ∧ kCount (0x20 * 2 ^ 58 + 2 ^ 24) [1] ≤ 2 ^ 24 ∧
    kCount (0x20 * 2 ^ 58) [1] = 0 := by decide +kernel
/-- A site in a mode with a program, and with a job that waits. -/
def kettleSite (mode : Nat) (jobs : List KJob) : State :=
  setF (setKsite up 7 { ksiteNew with
    jobs := jobs, kettles := [(127, partA [] 1)], progs := [(8, [0x3F * 2 ^ 58])], window := true }) (Reg.ktlCtrlMode.ix 3) mode
def waiting : KJob := { jobA [] 1 with started := false, active := [] }
theorem witness_KettleJob : ringUp (kettleSite 2 []) = true ∧ isKettleSite up.part 3 = false ∧ kMode (kettleSite 0 []) 7 = 0 ∧
    isKettleSite up.part 7 = true ∧ kAllFenced (kettleSite 1 []) 7 = false ∧ kMode (kettleSite 1 []) 7 ≠ 0 ∧
    (kettleSite 1 []).fw.fencedSites.testBit 7 = false ∧ (kettleSite 1 []).fw.draining ≠ some 7 ∧
    64 ≤ (ksiteOf (kettleSite 1 (List.replicate 64 waiting)) 7).jobs.length ∧ (ksiteOf (kettleSite 1 (List.replicate 63 waiting)) 7).jobs.length < 64 ∧
    kProgram (kettleSite 1 []) 7 9 = none ∧ (kProgram (kettleSite 1 []) 7 8).isSome = true := by decide +kernel
/-- A program that no window holds, and every pseudo-channel in direct mode. -/
def longSite : State := modKsite (kettleSite 2 [waiting]) 7 (fun x => { x with progs := [(8, [0x20 * 2 ^ 58 + 2 ^ 32 + 9216, 0, 0x3F * 2 ^ 58])] })
def allDirect : State := setF (kettleSite 2 [waiting]) (Reg.ktlCtrlDirect.ix 3) 1
theorem witness_KettleJobStart : (ksiteOf (kettleSite 2 [waiting]) 7).jobs = [waiting] ∧ kJobOn (ksiteOf (kettleSite 2 [waiting]) 7) = none ∧
    flagF (kettleSite 2 [waiting]) Reg.rstPowerCapped = false ∧ kMode (kettleSite 0 [waiting]) 7 = 0 ∧ kMode (kettleSite 1 [waiting]) 7 = 1 ∧
    kMode (kettleSite 2 [waiting]) 7 = 2 ∧ windowOwners (kettleSite 2 [waiting]) 7 ≠ [] ∧ windowOwners allDirect 7 = [] ∧
    kFits (kettleSite 2 [waiting]) 7 waiting = true ∧ kFits longSite 7 waiting = false := by decide +kernel
def fullJob : KJob := { jobA [] 1 with full := true }
theorem witness_KettleJobRun :
    (kJobOn (ksiteOf (kettleSite 1 [jobA [] 1]) 7)).isSome = true ∧ (jobA [] 1).full = false ∧ fullJob.full = true ∧
    (ksiteOf (kettleSite 2 [fullJob]) 7).window = true ∧ kJobOn (ksiteOf (kettleSite 2 [fullJob]) 7) = some fullJob ∧
    (kJobOn (ksiteOf (kReap (kettleSite 2 [fullJob]) 7 fullJob (fun y => !y.direct)) 7)).isSome = true ∧
    (jobA [] 1).todo = [] ∧ { jobA [] 1 with active := [] }.active = [] ∧
    (setKsite up 7 ksiteNew).kettle.length = 1 ∧ (ksiteOf (setKsite up 7 ksiteNew) 7).window = false ∧
    mget (ksiteOf (kettleSite 1 [jobA [] 1]) 7).kettles 127 = some (partA [] 1) ∧ (partA [] 1).running = true ∧ ¬ (partA [] 1).expiry ≤ tickOf up ∧
    (partA [] 1).expiry ≤ tickOf { up with bow := { up.bow with count := 5 } } := by decide +kernel
theorem test_kettle_end : (after (exec (.kettleEnd 7 127) (opS (0x3F * 2 ^ 58)))).any (fun t =>
    (mget (ksiteOf t 7).kettles 127).any (fun k => !k.running && k.cw1.testBit 0)) = true := by decide +kernel

/-! ### Descriptors -/

/-- A record of `len` bytes with little-endian fields (offset, bytes, value) in it. -/
def fields (len : Nat) (fs : List (Nat × Nat × Nat)) : List Byte := fs.foldl (fun b f => putLE b f.1 f.2.1 f.2.2) (List.replicate len 0)
theorem ready_work (s : State) (cls : Nat) (d : List Byte) : WorkReady (withWork s (work0 cls d)) 1 cls (work0 cls d) := ⟨rfl, rfl, rfl⟩
/-- An ADMIN descriptor of tenant 0 whose operand lies at 0x8000, a state that holds it with its operand, and the state once it is read. -/
def adminW (cmd len : Nat) : Work := work0 0x20 (fields 64 [(8, 1, cmd), (16, 8, 0x8000), (24, 4, len)])
def adminS (s : State) (cmd len : Nat) (op : List Byte) : State := withWork (nrPut s 0x8000 op) (adminW cmd len)
def adminT (s : State) (cmd len : Nat) (op : List Byte) : State := (nrRead (adminS s cmd len op) 0x8000 len).1
def adminFits (s : State) (cmd len : Nat) (op : List Byte) : Bool :=
  let w := adminW cmd len
  let r := nrRead (adminS s cmd len op) 0x8000 len
  decide (w.cmd = cmd ∧ w.opAddr = 0x8000 ∧ w.opLen = len ∧ r.2.timeout = false ∧ r.2.bad = false ∧ r.2.bytes = op) && adminShape w
    && inWindow (adminS s cmd len op) 0 0x8000 len
theorem ready_admin (s : State) (cmd len : Nat) (root : Bool) (op : List Byte) (h : adminFits s cmd len op = true) :
    AdminReady (adminS s cmd len op) 1 cmd len root (adminW cmd len) (adminT s cmd len op) op := by
  simp only [adminFits, Bool.and_eq_true, decide_eq_true_eq] at h
  obtain ⟨⟨⟨h1, h2, h3, h4, h5, h6⟩, h7⟩, h8⟩ := h
  exact ⟨ready_work _ _ _, h1, h7, Nat.le_of_eq h3.symm, h2.symm ▸ h8, fun _ => rfl, h2.symm ▸ rfl, h2.symm ▸ h4, h2.symm ▸ h5, h2.symm ▸ h6⟩

/-! ### Search and updates -/

/-- Index 5 of two dimensions, its shard 7 of four locals, and a query that names the shard. -/
def index5 : List Byte := fields 48 [(0, 2, 5), (4, 2, 2), (6, 1, 3), (8, 1, 10), (12, 4, 1)]
def shard7 : List Byte := fields 192 [(0, 2, 5), (2, 2, 7), (4, 4, 4), (8, 1, 2), (10, 1, 1), (16, 4, 0x3F800000), (20, 4, 2), (24, 4, 3), (36, 4, 4)]
def query7 : List Byte := fields 20 [(0, 2, 1), (2, 2, 2), (4, 1, 2), (8, 2, 7)]
def indexed (s : State) : State := modSrch s (fun x => { x with indexes := [(5, index5)] })
def sharded (s : State) : State := modSrch (indexed s) (fun x => { x with shards := [(shardKey 5 7, ⟨shard7, 0, none, 0, 0, []⟩)] })
def searchD : List Byte := fields 64 [(8, 2, 5), (10, 1, 1), (12, 2, 1), (14, 2, 1), (16, 2, 4096), (20, 4, 9), (40, 8, 0x9000), (48, 8, 0xA000), (56, 4, 80)]
def searchS : State := withWork (nrPut (sharded ranged) 0x9000 query7) (work0 1 searchD)
theorem witness_SearchDescriptor :
    WorkReady searchS 1 1 (work0 1 searchD) ∧ WorkReady (withWork ranged (work0 1 searchD)) 1 1 (work0 1 searchD) ∧
    (mget ranged.srch.indexes 5 = none ∧ mget searchS.srch.indexes ((work0 1 searchD).f 8 2) = some index5 ∧ ixTenant index5 = 0 ∧
      ixTenant (putLE index5 2 2 511) ≠ 0 ∧
      inWindow searchS 0 0x9000 16 = true ∧ inWindow searchS 0 0xA000 80 = true ∧ parOk (searchPar (work0 1 searchD)) = true ∧
      (work0 1 searchD).f 36 1 < 2 ∧ zeroAt searchD 37 3 = true ∧ zeroAt searchD 60 4 = true ∧ (searchPar (work0 1 searchD)).k = 1 ∧
      (let r := nrRead searchS 0x9000 8
       let u := nrRead r.1 0x9000 16
       r.2.timeout = false ∧ r.2.bad = false ∧ u.2.timeout = false ∧ u.2.bad = false ∧ getLE r.2.bytes 0 2 = 1 ∧ getLE r.2.bytes 5 1 = 0 ∧
        getLE u.2.bytes 2 2 = ixDims index5 ∧ getLE u.2.bytes 4 1 = 2 ∧ zeroAt u.2.bytes 6 2 = true ∧ zeroAt u.2.bytes 10 6 = true) ∧
      inWindow searchS 0 0x9000 20 = true ∧ noRepeats [7] = true ∧ filterOk index5 [] = true) :=
  ⟨ready_work _ _ _, ready_work _ _ _, by decide +kernel⟩
/-- A shard's search: waiting, admitted, exhaustive, with a requester node; and a coordinator that is full. -/
def search0 (ph : SPhase) : SSearch :=
  ⟨0, some 5, 5, 7, searchPar (work0 1 searchD), [], [0, 0, 0, 0], 2, none, 0, 0, ph, 0, 0, 0, 0, 0, [], 0, [], [], [], 0, 0, 1, 0, [], [], none, false⟩
def searching (x : SSearch) : State := modSrch (sharded ranged) (fun r => { r with
  searches := [(9, x)], coords := [(4, ⟨1, 5, 1, true, [7], 0xA000, 80, [], []⟩)], merges := [4] })
def admitting : State := edgeUpTo (searching (search0 .waiting)) 3
/-- A search that takes a pre-scan of column 0, at page 6 of site 7, where the index has a slot for it. -/
def scanner : SSearch := { search0 .waiting with filter := fields 16 [(0, 1, 1)], par := { (search0 .waiting).par with hint := 0, thresh := 1 } }
def scanning (home : Home) : State := edgeUpTo (modTiers (modSrch (searching scanner) (fun r => { r with
  indexes := [(5, putLE (putLE index5 16 2 1) 20 2 1)], shards := [(shardKey 5 7, ⟨putLE shard7 40 4 6, 0, none, 0, 0, []⟩)] }))
  (fun t => { t with home := [(6, ⟨home, 0, 0, 0, 0⟩)] })) 3
theorem witness_Admission : ringUp admitting = true ∧ admitting.power.warmPend = false ∧ flagF admitting Reg.rstPowerCapped = false ∧
    admitting.srch.searches.find? (fun x => x.2.phase = .waiting) = some (9, search0 .waiting) ∧ ctxOf ranged (shardKey 5 7) = none ∧
    (ctxOf admitting (shardKey 5 7)).any (fun p => p.1.detaching.isNone && takesScan (search0 .waiting) = false && (readBook admitting p.2).2.isSome) = true ∧
    (ctxOf (modShard admitting (shardKey 5 7) (fun h => { h with detaching := some 1 })) (shardKey 5 7)).any (fun p => p.1.detaching.isSome) = true ∧
    pickEngine admitting (4096 + 1) 0 = some 0 ∧ pickEngine admitting 65536 0 = some 0 ∧ pickEngine admitting 65537 0 = none ∧
    (search0 .waiting).qpois.isSome = false ∧ { search0 .waiting with qpois := some none }.qpois.isSome = true ∧ takesScan scanner = true ∧
    (ctxOf admitting (shardKey 5 7)).any (fun p => (pickScan admitting 5 p.2.reg).isNone) = true := by decide +kernel
theorem witness_AdmittedScan : [Home.t2 7 0, .t2 3 0].all (fun h => (ctxOf (scanning h) (shardKey 5 7)).any (fun p =>
    p.1.detaching.isNone && decide (pickScan (scanning h) 5 p.2.reg = some 0) && (readBook (scanning h) p.2).2.isSome
      && decide (kettleScan (scanning h) p.2 (filterOps scanner.filter) = decide (h = .t2 7 0)))
    && decide ((scanning h).srch.searches.find? (fun x => x.2.phase = .waiting) = some (9, scanner)) && ringUp (scanning h)) = true := by decide +kernel
def overdue (s : State) : State := { s with bow := { s.bow with count := 9 } }
theorem witness_SearchEvents :
    searchOf (searching (search0 .waiting)) 9 = some (search0 .waiting) ∧ searchOf (searching (search0 .running)) 9 = some (search0 .running) ∧
    engineDown (searching (search0 .running)) 0 = false ∧
    pastDeadline (searching (search0 .running)) (search0 .running) = false ∧ pastDeadline (overdue (searching (search0 .running))) (search0 .running) = true ∧
    (ctxOf (searching (search0 .running)) (shardKey 5 7)).any (fun p => (allowed (searching (search0 .running)) p.2 (search0 .running)).2.1.all
      (fun i => recReady (searching (search0 .running)) p.2 i 0) && (batchOf (search0 .running)).isEmpty) = true ∧
    (search0 .running).phase ≠ .waiting ∧ (search0 .running).par.deadline = 9 ∧ (search0 .running).node = some 5 ∧
    { search0 .running with exhaustive := true }.exhaustive = true ∧ (searching (search0 .running)).srch.merges = [4] ∧
    (mget (searching (search0 .running)).srch.coords 4).any (fun c => c.canon) = true ∧
    ([28, 29, 30, 31].all (fun i => (searching (search0 .running)).fw.inReset.any (fun x => x.1 = .tree i))) = false ∧
    ([28, 29, 30, 31].all (fun i => (modFw up (fun f => { f with inReset := [28, 29, 30, 31].map (fun i => (.tree i, 0)) })).fw.inReset.any
      (fun x => x.1 = .tree i))) = true ∧
    tickOf up < 0 + 9 ∧ 0 + 9 ≤ tickOf (overdue up) := by decide +kernel

/-! ### Images -/

/-- An image of logical block 0 whose 16 cells share one bundle, a STOP: its header with the SHA-384 of the rest, its sections' entries, and them. -/
def imageOk : List Byte :=
  ([0x138000001c00002000156414e31, 0x100000000, 0x89e07609ea5dc58f0438fbcd6cb57af0,
      0x9510e85499935a8eda39edd4b635786f, 0xece44d32f14207d5b0213c94e128426e, 0x0,
      0x0, 0x0, 0x8000000a000000001,
      0x110000000b000000002, 0x1] ++
    ([0, 1, 2, 3, 4, 5, 6, 7, 8, 9, 10, 11, 12, 13, 14, 15].map (fun i => i + 2 ^ 32 + 2 ^ 72) ++ [2 ^ 124])).flatMap (toBytes 16)
/-- An image that passes each check by itself is accepted. -/
theorem accepted (s : State) (b : List Byte) (h1 : (headerShape b && hashOk b && partOk s b && sigOk s b && traversalOk b) = true)
    (h2 : (imageParts s b 0).any (fun x => x.blocks = 1) = true)
    (h3 : heldBlocks s = 0 ∧ ((setBitsOf 64 1).any (fun l => (physOf s l).isNone)) = false) : ∃ x, checkImage s b 0 false = .accept x := by
  simp only [Bool.and_eq_true] at h1
  obtain ⟨⟨⟨⟨a1, a2⟩, a3⟩, a4⟩, a5⟩ := h1
  rw [Option.any_eq_true] at h2
  obtain ⟨x, hx, hb⟩ := h2
  refine ⟨x, ?_⟩
  simp [checkImage, a1, a2, a3, a4, a5, hx, of_decide_eq_true hb, h3.1, h3.2]

/-- The same shard with every local unused, an INSERT of item 77 at local 1, and the DELETE of it. -/
def freeIds : State := nrPut (sharded ranged) 0x20000 (List.replicate 32 0xFF)
def insertD : List Byte := fields 64 [(8, 2, 5), (10, 2, 7), (12, 4, 1), (16, 8, 77), (27, 1, 1), (28, 1, 1), (32, 8, 0x9000)]
def deleteD (id : Nat) : List Byte := fields 64 [(8, 2, 5), (10, 2, 7), (12, 4, 1), (16, 8, id)]
def insertS : State := withWork (nrPut freeIds 0x9000 (fields 20 [(8, 4, 2)])) (work0 2 insertD)
/-- The shard at an epoch once the item is in, with a DELETE descriptor of item `id`. -/
def insertedAt (epoch id : Nat) : State :=
  withWork (modShard ((after (exec (.insert 1) insertS)).getD up) (shardKey 5 7) (fun h => { h with epoch := epoch })) (work0 3 (deleteD id))
def planIs (s : State) (w : Work) (f : Plan → Bool) : Bool :=
  (ctxOf s (shardKey 5 7)).any (fun p => p.1.detaching.isNone && f (planUpdate s p.1 p.2 w none).2)
def writes : Plan → Bool
  | .write rows _ => !rows.isEmpty
  | .fail _ => false
  | .wait _ _ _ => false
def folds : Plan → Bool
  | .write _ _ => false
  | .fail _ => false
  | .wait ws _ _ => ws.any isFold
def failsWith (st : Status) : Plan → Bool
  | .write _ _ => false
  | .fail x => x = st
  | .wait _ _ _ => false
def commitD (tick : Nat) : List Byte := fields 64 [(8, 2, 5), (10, 2, 7), (16, 8, tick), (24, 8, 0xA000)]
/-- A search that began before the item, and an update that has waited a long time for a fold. -/
def reader (s : State) : State := modSrch s (fun r => { r with searches := [(9, { search0 .running with epoch := 0 })] })
def waiter (s : State) : State := { modSrch s (fun r => { r with updates := [(1, ⟨0, true, true, none, none⟩)] }) with bow := { up.bow with count := 2 ^ 40 } }
def fullSched (s : State) : State := { s with bow := { s.bow with sched := List.replicate 1024 ⟨.commit 5 8, 99, 50, 0, 0, false⟩ } }
theorem witness_Updates :
    (WorkReady insertS 1 2 (work0 2 insertD) ∧ WorkReady (insertedAt 0 77) 1 3 (work0 3 (deleteD 77)) ∧
      WorkReady (withWork (sharded ranged) (work0 4 (commitD 8))) 1 4 (work0 4 (commitD 8))) ∧
    (planIs insertS (work0 2 insertD) writes = true ∧ planIs (insertedAt 0 78) (work0 3 (deleteD 78)) (failsWith .malformed) = true ∧
      planIs (insertedAt 0 77) (work0 3 (deleteD 77)) writes = true ∧ planIs (insertedAt 1 77) (work0 3 (deleteD 77)) folds = true ∧
      mget (insertedAt 1 77).srch.updates 1 = none ∧ ctxOf ranged (shardKey 5 7) = none) ∧
    (zeroAt (commitD 8) 12 4 = true ∧ zeroAt (commitD 8) 32 32 = true ∧ inWindow ranged 0 0xA000 16 = true ∧ tickFar ranged 8 = false ∧
      tickNear ranged 8 = false ∧ tickNear ranged 7 = true ∧ tickFar ranged (2 ^ 40) = false ∧ schedFull ranged = false ∧ schedFull (fullSched ranged) = true ∧
      mhas (indexed ranged).srch.shards (shardKey 5 7) = false ∧ mhas (sharded ranged).srch.shards (shardKey 5 7) = true) ∧
    ((newer (insertedAt 1 77) (shardKey 5 7) 1).any (fun v => v.vfrom = 1
        && (ctxOf (insertedAt 1 77) (shardKey 5 7)).any (fun p => (foldRow (insertedAt 1 77) p.2 1 v).isSome)) = true ∧
      readersBelow (insertedAt 1 77) (shardKey 5 7) 1 = [] ∧ readersBelow (reader (insertedAt 1 77)) (shardKey 5 7) 1 ≠ []) ∧
    (planIs (waiter (reader (insertedAt 1 77))) (work0 3 (deleteD 77)) folds = true ∧ getF (waiter up) Reg.srcUpdCtrlRetireWait ≠ 0 ∧
      getF (waiter up) Reg.srcUpdCtrlRetireWait ≤ tickOf (waiter up)) ∧
    (let s := setF (reader (insertedAt 1 77)) Reg.srcUpdCtrlVerLow verEntries
     verEntries - s.srch.versions.length < getF s Reg.srcUpdCtrlVerLow ∧ s.srch.searches.filter (fun x => blocksFold s x.2) = [(9, { search0 .running with epoch := 0 })]) :=
  ⟨⟨ready_work _ _ _, ready_work _ _ _, ready_work _ _ _⟩, by decide +kernel⟩
/-- The same INSERT where its window's pages have no frame to come to, a build under way at epoch 0, and a record's page whose lender is away. -/
def frameless : State :=
  setF (setF (modFw (withWork freeIds (work0 2 insertD)) (fun f => { f with fencedSites := 128 })) (Reg.tirTenCfgSites.ix 0) 128)
    (Reg.tirTenCfgFloor.ix 0) 4096
def outOf : Plan → Nat
  | .write _ out => out
  | .fail _ => 0
  | .wait _ _ _ => 0
def planned (s : State) : State × Plan := planUpdate s ⟨shard7, 0, none, 0, 0, []⟩ ⟨shardKey 5 7, index5, shard7⟩ (work0 2 insertD) none
def admitted (s : State) : State := dropStaged ((pagesOf 0x9000 4).foldl admitPage (planned s).1) 0x9000 4
def sought (s : State) : State := seekFrame (admitted s) (tenantOfPage (admitted s) 0)
/-- A write to a ZERO page for which neither the stacks nor the flash have room ends TABLE_FULL. -/
theorem full_page (t : State) (page off : Nat) (bs : List Byte) (pois : List Nat) (hz : homeNow t (pageEnt t page) = .zero)
    (ha : allocT2 (seekFrame t (tenantOfPage t page)) page = none) (hf : flashWritable (seekFrame t (tenantOfPage t page)) = false) :
    (pageWrite t page off bs pois true).2 = some .tableFull := by
  unfold pageWrite
  generalize mergeWords (List.replicate 4096 ⟨zeros 16, false⟩) off bs pois = ws
  simp only [hz, if_true, ha, placeAt]
  rw [tierStore, if_pos (by simp [hf])]
  rfl
theorem full_write (s : State) (bs : List Byte) (hb : bs.length = 4)
    (hz : homeNow (admitted s) (pageEnt (admitted s) 0) = .zero) (ha : allocT2 (sought s) 0 = none) (hf : flashWritable (sought s) = false) :
    (nrWrite (planned s).1 0x9000 bs []).2 = some .tableFull := by
  obtain ⟨b, r, rfl⟩ : ∃ b r, bs = b :: r := by cases bs <;> simp_all
  have e : dropStaged ((pagesOf 0x9000 (b :: r).length).foldl admitPage (planned s).1) 0x9000 (b :: r).length = admitted s := by rw [hb]; rfl
  have g : ∀ o xs pois, (pageWrite (admitted s) 0 o xs pois true).2 = some .tableFull := fun o xs pois => full_page _ 0 o xs pois hz ha hf
  simp only [nrWrite, nrWriteNow, e]
  rw [writePages]
  · simp only [show pageNo 0x9000 = 0 from rfl, g]
  · simp
def building (s : State) : State := modSrch s (fun r => { r with updates := [(1, ⟨0, false, false, none, some 0⟩)] })
def versionOf (data : Bool) : State := modSrch (insertedAt 1 77) (fun r => { r with versions := r.versions.map (fun v =>
  if data then v else (v.1, { v.2 with data := none })) })
def lentRec : State := modTiers (insertedAt 1 77) (fun t => { t with home := mput t.home 4 ⟨.lent 0 5 1, 0, 0, 0, 0⟩ })
theorem witness_InsertEnds : (nrWrite (planned insertS).1 0x9000 (toBytes 4 (outOf (planned insertS).2)) []).2 = none ∧
    planIs frameless (work0 2 insertD) writes = true ∧
    (nrWrite (planned frameless).1 0x9000 (toBytes 4 (outOf (planned frameless).2)) []).2 = some .tableFull ∧
    ctxOf frameless (shardKey 5 7) = some (⟨shard7, 0, none, 0, 0, []⟩, ⟨shardKey 5 7, index5, shard7⟩) :=
  ⟨by decide +kernel, by decide +kernel, full_write _ _ rfl (by decide +kernel) (by decide +kernel) (by decide +kernel), by decide +kernel⟩
theorem witness_UpdateEnds :
    (ctxOf (modShard insertS (shardKey 5 7) (fun h => { h with detaching := some 1 })) (shardKey 5 7)).any (fun p => p.1.detaching.isSome) = true ∧
    (mget (waiter ranged).srch.updates 1).any (fun u => u.fold) = true ∧
    buildsBelow (insertedAt 1 77) (shardKey 5 7) 1 = [] ∧ buildsBelow (building (insertedAt 1 77)) (shardKey 5 7) 1 = [1] ∧
    [true, false].all (fun d => (newer (versionOf d) (shardKey 5 7) 1).any (fun v => decide (v.vfrom = 1) && decide (v.data.isSome = d)
      && (ctxOf (versionOf d) (shardKey 5 7)).any (fun p => (writeRecord (versionOf d) p.2 1 v.record).any (fun t =>
        v.data.all (fun x => (writeParts t p.2 1 x).isSome))))) = true ∧
    (newer lentRec (shardKey 5 7) 1).any (fun v => (ctxOf lentRec (shardKey 5 7)).any (fun p => (writeRecord lentRec p.2 1 v.record).isNone)) = true := by
  decide +kernel

/-! ### Tables, runs, moves and remote memory -/

/-- Table 3 of two rows of 4 words with load shards of 1,024 rows, and SCATTERs on it and on raw addresses. -/
def table3 : List Byte := fields 32 [(0, 2, 3), (4, 2, 4), (6, 1, 10), (8, 4, 2), (12, 4, 4), (16, 4, 1), (20, 4, 2), (24, 4, 3)]
def tabled (q : List Nat) (tver : Nat) : State := modCard ranged (fun c => { c with tables := [(3, ⟨table3, tver, q, []⟩)] })
def scatterD (mode table dim src n : Nat) : List Byte :=
  fields 64 [(8, 2, table), (10, 1, mode), (11, 1, 3), (16, 4, n), (20, 2, dim), (24, 8, 0x9000), (32, 8, src), (40, 8, 0xB000)]
def scattering (x : Scat) (tver : Nat) : State :=
  withWork (modCard (tabled [1] tver) (fun c => { c with scatters := [(1, x)], waiting := [1] })) (work0 6 (scatterD 1 3 0 0xA000 2))
theorem witness_EmbeddingRows :
    (WorkReady (withWork (tabled [] 0) (work0 6 (scatterD 1 3 0 0xA000 1))) 1 6 (work0 6 (scatterD 1 3 0 0xA000 1)) ∧
      WorkReady (withWork ranged (work0 6 (scatterD 3 0 4096 0xA000 1))) 1 6 (work0 6 (scatterD 3 0 4096 0xA000 1)) ∧
      WorkReady (withWork ranged (work0 5 [])) 1 5 (work0 5 [])) ∧
    (scatterOk (tabled [] 0) (work0 6 (scatterD 1 3 0 0xA000 1)) = true ∧ scatterOk (tabled [] 0) (work0 6 (scatterD 4 3 0 0xA000 1)) = false ∧
      scatterIn (tabled [] 0) (work0 6 (scatterD 1 3 0 0xA000 1)) = true ∧
      scatterListOk (work0 6 (scatterD 1 3 0 0xA000 1)) table3 [1] = true ∧ scatterListOk (work0 6 (scatterD 1 3 0 0xA000 1)) table3 [2] = false ∧
      scatterListOk (work0 6 (scatterD 1 3 0 0xA000 2)) table3 [1, 1] = false ∧
      scatterOk ranged (work0 6 (scatterD 3 0 4096 0xA000 1)) = true ∧ scatterOk ranged (work0 6 (scatterD 3 0 4097 0xA000 1)) = false ∧
      scatterIn ranged (work0 6 (scatterD 3 0 4096 0xA000 1)) = true ∧
      (let r := rdW (tabled [] 0) 0x9000 4; r.2.timeout = false ∧ r.2.bad = false ∧ getLE r.2.bytes 0 4 = 0) ∧
      (let r := rdW ranged 0x9000 8; r.2.timeout = false ∧ r.2.bad = false ∧ inWindow r.1 0 (getLE r.2.bytes 0 8) 8192 = true)) ∧
    (carderFree ranged = true ∧ (scattering ⟨3, [0, 1], false, [], 0, 0, 0, false⟩ 7).card.waiting = [1] ∧
      (workOf (scattering ⟨3, [0, 1], false, [], 0, 0, 0, false⟩ 7) 1).isSome = true ∧
      (mget (scattering ⟨3, [0, 1], false, [], 0, 0, 0, false⟩ (2 ^ 32 - 3)).card.tables 3).any (fun t => t.queue.head? = some 1 && t.tver != 2 ^ 32 - 2)
        = true ∧
      (mget (scattering ⟨1024, [0], false, [], 0, 0, 0, false⟩ 7).card.scatters 1).any (fun x => x.table = 1024 && !x.begun) = true ∧
      (mget (scattering ⟨3, [0, 1], true, [1], 1, 0, 0, false⟩ 7).card.scatters 1).any (fun x => x.begun && !x.todo.isEmpty) = true ∧
      tickOf up < up.card.window + atLeast1 up Reg.crdCtrlWindow ∧
      up.card.window + atLeast1 up Reg.crdCtrlWindow ≤ tickOf { up with bow := { up.bow with count := 2 ^ 32 } }) :=
  ⟨⟨ready_work _ _ _, ready_work _ _ _, ready_work _ _ _⟩, by decide +kernel⟩
/-- A RUN of the image in slot 3 for tick 8, and a MOVE of page 2 into DRAM. -/
def runD (slot tick : Nat) : List Byte := fields 64 [(8, 1, slot), (16, 8, tick), (24, 4, 1), (40, 8, 0x9000), (48, 2, 1)]
def idle : State := { ranged with felt := { ranged.felt with images := [(3, { imageA (cellA [2 ^ 124]) with run := none, freeze := none, tensors := [] })] } }
def runS (st : BowSt) (slot tick : Nat) : State := withWork { idle with bow := { idle.bow with st := st } } (work0 7 (runD slot tick))
def moveD (op first n : Nat) : List Byte := fields 64 [(8, 4, first), (12, 4, n), (16, 1, op), (17, 1, if op = 1 then 0xFF else 0), (24, 8, 0x9000)]
theorem witness_RunAndMove :
    (WorkReady (runS .synced 3 8) 1 7 (work0 7 (runD 3 8)) ∧ WorkReady (runS .synced 2 8) 1 7 (work0 7 (runD 2 8)) ∧
      WorkReady (withWork ranged (work0 8 (moveD 1 2 1))) 1 8 (work0 8 (moveD 1 2 1)) ∧ WorkReady (withWork ranged (work0 8 (moveD 2 2 0))) 1 8 (work0 8 (moveD 2 2 0))) ∧
    ((work0 7 (runD 3 8)).f 50 1 = 0 ∧ runStatus (runS .synced 3 8) (work0 7 (runD 3 8)) 3 (some []) = .ok ∧
      runStatus (runS .synced 2 8) (work0 7 (runD 2 8)) 2 (some []) = .malformed ∧ runStatus (runS .synced 3 7) (work0 7 (runD 3 7)) 3 (some []) = .timeout ∧
      (let r := rdW (runS .synced 3 8) ((work0 7 (runD 3 8)).f 56 8) 0; r.2.bad = false ∧ r.2.timeout = false ∧ r.2.bytes = []) ∧
      (runS .synced 3 8).bow.st = .synced ∧ (runS .lost 3 8).bow.st ≠ .synced ∧ schedFull (runS .synced 3 8) = false ∧
      schedFull (fullSched (runS .synced 3 8)) = true) ∧
    (let w := work0 8 (moveD 1 2 1)
     w.f 12 4 = 1 ∧ w.f 16 1 = 1 ∧ w.f 17 1 = 0xFF ∧ zeroAt w.desc 18 6 = true ∧ zeroAt w.desc 32 32 = true ∧ w.f 24 8 % 16 = 0 ∧
      inWindow ranged 0 (2 * 65536) 65536 = true ∧ inWindow ranged 0 (16 * 65536) 65536 = false ∧ inWindow ranged 0 0x9000 16 = true ∧
      (work0 8 (moveD 2 2 0)).f 12 4 = 0) :=
  ⟨⟨ready_work _ _ _, ready_work _ _ _, ready_work _ _ _, ready_work _ _ _⟩, by decide +kernel⟩
/-- A region of 4,096 bytes with every right, and RMA descriptors of `len` bytes at `addr` of it. -/
def regioned : State := modBrim ranged (fun b => { b with regions := [(0, ⟨0, 0x10000, 4096, 0x1FF, 7, none⟩)] })
def rmaD (node addr len : Nat) : List Byte := fields 64 [(8, 1, node), (12, 4, 65536), (16, 8, addr), (24, 8, 0x9000), (32, 4, len)]
def rmaW (cls node addr len : Nat) : Work := work0 cls (rmaD node addr len)
def waitW : Work := { work0 0x15 (fields 64 [(16, 8, 3)]) with begun := true }
def waitQ (done : Nat) : State := withWork (withQueue { queue0 with done := done }) waitW
theorem witness_RmaDescriptors :
    (∀ cls node, WorkReady (withWork regioned (rmaW cls node 0 8)) 1 cls (rmaW cls node 0 8)) ∧
    ([0x10, 0x11, 0x12, 0x13].all (fun c => rmaShape (rmaW c 0 0 8) && rmaShape (rmaW c 63 0 8)) = true ∧
      rmaShape (work0 0x14 (fields 64 [(8, 1, 5)])) = true ∧ rmaShape (work0 0x15 (fields 64 [(10, 2, 4095)])) = true ∧ rmaShape waitW = true ∧
      nodeNo regioned = 0 ∧ inWindow regioned 0 0x9000 8 = true ∧
      localReason regioned (rmaW 0x10 0 4088 8) 8 1 = 0 ∧ localReason regioned (rmaW 0x10 0 4089 8) 8 1 = 3 ∧
      localReason regioned (rmaW 0x11 0 4088 8) 8 0 = 0 ∧ localReason regioned (rmaW 0x11 0 4089 8) 8 0 = 3 ∧
      localReason regioned (rmaW 0x12 0 4088 8) 8 2 = 0 ∧ localReason ranged (rmaW 0x12 0 4088 8) 8 2 = 2 ∧
      (nrRead regioned 0x9000 8).2.timeout = false) ∧
    (queueTenant 7 = 0 ∧ queueTenant 8 ≠ 0 ∧ workOf (waitQ 3) 1 = some waitW ∧ (queueOf (waitQ 3) (waitW.f 10 2)).any (fun q => decide (waitW.f 16 8 ≤ q.done)) = true ∧
      (queueOf (waitQ 2) (waitW.f 10 2)).any (fun q => decide (q.done < waitW.f 16 8)) = true) :=
  ⟨fun _ _ => ready_work _ _ _, by decide +kernel⟩
/-- A GATHER of two rows of table 3, and the node with a page on a lender that does not answer. -/
def gatherD (fl : Nat) : List Byte := fields 64 [(8, 2, 3), (10, 1, 0), (11, 1, 1), (12, 1, fl), (16, 4, 2), (24, 8, 0x9000), (40, 8, if fl = 1 then 0x8000 else 0), (48, 8, 0xA000), (56, 8, 0xB000)]
def gathering (fl : Nat) (s : State) : State := withWork (modCard s (fun c => { c with waiting := [1] })) (work0 5 (gatherD fl))
def awayAt (page : Nat) (s : State) : State := modTiers s (fun t => { t with home := mput t.home page ⟨.lent 0 5 1, 0, 0, 0, 0⟩ })
/-- What an admitted GATHER finds: its check's status, or whether its lists, its weights and its rows met a lender that does not answer. -/
def gatherMeets (s : State) : Option (Status ⊕ (Bool × Bool × Bool)) :=
  (workOf s 1).map (fun w =>
    match gatherCheck s w with
    | (_, .error st) => .inl st
    | (u, .ok p) =>
      let wt := readWeights u w
      .inr (p.silent, wt.2.2, (gatherLoop p.reg w (if (w.f 12 1).testBit 1 then none else some p.tv) p.tver wt.2.1 p.idx 0 p.ends wt.1 carderNew
        (bagZero (tbDim p.reg)) []).2.1.stop))
theorem witness_GatherEnds : carderFree (gathering 0 (tabled [] 7)) = true ∧ carderFree (gathering 0 (awayAt 1 (tabled [] 7))) = true ∧
    gatherMeets (gathering 0 ranged) = some (.inl .malformed) ∧ gatherMeets (gathering 8 (tabled [] 7)) = some (.inl .malformed) ∧
    gatherMeets (gathering 0 (tabled [] 7)) = some (.inr (false, false, false)) ∧ gatherMeets (gathering 1 (tabled [] 7)) = some (.inr (false, false, false)) ∧
    gatherMeets (gathering 0 (awayAt 1 (tabled [] 7))) = some (.inr (false, false, true)) ∧
    (gatherMeets (gathering 0 (awayAt 0 (tabled [] 7)))).any (fun x => match x with | .inr y => y.1 | .inl _ => false) = true := by decide +kernel
def checkStatus (s : State) (w : Work) : Option Status :=
  match (scatterCheck s w).2 with
  | .error st => some st
  | .ok _ => none
/-- A SCATTER of one row whose list the table refuses, one on another's table, one at an odd raw address, and one whose rows lie at the top of the window. -/
theorem witness_ScatterEnds : checkStatus (nrPut (tabled [] 0) 0x9000 (toBytes 4 3)) (work0 6 (scatterD 1 3 0 0xA000 1)) = some .malformed ∧
    checkStatus (tabled [] 0) { work0 6 (scatterD 1 3 0 0xA000 1) with tenant := 1 } = some .accessDenied ∧
    checkStatus (nrPut ranged 0x9000 (toBytes 8 1)) (work0 6 (scatterD 3 0 4096 0xA000 1)) = some .malformed ∧
    checkStatus (nrPut ranged 0x9000 (toBytes 8 (16 * 65536 - 8190))) (work0 6 (scatterD 3 0 4096 0xA000 1)) = some .accessDenied ∧
    checkStatus (nrPut ranged 0x9000 (toBytes 8 (16 * 65536 - 8192))) (work0 6 (scatterD 3 0 4096 0xA000 1)) = none ∧
    checkStatus (tabled [] 0) (work0 6 (scatterD 1 3 0 0xA000 1)) = none := by decide +kernel
def movable (pins : Nat) (s : State) : State := modTiers s (fun t => { t with home := [(2, ⟨.t2 0 0, pins, 0, 0, 0⟩)] })
def manyMoves (s : State) : State := modTiers s (fun t => { t with moves := List.replicate 1024 (5, ⟨5, .zero, .zero, 0, none⟩) })
/-- A MOVE whose page must wait is one with no room for its move; a pinned page is skipped, and its MOVE does not wait. -/
theorem witness_MoveWaits : moveWaits (manyMoves (movable 0 ranged)) 2 0 2 = true ∧ moveWaits (movable 0 ranged) 2 0 2 = false ∧
    moveWaits (manyMoves (movable 1 ranged)) 2 0 2 = false ∧ moveWaits (manyMoves (movable 0 ranged)) 4 0 2 = false := by decide +kernel
def crowded (n : Nat) : State := modBrim regioned (fun b => { b with ops := List.replicate n (0, ⟨0, 0, 0, 0, 0, 0, 0, 0, none⟩) })
theorem outstanding_crowded (n : Nat) : outstanding (crowded n) = n := by
  have h : ((crowded n).host.work.filter (fun w => (w.cls = 0x14 || w.cls = 0x15) && w.begun)).length = 0 := rfl
  rw [outstanding, h]
  exact List.length_replicate
/-- The table of outstanding operations one short of full, and full; an empty one; and words of a WRITE that a silent lender holds. -/
theorem witness_RmaOutstanding : outstanding (crowded 16383) < 16384 ∧ 16384 ≤ outstanding (crowded 16384) ∧ outstanding regioned < 16384 ∧
    (∀ cls, WorkReady (withWork (crowded 16384) (rmaW cls 0 0 8)) 1 cls (rmaW cls 0 0 8)) ∧
    (nrRead (awayAt 0 regioned) 0x9000 8).2.timeout = true ∧ waitW.begun = true ∧ queueTenant (waitW.f 10 2) = 0 :=
  ⟨by rw [outstanding_crowded]; decide, Nat.le_of_eq (outstanding_crowded _).symm, by decide +kernel, fun _ => ready_work _ _ _, by decide +kernel⟩

/-! ### Object commands -/

def tenantOp (fn base pages : Nat) : List Byte := fields 16 [(0, 2, fn), (8, 4, base), (12, 4, pages)]
def windowed : State := modHost ranged (fun h => { h with ctxs := [(7, ⟨4, 4⟩)] })
def fullCtxs : State := modHost ranged (fun h => { h with ctxs := (List.range 511).map (fun i => (i + 1000, ⟨0, 0⟩)) })
def regionOp (base len : Nat) : List Byte := fields 32 [(0, 8, base), (8, 8, len), (16, 2, 511), (18, 1, 7)]
def pinned : State := modTiers ranged (fun t => { t with home := [(1, ⟨.zero, 255, 0, 0, 0⟩)] })
def keyOp (key : Nat) : List Byte := fields 32 [(0, 4, key)]
def gateOp (tick : Nat) : List Byte := fields 16 [(0, 1, 15), (1, 1, 1), (8, 8, tick)]
def gateS (tick : Nat) : State :=
  withWork (nrPut (nrPut ranged 0x8000 (gateOp tick)) 0x8010 (fields 8 [(0, 4, 2 ^ 24)])) (adminW 0x50 24)
theorem witness_TenantCommands : ∀ fn ∈ [1, 511],
    AdminReady (adminS ranged 1 16 (tenantOp fn 12 4)) 1 1 16 true (adminW 1 16) (adminT ranged 1 16 (tenantOp fn 12 4)) (tenantOp fn 12 4) ∧
    AdminReady (adminS windowed 2 8 (fields 8 [(0, 2, 7)])) 1 2 8 true (adminW 2 8) (adminT windowed 2 8 (fields 8 [(0, 2, 7)])) (fields 8 [(0, 2, 7)]) ∧
    (let t := adminT ranged 1 16 (tenantOp fn 12 4)
     zeroAt (tenantOp fn 12 4) 2 6 = true ∧ fnEnabled t fn = true ∧ ctxOpen t fn = false ∧ 12 + 4 ≤ rangePages t ∧ windowTaken t 12 4 = false ∧
      t.host.ctxs.length < 511 ∧ 511 ≤ fullCtxs.host.ctxs.length ∧ rangePages t < 13 + 4 ∧ windowTaken windowed 7 1 = true ∧ windowTaken windowed 8 1 = false ∧
      ctxOpen windowed 7 = true ∧ ctxOpen windowed 1 = false ∧ tenantBusy windowed 7 = false ∧
      tenantBusy { windowed with host := { windowed.host with queues := [(56, queue0)] } } 7 = true) := by
  intro fn h
  refine ⟨ready_admin ranged 1 16 true (tenantOp fn 12 4) ?_, ready_admin windowed 2 8 true (fields 8 [(0, 2, 7)]) (by decide +kernel), ?_⟩ <;>
    revert fn <;> decide +kernel
theorem witness_RegionCommands :
    AdminReady (adminS ranged 0x40 32 (regionOp 0x10000 64)) 1 0x40 32 false (adminW 0x40 32) (adminT ranged 0x40 32 (regionOp 0x10000 64)) (regionOp 0x10000 64) ∧
    AdminReady (adminS regioned 0x41 32 (keyOp 65536)) 1 0x41 32 false (adminW 0x41 32) (adminT regioned 0x41 32 (keyOp 65536)) (keyOp 65536) ∧
    (let t := adminT ranged 0x40 32 (regionOp 0x10000 64)
     zeroAt (regionOp 0x10000 64) 19 1 = true ∧ zeroAt (regionOp 0x10000 64) 24 8 = true ∧ inWindow t 0 0x10000 64 = true ∧ inWindow t 0 0x100000 64 = false ∧
      (pagesOf 0x10000 64).any (fun p => decide ((pageEnt t p).pins ≥ 255)) = false ∧ (pagesOf 0x10000 64).any (fun p => decide ((pageEnt pinned p).pins ≥ 255)) = true ∧
      mfree t.brim.regions 65536 = some 0 ∧ (homePages t (pagesOf 0x10000 64)).isSome = true ∧ zeroAt (keyOp 65536) 4 28 = true ∧
      (regionOf (adminT regioned 0x41 32 (keyOp 65536)) 65536).any (fun r => r.tenant = 0) = true ∧ regionOf regioned 131072 = none ∧
      (modBrim regioned (fun b => { b with regions := mmod b.regions 0 (fun r => { r with closing := some 1 }) })).brim.regions
        = [(0, ⟨0, 0x10000, 4096, 0x1FF, 7, some 1⟩)]) :=
  ⟨ready_admin ranged 0x40 32 false (regionOp 0x10000 64) (by decide +kernel), ready_admin regioned 0x41 32 false (keyOp 65536) (by decide +kernel), by decide +kernel⟩
theorem witness_GateList : (∀ k ∈ [7, 8], AdminReady (gateS k) 1 0x50 16 true (adminW 0x50 24) (nrRead (gateS k) 0x8000 16).1 (gateOp k)) ∧
    (zeroAt (gateOp 8) 2 6 = true ∧ (adminW 0x50 24).opLen = 24 ∧ inWindow (gateS 8) 0 0x8000 24 = true ∧
      (let r := rdW (nrRead (gateS 8) 0x8000 16).1 0x8010 8; r.2.timeout = false ∧ r.2.bad = false ∧ gateEntsOk r.2.bytes 1 = true) ∧
      tickNear (gateS 7) 7 = true ∧ tickNear (gateS 8) 8 = false ∧ tickFar (gateS 8) 8 = false ∧ schedFull (gateS 8) = false ∧
      schedFull (fullSched (gateS 8)) = true) := by
  refine ⟨fun k h => ⟨ready_work _ _ _, ?_, ?_, ?_, ?_, fun _ => rfl, ?_, ?_, ?_, ?_⟩, by decide +kernel⟩ <;> revert k <;> decide +kernel
/-- Shard 7 under detachment with nothing left of it, tables and images. -/
def detached : State := modSrch (indexed ranged) (fun x => { x with shards := [(shardKey 5 7, ⟨shard7, 9, some 1, 0, 0, []⟩)] })
def attachOp : List Byte := shard7 ++ zeros 8
theorem witness_IndexCommands :
    AdminReady (adminS ranged 8 48 index5) 1 8 48 false (adminW 8 48) (adminT ranged 8 48 index5) index5 ∧
    AdminReady (adminS (indexed ranged) 9 8 (fields 8 [(0, 2, 5)])) 1 9 8 false (adminW 9 8) (adminT (indexed ranged) 9 8 (fields 8 [(0, 2, 5)])) (fields 8 [(0, 2, 5)]) ∧
    AdminReady (adminS (indexed ranged) 10 200 attachOp) 1 10 200 false (adminW 10 200) (adminT (indexed ranged) 10 200 attachOp) attachOp ∧
    AdminReady (adminS (sharded ranged) 11 8 (fields 8 [(0, 2, 5), (2, 2, 7)])) 1 11 8 false (adminW 11 8)
      (adminT (sharded ranged) 11 8 (fields 8 [(0, 2, 5), (2, 2, 7)])) (fields 8 [(0, 2, 5), (2, 2, 7)]) ∧
    (indexOk (adminT ranged 8 48 index5) index5 = true ∧ mhas (adminT ranged 8 48 index5).srch.indexes 5 = false ∧ adminMay (adminW 8 48) 0 = true ∧
      adminMay { adminW 8 48 with tenant := 3 } 0 = false ∧ (adminT ranged 8 48 index5).srch.indexes.length < 256 ∧
      mget (adminT (indexed ranged) 10 200 attachOp).srch.indexes 5 = some index5 ∧ shardOk (adminT (indexed ranged) 10 200 attachOp) index5 (attachOp.take 192) = true ∧
      getLE attachOp 192 6 ≠ 2 ^ 48 - 1 ∧ zeroAt attachOp 198 2 = true ∧ mhas (indexed ranged).srch.shards (shardKey 5 7) = false ∧
      (mget (sharded ranged).srch.shards (shardKey 5 7)).any (fun h => h.detaching.isNone) = true ∧ mget (indexed ranged).srch.shards (shardKey 5 7) = none ∧
      (ctxOf detached (shardKey 5 7)).any (fun p => p.1.detaching = some 1 && (foldAll detached p.2).isSome) = true ∧ detached.srch.searches = []) :=
  ⟨ready_admin _ _ _ _ _ (by decide +kernel), ready_admin _ _ _ _ _ (by decide +kernel), ready_admin (indexed ranged) 10 200 false attachOp (by decide +kernel),
    ready_admin _ _ _ _ _ (by decide +kernel), by decide +kernel⟩
def pinnedTable : State := modCard (tabled [] 9) (fun c => { c with pins := [(0, ⟨3, 9⟩)] })
theorem witness_TableCommands :
    AdminReady (adminS ranged 0x10 32 table3) 1 0x10 32 false (adminW 0x10 32) (adminT ranged 0x10 32 table3) table3 ∧
    AdminReady (adminS (tabled [] 9) 0x11 8 (fields 8 [(0, 2, 3)])) 1 0x11 8 false (adminW 0x11 8) (adminT (tabled [] 9) 0x11 8 (fields 8 [(0, 2, 3)])) (fields 8 [(0, 2, 3)]) ∧
    AdminReady (adminS (tabled [] 9) 0x12 8 (fields 8 [(0, 2, 3)])) 1 0x12 8 false (adminW 0x12 8) (adminT (tabled [] 9) 0x12 8 (fields 8 [(0, 2, 3)])) (fields 8 [(0, 2, 3)]) ∧
    AdminReady (adminS pinnedTable 0x13 8 (fields 8 [])) 1 0x13 8 false (adminW 0x13 8) (adminT pinnedTable 0x13 8 (fields 8 [])) (fields 8 []) ∧
    AdminReady (adminS ranged 0x13 8 (fields 8 [])) 1 0x13 8 false (adminW 0x13 8) (adminT ranged 0x13 8 (fields 8 [])) (fields 8 []) ∧
    (tableOk (adminT ranged 0x10 32 table3) table3 = true ∧ mhas ranged.card.tables 3 = false ∧ ranged.card.tables.length < 1024 ∧
      tableHeld (tabled [] 9) 3 ⟨table3, 9, [], []⟩ = false ∧ tableHeld pinnedTable 3 ⟨table3, 9, [], []⟩ = true ∧ mfree (tabled [] 9).card.pins 256 = some 0 ∧
      mfree ((List.range 256).map (fun i => (i, 0))) 256 = none ∧ mget pinnedTable.card.pins 0 = some ⟨3, 9⟩ ∧ (mget pinnedTable.card.tables 3).isSome = true ∧
      mget ranged.card.pins 0 = none) :=
  ⟨ready_admin _ _ _ _ _ (by decide +kernel), ready_admin _ _ _ _ _ (by decide +kernel), ready_admin _ _ _ _ _ (by decide +kernel),
    ready_admin _ _ _ _ _ (by decide +kernel), ready_admin _ _ _ _ _ (by decide +kernel), by decide +kernel⟩
/-- A LOAD of the image at 0x9000. -/
def loadOp : List Byte := fields 16 [(0, 8, 0x9000), (8, 8, 0xA000)]
def loading : State := nrPut ranged 0x9000 imageOk
def scheduledE (prep : Bool) : State := { ranged with bow := { ranged.bow with sched := [⟨.commit 5 7, 5, 9, 3, 4, prep⟩] } }
theorem witness_ImageCommands :
    AdminReady (adminS loading 0x20 16 loadOp) 1 0x20 16 false (adminW 0x20 16) (adminT loading 0x20 16 loadOp) loadOp ∧
    AdminReady (adminS idle 0x21 1 [3]) 1 0x21 1 false (adminW 0x21 1) (adminT idle 0x21 1 [3]) [3] ∧
    AdminReady (adminS idle 0x22 1 [3]) 1 0x22 1 false (adminW 0x22 1) (adminT idle 0x22 1 [3]) [3] ∧
    AdminReady (adminS (scheduledE false) 0x23 8 (fields 8 [(0, 2, 3), (4, 4, 4)])) 1 0x23 8 false (adminW 0x23 8)
      (adminT (scheduledE false) 0x23 8 (fields 8 [(0, 2, 3), (4, 4, 4)])) (fields 8 [(0, 2, 3), (4, 4, 4)]) ∧
    AdminReady (adminS ranged 0x24 16 (fields 16 [(0, 1, 2), (8, 8, 8)])) 1 0x24 16 false (adminW 0x24 16) (adminT ranged 0x24 16 (fields 16 [(0, 1, 2), (8, 8, 8)]))
      (fields 16 [(0, 1, 2), (8, 8, 8)]) ∧
    ((adminS loading 0x20 16 loadOp).bow.align = none ∧ (adminT loading 0x20 16 loadOp).felt.images.length < 16 ∧ inWindow loading 0 0x9000 448 = true ∧
      inWindow loading 0 0xFFFC0 128 = false ∧ (nrRead loading 0x9000 448).2.bytes = imageOk ∧ (nrRead loading 0x9000 448).2.bad = false ∧ imLength imageOk = 448 ∧
      mfree (applyFences loading).felt.images 16 = some 0) ∧
    ((∃ x, checkImage (applyFences loading) imageOk 0 false = .accept x) ∧ checkImage (applyFences loading) [] 0 false = .refuse .malformed 2) ∧
    ((ownImage idle (adminW 0x21 1) 3).any (fun x => x.unload.isNone && x.run.isNone) = true ∧ ownImage idle (adminW 0x21 1) 4 = none ∧
      (ownImage (running (imageA (cellA [2 ^ 124]))) (adminW 0x21 1) 3).any (fun x => x.run.isSome) = true ∧
      (scheduledE false).bow.sched.find? (fun e => e.queue = 3 && e.seq = 4) = some ⟨.commit 5 7, 5, 9, 3, 4, false⟩ ∧ tickOf (scheduledE false) + 4 < 5 ∧
      adminMay (adminW 0x23 8) (queueTenant 3) = true ∧
      tickNear ranged 8 = false ∧ tickFar ranged 8 = false ∧ ranged.felt.role = none) :=
  ⟨ready_admin _ _ _ _ _ (by decide +kernel), ready_admin idle 0x21 1 false [3] (by decide +kernel), ready_admin idle 0x22 1 false [3] (by decide +kernel),
    ready_admin _ _ _ _ _ (by decide +kernel), ready_admin _ _ _ _ _ (by decide +kernel), by decide +kernel,
    ⟨accepted _ _ (by decide +kernel) (by decide +kernel) (by decide +kernel), rfl⟩, by decide +kernel⟩
/-- An image that ends past the window, one at an odd address, an event that has begun to be prepared, and one of a ROLE that waits. -/
theorem witness_ImageEnds : inWindow loading 0 0xFFF00 128 = true ∧ inWindow loading 0 0xFFF00 448 = false ∧ 0x9008 % 16 ≠ 0 ∧ imLength (zeros 128) < 256 ∧
    (scheduledE true).bow.sched.find? (fun e => e.queue = 3 && e.seq = 4) = some ⟨.commit 5 7, 5, 9, 3, 4, true⟩ ∧
    (modFelt ranged (fun f => { f with role := some (1, 9, 1) })).felt.role ≠ none ∧
    (checkImage (applyFences ranged) (zeros 448) 0 false matches .refuse .malformed _) = true := by decide +kernel

/-! ### Flash -/

/-- A mounted store of two channels with two dies of four large blocks each, and the same with a unit in the cache, with its row on the media,
with two rows there, and with the blocks so short that these fill them. -/
def store : State :=
  modFlash (setF (setF ranged (Reg.fshChRate.ix 0) 1) (Reg.fshChRate.ix 1) 1)
    (fun f => { f with st := 2, geom := ⟨[3, 3], 8191, 8191, 4, 100, 100⟩, logical := 1000 })
def flashIn (st : Nat) (s : State) : State := modFlash s (fun f => { f with st := st })
def cached : State := (tryWrite store 3 0 ⟨[1], 0⟩).getD up
def programming : State := modFlash cached (fun f => { f with bands := mmod f.bands 0 (fun b => { b with busy := [0] }) })
def onMedia : State := programRow programming 0 0
def twoRows : State :=
  programRow (modFlash ((tryWrite onMedia 4 0 ⟨[2], 0⟩).getD up) (fun f => { f with bands := mmod f.bands 0 (fun b => { b with busy := [1] }) })) 0 1
def closed : State := modFlash twoRows (fun f => { f with openBand := none, geom := ⟨[3, 3], 2, 2, 4, 100, 100⟩ })
def held (expiry : Nat) : State := modFlash store (fun f => { f with waitw := [⟨0, 7, 3, 0, ⟨[1], 0⟩, none, expiry, false⟩] })
def unitOf (flu : Nat) (s : State) : Nat := (mget s.flash.map flu).getD 0
def readingS : State := modFlash onMedia (fun f => { f with reads := [⟨0, 7, 3, 0, ⟨[1], 0⟩, some (unitOf 3 onMedia), 0, false⟩] })
theorem witness_FlashTraffic : ringUp store = true ∧ store.power.flushing = false ∧ (fluKind store 63).isSome = true ∧ fluKind store 64 = none ∧
    flashWaits (flashIn 1 store) = true ∧ flashWaits store = false ∧ flashWritable (flashIn 5 store) = false ∧ flashWaits (flashIn 5 store) = false ∧
    flashWritable store = true ∧ noLogical store 3 = false ∧ (tryWrite store 3 0 ⟨[1], 0⟩).isSome = true ∧ tryWrite (held 9) 3 0 ⟨[1], 0⟩ = none ∧
    (held 9).flash.waitw.length = 1 ∧ tickOf (held 9) < 9 ∧ 0 ≤ tickOf (held 0) ∧ (fluWriteRu store 3 1 0 0 ⟨[1], 0⟩).isSome = true ∧
    (mget cached.flash.bands 0).any (fun b => decide (0 < bandPages cached b) && rowFull cached 0 b 0 && b.done.isEmpty && b.busy.isEmpty) = true ∧
    (mget programming.flash.bands 0).any (fun b => b.busy.contains 0) = true ∧
    (mget (modFlash onMedia (fun f => { f with bands := mmod f.bands 0 (fun b => { b with erasing := true }) })).flash.bands 0).any (fun b => b.erasing) = true ∧
    onMedia.flash.reads = [] ∧ flashReadable (flashIn 5 store) = true ∧ mget store.flash.map 3 = none ∧
    (mget cached.flash.map 3).any (fun pu => mhas cached.flash.cache pu) = true ∧ (mget onMedia.flash.map 3).any (fun pu => !(mhas onMedia.flash.cache pu)) = true ∧
    (readingS.flash.reads.find? (fun x => x.id = 0)).any (fun x => x.pu.any (fun pu => !(puBlocked readingS pu))) = true := by decide +kernel
def losing : State := modFlash onMedia (fun f => { f with rebuild := [(0, 0, 1)] })
def testingDie : State := modFlash store (fun f => { f with testing := [(31, 63)] })
def withArea (s : State) : State := modFlash s (fun f => { f with areas := [(7, ⟨7, 2, 0, 2 ^ 30, 4⟩)] })
theorem witness_FlashUpkeepAndLoss :
    (flashWritable store = true ∧ gcNeeded store = false ∧ gcNeeded (modFlash closed (fun f => { f with geom := { f.geom with blocks := 2 } })) = true ∧
      (gcVictim (modFlash closed (fun f => { f with geom := { f.geom with blocks := 2 } }))).isSome = true ∧
      (mget closed.flash.bands 0).any (fun b => bandClosed closed 0 b && b.slc) = true ∧ (mget closed.flash.bands 0).any (fun b => bandClosed { closed with flash := { closed.flash with openBand := some 0 } } 0 b) = false ∧
      twoRows.flash.patrolWin = tickOf twoRows / 1000 ∧ twoRows.flash.patrolCnt < getF twoRows Reg.fshCtrlPatrolRate ∧ (patrolUnits twoRows).length = 2 ∧
      (patrolUnits twoRows).find? (fun pu => decide (twoRows.flash.patrolPos ≤ pu)) = some (min (unitOf 3 twoRows) (unitOf 4 twoRows)) ∧
      (patrolUnits twoRows).any (fun x => decide (min (unitOf 3 twoRows) (unitOf 4 twoRows) < x)) = true ∧
      refreshes twoRows (unitOf 3 twoRows) (getF twoRows Reg.fshCtrlRefreshPct) [] = false) ∧
    (ranged.flash.st = 0 ∧ store.flash.st ≠ 0 ∧ 5 ≤ getF ranged Reg.rstStatusStep ∧ ranged.power.halted = false ∧ (flashIn 1 store).flash.st = 1 ∧
      rebuildNext store = none ∧ rebuildNext losing = some (0, 0, 1) ∧ (mget losing.flash.bands 0).any (fun b => bandPu b 0 1 = unitOf 3 losing
        && !(losing.flash.lost.contains (unitOf 3 losing)) && ((List.range b.members.length).filter (· != 1)).all (fun k => mhas losing.flash.units (bandPu b 0 k))
        && (placeUnit losing 3 1 0 (rowXor losing b 0 [0]) false).isSome) = true ∧
      puValid losing (unitOf 3 losing) = true ∧ (mget losing.flash.units (unitOf 3 losing)).isSome = true ∧
      (readingS.flash.reads.find? (fun x => x.id = 0)).any (fun x => decide (x.expiry ≤ tickOf readingS) && x.pu.isSome) = true ∧
      (usableDies readingS 0).contains 1 = true ∧ mget readingS.flash.tries 0 = none ∧ 0 < getF readingS Reg.fshCtrlRetries ∧
      getF readingS Reg.fshCtrlRetries ≤ 3 ∧ testingDie.flash.testing.contains (31, 63) = true ∧ rowsOnDie testingDie 31 63 = []) := by decide +kernel
/-- The same store with a shard on its area, a die fenced, a unit lost, no unit left for the patrol, and a move to flash under way for a long time. -/
def busyArea : State := modFlash (withArea (sharded store)) (fun f => { f with areas := mput f.areas (shardKey 5 7) ⟨shardKey 5 7, 1, 0, 2 ^ 30 + 1, 4⟩ })
def lostUnit : State := modFlash readingS (fun f => { f with lost := [unitOf 3 readingS] })
def passedAll : State := modFlash twoRows (fun f => { f with patrolPos := 2 ^ 40 })
def longMove : State :=
  modTiers { store with bow := { store.bow with count := 2 ^ 40 } } (fun t => { t with moves := [(0, ⟨2, .t2 0 0, .t4 0, 0, none⟩)] })
theorem witness_FlashWaits : fluHeld busyArea (2 ^ 30 + 1) = true ∧ (fluKind busyArea (2 ^ 30 + 1)).isSome = true ∧ fluHeld busyArea (2 ^ 30) = false ∧
    fluHeld store 63 = false ∧ fluHeld (held 9) 3 = false ∧ fluKind (held 9) 3 = some (1, 0) ∧ fluWriteRu (flashIn 5 store) 3 1 0 0 ⟨[1], 0⟩ = none ∧
    noLogical (modFlash (held 9) (fun f => { f with logical := 0 })) 3 = true ∧
    ([0, 1].all (fun d => dieServes store 0 d) && !(dieServes (setF store (Reg.fshChFence.ix 0) 1) 0 1) && !(dieServes store 2 0)) = true ∧
    onMedia.flash.reads.any (fun x => x.pu.any (fun pu => puDie pu = 0)) = false ∧
    readWaits (held 9) ⟨1, 9, 3, 0, ruZero, none, 0, false⟩ = true ∧ readWaits (held 9) ⟨0, 9, 3, 0, ruZero, none, 0, false⟩ = false ∧
    readWaits (flashIn 1 store) ⟨0, 9, 3, 0, ruZero, none, 0, false⟩ = true ∧ readWaits onMedia ⟨0, 9, 3, 0, ruZero, none, 0, false⟩ = false ∧
    puBlocked readingS (unitOf 3 readingS) = false ∧ readingS.flash.lost.contains (unitOf 3 readingS) = false ∧
    lostUnit.flash.lost.contains (unitOf 3 readingS) = true ∧ rowWhole readingS (unitOf 3 readingS) = true ∧
    rowWhole lostUnit (2 ^ 60) = false ∧ readingS.flash.reads.find? (fun x => x.id = 1) = none := by decide +kernel
theorem witness_FlashUpkeepEnds : gcVictim store = none ∧ passedAll.flash.patrolPos ≠ 0 ∧
    (patrolUnits passedAll).find? (fun pu => decide (passedAll.flash.patrolPos ≤ pu)) = none ∧ store.flash.patrolPos = 0 ∧ patrolUnits store = [] ∧
    getF (setF twoRows Reg.fshCtrlPatrolRate 0) Reg.fshCtrlPatrolRate ≤ twoRows.flash.patrolCnt ∧
    refreshes twoRows (unitOf 3 twoRows) 101 [] = true ∧ (relocate twoRows (unitOf 3 twoRows) false).isSome = true ∧
    ranged.power.vddMgmt = true ∧ ranged.power.tripped = false ∧ goodChannels store < 31 ∧
    31 ≤ goodChannels ((List.range 31).foldl (fun s c => setF s (Reg.fshChRate.ix c) 1) (modFlash (flashIn 1 store)
      (fun f => { f with geom := { f.geom with dies := List.replicate 32 3 } }))) ∧
    (rebuildRow losing).flash.rebuild ≠ losing.flash.rebuild ∧ (rebuildRow store).flash.rebuild = store.flash.rebuild ∧
    (mget longMove.tiers.moves 0).any (fun m => decide (m.start + atLeast1 longMove Reg.fwToMediaFlash ≤ tickOf longMove)) = true ∧
    longMove.flash.reads = [] ∧ (usableDies longMove 0).contains 1 = true ∧ flashReadable longMove = true ∧
    (rowsOnDie testingDie 31 63).any (fun r => testingDie.flash.rebuild.contains r) = false := by decide +kernel
/-- Area 7 of four pages, and the object commands on it. -/
def areaOp (len : Nat) (fs : List (Nat × Nat × Nat)) : List Byte := fields len ([(0, 4, 7), (4, 1, 2)] ++ fs)
theorem witness_AreaCommands :
    AdminReady (adminS store 0x30 16 (areaOp 16 [(8, 8, 4)])) 1 0x30 16 false (adminW 0x30 16) (adminT store 0x30 16 (areaOp 16 [(8, 8, 4)])) (areaOp 16 [(8, 8, 4)]) ∧
    AdminReady (adminS (withArea store) 0x31 8 (areaOp 8 [])) 1 0x31 8 false (adminW 0x31 8) (adminT (withArea store) 0x31 8 (areaOp 8 [])) (areaOp 8 []) ∧
    (∀ cmd ∈ [0x32, 0x33], AdminReady (adminS (withArea store) cmd 32 (areaOp 32 [(16, 8, 1), (24, 8, 0x10000)])) 1 cmd 32 false (adminW cmd 32)
      (adminT (withArea store) cmd 32 (areaOp 32 [(16, 8, 1), (24, 8, 0x10000)])) (areaOp 32 [(16, 8, 1), (24, 8, 0x10000)])) ∧
    ((flashWaits (flashIn 1 store) || store.power.flushing) = true ∧ (flashWaits store || store.power.flushing) = false ∧
      arShape (areaOp 16 [(8, 8, 4)]) = true ∧ mhas store.flash.areas 7 = false ∧ freeExtent store 1 = some (2 ^ 30) ∧
      (arOf (withArea store) (areaOp 8 [])).any (fun a => !(arBusy (withArea store) a) && adminMay (adminW 0x31 8) a.tenant) = true ∧
      (let op := areaOp 32 [(16, 8, 1), (24, 8, 0x10000)]
       arMove (withArea store) (adminW 0x32 32) op = none ∧
        (arOf (withArea store) op).any (fun a => decide (mappedFlus store + arNew (withArea store) a 0 1 ≤ store.flash.logical)
          && (arPage (withArea store) (adminW 0x32 32) a 0 0x10000).isSome && areaReady (withArea store) a 0) = true)) := by
  refine ⟨ready_admin _ _ _ _ _ (by decide +kernel), ready_admin _ _ _ _ _ (by decide +kernel), fun cmd h => ready_admin _ _ _ _ _ ?_, by decide +kernel⟩
  revert cmd
  decide +kernel
/-- A page of the area whose unit waits to be rebuilt from its row, and a write of the area that waits. -/
theorem witness_AreaWaits : areaReady (setF (modFlash (withArea losing) (fun f => { f with map := mput f.map (2 ^ 30) (unitOf 3 losing) }))
      (Reg.fshChFence.ix (puDie (unitOf 3 losing) / 64)) 1) ⟨7, 2, 0, 2 ^ 30, 4⟩ 0 = false ∧ arBusy busyArea ⟨shardKey 5 7, 1, 0, 2 ^ 30 + 1, 4⟩ = true ∧
    (modFlash store (fun f => { f with waitw := [⟨0, 2 ^ 32 + 1, 3, 0, ⟨[1], 0⟩, none, 9, false⟩] })).flash.waitw.any
      (fun x => x.req = 2 ^ 32 + (adminW 0x32 32).id) = true := by decide +kernel

/-! ### Pages, ports and packets -/

def homeAt (h : Home) : State := modTiers ranged (fun t => { t with home := [(2, ⟨h, 0, 0, 0, 0⟩)] })
def noFrames : State := modFw ranged (fun f => { f with fencedSites := 255 })
def moving : State := (startMove (homeAt (.lent 0 5 1)) 2 .t2 none).getD up
def accAt (req page expiry : Nat) : WaitAcc := ⟨req, false, true, page * 65536, 8, [1, 2, 3, 4, 5, 6, 7, 8], [], expiry⟩
def waitsFor (page expiry : Nat) (s : State) : State := modTiers s (fun t => { t with waiting := [accAt 1 page expiry] })
theorem witness_NodeRangeAndMoves : ringUp ranged = true ∧ 15 * 65536 + 65536 ≤ rangePages ranged * 65536 ∧ rangePages ranged * 65536 < 16 * 65536 - 7 + 8 ∧
    mustWait ranged ⟨1, false, false, 0x20000, 8, [], [], 9⟩ = false ∧ mustWait moving ⟨1, false, false, 0x20000, 8, [], [], 9⟩ = true ∧
    (pagesOf 0x20000 8).any (isMoving moving) = true ∧ mustWait ranged (accAt 1 2 9) = false ∧ mustWait noFrames (accAt 1 2 9) = true ∧
    ((waitsFor 3 9 noFrames).tiers.waiting.find? (fun a => !((pagesOf a.addr a.len).any (isMoving (waitsFor 3 9 noFrames))))) = some (accAt 1 3 9) ∧
    (startMove (homeAt (.lent 0 5 1)) 2 .t2 none).isSome = true ∧ startMove ranged 2 .t2 none = none ∧
    (mget moving.tiers.moves 0).any (fun m => m.page = 2) = true ∧
    (waitsFor 2 0 moving).tiers.waiting.any (fun a => (pagesOf a.addr a.len).contains 2 && decide (a.expiry ≤ tickOf moving)) = true ∧
    (waitsFor 2 1 moving).tiers.waiting.any (fun a => (pagesOf a.addr a.len).contains 2 && decide (a.expiry ≤ tickOf moving)) = false := by decide +kernel
/-- A page in DRAM that nothing wrote, on its way to a lender: its move ends at once. That of a page which a silent lender holds fails. -/
def emptyFrame : State := modTiers (homeAt (.moving 0)) (fun t => { t with moves := [(0, ⟨2, .t2 0 0, .lent 0 5 1, 0, none⟩)] })
theorem witness_MovesEnd : ringUp emptyFrame = true ∧ mget emptyFrame.tiers.moves 0 = some ⟨2, .t2 0 0, .lent 0 5 1, 0, none⟩ ∧
    (commitMove (endMove emptyFrame 0 2 (.t2 0 0)) 2 (.t2 0 0) (.lent 0 5 1)).isSome = true ∧
    (mget moving.tiers.moves 0).any (fun m => match m.dst with | .lent .. => false | _ => true) = true ∧
    (mget moving.tiers.moves 0).any (fun m => (commitMove (endMove moving 0 m.page m.src) m.page m.src m.dst).isNone) = true ∧
    0 + atLeast1 emptyFrame Reg.fwToDescRma ≤ tickOf { emptyFrame with bow := { emptyFrame.bow with count := 2 ^ 40 } } ∧
    tickOf emptyFrame < 0 + atLeast1 emptyFrame Reg.fwToDescRma := by decide +kernel
theorem witness_Answers : (nrWriteNow ranged 0x20000 [1, 2, 3, 4, 5, 6, 7, 8] [] false).2 = none ∧
    (nrWriteNow (homeAt (.lent 0 5 1)) 0x20000 [1, 2, 3, 4, 5, 6, 7, 8] [] false).2 = some .timeout ∧
    mustWait noFrames { accAt 1 2 0 with expiry := 0 } = false ∧ mustWait noFrames (accAt 1 2 1) = true ∧
    (nrReadNow (homeAt (.lent 0 5 1)) (0x20000 / 16) (wordSpan 0x20000 8)).2 ≠ (nrReadNow ranged (0x20000 / 16) (wordSpan 0x20000 8)).2 := by decide +kernel
/-- Nothing free on the sites, and frames that this node may lend. -/
def lending : State := setF (setF ranged Reg.tirLendFrames 1) Reg.tirLendSites 1
def lent : State := modTiers lending (fun t => { t with lentOut := [(0, ⟨0, 3, some 5, 0, false⟩)] })
theorem mfree_zero {α : Type} (m : SMap α) (n : Nat) (h : mhas m 0 = false) : mfree m (n + 1) = some 0 := by
  simp [mfree, List.range_succ_eq_map, h]
theorem witness_DemotionAgingLending : mfree lending.tiers.lentOut (2 ^ 20) = some 0 ∧ ringUp ranged = true ∧ getF ranged Reg.tirWaterLow ≤ poolFree ranged ∧
    poolFree (setF noFrames Reg.tirWaterLow 1) < getF (setF noFrames Reg.tirWaterLow 1) Reg.tirWaterLow ∧ tickOf ranged % agePeriod ranged = 0 ∧
    tickOf { ranged with bow := { ranged.bow with count := 1 } } % agePeriod ranged ≠ 0 ∧
    (0, ⟨.t2 0 3, 0, 7, 1, 0⟩) ∈ (modTiers ranged (fun t => { t with home := [(0, ⟨.t2 0 3, 0, 7, 1, 0⟩)] })).tiers.home ∧
    lentNow lending < getF lending Reg.tirLendFrames ∧ lendSite lending = some 0 ∧
    getF lent Reg.tirLendFrames ≤ lentNow lent ∧ mget lent.tiers.lentOut 0 = some ⟨0, 3, some 5, 0, false⟩ :=
  ⟨mfree_zero _ 1048575 rfl, by decide +kernel⟩
/-- A waiting write with no frame, a page that may be lent to node 5, the page lent there, and the offers that it made. -/
def hungry : State := setF (waitsFor 3 9 noFrames) Reg.tirWaterLow 0
def mayLend : State := setF (setF (setF (homeAt (.t2 0 0)) (Reg.tirTenCfgLend.ix 0) 1) Reg.tirLendersNodes (2 ^ 5)) Reg.tirWaterLow 1
theorem witness_Demotions : starved hungry = true ∧ starved ranged = false ∧ getF hungry Reg.tirWaterLow ≤ poolFree hungry ∧
    demoteCandidate hungry = none ∧ (demoteCandidate mayLend).any (fun x => x.1 = 2 && (demoteOne mayLend [(5, 1)] x.1 x.2).isSome) = true ∧
    (lenders mayLend).contains 5 = true ∧ getF mayLend Reg.tirWaterLow ≤ poolFree mayLend := by decide +kernel
theorem witness_LentFrames : lending.tiers.lentOut.find? (fun e => e.2.borrower.isNone) = none ∧
    (offerFrame lending).tiers.lentOut.find? (fun e => e.2.borrower.isNone) = some (0, ⟨0, lowestFrame lending 0, none, 0, false⟩) ∧
    min (getF lending Reg.tirLendFrames - lending.tiers.lentOut.length) (poolFree lending) = 1 ∧ ranged.tiers.lentOut = [] ∧ getF ranged Reg.tirLendFrames = 0 ∧
    mayOffer (releaseFrame lent 0 3) ⟨0, 3, some 5, 0, false⟩ = true ∧ lent.tiers.lentOut.length = getF lent Reg.tirLendFrames ∧
    mayOffer (modFw lent (fun f => { f with draining := some 0 })) ⟨0, 3, some 5, 0, false⟩ = false ∧
    lentPages (homeAt (.lent 0 5 1)) 5 1 = [2] ∧ lentPages (homeAt (.lent 0 5 1)) 5 2 = [] := by
  refine ⟨by decide +kernel, ?_, by decide +kernel, by decide +kernel, by decide +kernel, by decide +kernel, by decide +kernel, by decide +kernel, by decide +kernel,
    by decide +kernel⟩
  decide +kernel
/-- Every port up, or port `p` in a state. -/
def linked : State := (List.range 16).foldl (fun s p => setF s (Reg.brmPortState.ix p) 2) ranged
def portIn (p st : Nat) : State := setF ranged (Reg.brmPortState.ix p) st
theorem witness_PortEvents : portSt (portIn 0 1) 0 = 1 ∧ portSt (portIn 15 5) 15 = 5 ∧ portSt (portIn 15 2) 15 = 2 ∧ portSt (portIn 0 3) 0 = 3 ∧
    portSt (portIn 0 4) 0 = 4 ∧ portSt (portIn 0 0) 0 = 0 ∧ wiringOk (portIn 0 1) 0 (neighbour 0 0) 0 0 = true ∧ wiringOk (portIn 0 1) 0 0 0 0 = false ∧
    (portOf (portIn 0 1) 0).since + 10000 ≤ tickOf { up with bow := { up.bow with count := 10000 } } ∧ tickOf up < (portOf (portIn 0 1) 0).since + 10000 ∧
    (0 : Nat) = ((portOf (portIn 0 2) 0).rxSeq + 1) % 2 ^ 24 ∧ (1 : Nat) ≠ ((portOf (portIn 0 2) 0).rxSeq + 1) % 2 ^ 24 ∧
    upMask linked ≠ linked.brim.mapSent ∧ upMask (modBrim linked (fun b => { b with mapSent := 2 ^ 14 - 1 })) = 2 ^ 14 - 1 ∧ tickOf linked < 0 + 1000 := by
  decide +kernel
/-- A flit of sequence number `k` with the CRC `c`, plain or with its NAK bit. -/
def flitOf (k c : Nat) (nak : Bool) : Nat := flitJoin 0 0 (k + (if nak then 2 ^ 48 else 0)) 0 c
theorem witness_Flits : ((portOf (portIn 0 2) 0).rxSeq + 1) % 2 ^ 24 = 0 ∧
    ((portOf (modPort (portIn 0 2) 0 (fun y => { y with rxSeq := 2 ^ 24 - 2 })) 0).rxSeq + 1) % 2 ^ 24 = 2 ^ 24 - 1 ∧
    (flitOk (flitOf (2 ^ 24 - 1) 9874897 false) && decide (flitSeq (flitOf (2 ^ 24 - 1) 9874897 false) = 2 ^ 24 - 1) && !(flitNak (flitOf (2 ^ 24 - 1) 9874897 false))) = true ∧
    (flitOk (flitOf 0 3904838677 true) && decide (flitSeq (flitOf 0 3904838677 true) = 0) && flitNak (flitOf 0 3904838677 true)) = true ∧ flitSeq (flitOf 1 0 false) = 1 := by decide +kernel
/-- A node with a region, its ports up and port 0's partner node 1; packets of node 1 for it. -/
def taking : State := setF (modBrim linked (fun b => { b with
  regions := [(0, ⟨0, 0x10000, 4096, 0x1FF, 7, none⟩)], ops := [(5, ⟨9, 0x11, 1, 0, 0, 0x9000, 8, 0, none⟩), (6, ⟨9, 0x12, 1, 0, 0, 0x9000, 8, 0, none⟩)],
  msgs := [(3, ⟨1, 1, 0, none, 0, 0, [], [], false, none⟩)], writes := [⟨0, 1, 3, none⟩] })) (Reg.brmPortPartner.ix 0) 1
def pkt (kind plen total : Nat) : Packet :=
  { packet0 kind 7 1 0 with key := 65536, plen := plen, total := total, payload := zeros plen, msgid := 3 }
def landed (p : Packet) : State := arrives taking 0 p
def pktFits (kind : Nat) (p : Packet) : Bool :=
  packetOk (takenAs kind p) && srcOk (landed p) 0 p.src && decide (p.dest = nodeNo (landed p)) && meterOff (landed p) true p.tenant
    && decide (kind ≠ 11) && !(landed p).power.warmPend
/-- With the tenant's fabric meter off, a packet that fits is taken. -/
theorem ready_packet (kind : Nat) (p : Packet) (h : pktFits kind p = true) : PacketReady taking 0 kind p (landed p) (takenAs kind p) := by
  simp only [pktFits, Bool.and_eq_true, Bool.not_eq_true', decide_eq_true_eq] at h
  obtain ⟨⟨⟨⟨⟨h1, h2⟩, h3⟩, h4⟩, h5⟩, h6⟩ := h
  refine ⟨by decide, by decide +kernel, by decide +kernel, by simp [h5], rfl, .inl h3, h1, h2, ?_⟩
  cases hm : metered kind
  · exact .inl ⟨rfl, rfl⟩
  · exact .inr ⟨rfl, h6, .inl (by simp only [meterTake, landed] at h4 ⊢; rw [if_pos h4])⟩
def taken (kind : Nat) (p : Packet) : Prop := PacketReady taking 0 kind p (landed p) (takenAs kind p)
def keyAt (kind : Nat) (p : Packet) (right : Nat) : Nat := keyReason (landed p) (takenAs kind p) right
theorem witness_PacketsTaken :
    (taken 1 (pkt 1 4096 4096) ∧ taken 2 (pkt 2 0 4096) ∧ taken 3 { pkt 3 8 8 with reqid := 5 } ∧
      taken 4 (pkt 4 16 16) ∧ taken 5 (pkt 5 16 16) ∧
      taken 6 { pkt 6 16 16 with reqid := 6 } ∧ taken 7 (pkt 7 0 1)) ∧
    (keyAt 1 (pkt 1 4096 4096) 1 = 0 ∧ keyAt 1 (pkt 1 4096 4097) 1 = 3 ∧ keyAt 1 { pkt 1 8 8 with key := 65537 } 1 = 2 ∧
      keyAt 2 (pkt 2 0 4096) 0 = 0 ∧ keyAt 2 (pkt 2 0 4097) 0 = 3 ∧ keyAt 4 { pkt 4 16 16 with total := 8 } 2 = 0 ∧
      keyAt 4 { pkt 4 16 16 with total := 8, addr := 4 } 2 = 3 ∧
      (let r := (targetOf taking (pkt 2 0 8)).get taking 8
       (sendMsg r.1 1 (packet0 3 7 0 1) r.2.1 r.2.2 none none).isSome = true) ∧
      mget taking.brim.ops 5 = some ⟨9, 0x11, 1, 0, 0, 0x9000, 8, 0, none⟩ ∧ mget taking.brim.ops 6 = some ⟨9, 0x12, 1, 0, 0, 0x9000, 8, 0, none⟩ ∧
      mget taking.brim.ops 7 = none ∧ mget taking.brim.atomics (1 * 2 ^ 32 + 0) = none ∧
      mget (modBrim taking (fun b => { b with atomics := [(2 ^ 32, ⟨0, 0, 9⟩)] })).brim.atomics (1 * 2 ^ 32 + 0) = some ⟨0, 0, 9⟩ ∧
      taking.brim.writes.find? (fun w => w.msgid = 3 && w.dest = 1 && w.failed.isNone) = some ⟨0, 1, 3, none⟩) := by
  refine ⟨⟨?_, ?_, ?_, ?_, ?_, ?_, ?_⟩, by decide +kernel⟩ <;> exact ready_packet _ _ (by decide +kernel)
/-- Full atomics, a message bound to another number, and a whole message's packet that comes again. -/
theorem witness_PacketsRefused : taken 4 (pkt 4 16 16) ∧ keyAt 4 { pkt 4 16 16 with total := 8, addr := 4 } 2 ≠ 0 ∧ (taking.brim.atomics.length < 4096) ∧
    4096 ≤ (modBrim taking (fun b => { b with atomics := List.replicate 4096 (0, ⟨0, 0, 9⟩) })).brim.atomics.length ∧
    (mget (modBrim taking (fun b => { b with ops := [(5, ⟨9, 0x11, 1, 0, 0, 0x9000, 8, 0, some 4⟩)] })).brim.ops 5).any (fun o => o.bound != some 3) = true ∧
    taking.brim.whole.any (fun x => x.1 = msgKey (pkt 3 8 8)) = false ∧
    taking.brim.writes.find? (fun w => w.msgid = 4 && w.dest = 1 && w.failed.isNone) = none :=
  ⟨ready_packet _ _ (by decide +kernel), by decide +kernel, by decide, Nat.le_of_eq List.length_replicate.symm, by decide +kernel, by decide +kernel, by decide +kernel⟩
theorem witness_ForwardingAndSystemPackets :
    (taken 8 { pkt 8 0 1 with reason := 2 } ∧ taken 9 { pkt 9 8 8 with kind := 9 } ∧
      taken 10 (pkt 10 8 8)) ∧
    (portSt (portIn 0 3) 0 = 3 ∧ portSt linked 0 ≠ 3 ∧ portUp linked 13 = true ∧ (63 : Nat) ≠ nodeNo linked ∧
      (portTo 0 1).any (fun q => portUp linked q) = true ∧ (portTo 0 1).any (fun q => !(portUp (setF linked (Reg.brmPortState.ix q) 1) q)) = true ∧
      (mget taking.brim.msgs 3).any (fun m => m.sys.isNone) = true ∧ mget taking.brim.msgs 4 = none ∧
      (resend (modBrim taking (fun b => { b with msgs := mmod b.msgs 3 (fun m => { m with packets := [pkt 1 8 8] }) })) 3 0).isSome = true) := by
  refine ⟨⟨?_, ?_, ?_⟩, by decide +kernel⟩ <;> exact ready_packet _ _ (by decide +kernel)
/-- A partial list under reassembly from node 1, a kept answer and a key of a whole message, all of tick 9. -/
def keeping (kind : Nat) : State := modBrim taking (fun b => { b with
  reasm := [(1 * 2 ^ 32 + 3, ⟨kind, none, 0, 0, 8, [], 0⟩)], atomics := [(2 ^ 32 + 5, ⟨0, 0, 9⟩)], whole := [(2 ^ 32 + 6, 9)] })
theorem witness_PacketExpiries : (mget taking.brim.msgs 3).any (fun m => decide (m.expiry ≤ tickOf taking)) = true ∧
    mget taking.brim.reasm (1 * 2 ^ 32 + 3) = none ∧ (mget (keeping 1).brim.reasm (1 * 2 ^ 32 + 3)).any (fun e => e.kind != 9) = true ∧
    (mget (keeping 9).brim.reasm (1 * 2 ^ 32 + 3)).any (fun e => e.kind = 9 && decide (e.expiry ≤ tickOf (keeping 9))) = true ∧
    (1 * 2 ^ 32 + 5, (⟨0, 0, 9⟩ : Replay)) ∈ (keeping 1).brim.atomics ∧ (1 * 2 ^ 32 + 6, 9) ∈ (keeping 1).brim.whole ∧
    tickOf { up with bow := { up.bow with count := 8 } } < 9 ∧ 9 ≤ tickOf { up with bow := { up.bow with count := 9 } } := by decide +kernel
theorem witness_SysExpiries : (mget (modBrim taking (fun b => { b with msgs := [(3, ⟨9, 1, 0, none, 0, 0, [], [], true, some (.partialList 4 [])⟩)] })).brim.msgs 3).any
      (fun m => m.sys.isSome && m.acked) = true ∧ taking.brim.cut = [] ∧
    (mget emptyFrame.tiers.moves 0).any (fun m => match m.dst with | .lent _ l h => l = 5 && h = 1 | _ => false) = true ∧
    (let p := { pkt 1 8 8 with dest := 9 }
     p.dest ≠ nodeNo (arrives taking 0 p) ∧ (portTo (nodeNo (arrives taking 0 p)) 9).isNone = true) ∧
    (let p := { pkt 1 8 8 with dest := 7 }
     (portTo (nodeNo (arrives taking 0 p)) p.dest).any (fun q => portUp (arrives taking 0 p) q) = true) := by decide +kernel

/-! ### A few effects -/

theorem test_insert : (after (exec (.insert 1) insertS)).any (fun t =>
    (mget t.srch.shards (shardKey 5 7)).any (fun h => h.ins = 1 && h.dels = 0) && (newer t (shardKey 5 7) 1).any (fun v => v.vfrom = 1 && v.birth)) = true := by
  decide +kernel
theorem test_fetch_add : (after (exec (.fetchAdd 0 { pkt 4 16 16 with payload := toBytes 8 (2 ^ 64 - 1) ++ zeros 8 }) taking)).any (fun t =>
    decide ((nrRead t 0x10000 8).2.bytes = toBytes 8 (2 ^ 64 - 1)) && (mget t.brim.atomics (2 ^ 32)).any (fun r => r.old = 0)) = true := by decide +kernel
theorem test_program_row : (after (exec (.flashProgramComplete 0 (some 0) []) programming)).any (fun t =>
    t.flash.cache.isEmpty && decide (t.flash.units.length = 2)) = true := by decide +kernel
theorem test_move_commit : (after (exec (.moveCommit 0) moving)).any (fun t => t.tiers.moves.isEmpty && !(isMoving t 2)) = true := by decide +kernel

end Sys2Proof.Tests
end

/-! SUPPORT. Words that are put together from the fields of a register (R10): each field reads back from the word, no bit outside the
fields is set, and putting one field replaces it alone. -/
namespace Sys2Proof.Machine

/-- Whether fields of some width stand one above the other from bit `n` on, all of them in 64 bits. -/
def fieldsApart : Nat → List Fld → Bool
  | n, [] => decide (n ≤ 64)
  | n, f :: l => decide (n ≤ f.lo) && decide (0 < f.wid) && fieldsApart (f.lo + f.wid) l

/-- The word whose field `f` holds `x f`. -/
def packWord (x : Fld → Nat) : List Fld → Nat
  | [] => 0
  | f :: l => x f % 2 ^ f.wid * 2 ^ f.lo + packWord x l

theorem fieldsApart_cons {n : Nat} {f : Fld} {l : List Fld} :
    fieldsApart n (f :: l) = true ↔ n ≤ f.lo ∧ 0 < f.wid ∧ fieldsApart (f.lo + f.wid) l = true := by
  simp only [fieldsApart, Bool.and_eq_true, decide_eq_true_eq, and_assoc]

theorem fieldsApart_le {n : Nat} {l : List Fld} (h : fieldsApart n l = true) : n ≤ 64 := by
  induction l generalizing n with
  | nil => simpa only [fieldsApart, decide_eq_true_eq] using h
  | cons f l ih =>
    obtain ⟨hn, -, hl⟩ := fieldsApart_cons.1 h
    have := ih hl
    omega

theorem fieldsApart_mem {n : Nat} {l : List Fld} {g : Fld} (h : fieldsApart n l = true) (hg : g ∈ l) :
    n ≤ g.lo ∧ 0 < g.wid ∧ g.lo + g.wid ≤ 64 := by
  induction l generalizing n with
  | nil => exact absurd hg List.not_mem_nil
  | cons f l ih =>
    obtain ⟨hn, hw, hl⟩ := fieldsApart_cons.1 h
    rcases List.mem_cons.1 hg with rfl | hg
    · exact ⟨hn, hw, fieldsApart_le hl⟩
    · obtain ⟨h1, h2, h3⟩ := ih hl hg
      exact ⟨by omega, h2, h3⟩

/-- The first of some fields that stand apart is none of the others. -/
theorem fieldsApart_head_ne {n : Nat} {f g : Fld} {l : List Fld} (h : fieldsApart n (f :: l) = true) (hg : g ∈ l) : g ≠ f := by
  obtain ⟨-, hw, hl⟩ := fieldsApart_cons.1 h
  obtain ⟨hlo, -, -⟩ := fieldsApart_mem hl hg
  rintro rfl
  omega

theorem two_pow_dvd_packWord {n : Nat} {l : List Fld} (x : Fld → Nat) (h : fieldsApart n l = true) : 2 ^ n ∣ packWord x l := by
  induction l generalizing n with
  | nil => exact Nat.dvd_zero _
  | cons f l ih =>
    obtain ⟨hn, -, hl⟩ := fieldsApart_cons.1 h
    exact Nat.dvd_add (Nat.dvd_mul_left_of_dvd (Nat.pow_dvd_pow 2 hn) _) (Nat.dvd_trans (Nat.pow_dvd_pow 2 (by omega)) (ih hl))

/-- A bit of a word below the end of its first field is that field's; another is a bit of the word of the other fields. -/
theorem testBit_packWord_cons {n : Nat} {f : Fld} {l : List Fld} (x : Fld → Nat) (h : fieldsApart n (f :: l) = true) (b : Nat) :
    (packWord x (f :: l)).testBit b =
      if b < f.lo + f.wid then decide (f.lo ≤ b) && (x f).testBit (b - f.lo) else (packWord x l).testBit b := by
  obtain ⟨-, -, hl⟩ := fieldsApart_cons.1 h
  obtain ⟨q, hq⟩ := two_pow_dvd_packWord x hl
  have hlt : x f % 2 ^ f.wid * 2 ^ f.lo < 2 ^ (f.lo + f.wid) := by
    rw [Nat.add_comm f.lo, Nat.pow_add]
    exact Nat.mul_lt_mul_of_pos_right (Nat.mod_lt _ (Nat.two_pow_pos _)) (Nat.two_pow_pos _)
  rw [packWord, hq, Nat.add_comm, Nat.testBit_two_pow_mul_add _ hlt, Nat.testBit_two_pow_mul, Nat.testBit_mul_two_pow,
    Nat.testBit_mod_two_pow]
  by_cases hb : b < f.lo + f.wid
  · by_cases hlo : f.lo ≤ b
    · simp only [hb, hlo, show b - f.lo < f.wid by omega, decide_true, Bool.true_and, if_true]
    · simp only [hb, hlo, decide_false, Bool.false_and, if_true]
  · simp only [hb, ge_iff_le, show f.lo + f.wid ≤ b by omega, decide_true, Bool.true_and, if_false]

theorem testBit_packWord_mem {n : Nat} {g : Fld} {l : List Fld} (x : Fld → Nat) (h : fieldsApart n l = true) (hg : g ∈ l) {j : Nat}
    (hj : j < g.wid) : (packWord x l).testBit (g.lo + j) = (x g).testBit j := by
  induction l generalizing n with
  | nil => exact absurd hg List.not_mem_nil
  | cons f l ih =>
    rw [testBit_packWord_cons x h]
    obtain ⟨-, -, hl⟩ := fieldsApart_cons.1 h
    rcases List.mem_cons.1 hg with rfl | hg
    · rw [if_pos (by omega), decide_eq_true (Nat.le_add_right _ _), Bool.true_and, Nat.add_sub_cancel_left]
    · obtain ⟨hlo, -, -⟩ := fieldsApart_mem hl hg
      rw [if_neg (by omega), ih hl hg]

/-- Each field reads back from the word. -/
theorem bits_packWord {n : Nat} {g : Fld} {l : List Fld} (x : Fld → Nat) (h : fieldsApart n l = true) (hg : g ∈ l) :
    bits (packWord x l) g.lo g.wid = x g % 2 ^ g.wid := by
  refine Nat.eq_of_testBit_eq fun j => ?_
  rw [bits, Nat.testBit_mod_two_pow, Nat.testBit_mod_two_pow, Nat.testBit_shiftRight]
  by_cases hj : j < g.wid
  · rw [testBit_packWord_mem x h hg hj]
  · simp only [hj, decide_false, Bool.false_and]

/-- A set bit of the word lies in one of its fields. -/
theorem mem_of_testBit_packWord {n : Nat} {l : List Fld} {x : Fld → Nat} (h : fieldsApart n l = true) {b : Nat}
    (hb : (packWord x l).testBit b = true) : ∃ g ∈ l, g.lo ≤ b ∧ b < g.lo + g.wid := by
  induction l generalizing n with
  | nil => simp only [packWord, Nat.zero_testBit, Bool.false_eq_true] at hb
  | cons f l ih =>
    obtain ⟨-, -, hl⟩ := fieldsApart_cons.1 h
    rw [testBit_packWord_cons x h] at hb
    split at hb
    next hlt =>
      have hlo : f.lo ≤ b := of_decide_eq_true (Bool.and_eq_true_iff.1 hb).1
      exact ⟨f, List.mem_cons_self, hlo, hlt⟩
    next =>
      obtain ⟨g, hg, hgb⟩ := ih hl hb
      exact ⟨g, List.mem_cons_of_mem _ hg, hgb⟩

theorem packWord_lt {n : Nat} {l : List Fld} (x : Fld → Nat) (h : fieldsApart n l = true) : packWord x l < 2 ^ 64 := by
  refine Nat.lt_pow_two_of_testBit _ fun b hb => Bool.eq_false_iff.2 fun hbit => ?_
  obtain ⟨g, hg, -, hlt⟩ := mem_of_testBit_packWord h hbit
  obtain ⟨-, -, hle⟩ := fieldsApart_mem h hg
  omega

theorem packWord_congr {x y : Fld → Nat} {l : List Fld} (h : ∀ g ∈ l, x g = y g) : packWord x l = packWord y l := by
  induction l with
  | nil => rfl
  | cons f l ih =>
    rw [packWord, packWord, h f List.mem_cons_self, ih fun g hg => h g (List.mem_cons_of_mem _ hg)]

/-- The fields' values with `v` in field `f`. -/
def putField (x : Fld → Nat) (f : Fld) (v : Nat) (g : Fld) : Nat := if g = f then v else x g

theorem putField_same (x : Fld → Nat) (f : Fld) (v : Nat) : putField x f v f = v := if_pos rfl

theorem putField_other {f g : Fld} (h : g ≠ f) (x : Fld → Nat) (v : Nat) : putField x f v g = x g := if_neg h

/-- What a word with another value in field `f` and the word itself have in common. -/
theorem packWord_putField {n : Nat} {f : Fld} {l : List Fld} (x : Fld → Nat) (v : Nat) (h : fieldsApart n l = true) (hf : f ∈ l) :
    packWord (putField x f v) l + x f % 2 ^ f.wid * 2 ^ f.lo = packWord x l + v % 2 ^ f.wid * 2 ^ f.lo := by
  induction l generalizing n with
  | nil => exact absurd hf List.not_mem_nil
  | cons g l ih =>
    obtain ⟨-, -, hl⟩ := fieldsApart_cons.1 h
    rcases List.mem_cons.1 hf with rfl | hf
    · have : packWord (putField x f v) l = packWord x l :=
        packWord_congr fun g hg => putField_other (fieldsApart_head_ne h hg) x v
      rw [packWord, packWord, this, putField_same]
      omega
    · have hne : g ≠ f := (fieldsApart_head_ne h hf).symm
      have := ih hl hf
      rw [packWord, packWord, putField_other hne]
      omega

/-- Putting a field replaces it in the word. -/
theorem setBits_packWord {n : Nat} {f : Fld} {l : List Fld} (x : Fld → Nat) (v : Nat) (h : fieldsApart n l = true) (hf : f ∈ l) :
    setBits (packWord x l) f.lo f.wid v = packWord (putField x f v) l := by
  have hu := packWord_putField x v h hf
  have hle : x f % 2 ^ f.wid * 2 ^ f.lo ≤ packWord x l := by
    rw [← bits_packWord x h hf, bits, Nat.shiftRight_eq_div_pow]
    exact Nat.le_trans (Nat.mul_le_mul_right _ (Nat.mod_le _ _)) (Nat.div_mul_le_self _ _)
  rw [setBits, bits_packWord x h hf, Nat.shiftLeft_eq, Nat.shiftLeft_eq]
  omega

/-- A word put together from a register's fields holds no one in a reserved bit. -/
theorem rsvdOnes_packWord {n : Nat} {r : RegRun} (x : Fld → Nat) (h : fieldsApart n r.flds = true) :
    rsvdOnes r (packWord x r.flds) = false := by
  rw [rsvdOnes, List.any_eq_false]
  intro b hb
  obtain ⟨g, hg, hlo, hlt⟩ := mem_of_testBit_packWord h (List.mem_filter.1 hb).2
  have hin : r.flds.any (fun f => decide (f.lo ≤ b) && decide (b < f.lo + f.wid)) = true :=
    List.any_eq_true.2 ⟨g, hg, by simp only [hlo, hlt, decide_true, Bool.and_self]⟩
  rw [hin]
  decide

/-- A register whose fields fill the 64 bits has no reserved bit. -/
theorem rsvdOnes_of_full {r : RegRun}
    (h : (List.range 64).all (fun b => r.flds.any (fun f => decide (f.lo ≤ b) && decide (b < f.lo + f.wid))) = true) (val : Nat) :
    rsvdOnes r val = false := by
  rw [rsvdOnes, List.any_eq_false]
  intro b hb
  rw [List.all_eq_true.1 h b (List.mem_filter.1 hb).1]
  decide

/-- A write to a register without RWL fields acts on each field in turn, whatever the lock. -/
theorem regWrite_unlockable {r : RegRun} {val : Nat} (hty : r.flds.all (fun f => f.ty != .rwl) = true) (hres : rsvdOnes r val = false)
    (s : State) (a t i : Nat) : regWrite s a r t i val = r.flds.foldl (fun u f => fieldPut u f t i val (lockedAt s a)) s := by
  have hl : lockChanges s r t i val = false := by
    rw [lockChanges, List.any_eq_false]
    intro f hf
    have hne : f.ty ≠ .rwl := bne_iff_ne.1 (List.all_eq_true.1 hty f hf)
    rw [decide_eq_false hne, Bool.false_and]
    exact Bool.false_ne_true
  simp only [regWrite, hres, hl, Bool.and_false, Bool.false_eq_true, if_false]

end Sys2Proof.Machine

/-! SUPPORT. A write through BAR0 (R11): what becomes of it by where it goes, and what a write of one field of a register, the others
written back, does field by field. -/
namespace Sys2Proof.Machine
open Sys2Proof

/-! ### Where a write goes -/

theorem barWrite_of_ignored {fn off : Nat} {s : State} (size val : Nat)
    (h : portOpen s = false ∨ fnEnabled s fn = false ∨ 511 < fn ∨ barAddr fn off = none) : barWrite fn off size val s = s := by
  unfold barWrite
  rcases h with h | h | h | h
  · simp only [h, Bool.not_false, Bool.true_or, if_true]
  · simp only [h, Bool.not_false, Bool.or_true, Bool.true_or, if_true]
  · simp only [gt_iff_lt, h, decide_true, Bool.or_true, if_true]
  · simp only [h, ite_self]

section
variable {fn off a : Nat} {s : State} (size val : Nat)

theorem barWrite_of_cxl (ha : barAddr fn off = some a) (hc : cxlRange a = true) : barWrite fn off size val s = s := by
  simp only [barWrite, ha, hc, if_true, ite_self]

/-- An enabled function on an open link gets past the guard of a write. -/
theorem barGuard_eq_false (ho : portOpen s = true) (he : fnEnabled s fn = true) (hf : fn ≤ 511) :
    (!(portOpen s) || !(fnEnabled s fn) || decide (fn > 511)) = false := by
  rw [ho, he, decide_eq_false (Nat.not_lt.2 hf)]
  rfl

variable (ho : portOpen s = true) (he : fnEnabled s fn = true) (hf : fn ≤ 511) (ha : barAddr fn off = some a) (hc : cxlRange a = false)
include ho he hf ha hc

theorem barWrite_of_msix {o : Nat} (hm : msixOff a = some o) : barWrite fn off size val s = msixWrite s fn o size val := by
  simp only [barWrite, barGuard_eq_false ho he hf, ha, hc, hm, Bool.false_eq_true, if_false]

theorem barWrite_of_narrow {size : Nat} (hm : msixOff a = none) (hs : size < 8) :
    barWrite fn off size val s = bump s Reg.idRsvdwrNarrowWr := by
  simp only [barWrite, barGuard_eq_false ho he hf, ha, hc, hm, hs, Bool.false_eq_true, if_false, if_true]

theorem barWrite_of_reserved {size : Nat} (hm : msixOff a = none) (hs : 8 ≤ size) (hr : a % 8 ≠ 0 ∨ regAt s a = none) :
    barWrite fn off size val s = bump s Reg.idRsvdwrRsvdWr := by
  rcases hr with hr | hr
  · simp only [barWrite, barGuard_eq_false ho he hf, ha, hc, hm, Nat.not_lt.2 hs, bne_iff_ne.2 hr, Bool.false_eq_true, if_false, if_true]
  · simp only [barWrite, barGuard_eq_false ho he hf, ha, hc, hm, Nat.not_lt.2 hs, hr, Bool.false_eq_true, if_false, ite_self]

theorem barWrite_of_reg {size : Nat} (hm : msixOff a = none) (hs : 8 ≤ size) (h8 : a % 8 = 0) {r : RegRun} {t i : Nat}
    (hr : regAt s a = some (r, t, i)) : barWrite fn off size val s = regWrite s a r t i (val % 2 ^ 64) := by
  simp only [barWrite, barGuard_eq_false ho he hf, ha, hc, hm, Nat.not_lt.2 hs, h8, bne_self_eq_false, hr, Bool.false_eq_true, if_false]

end

/-! ### Registers of the physical function -/

/-- Register `i` of a run, one that software writes on the physical function: the table finds it at its offset, where BAR0 holds neither
the function page nor a structure of CXL; its fields stand apart. -/
structure BarReg (r : RegRun) (i : Nat) : Prop where
  found : findReg (r.off + r.stride * i) = some (r, 0, i)
  reached : barAddr 0 (r.off + r.stride * i) = some (r.off + r.stride * i)
  notCxl : cxlRange (r.off + r.stride * i) = false
  notMsix : msixOff (r.off + r.stride * i) = none
  aligned : (r.off + r.stride * i) % 8 = 0
  block : (r.off + r.stride * i) / 0x100000 = r.off / 0x100000
  placed : ∀ f ∈ r.flds, f.off = r.off ∧ f.stride = r.stride
  fieldsApart : fieldsApart 0 r.flds = true

/-- What `BarReg` asks of a run beside the table's order: aligned, within one MiB, below or above what is no register. -/
def runWritable (r : RegRun) : Bool :=
  decide (r.off % 8 = 0) && decide (r.stride % 8 = 0) && decide (r.off % 0x100000 + r.stride * r.count ≤ 0x100000)
    && (decide (r.off + r.stride * r.count ≤ 0x30000) || decide (0x110000 ≤ r.off)) && decide (r.off + r.stride * r.count ≤ 0x4000000)
    && r.flds.all (fun f => decide (f.off = r.off) && decide (f.stride = r.stride)) && fieldsApart 0 r.flds

theorem BarReg.of_found {r : RegRun} {i : Nat} (hf : findReg (r.off + r.stride * i) = some (r, 0, i)) (hw : runWritable r = true)
    (hs : r.stride ≠ 0) (hi : i < r.count) : BarReg r i := by
  simp only [runWritable, Bool.and_eq_true, Bool.or_eq_true, decide_eq_true_eq, List.all_eq_true] at hw
  obtain ⟨⟨⟨⟨⟨⟨h8, hs8⟩, hblock⟩, hplace⟩, htop⟩, hflds⟩, hapart⟩ := hw
  have hlt : r.stride * i < r.stride * r.count := Nat.mul_lt_mul_of_pos_left hi (Nat.pos_of_ne_zero hs)
  have hmod : r.stride * i % 8 = 0 := by rw [Nat.mul_mod, hs8, Nat.zero_mul, Nat.zero_mod]
  refine ⟨hf, ?_, ?_, ?_, by omega, by omega, hflds, hapart⟩
  · rw [barAddr, if_pos rfl, if_neg (by omega), if_neg (by simp only [Bool.and_eq_true, decide_eq_true_eq, not_and, Nat.not_lt]; omega)]
  · simp only [cxlRange, Bool.or_eq_false_iff, Bool.and_eq_false_imp, decide_eq_true_eq, decide_eq_false_iff_not, Nat.not_lt]
    omega
  · rw [msixOff, if_pos (by unfold pageBase; omega)]

theorem BarReg.of_apart {k : Nat} {r : RegRun} (hk : regTable[k]? = some r) (hd : (regTable.take k).all (apart · r) = true)
    (hw : runWritable r = true) (hs : r.stride ≠ 0) {i : Nat} (hi : i < r.count) : BarReg r i := by
  refine .of_found (findReg_run hk hd hs ?_ hi) hw hs hi
  simp only [runWritable, Bool.and_eq_true, decide_eq_true_eq] at hw
  obtain ⟨⟨⟨-, htop⟩, -⟩, -⟩ := hw
  unfold pageBase
  omega

/-- Whether the part has the registers of a run: one without kettles lacks those of the kettles. -/
def hasRun (s : State) (r : RegRun) : Bool := r.off / 0x100000 != 9 || hasKettles s.part

section
variable {r : RegRun} {i : Nat} {s : State} (hr : BarReg r i)
include hr

theorem BarReg.regAt_eq : regAt s (r.off + r.stride * i) = if hasRun s r then some (r, 0, i) else none := by
  rw [regAt, hr.block, hr.found, hasRun]
  by_cases h : r.off / 0x100000 = 9
  · rw [h]
    cases hasKettles s.part <;> rfl
  · rw [decide_eq_false h, bne_iff_ne.2 h]
    rfl

theorem BarReg.barWrite_eq (ho : portOpen s = true) (hk : hasRun s r = true) (val : Nat) :
    barWrite 0 (r.off + r.stride * i) 8 val s = regWrite s (r.off + r.stride * i) r 0 i (val % 2 ^ 64) :=
  barWrite_of_reg val ho rfl (by decide) hr.reached hr.notCxl hr.notMsix (Nat.le_refl 8) hr.aligned (by rw [hr.regAt_eq, if_pos hk])

theorem BarReg.barWrite_eq_of_absent (ho : portOpen s = true) (hk : hasRun s r = false) (val : Nat) :
    barWrite 0 (r.off + r.stride * i) 8 val s = bump s Reg.idRsvdwrRsvdWr :=
  barWrite_of_reserved val ho rfl (by decide) hr.reached hr.notCxl hr.notMsix (Nat.le_refl 8) (.inr (by rw [hr.regAt_eq, hk]; rfl))

end

/-! ### A write of one field -/

@[simp] theorem Fld.pg_zero (f : Fld) : f.pg 0 = f := by rw [Fld.pg, Nat.zero_mul, Nat.add_zero]

@[simp] theorem Fld.ix_zero (f : Fld) : f.ix 0 = f := by rw [Fld.ix, Nat.zero_mul, Nat.add_zero]

/-- What software writes back to a field: its value where a write stores it, else zero. -/
def storedVal (s : State) (i : Nat) (f : Fld) : Nat := if f.ty = .rw || f.ty = .rwl then getF s (f.ix i) else 0

/-- The word of a write of `v` to field `f` of register `i` of a run. -/
def fieldWord (s : State) (r : RegRun) (i : Nat) (f : Fld) (v : Nat) : Nat := packWord (putField (storedVal s i) f v) r.flds

theorem packWord_storedVal (s : State) (i : Nat) (l : List Fld) :
    sumNat (l.map (fun g => if g.ty = .rw || g.ty = .rwl then getF s (g.ix i) * 2 ^ g.lo else 0)) = packWord (storedVal s i) l := by
  rw [sumNat, ← List.sum_eq_foldl]
  induction l with
  | nil => rfl
  | cons g l ih =>
    rw [List.map_cons, List.sum_cons, ih, packWord]
    by_cases hg : (g.ty = .rw || g.ty = .rwl) = true
    · have : getF s (g.ix i) % 2 ^ g.wid = getF s (g.ix i) := getF_mod s (g.ix i)
      simp only [storedVal, if_pos hg, this]
    · simp only [storedVal, if_neg hg, Nat.zero_mod, Nat.zero_mul]

theorem fieldPut_of_ro {g : Fld} (h : g.ty = .ro) (u : State) (i val : Nat) (locked : Bool) : fieldPut u g 0 i val locked = u := by
  rw [fieldPut, h]

theorem fieldPut_of_w1c {g : Fld} (h : g.ty = .w1c) (u : State) (i val : Nat) (locked : Bool) :
    fieldPut u g 0 i val locked = w1cPut u (g.ix i) (bits val g.lo g.wid) := by
  rw [fieldPut, h, Fld.pg_zero]

theorem fieldPut_of_locked {g : Fld} (h : g.ty = .rwl) (u : State) (i val : Nat) : fieldPut u g 0 i val true = u := by
  rw [fieldPut, h, if_pos rfl]

/-- A lock holds RWL fields, and a write never changes an RO field. -/
theorem foldl_fieldPut_locked (l : List Fld) (hall : ∀ g ∈ l, g.ty = .rwl ∨ g.ty = .ro) (i val : Nat) (u : State) :
    l.foldl (fun u g => fieldPut u g 0 i val true) u = u := by
  induction l with
  | nil => rfl
  | cons g l ih =>
    have hg : fieldPut u g 0 i val true = u := by
      rcases hall g List.mem_cons_self with h | h
      · exact fieldPut_of_locked h u i val
      · exact fieldPut_of_ro h u i val true
    rw [List.foldl_cons, hg, ih fun g hg => hall g (List.mem_cons_of_mem _ hg)]

section
variable {r : RegRun} {i : Nat} {f g : Fld} (hr : BarReg r i) (s : State) (v : Nat)
include hr

theorem BarReg.off_ix (hf : f ∈ r.flds) : (f.ix i).off = r.off + r.stride * i := by
  obtain ⟨ho, hs⟩ := hr.placed f hf
  rw [Fld.ix, ho, hs, Nat.mul_comm]

theorem BarReg.wordWith_eq (hf : f ∈ r.flds) : wordWith s (f.ix i) v = fieldWord s r i f v := by
  simp only [wordWith, hr.off_ix hf, hr.found, Fld.pg_zero, packWord_storedVal]
  exact setBits_packWord (storedVal s i) v hr.fieldsApart hf

theorem fieldWrite_absent (ho : portOpen s = true) (hk : hasRun s r = false) (hf : f ∈ r.flds) :
    fieldWrite (f.ix i) v s = bump s Reg.idRsvdwrRsvdWr := by
  rw [fieldWrite, hr.off_ix hf, hr.barWrite_eq_of_absent ho hk]

theorem bits_fieldWord_same (hf : f ∈ r.flds) : bits (fieldWord s r i f v) f.lo f.wid = v % 2 ^ f.wid := by
  rw [fieldWord, bits_packWord _ hr.fieldsApart hf, putField_same]

theorem bits_fieldWord_other (hg : g ∈ r.flds) (hne : g ≠ f) : bits (fieldWord s r i f v) g.lo g.wid = storedVal s i g := by
  rw [fieldWord, bits_packWord _ hr.fieldsApart hg, putField_other hne]
  unfold storedVal
  split
  · exact getF_mod s (g.ix i)
  · exact Nat.zero_mod _

/-- A field that a write stores is written back as it was. -/
theorem bits_fieldWord_kept (hg : g ∈ r.flds) (hne : g ≠ f) (hw : (g.ty = .rw || g.ty = .rwl) = true) :
    bits (fieldWord s r i f v) g.lo g.wid = getF s (g.ix i) := by
  rw [bits_fieldWord_other hr s v hg hne, storedVal, if_pos hw]

/-- A field whose ones would clear or start something is written zero. -/
theorem bits_fieldWord_clear (hg : g ∈ r.flds) (hne : g ≠ f) (hw : (g.ty = .rw || g.ty = .rwl) = false) :
    bits (fieldWord s r i f v) g.lo g.wid = 0 := by
  rw [bits_fieldWord_other hr s v hg hne, storedVal, hw, if_neg Bool.false_ne_true]

/-- Of the RWL fields, a write of one field changes at most that one. -/
theorem lockChanges_fieldWord (hf : f ∈ r.flds) :
    lockChanges s r 0 i (fieldWord s r i f v) = (decide (f.ty = .rwl) && v % 2 ^ f.wid != getF s (f.ix i)) := by
  rw [Bool.eq_iff_iff, lockChanges, List.any_eq_true]
  constructor
  · rintro ⟨g, hg, hch⟩
    rw [Fld.pg_zero] at hch
    by_cases hgf : g = f
    · rwa [hgf, bits_fieldWord_same hr s v hf] at hch
    · have hty : g.ty = .rwl := of_decide_eq_true (Bool.and_eq_true_iff.1 hch).1
      rw [bits_fieldWord_kept hr s v hg hgf (by rw [hty]; rfl)] at hch
      simp only [bne_self_eq_false, Bool.and_false, Bool.false_eq_true] at hch
  · intro hch
    exact ⟨f, hf, by rwa [Fld.pg_zero, bits_fieldWord_same hr s v hf]⟩

variable (ho : portOpen s = true) (hk : hasRun s r = true) (hf : f ∈ r.flds)
include ho hk hf

/-- A write of one field acts on the register's fields in turn, after a change of a locked field is counted. -/
theorem fieldWrite_eq : fieldWrite (f.ix i) v s =
    r.flds.foldl (fun u g => fieldPut u g 0 i (fieldWord s r i f v) (lockedAt s (r.off + r.stride * i)))
      (if lockedAt s (r.off + r.stride * i) && (decide (f.ty = .rwl) && v % 2 ^ f.wid != getF s (f.ix i)) then bump s Reg.idRsvdwrLockedWr
        else s) := by
  have hlt : fieldWord s r i f v % 2 ^ 64 = fieldWord s r i f v := Nat.mod_eq_of_lt (packWord_lt _ hr.fieldsApart)
  have hres : rsvdOnes r (fieldWord s r i f v) = false := rsvdOnes_packWord _ hr.fieldsApart
  rw [fieldWrite, hr.off_ix hf, hr.wordWith_eq s v hf, hr.barWrite_eq ho hk, hlt]
  simp only [regWrite, hres, lockChanges_fieldWord hr s v hf, Bool.false_eq_true, if_false]

theorem fieldWrite_unlocked (hl : lockedAt s (r.off + r.stride * i) = false) :
    fieldWrite (f.ix i) v s = r.flds.foldl (fun u g => fieldPut u g 0 i (fieldWord s r i f v) false) s := by
  rw [fieldWrite_eq hr s v ho hk hf, hl]
  rfl

/-- No lock holds a field that is not RWL. -/
theorem fieldWrite_unlockable (hty : f.ty ≠ .rwl) : fieldWrite (f.ix i) v s =
    r.flds.foldl (fun u g => fieldPut u g 0 i (fieldWord s r i f v) (lockedAt s (r.off + r.stride * i))) s := by
  rw [fieldWrite_eq hr s v ho hk hf, decide_eq_false hty, Bool.false_and, Bool.and_false, if_neg Bool.false_ne_true]

/-- A register whose fields a lock holds stays, and a write that would change the field is counted. -/
theorem fieldWrite_locked (hl : lockedAt s (r.off + r.stride * i) = true) (hty : f.ty = .rwl)
    (hall : ∀ g ∈ r.flds, g.ty = .rwl ∨ g.ty = .ro) :
    fieldWrite (f.ix i) v s = if v % 2 ^ f.wid = getF s (f.ix i) then s else bump s Reg.idRsvdwrLockedWr := by
  rw [fieldWrite_eq hr s v ho hk hf, hl, foldl_fieldPut_locked _ hall]
  by_cases h : v % 2 ^ f.wid = getF s (f.ix i)
  · simp only [h, bne_self_eq_false, Bool.and_false, Bool.false_eq_true, if_false, if_true]
  · simp only [hty, decide_true, Bool.true_and, bne_iff_ne.2 h, h, if_true, if_false]

end

end Sys2Proof.Machine

/-! SUPPORT. The registers that the commands of single fields and units write: where each stands in the table, and what a write of all
its fields does. -/
namespace Sys2Proof.Machine
open Sys2Proof

@[simp] theorem setF_mod (s : State) (f : Fld) (v : Nat) : setF s f (v % 2 ^ f.wid) = setF s f v := by rw [setF, Nat.mod_mod, setF]

/-- Zeros clear nothing in a field that all-ones clear; the two fields that are cleared bit by bit start at other bits. -/
theorem w1cPut_zero (s : State) {f : Fld} (i : Nat) (hc : f.lo ≠ Reg.rstCauseCause.lo) (hb : f.lo ≠ Reg.rstRailBrown.lo)
    (hw : 0 < f.wid) : w1cPut s (f.ix i) 0 = s := by
  have hones : 1 < 2 ^ f.wid := Nat.one_lt_two_pow (Nat.ne_of_gt hw)
  have hc' : isF (f.ix i) Reg.rstCauseCause = false := Bool.and_eq_false_imp.2 fun _ => decide_eq_false hc
  have hb' : isF (f.ix i) Reg.rstRailBrown = false := Bool.and_eq_false_imp.2 fun _ => decide_eq_false hb
  have hv : 0 ≠ 2 ^ (f.ix i).wid - 1 := Nat.ne_of_lt (Nat.sub_pos_of_lt hones)
  rw [w1cPut, hc', hb', Bool.or_false, if_neg Bool.false_ne_true, if_neg hv]

/-! ### The runs -/

def tckCtrlRun : RegRun := ⟨0x20000, 1, 8, [Reg.tckCtrlSyncEn, Reg.tckCtrlCheckMiss, Reg.tckCtrlLock]⟩
def tckTwinCtrlRun : RegRun :=
  ⟨0x20040, 1, 8, [Reg.tckTwinCtrlEn, Reg.tckTwinCtrlAction, Reg.tckTwinCtrlHold, Reg.tckTwinCtrlTenant, Reg.tckTwinCtrlLag]⟩
def fltFenceRun : RegRun := ⟨0x600018, 1, 8, [Reg.fltFenceFence]⟩
def fltBlkHiRun : RegRun :=
  ⟨0x600020, 1, 8, [Reg.fltBlkHiDefectHi, Reg.fltBlkHiFenceHi, Reg.fltBlkHiPending, Reg.fltBlkHiSpares, Reg.fltBlkHiShort]⟩
def ktlCtrlRun : RegRun :=
  ⟨0x900000, 4, 0x10000,
    [Reg.ktlCtrlMode, Reg.ktlCtrlDirect, Reg.ktlCtrlSharedPcs, Reg.ktlCtrlPoll, Reg.ktlCtrlFullGap, Reg.ktlCtrlLock]⟩
def ktlFence0Run : RegRun := ⟨0x900008, 4, 0x10000, [Reg.ktlFence0Fence]⟩
def ktlFence1Run : RegRun := ⟨0x900010, 4, 0x10000, [Reg.ktlFence1Fence]⟩
def intLogStatusRun : RegRun := ⟨0xa00080, 1, 8, [Reg.intLogStatusCount, Reg.intLogStatusPop, Reg.intLogStatusDropped]⟩
def tirRangeRun : RegRun := ⟨0xb00008, 1, 8, [Reg.tirRangePages, Reg.tirRangeReserved]⟩
def tirLendRun : RegRun := ⟨0xb000a0, 1, 8, [Reg.tirLendFrames, Reg.tirLendSites, Reg.tirLendLent]⟩
def tirTenCfgRun : RegRun := ⟨0xb01000, 512, 8, [Reg.tirTenCfgFloor, Reg.tirTenCfgSites, Reg.tirTenCfgLend]⟩
def fshChRun : RegRun := ⟨0xc00100, 32, 8, [Reg.fshChPresent, Reg.fshChRate, Reg.fshChFence, Reg.fshChTimeouts]⟩
def fshDfenceRun : RegRun := ⟨0xc00200, 32, 8, [Reg.fshDfenceFence]⟩
def brmPortRun : RegRun :=
  ⟨0xd00100, 16, 8, [Reg.brmPortEn, Reg.brmPortFence, Reg.brmPortRole, Reg.brmPortState, Reg.brmPortPartner, Reg.brmPortTrains,
    Reg.brmPortMismatch]⟩
def tsHpolRun : RegRun := ⟨0x201000, 512, 8, [Reg.tsHpolCir, Reg.tsHpolCbs, Reg.tsHpolPir, Reg.tsHpolPbs]⟩
def tsFpolRun : RegRun := ⟨0x202000, 512, 8, [Reg.tsFpolCir, Reg.tsFpolCbs, Reg.tsFpolPir, Reg.tsFpolPbs]⟩

theorem tckCtrlRun_reg : BarReg tckCtrlRun 0 :=
  .of_apart (k := 3) rfl (by decide +kernel) (by decide +kernel) (by decide) (by decide)
theorem tckTwinCtrlRun_reg : BarReg tckTwinCtrlRun 0 :=
  .of_apart (k := 9) rfl (by decide +kernel) (by decide +kernel) (by decide) (by decide)
theorem fltFenceRun_reg : BarReg fltFenceRun 0 :=
  .of_apart (k := 39) rfl (by decide +kernel) (by decide +kernel) (by decide) (by decide)
theorem fltBlkHiRun_reg : BarReg fltBlkHiRun 0 :=
  .of_apart (k := 40) rfl (by decide +kernel) (by decide +kernel) (by decide) (by decide)
theorem intLogStatusRun_reg : BarReg intLogStatusRun 0 :=
  .of_apart (k := 75) rfl (by decide +kernel) (by decide +kernel) (by decide) (by decide)
theorem tirRangeRun_reg : BarReg tirRangeRun 0 :=
  .of_apart (k := 79) rfl (by decide +kernel) (by decide +kernel) (by decide) (by decide)
theorem tirLendRun_reg : BarReg tirLendRun 0 :=
  .of_apart (k := 87) rfl (by decide +kernel) (by decide +kernel) (by decide) (by decide)
theorem tirTenCfgRun_reg {t : Nat} (ht : t < 512) : BarReg tirTenCfgRun t :=
  .of_apart (k := 90) rfl (by decide +kernel) (by decide +kernel) (by decide) ht
theorem fshChRun_reg {c : Nat} (hc : c < 32) : BarReg fshChRun c :=
  .of_apart (k := 106) rfl (by decide +kernel) (by decide +kernel) (by decide) hc
theorem fshDfenceRun_reg {c : Nat} (hc : c < 32) : BarReg fshDfenceRun c :=
  .of_apart (k := 107) rfl (by decide +kernel) (by decide +kernel) (by decide) hc
theorem brmPortRun_reg {p : Nat} (hp : p < 16) : BarReg brmPortRun p :=
  .of_apart (k := 112) rfl (by decide +kernel) (by decide +kernel) (by decide) hp
theorem tsHpolRun_reg {t : Nat} (ht : t < 512) : BarReg tsHpolRun t :=
  .of_apart (k := 149) rfl (by decide +kernel) (by decide +kernel) (by decide) ht
theorem tsFpolRun_reg {t : Nat} (ht : t < 512) : BarReg tsFpolRun t :=
  .of_apart (k := 150) rfl (by decide +kernel) (by decide +kernel) (by decide) ht

/-- The runs of the kettle sites interleave, so none lies apart from the others, and the table is asked at each site. -/
theorem ktlCtrlRun_reg {k : Nat} (hk : k < 4) : BarReg ktlCtrlRun k :=
  have hf : ∀ k < 4, findReg (ktlCtrlRun.off + ktlCtrlRun.stride * k) = some (ktlCtrlRun, 0, k) := by decide +kernel
  .of_found (hf k hk) (by decide +kernel) (by decide) hk
theorem ktlFence0Run_reg {k : Nat} (hk : k < 4) : BarReg ktlFence0Run k :=
  have hf : ∀ k < 4, findReg (ktlFence0Run.off + ktlFence0Run.stride * k) = some (ktlFence0Run, 0, k) := by decide +kernel
  .of_found (hf k hk) (by decide +kernel) (by decide) hk
theorem ktlFence1Run_reg {k : Nat} (hk : k < 4) : BarReg ktlFence1Run k :=
  have hf : ∀ k < 4, findReg (ktlFence1Run.off + ktlFence1Run.stride * k) = some (ktlFence1Run, 0, k) := by decide +kernel
  .of_found (hf k hk) (by decide +kernel) (by decide) hk

/-! ### The locks over them -/

theorem lockedAt_tckCtrl (s : State) : lockedAt s (tckCtrlRun.off + tckCtrlRun.stride * 0) = flagF s Reg.tckCtrlLock := rfl

theorem lockedAt_tirRange (s : State) : lockedAt s (tirRangeRun.off + tirRangeRun.stride * 0) = flagF s Reg.tirCtrlLock := rfl

theorem lockedAt_ktlCtrl (s : State) {k : Nat} (hk : k < 4) :
    lockedAt s (ktlCtrlRun.off + ktlCtrlRun.stride * k) = flagF s (Reg.ktlCtrlLock.ix k) := by
  have hl : ∀ k < 4, lockOf (ktlCtrlRun.off + ktlCtrlRun.stride * k) = some (Reg.ktlCtrlLock.ix k) := by decide
  rw [lockedAt, hl k hk]

theorem lockedAt_brmPort (s : State) {p : Nat} (hp : p < 16) :
    lockedAt s (brmPortRun.off + brmPortRun.stride * p) = flagF s Reg.brmCtrlLock := by
  have hl : ∀ p < 16, lockOf (brmPortRun.off + brmPortRun.stride * p) = some Reg.brmCtrlLock := by decide
  rw [lockedAt, hl p hp]

theorem flagF_eq_false {s : State} {f : Fld} (h : getF s f = 0) : flagF s f = false := by rw [flagF, h]; rfl

theorem flagF_eq_true {s : State} {f : Fld} (h : getF s f = 1) : flagF s f = true := by rw [flagF, h]; rfl

/-! ### What a write of all fields does -/

section
variable (u : State) (i val : Nat) (locked : Bool)

theorem tckCtrlRun_put : tckCtrlRun.flds.foldl (fun u g => fieldPut u g 0 0 val false) u =
    setF (setF (syncEnSet u (bits val Reg.tckCtrlSyncEn.lo Reg.tckCtrlSyncEn.wid))
      Reg.tckCtrlCheckMiss (bits val Reg.tckCtrlCheckMiss.lo Reg.tckCtrlCheckMiss.wid))
      Reg.tckCtrlLock (bits val Reg.tckCtrlLock.lo Reg.tckCtrlLock.wid) := rfl

theorem tckTwinCtrlRun_put : tckTwinCtrlRun.flds.foldl (fun u g => fieldPut u g 0 0 val locked) u = twinCtrlSet u val := rfl

theorem fltFenceRun_put : fltFenceRun.flds.foldl (fun u g => fieldPut u g 0 0 val locked) u =
    setF u Reg.fltFenceFence (bits val Reg.fltFenceFence.lo Reg.fltFenceFence.wid) := rfl

theorem fltBlkHiRun_put : fltBlkHiRun.flds.foldl (fun u g => fieldPut u g 0 0 val locked) u =
    setF u Reg.fltBlkHiFenceHi (bits val Reg.fltBlkHiFenceHi.lo Reg.fltBlkHiFenceHi.wid) := rfl

theorem ktlCtrlRun_put : ktlCtrlRun.flds.foldl (fun u g => fieldPut u g 0 i val false) u =
    setF (setF (setF (setF (setF (setF u
      (Reg.ktlCtrlMode.ix i) (bits val Reg.ktlCtrlMode.lo Reg.ktlCtrlMode.wid))
      (Reg.ktlCtrlDirect.ix i) (bits val Reg.ktlCtrlDirect.lo Reg.ktlCtrlDirect.wid))
      (Reg.ktlCtrlSharedPcs.ix i) (bits val Reg.ktlCtrlSharedPcs.lo Reg.ktlCtrlSharedPcs.wid))
      (Reg.ktlCtrlPoll.ix i) (bits val Reg.ktlCtrlPoll.lo Reg.ktlCtrlPoll.wid))
      (Reg.ktlCtrlFullGap.ix i) (bits val Reg.ktlCtrlFullGap.lo Reg.ktlCtrlFullGap.wid))
      (Reg.ktlCtrlLock.ix i) (bits val Reg.ktlCtrlLock.lo Reg.ktlCtrlLock.wid) := rfl

theorem ktlFence0Run_put : ktlFence0Run.flds.foldl (fun u g => fieldPut u g 0 i val locked) u =
    setF u (Reg.ktlFence0Fence.ix i) (bits val Reg.ktlFence0Fence.lo Reg.ktlFence0Fence.wid) := rfl

theorem ktlFence1Run_put : ktlFence1Run.flds.foldl (fun u g => fieldPut u g 0 i val locked) u =
    setF u (Reg.ktlFence1Fence.ix i) (bits val Reg.ktlFence1Fence.lo Reg.ktlFence1Fence.wid) := rfl

theorem intLogStatusRun_put : intLogStatusRun.flds.foldl (fun u g => fieldPut u g 0 0 val locked) u =
    w1cPut (if bits val Reg.intLogStatusPop.lo Reg.intLogStatusPop.wid = 1 then logPop u else u)
      (Reg.intLogStatusDropped.ix 0) (bits val Reg.intLogStatusDropped.lo Reg.intLogStatusDropped.wid) := rfl

theorem tirRangeRun_put : tirRangeRun.flds.foldl (fun u g => fieldPut u g 0 0 val false) u =
    rangeSet u (bits val Reg.tirRangePages.lo Reg.tirRangePages.wid) := rfl

theorem tirLendRun_put : tirLendRun.flds.foldl (fun u g => fieldPut u g 0 0 val locked) u =
    setF (lendSet u (bits val Reg.tirLendFrames.lo Reg.tirLendFrames.wid) (bits val Reg.tirLendSites.lo Reg.tirLendSites.wid))
      Reg.tirLendSites (bits val Reg.tirLendSites.lo Reg.tirLendSites.wid) := rfl

/-- A write of a FLOOR is judged by the sum of all. -/
theorem fieldPut_tirTenCfgFloor : fieldPut u Reg.tirTenCfgFloor 0 i val locked =
    floorSet u i (bits val Reg.tirTenCfgFloor.lo Reg.tirTenCfgFloor.wid) := by
  change rwPut u Reg.tirTenCfgFloor 0 i val = _
  unfold rwPut
  dsimp only
  rw [if_neg (by decide), if_neg (by decide), if_neg (by decide), if_neg (by decide), if_pos (by decide)]

theorem tirTenCfgRun_put : tirTenCfgRun.flds.foldl (fun u g => fieldPut u g 0 i val locked) u =
    setF (setF (floorSet u i (bits val Reg.tirTenCfgFloor.lo Reg.tirTenCfgFloor.wid))
      (Reg.tirTenCfgSites.ix i) (bits val Reg.tirTenCfgSites.lo Reg.tirTenCfgSites.wid))
      (Reg.tirTenCfgLend.ix i) (bits val Reg.tirTenCfgLend.lo Reg.tirTenCfgLend.wid) := by
  rw [← fieldPut_tirTenCfgFloor u i val locked]
  rfl

theorem fshChRun_put : fshChRun.flds.foldl (fun u g => fieldPut u g 0 i val locked) u =
    w1cPut (chFenceSet u i (bits val Reg.fshChFence.lo Reg.fshChFence.wid))
      (Reg.fshChTimeouts.ix i) (bits val Reg.fshChTimeouts.lo Reg.fshChTimeouts.wid) := rfl

theorem fshDfenceRun_put : fshDfenceRun.flds.foldl (fun u g => fieldPut u g 0 i val locked) u =
    dfenceSet u i (bits val Reg.fshDfenceFence.lo Reg.fshDfenceFence.wid) := rfl

/-- A write of a port's ROLE, which a lock holds. -/
def roleWrite (v : Nat) : State := if locked then u else sysLost (portUpdate (setF u (Reg.brmPortRole.ix i) v) i)

theorem fieldPut_brmPortEn : fieldPut u Reg.brmPortEn 0 i val locked =
    sysLost (portEnSet u i (bits val Reg.brmPortEn.lo Reg.brmPortEn.wid)) := rfl

theorem fieldPut_brmPortFence : fieldPut u Reg.brmPortFence 0 i val locked =
    sysLost (portFenceSet u i (bits val Reg.brmPortFence.lo Reg.brmPortFence.wid)) := rfl

theorem fieldPut_brmPortRole : fieldPut u Reg.brmPortRole 0 i val locked =
    roleWrite u i locked (bits val Reg.brmPortRole.lo Reg.brmPortRole.wid) := rfl

theorem brmPortRun_put : brmPortRun.flds.foldl (fun u g => fieldPut u g 0 i val locked) u =
    w1cPut (w1cPut (roleWrite (sysLost (portFenceSet (sysLost (portEnSet u i (bits val Reg.brmPortEn.lo Reg.brmPortEn.wid)))
        i (bits val Reg.brmPortFence.lo Reg.brmPortFence.wid))) i locked (bits val Reg.brmPortRole.lo Reg.brmPortRole.wid))
      (Reg.brmPortTrains.ix i) (bits val Reg.brmPortTrains.lo Reg.brmPortTrains.wid))
      (Reg.brmPortMismatch.ix i) (bits val Reg.brmPortMismatch.lo Reg.brmPortMismatch.wid) := by
  simp only [brmPortRun, List.foldl_cons, List.foldl_nil, fieldPut_brmPortEn, fieldPut_brmPortFence, fieldPut_brmPortRole]
  rw [fieldPut_of_ro (g := Reg.brmPortState) rfl, fieldPut_of_ro (g := Reg.brmPortPartner) rfl,
    fieldPut_of_w1c (g := Reg.brmPortTrains) rfl, fieldPut_of_w1c (g := Reg.brmPortMismatch) rfl]

theorem tsHpolRun_put : tsHpolRun.flds.foldl (fun u g => fieldPut u g 0 i val locked) u = meterSet u false i val := rfl

theorem tsFpolRun_put : tsFpolRun.flds.foldl (fun u g => fieldPut u g 0 i val locked) u = meterSet u true i val := rfl

end

end Sys2Proof.Machine

/-! SUPPORT. What each command of a single field or unit does on an open link. -/
namespace Sys2Proof.Machine
open Sys2Proof

/-- Nothing is written on a closed link. -/
theorem fieldWrite_of_closed {s : State} (ho : portOpen s = false) (f : Fld) (v : Nat) : fieldWrite f v s = s :=
  barWrite_of_ignored 8 _ (.inl ho)

theorem kettleFenceWrite_of_no_place {site : Nat} (h : site < 4 ∨ 8 ≤ site) (hi : Bool) (v : Nat) (s : State) :
    kettleFenceWrite site hi v s = s := by
  rw [kettleFenceWrite, if_neg]
  simp only [Bool.and_eq_true, decide_eq_true_eq, not_and, Nat.not_lt]
  omega

theorem kettleFenceWrite_of_closed {s : State} (ho : portOpen s = false) (site : Nat) (hi : Bool) (v : Nat) :
    kettleFenceWrite site hi v s = s := by
  rw [kettleFenceWrite, fieldWrite_of_closed ho, ite_self]

/-- The sites 4 to 7 have the kettles' place. -/
theorem kettleSite_ok {k : Nat} (hk : k < 4) : (decide (4 ≤ k + 4) && decide (k + 4 < 8)) = true := by
  rw [decide_eq_true (Nat.le_add_left 4 k), decide_eq_true (by omega : k + 4 < 8), Bool.and_self]

/-- The fields of a write of TIR_LEND. -/
def lendFields (frames sites : Nat) (f : Fld) : Nat := if f = Reg.tirLendFrames then frames else if f = Reg.tirLendSites then sites else 0

section
variable {s : State} (ho : portOpen s = true)
include ho

/-! ### The error log and the fences -/

theorem logPopWrite_open : logPopWrite s = logPop s := by
  have hr := intLogStatusRun_reg
  rw [logPopWrite, ← Fld.ix_zero Reg.intLogStatusPop, fieldWrite_unlockable hr s 1 ho rfl (by decide) (by decide),
    intLogStatusRun_put, bits_fieldWord_same hr s 1 (by decide), bits_fieldWord_clear hr s 1 (by decide) (by decide) rfl,
    w1cPut_zero _ _ (by decide) (by decide) (by decide), if_pos (by decide)]

theorem fltFenceWrite_lo (v : Nat) : fltFenceWrite false v s = setF s Reg.fltFenceFence v := by
  have hr := fltFenceRun_reg
  rw [fltFenceWrite, if_neg Bool.false_ne_true, ← Fld.ix_zero Reg.fltFenceFence, fieldWrite_unlockable hr s v ho rfl (by decide) (by decide),
    fltFenceRun_put, bits_fieldWord_same hr s v (by decide), setF_mod, Fld.ix_zero]

theorem fltFenceWrite_hi (v : Nat) : fltFenceWrite true v s = setF s Reg.fltBlkHiFenceHi v := by
  have hr := fltBlkHiRun_reg
  rw [fltFenceWrite, if_pos rfl, ← Fld.ix_zero Reg.fltBlkHiFenceHi, fieldWrite_unlockable hr s v ho rfl (by decide) (by decide),
    fltBlkHiRun_put, bits_fieldWord_same hr s v (by decide), setF_mod, Fld.ix_zero]

theorem kettleFenceWrite_lo {k : Nat} (hk : k < 4) (hkt : hasKettles s.part = true) (v : Nat) :
    kettleFenceWrite (k + 4) false v s = setF s (Reg.ktlFence0Fence.ix k) v := by
  have hr := ktlFence0Run_reg hk
  rw [kettleFenceWrite, if_pos (kettleSite_ok hk), if_neg Bool.false_ne_true, Nat.add_sub_cancel,
    fieldWrite_unlockable hr s v ho hkt (by decide) (by decide), ktlFence0Run_put, bits_fieldWord_same hr s v (by decide)]
  exact setF_mod s (Reg.ktlFence0Fence.ix k) v

theorem kettleFenceWrite_hi {k : Nat} (hk : k < 4) (hkt : hasKettles s.part = true) (v : Nat) :
    kettleFenceWrite (k + 4) true v s = setF s (Reg.ktlFence1Fence.ix k) v := by
  have hr := ktlFence1Run_reg hk
  rw [kettleFenceWrite, if_pos (kettleSite_ok hk), if_pos rfl, Nat.add_sub_cancel,
    fieldWrite_unlockable hr s v ho hkt (by decide) (by decide), ktlFence1Run_put, bits_fieldWord_same hr s v (by decide)]
  exact setF_mod s (Reg.ktlFence1Fence.ix k) v

theorem kettleFenceWrite_of_no_kettles {k : Nat} (hk : k < 4) (hkt : hasKettles s.part = false) (hi : Bool) (v : Nat) :
    kettleFenceWrite (k + 4) hi v s = bump s Reg.idRsvdwrRsvdWr := by
  rw [kettleFenceWrite, if_pos (kettleSite_ok hk), Nat.add_sub_cancel]
  cases hi
  · exact fieldWrite_absent (ktlFence0Run_reg hk) s v ho hkt (by decide)
  · exact fieldWrite_absent (ktlFence1Run_reg hk) s v ho hkt (by decide)

/-! ### Fields that a lock holds -/

theorem syncEnWrite_unlocked (hl : getF s Reg.tckCtrlLock = 0) (v : Nat) : syncEnWrite v s =
    setF (setF (syncEnSet s (v % 2)) Reg.tckCtrlCheckMiss (getF s Reg.tckCtrlCheckMiss)) Reg.tckCtrlLock (getF s Reg.tckCtrlLock) := by
  have hr := tckCtrlRun_reg
  rw [syncEnWrite, ← Fld.ix_zero Reg.tckCtrlSyncEn,
    fieldWrite_unlocked hr s v ho rfl (by decide) ((lockedAt_tckCtrl s).trans (flagF_eq_false hl)), tckCtrlRun_put,
    bits_fieldWord_same hr s v (by decide), bits_fieldWord_kept hr s v (by decide) (by decide) rfl,
    bits_fieldWord_kept hr s v (by decide) (by decide) rfl]
  rfl

theorem syncEnWrite_locked (hl : getF s Reg.tckCtrlLock = 1) (v : Nat) : syncEnWrite v s =
    if v % 2 = getF s Reg.tckCtrlSyncEn then s else bump s Reg.idRsvdwrLockedWr := by
  have h := fieldWrite_locked tckCtrlRun_reg s v ho rfl (f := Reg.tckCtrlSyncEn) (by decide)
    ((lockedAt_tckCtrl s).trans (flagF_eq_true hl)) rfl (by decide)
  rwa [Fld.ix_zero] at h

theorem kettleModeWrite_unlocked {k : Nat} (hk : k < 4) (hkt : hasKettles s.part = true) (hl : getF s (Reg.ktlCtrlLock.ix k) = 0) (m : Nat) :
    kettleModeWrite (k + 4) m s =
      setF (setF (setF (setF (setF (setF s (Reg.ktlCtrlMode.ix k) m)
        (Reg.ktlCtrlDirect.ix k) (getF s (Reg.ktlCtrlDirect.ix k)))
        (Reg.ktlCtrlSharedPcs.ix k) (getF s (Reg.ktlCtrlSharedPcs.ix k)))
        (Reg.ktlCtrlPoll.ix k) (getF s (Reg.ktlCtrlPoll.ix k)))
        (Reg.ktlCtrlFullGap.ix k) (getF s (Reg.ktlCtrlFullGap.ix k)))
        (Reg.ktlCtrlLock.ix k) (getF s (Reg.ktlCtrlLock.ix k)) := by
  have hr := ktlCtrlRun_reg hk
  have hm : setF s (Reg.ktlCtrlMode.ix k) (m % 2 ^ Reg.ktlCtrlMode.wid) = setF s (Reg.ktlCtrlMode.ix k) m :=
    setF_mod s (Reg.ktlCtrlMode.ix k) m
  rw [kettleModeWrite, if_pos (kettleSite_ok hk), Nat.add_sub_cancel,
    fieldWrite_unlocked hr s m ho hkt (by decide) ((lockedAt_ktlCtrl s hk).trans (flagF_eq_false hl)), ktlCtrlRun_put,
    bits_fieldWord_same hr s m (by decide), hm, bits_fieldWord_kept hr s m (by decide) (by decide) rfl,
    bits_fieldWord_kept hr s m (by decide) (by decide) rfl, bits_fieldWord_kept hr s m (by decide) (by decide) rfl,
    bits_fieldWord_kept hr s m (by decide) (by decide) rfl, bits_fieldWord_kept hr s m (by decide) (by decide) rfl]

theorem kettleModeWrite_locked {k m : Nat} (hk : k < 4) (hm : m < 4) (hkt : hasKettles s.part = true)
    (hl : getF s (Reg.ktlCtrlLock.ix k) = 1) :
    kettleModeWrite (k + 4) m s = if m = getF s (Reg.ktlCtrlMode.ix k) then s else bump s Reg.idRsvdwrLockedWr := by
  have h := fieldWrite_locked (ktlCtrlRun_reg hk) s m ho hkt (f := Reg.ktlCtrlMode) (by decide)
    ((lockedAt_ktlCtrl s hk).trans (flagF_eq_true hl)) rfl (by decide)
  rw [show m % 2 ^ Reg.ktlCtrlMode.wid = m from Nat.mod_eq_of_lt hm] at h
  rw [kettleModeWrite, if_pos (kettleSite_ok hk), Nat.add_sub_cancel, h]

theorem rangePagesWrite_unlocked {n : Nat} (hn : n < 2 ^ 29) (hl : getF s Reg.tirCtrlLock = 0) : rangePagesWrite n s = rangeSet s n := by
  have hr := tirRangeRun_reg
  rw [rangePagesWrite, ← Fld.ix_zero Reg.tirRangePages,
    fieldWrite_unlocked hr s n ho rfl (by decide) ((lockedAt_tirRange s).trans (flagF_eq_false hl)), tirRangeRun_put,
    bits_fieldWord_same hr s n (by decide), show n % 2 ^ Reg.tirRangePages.wid = n from Nat.mod_eq_of_lt hn]

theorem rangePagesWrite_locked {n : Nat} (hn : n < 2 ^ 29) (hl : getF s Reg.tirCtrlLock = 1) :
    rangePagesWrite n s = if n = getF s Reg.tirRangePages then s else bump s Reg.idRsvdwrLockedWr := by
  have h := fieldWrite_locked tirRangeRun_reg s n ho rfl (f := Reg.tirRangePages) (by decide)
    ((lockedAt_tirRange s).trans (flagF_eq_true hl)) rfl (by decide)
  rwa [Fld.ix_zero, show n % 2 ^ Reg.tirRangePages.wid = n from Nat.mod_eq_of_lt hn] at h

/-! ### Tiers -/

theorem floorWrite_open {t n : Nat} (ht : t < 512) (hn : n < 2 ^ 28) : floorWrite t n s =
    setF (setF (if floorSum s t n > poolFrames s then bump s Reg.tirRefuseFloor else setF s (Reg.tirTenCfgFloor.ix t) n)
      (Reg.tirTenCfgSites.ix t) (getF s (Reg.tirTenCfgSites.ix t)))
      (Reg.tirTenCfgLend.ix t) (getF s (Reg.tirTenCfgLend.ix t)) := by
  have hr := tirTenCfgRun_reg ht
  rw [floorWrite, if_pos ht, fieldWrite_unlockable hr s n ho rfl (by decide) (by decide), tirTenCfgRun_put,
    bits_fieldWord_same hr s n (by decide), bits_fieldWord_kept hr s n (by decide) (by decide) rfl,
    bits_fieldWord_kept hr s n (by decide) (by decide) rfl, show n % 2 ^ Reg.tirTenCfgFloor.wid = n from Nat.mod_eq_of_lt hn, floorSet]

theorem lendWrite_open {n m : Nat} (hn : n < 2 ^ 21) (hm : m < 2 ^ 8) : lendWrite n m s = setF (lendSet s n m) Reg.tirLendSites m := by
  have hr := tirLendRun_reg
  have hframes : lendFields n m Reg.tirLendFrames = n := if_pos rfl
  have hsites : lendFields n m Reg.tirLendSites = m := by rw [lendFields, if_neg (by decide), if_pos rfl]
  have hlent : lendFields n m Reg.tirLendLent = 0 := by rw [lendFields, if_neg (by decide), if_neg (by decide)]
  have hw : n % 2 ^ 21 + m % 2 ^ 8 * 2 ^ 24 = packWord (lendFields n m) tirLendRun.flds := by
    simp only [tirLendRun, packWord, hframes, hsites, hlent, Nat.zero_mod, Nat.zero_mul]
    change _ = n % 2 ^ 21 * 1 + (m % 2 ^ 8 * 2 ^ 24 + (0 + 0))
    omega
  have hlt := packWord_lt (lendFields n m) hr.fieldsApart
  have hb := hr.barWrite_eq ho rfl (n % 2 ^ 21 + m % 2 ^ 8 * 2 ^ 24)
  rw [hw, Nat.mod_eq_of_lt hlt, regWrite_unlockable (by decide) (rsvdOnes_packWord _ hr.fieldsApart), tirLendRun_put,
    bits_packWord _ hr.fieldsApart (by decide), bits_packWord _ hr.fieldsApart (by decide), ← hw] at hb
  have hf : n % 2 ^ Reg.tirLendFrames.wid = n := Nat.mod_eq_of_lt hn
  have hs : m % 2 ^ Reg.tirLendSites.wid = m := Nat.mod_eq_of_lt hm
  rwa [hframes, hsites, hf, hs] at hb

/-! ### The twin and the meters -/

theorem twinEnWrite_open (v : Nat) : twinEnWrite v s = twinCtrlSet s (v % 2 + getF s Reg.tckTwinCtrlAction * 2
    + getF s Reg.tckTwinCtrlHold * 4 + getF s Reg.tckTwinCtrlTenant * 2 ^ 8 + getF s Reg.tckTwinCtrlLag * 2 ^ 24) := by
  have hr := tckTwinCtrlRun_reg
  rw [twinEnWrite, ← Fld.ix_zero Reg.tckTwinCtrlEn, fieldWrite_unlockable hr s v ho rfl (by decide) (by decide), tckTwinCtrlRun_put]
  have hkept (g : Fld) (hg : g.ty = .rw) : storedVal s 0 g % 2 ^ g.wid = getF s g := by
    rw [storedVal, if_pos (by rw [hg]; rfl), Fld.ix_zero, getF_mod]
  simp only [fieldWord, tckTwinCtrlRun, packWord]
  rw [putField_same, putField_other (by decide), putField_other (by decide), putField_other (by decide),
    putField_other (by decide), hkept _ rfl, hkept _ rfl, hkept _ rfl, hkept _ rfl]
  congr 1
  change v % 2 * 1 + (getF s Reg.tckTwinCtrlAction * 2 + (getF s Reg.tckTwinCtrlHold * 4 + (getF s Reg.tckTwinCtrlTenant * 2 ^ 8
    + (getF s Reg.tckTwinCtrlLag * 2 ^ 24 + 0)))) = _
  omega

theorem meterWrite_open (fabric : Bool) {t : Nat} (ht : t < 512) (v : Nat) : meterWrite fabric t v s = meterSet s fabric t (v % 2 ^ 64) := by
  rw [meterWrite, if_pos ht]
  cases fabric
  · have hr := tsHpolRun_reg ht
    rw [if_neg Bool.false_ne_true, hr.off_ix (by decide), hr.barWrite_eq ho rfl,
      regWrite_unlockable (by decide) (rsvdOnes_of_full (by decide) _), tsHpolRun_put]
  · have hr := tsFpolRun_reg ht
    rw [if_pos rfl, hr.off_ix (by decide), hr.barWrite_eq ho rfl,
      regWrite_unlockable (by decide) (rsvdOnes_of_full (by decide) _), tsFpolRun_put]

/-! ### Flash channels and dies -/

theorem flashFenceWrite_dies {c : Nat} (hc : c < 32) (v : Nat) : flashFenceWrite c true v s = dfenceSet s c (v % 2 ^ 64) := by
  have hr := fshDfenceRun_reg hc
  rw [flashFenceWrite, if_pos hc, if_pos rfl, fieldWrite_unlockable hr s v ho rfl (by decide) (by decide), fshDfenceRun_put,
    bits_fieldWord_same hr s v (by decide)]
  rfl

theorem flashFenceWrite_channel {c : Nat} (hc : c < 32) (v : Nat) : flashFenceWrite c false v s = chFenceSet s c (v % 2) := by
  have hr := fshChRun_reg hc
  rw [flashFenceWrite, if_pos hc, if_neg Bool.false_ne_true, fieldWrite_unlockable hr s v ho rfl (by decide) (by decide), fshChRun_put,
    bits_fieldWord_same hr s v (by decide), bits_fieldWord_clear hr s v (by decide) (by decide) rfl,
    w1cPut_zero _ _ (by decide) (by decide) (by decide)]
  rfl

/-! ### Ports -/

/-- A write of one field of a port's register, the others written back. -/
theorem fieldWrite_brmPort {p : Nat} (hp : p < 16) {f : Fld} (hf : f ∈ brmPortRun.flds) (hty : f.ty = .rw) (v : Nat) :
    fieldWrite (f.ix p) v s =
      roleWrite (sysLost (portFenceSet (sysLost (portEnSet s p (bits (fieldWord s brmPortRun p f v) Reg.brmPortEn.lo Reg.brmPortEn.wid)))
        p (bits (fieldWord s brmPortRun p f v) Reg.brmPortFence.lo Reg.brmPortFence.wid))) p (flagF s Reg.brmCtrlLock)
        (getF s (Reg.brmPortRole.ix p)) := by
  have hr := brmPortRun_reg hp
  have hne : ∀ g, g.ty ≠ .rw → g ≠ f := fun g hg h => hg (h ▸ hty)
  rw [fieldWrite_unlockable hr s v ho rfl hf (by rw [hty]; decide), lockedAt_brmPort s hp, brmPortRun_put,
    bits_fieldWord_kept hr s v (g := Reg.brmPortRole) (by decide) (hne _ (by decide)) rfl,
    bits_fieldWord_clear hr s v (g := Reg.brmPortTrains) (by decide) (hne _ (by decide)) rfl,
    bits_fieldWord_clear hr s v (g := Reg.brmPortMismatch) (by decide) (hne _ (by decide)) rfl,
    w1cPut_zero _ _ (by decide) (by decide) (by decide),
    w1cPut_zero _ _ (by decide) (by decide) (by decide)]

theorem portEnableWrite_open {p : Nat} (hp : p < 16) (v : Nat) : portEnableWrite p v s =
    roleWrite (sysLost (portFenceSet (sysLost (portEnSet s p (v % 2))) p (getF s (Reg.brmPortFence.ix p)))) p (flagF s Reg.brmCtrlLock)
      (getF s (Reg.brmPortRole.ix p)) := by
  have hr := brmPortRun_reg hp
  rw [portEnableWrite, if_pos hp, fieldWrite_brmPort ho hp (by decide) rfl, bits_fieldWord_same hr s v (by decide),
    bits_fieldWord_kept hr s v (by decide) (by decide) rfl]
  rfl

theorem portFenceWrite_open {p : Nat} (hp : p < 16) (v : Nat) : portFenceWrite p v s =
    roleWrite (sysLost (portFenceSet (sysLost (portEnSet s p (getF s (Reg.brmPortEn.ix p)))) p (v % 2))) p (flagF s Reg.brmCtrlLock)
      (getF s (Reg.brmPortRole.ix p)) := by
  have hr := brmPortRun_reg hp
  rw [portFenceWrite, if_pos hp, fieldWrite_brmPort ho hp (by decide) rfl, bits_fieldWord_same hr s v (by decide),
    bits_fieldWord_kept hr s v (by decide) (by decide) rfl]
  rfl

end
end Sys2Proof.Machine

/-! SETTLED. The register writes of chapter 00 and the accesses of the DRAM stacks. -/
namespace Sys2Proof.Machine
open Sys2Proof

/-! ### DRAM_READ and DRAM_WRITE -/

theorem inStack_of_down {s : State} {site : Nat} (h : siteUp s site = false) (addr len : Nat) (k : State) :
    inStack s site addr len k = .next k := by
  rw [inStack, h, Bool.false_and, if_neg Bool.false_ne_true]

theorem inStack_of_inside {s : State} {site addr len : Nat} (h : addr + len ≤ siteBytes s site) (k : State) :
    inStack s site addr len k = .next k := by
  rw [inStack, decide_eq_false (Nat.not_lt.2 h), Bool.and_false, if_neg Bool.false_ne_true]

theorem inStack_of_beyond {s : State} {site addr len : Nat} (hu : siteUp s site = true) (h : siteBytes s site < addr + len) (k : State) :
    inStack s site addr len k = .fault (.noSuchWord site (addr / 16)) := by
  rw [inStack, hu, decide_eq_true h, Bool.true_and, if_pos rfl]

section
variable {s : State} {site : Nat} (req addr : Nat) (ups : List (Nat × Nat × Nat)) (mapErr : List (Nat × Nat)) (waiting : Nat)

/-- A read within a stack that answers. -/
theorem exec_dramRead_of_inside (hu : siteUp s site = true) {len : Nat} (h : addr + len ≤ siteBytes s site) :
    exec (.dramRead req site addr len ups mapErr waiting) s =
      let t := readMap (strike (arriveAt s site waiting) site ups) site (addr / 256) ((addr + len - 1) / 256) mapErr
      let r := dramRead t site (addr / 16) (wordSpan addr len)
      .next (emit r.1 (.dramData req site addr (((r.2.flatMap (·.data)).drop (addr % 16)).take len)
        ((List.range (wordSpan addr len)).filter (fun i => (r.2.getD i ⟨[], false⟩).pois)))) := by
  change inStack s site addr len (dramReadCmd req site addr len ups mapErr waiting s) = _
  rw [inStack_of_inside h, dramReadCmd, hu]
  rfl

/-- A write within a stack that answers. -/
theorem exec_dramWrite_of_inside (hu : siteUp s site = true) {bytes : List Byte} (pois : List Nat)
    (h : addr + bytes.length ≤ siteBytes s site) :
    exec (.dramWrite req site addr bytes pois ups mapErr waiting) s =
      let t := readMap (strike (arriveAt s site waiting) site ups) site (addr / 256) ((addr + bytes.length - 1) / 256) mapErr
      let u := dramWrite t site addr bytes pois
      .next (emit (match nodeAddr u site addr with
        | some a => wakeScan u a bytes.length
        | none => u) (.dramPlaced req site addr)) := by
  change inStack s site addr bytes.length (dramWriteCmd req site addr bytes pois ups mapErr waiting s) = _
  rw [inStack_of_inside h, dramWriteCmd, hu]
  rfl

theorem exec_dramRead_of_down (hu : siteUp s site = false) (len : Nat) :
    exec (.dramRead req site addr len ups mapErr waiting) s = .next (emit s (.failed req addr Status.fenced.code)) := by
  change inStack s site addr len (dramReadCmd req site addr len ups mapErr waiting s) = _
  rw [inStack_of_down hu, dramReadCmd, hu]
  rfl

theorem exec_dramWrite_of_down (hu : siteUp s site = false) (bytes : List Byte) (pois : List Nat) :
    exec (.dramWrite req site addr bytes pois ups mapErr waiting) s = .next (emit s (.failed req addr Status.fenced.code)) := by
  change inStack s site addr bytes.length (dramWriteCmd req site addr bytes pois ups mapErr waiting s) = _
  rw [inStack_of_down hu, dramWriteCmd, hu]
  rfl

end

/-- Settles O8: an access within a stack that answers runs its steps in order, a stack that does not answer refuses it, and one past the
stack's end stops. -/
theorem stackAccess : Obligations.StackAccess := by
  refine ⟨fun s req site addr ups mapErr waiting => ⟨fun hu => ⟨fun len h => ?_, fun bytes pois h => ⟨fun a ha => ?_, fun ha => ?_⟩⟩,
    fun hu len bytes pois => ⟨?_, ?_⟩⟩, fun s req site addr len bytes pois ups mapErr waiting hu => ⟨fun h => ?_, fun h => ?_⟩⟩
  · exact exec_dramRead_of_inside req addr ups mapErr waiting hu h
  · rw [exec_dramWrite_of_inside req addr ups mapErr waiting hu pois h]
    simp only [readMap, ha]
  · rw [exec_dramWrite_of_inside req addr ups mapErr waiting hu pois h]
    simp only [readMap, ha]
  · exact exec_dramRead_of_down req addr ups mapErr waiting hu len
  · exact exec_dramWrite_of_down req addr ups mapErr waiting hu bytes pois
  · exact inStack_of_beyond hu h _
  · exact inStack_of_beyond hu h _

/-! ### Register writes -/

/-- Settles O10: REGISTER_WRITE by where the write goes, then the commands that write one register. -/
theorem registerWrites : Obligations.RegisterWrites := by
  refine ⟨fun fn off size val s => ⟨fun h => ?ignored, fun a ho he hf ha => ⟨fun hc => ?cxl, fun o hc hm => ?msix, fun hc hm =>
      ⟨fun hs => ?narrow, fun hs hr => ?reserved, fun r t i hs h8 hr => ?reg⟩⟩⟩,
    fun s => ⟨fun ho => ⟨?pop, fun v => ?fltLo, fun v => ?fltHi, fun k v hk hkt => ⟨?ktlLo, ?ktlHi⟩, fun k hi v hk hkt => ?noKtl⟩,
      fun site hi v h => ?noSite, fun ho => ⟨?popClosed, fun site hi v => ⟨?fltClosed, ?ktlClosed⟩⟩⟩⟩
  case ignored => exact congrArg Host.Outcome.next (barWrite_of_ignored size val h)
  case cxl => exact congrArg Host.Outcome.next (barWrite_of_cxl size val ha hc)
  case msix => exact congrArg Host.Outcome.next (barWrite_of_msix size val ho he hf ha hc hm)
  case narrow => exact congrArg Host.Outcome.next (barWrite_of_narrow val ho he hf ha hc hm hs)
  case reserved => exact congrArg Host.Outcome.next (barWrite_of_reserved val ho he hf ha hc hm hs hr)
  case reg => exact congrArg Host.Outcome.next (barWrite_of_reg val ho he hf ha hc hm hs h8 hr)
  case pop => exact congrArg Host.Outcome.next (logPopWrite_open ho)
  case fltLo => exact congrArg Host.Outcome.next (fltFenceWrite_lo ho v)
  case fltHi => exact congrArg Host.Outcome.next (fltFenceWrite_hi ho v)
  case ktlLo => exact congrArg Host.Outcome.next (kettleFenceWrite_lo ho hk hkt v)
  case ktlHi => exact congrArg Host.Outcome.next (kettleFenceWrite_hi ho hk hkt v)
  case noKtl => exact congrArg Host.Outcome.next (kettleFenceWrite_of_no_kettles ho hk hkt hi v)
  case noSite => exact congrArg Host.Outcome.next (kettleFenceWrite_of_no_place h hi v s)
  case popClosed => exact congrArg Host.Outcome.next (fieldWrite_of_closed ho _ _)
  case fltClosed => exact congrArg Host.Outcome.next (fieldWrite_of_closed ho _ _)
  case ktlClosed => exact congrArg Host.Outcome.next (kettleFenceWrite_of_closed ho site hi v)

/-- Settles O11: each command writes one register whole, so each of its fields acts in turn on the value written or written back. -/
theorem fieldAndUnitWrites : Obligations.FieldAndUnitWrites := by
  refine ⟨fun s ho => ⟨fun v hl => ?sync, fun v hl => ?syncLocked, fun k m hk hkt hl => ?mode, fun n hn hl => ?range, fun n hn hl => ?rangeLocked,
      fun k m hk hm hkt hl => ?modeLocked, fun t n ht hn => ?floor, fun n m hn hm => ?lend⟩,
    fun s ho => ⟨fun v => ?twin, fun c v hc => ⟨?dies, ?channel⟩, fun fabric t v ht => ?meter, fun p v hp => ⟨?portEn, ?portFence⟩⟩⟩
  case sync => exact congrArg Host.Outcome.next (syncEnWrite_unlocked ho hl v)
  case syncLocked => exact congrArg Host.Outcome.next (syncEnWrite_locked ho hl v)
  case mode => exact congrArg Host.Outcome.next (kettleModeWrite_unlocked ho hk hkt hl m)
  case range => exact congrArg Host.Outcome.next (rangePagesWrite_unlocked ho hn hl)
  case rangeLocked => exact congrArg Host.Outcome.next (rangePagesWrite_locked ho hn hl)
  case modeLocked => exact congrArg Host.Outcome.next (kettleModeWrite_locked ho hk hm hkt hl)
  case floor => exact congrArg Host.Outcome.next (floorWrite_open ho ht hn)
  case lend => exact congrArg Host.Outcome.next (lendWrite_open ho hn hm)
  case twin => exact congrArg Host.Outcome.next (twinEnWrite_open ho v)
  case dies => exact congrArg Host.Outcome.next (flashFenceWrite_dies ho hc v)
  case channel => exact congrArg Host.Outcome.next (flashFenceWrite_channel ho hc v)
  case meter => exact congrArg Host.Outcome.next (meterWrite_open ho fabric ht v)
  case portEn => exact congrArg Host.Outcome.next (portEnableWrite_open ho hp v)
  case portFence => exact congrArg Host.Outcome.next (portFenceWrite_open ho hp v)

end Sys2Proof.Machine

/-! SUPPORT. The requests of a reset (R463, R465): the bit of RST_CAUSE that each leaves, and the reset that is then pending. -/
namespace Sys2Proof.Machine
open Sys2Proof

@[simp] theorem setCause_power (s : State) (i : Nat) : (setCause s i).power = s.power := rfl

/-- RST_CAUSE has a bit for every source. -/
theorem testBit_rstCause_setCause (s : State) {i : Nat} (hi : i < 8) : (getF (setCause s i) Reg.rstCauseCause).testBit i = true := by
  have hw : i < Reg.rstCauseCause.wid := hi
  rw [setCause, getF_setF_same, Nat.testBit_mod_two_pow, Nat.testBit_or, Nat.testBit_two_pow_self]
  simp [hw]

/-! ### Registers: a request writes RST_CAUSE alone -/

theorem askCold_flds (s : State) (i : Nat) : (askCold s i).flds = (setCause s i).flds := rfl

theorem askWarm_flds (s : State) (i : Nat) : (askWarm s i).flds = (setCause s i).flds := by
  rw [askWarm]
  split
  · rfl
  · split <;> rfl

theorem askFelt_flds (s : State) (i : Nat) : (askFelt s i).flds = (setCause s i).flds := by
  rw [askFelt]
  split <;> rfl

/-- A request writes nothing over the bit of its source. -/
theorem testBit_rstCause_of_flds {s t : State} {i : Nat} (h : t.flds = (setCause s i).flds) (hi : i < 8) :
    (getF t Reg.rstCauseCause).testBit i = true := by
  rw [getF_congr h]
  exact testBit_rstCause_setCause s hi

/-! ### The reset that is pending -/

theorem askCold_power (s : State) (i : Nat) : (askCold s i).power =
    { s.power with coldPend := true, warmPend := false, feltPend := false, causes := s.power.causes ||| 2 ^ i } := rfl

theorem askWarm_power_of_cold {s : State} (hc : s.power.coldPend = true) (i : Nat) : (askWarm s i).power =
    { s.power with causes := s.power.causes ||| 2 ^ i } := by
  rw [askWarm, if_pos hc]
  rfl

theorem askWarm_power_of_not_cold {s : State} (hc : s.power.coldPend = false) (hs : 2 ≤ getF s Reg.rstStatusStep) (i : Nat) :
    (askWarm s i).power = { s.power with
      warmPend := true, feltPend := false, causes := s.power.causes ||| 2 ^ i,
      prepStart := if s.power.warmPend then s.power.prepStart else s.now } := by
  rw [askWarm, hc, if_neg Bool.false_ne_true, if_neg (Nat.not_lt.2 hs)]
  rfl

theorem askFelt_power_of_running {s : State} (hc : s.power.coldPend = false) (hw : s.power.warmPend = false)
    (hs : getF s Reg.rstStatusStep = 9) (i : Nat) :
    (askFelt s i).power = { s.power with feltPend := true, causes := s.power.causes ||| 2 ^ i } := by
  rw [askFelt, hc, hw, hs]
  rfl

/-- A wider reset that is pending absorbs a Felt-only request. -/
theorem askFelt_power_of_wider {s : State} (h : s.power.coldPend = true ∨ s.power.warmPend = true) (i : Nat) :
    (askFelt s i).power = s.power := by
  have hwide : (s.power.coldPend || s.power.warmPend) = true := Bool.or_eq_true_iff.2 h
  rw [askFelt, hwide, Bool.true_or, if_pos rfl, setCause_power]

end Sys2Proof.Machine

/-! SUPPORT. What each source of R463 asks for while the node can act on it. -/
namespace Sys2Proof.Machine
open Sys2Proof

section
variable {s : State} (hl : live s = true)
include hl

theorem warmResetRequest_of_live (ho : portOpen s = true) : warmResetRequest s = askWarm s 4 := by
  rw [warmResetRequest, hl, ho, Bool.and_self, if_pos rfl]

theorem feltResetRequest_of_live (ho : portOpen s = true) : feltResetRequest s = askFelt s 4 := by
  rw [feltResetRequest, hl, ho, Bool.and_self, if_pos rfl]

theorem resetNAssert_of_live : resetNAssert s =
    let t := modPower s (fun p => { p with resetNLow := true })
    if s.crown.pinCold then askCold t 2 else askWarm t 2 :=
  if_pos hl

theorem crownWatchdogExpiry_of_live : crownWatchdogExpiry s = askWarm s 3 := if_pos hl

theorem coreRefLost_of_live : coreRefLost s = askWarm s 6 := if_pos hl

theorem portRefLost_of_live : portRefLost s = askWarm s 6 := if_pos hl

theorem dramPllUnlock_of_live : dramPllUnlock s = askCold s 6 := if_pos hl

theorem coreDoubleFault_of_live : coreDoubleFault s = askWarm s 7 := if_pos hl

theorem ringDeadlock_of_live : ringDeadlock s = askWarm s 7 := if_pos hl

/-- Rail 0 is VDD_MGMT (R473): the Crown stops with it, so nothing is recorded (R475). -/
theorem brownOut_vddMgmt : brownOut 0 s = vddMgmtRemoved s := by
  rw [brownOut, hl]
  rfl

/-- A rail other than VDD_MGMT is recorded, ends a power-loss flush and asks for a cold reset (R475). -/
theorem brownOut_of_live {r : Nat} (h0 : 0 < r) (hr : r ≤ 15) : brownOut r s =
    let t := setF s Reg.rstRailBrown (getF s Reg.rstRailBrown ||| 2 ^ r)
    let t := crownEvent t 0x0203 2 (rawReg t [Reg.rstRailOk, Reg.rstRailBrown])
    askCold (modPower t (fun p => { p with flushing := false, halted := p.halted || p.flushing })) 1 := by
  rw [brownOut, hl, decide_eq_false (Nat.not_lt.2 hr), if_neg (by decide), if_neg (Nat.ne_of_gt h0)]

end

end Sys2Proof.Machine

/-! SETTLED. The sources of a reset. -/
namespace Sys2Proof.Machine
open Sys2Proof

/-- Settles O21: each source by what it asks for on a live node, then each request by the bit and the pending reset it leaves. -/
theorem resetSources : Obligations.ResetSources := by
  refine ⟨fun s hl => ⟨fun ho => ⟨?warm, ?felt⟩, ?pin, ?pinRise, ?watchdog, ?coreRef, ?portRef, ?dramPll, ?doubleFault, ?deadlock,
      fun r h0 hr => ?brown, ?brownMgmt⟩,
    fun s i hi => ⟨?warmBit, ?coldBit, ?feltBit, ?coldPends, ?coldDropsWarm, ?coldDropsFelt, fun hc hs => ?warmPends, fun hc => ?warmMerges,
      fun hc hw hs => ?feltPends, fun h => ?feltAbsorbed⟩⟩
  case warm => exact congrArg Host.Outcome.next (warmResetRequest_of_live hl ho)
  case felt => exact congrArg Host.Outcome.next (feltResetRequest_of_live hl ho)
  case pin => exact congrArg Host.Outcome.next (resetNAssert_of_live hl)
  case pinRise => rfl
  case watchdog => exact congrArg Host.Outcome.next (crownWatchdogExpiry_of_live hl)
  case coreRef => exact congrArg Host.Outcome.next (coreRefLost_of_live hl)
  case portRef => exact congrArg Host.Outcome.next (portRefLost_of_live hl)
  case dramPll => exact congrArg Host.Outcome.next (dramPllUnlock_of_live hl)
  case doubleFault => exact congrArg Host.Outcome.next (coreDoubleFault_of_live hl)
  case deadlock => exact congrArg Host.Outcome.next (ringDeadlock_of_live hl)
  case brown => exact congrArg Host.Outcome.next (brownOut_of_live hl h0 hr)
  case brownMgmt => exact congrArg Host.Outcome.next (brownOut_vddMgmt hl)
  case warmBit => exact testBit_rstCause_of_flds (askWarm_flds s i) hi
  case coldBit => exact testBit_rstCause_of_flds (askCold_flds s i) hi
  case feltBit => exact testBit_rstCause_of_flds (askFelt_flds s i) hi
  case coldPends => rw [askCold_power]
  case coldDropsWarm => rw [askCold_power]
  case coldDropsFelt => rw [askCold_power]
  case warmPends =>
    rw [askWarm_power_of_not_cold hc hs]
    exact ⟨rfl, rfl⟩
  case warmMerges =>
    rw [askWarm_power_of_cold hc]
    exact ⟨rfl, hc⟩
  case feltPends => rw [askFelt_power_of_running hc hw hs]
  case feltAbsorbed => exact askFelt_power_of_wider h i

end Sys2Proof.Machine

/-! SUPPORT. TICK_SYNC frames and the states of the Bow (R31–R37): what a change of state leaves, what a sampled frame comes to, and what a
valid one does in each state. -/
namespace Sys2Proof.Machine
open Sys2Proof

/-! ### Changes of state -/

@[simp] theorem crownEvent_bow (s : State) (code sev data : Nat) : (crownEvent s code sev data).bow = s.bow := by
  unfold crownEvent
  split <;> rfl

/-- An event of the Crown's log writes no register but the count of those dropped. -/
theorem getF_crownEvent_other (s : State) (code sev data : Nat) {f : Fld} (h : f.key ≠ Reg.crnLogDropped.key) :
    getF (crownEvent s code sev data) f = getF s f := by
  unfold crownEvent
  split
  · exact getF_setF_other s _ f _ h
  · rfl

@[simp] theorem msixRaise_bow (s : State) (fn e : Nat) : (msixRaise s fn e).bow = s.bow := by
  simp only [msixRaise]
  split
  · rfl
  · split <;> rfl

@[simp] theorem msixRaise_flds (s : State) (fn e : Nat) : (msixRaise s fn e).flds = s.flds := by
  simp only [msixRaise]
  split
  · rfl
  · split <;> rfl

@[simp] theorem cxlEvent_bow (s : State) (sev : Nat) (general : Bool) (code data : Nat) :
    (cxlEvent s sev general code data).bow = s.bow := by
  simp only [cxlEvent]
  split
  · rfl
  · split
    · rw [msixRaise_bow]
    · rfl

@[simp] theorem cxlEvent_flds (s : State) (sev : Nat) (general : Bool) (code data : Nat) :
    (cxlEvent s sev general code data).flds = s.flds := by
  simp only [cxlEvent]
  split
  · rfl
  · split
    · rw [msixRaise_flds]
    · rfl

section
variable {s : State} {st : BowSt} (h : s.bow.st ≠ st) (why : LostWhy)
include h

theorem bowTo_bow : (bowTo s st why).bow = { s.bow with st := st, why := if st = .lost then why else s.bow.why, missed := 0 } := by
  simp only [bowTo, if_neg h]
  split
  · rw [cxlEvent_bow, crownEvent_bow, setF_bow, modBow]
  · rw [crownEvent_bow, setF_bow, modBow]

theorem getF_bowTo_stateChg : getF (bowTo s st why) Reg.tckStatusStateChg = 1 := by
  have hkept (u : State) (data : Nat) : getF (crownEvent (setF u Reg.tckStatusStateChg 1) 0x0101 0 data) Reg.tckStatusStateChg = 1 := by
    rw [getF_crownEvent_other _ _ _ _ (by decide), getF_setF_same]
    rfl
  simp only [bowTo, if_neg h]
  split
  · rw [getF_congr (cxlEvent_flds _ _ _ _ _), hkept]
  · rw [hkept]

end

/-! ### Sampled frames -/

/-- Where TICK_REF is present, marking it changes nothing. -/
theorem modBow_refPresent {s : State} (h : s.bow.refPresent = true) : modBow s (fun b => { b with refPresent := true }) = s := by
  rw [modBow, ← h]

theorem takeFrame_of_bad {s : State} {frame : Nat} (hc : clocksRun s = true) (hh : bits frame 0 8 = 0xD5) (hf : frOk frame = false)
    (check : Bool) (ago : Nat) (offset : Int) : takeFrame s check frame ago offset =
      let t := badFrame (modBow s (fun b => { b with refPresent := true }))
      if check then checkMissed t else t := by
  simp only [takeFrame, hc, hh, hf, bne_self_eq_false, Bool.not_true, Bool.not_false, Bool.or_self, Bool.false_eq_true, if_false, if_true]

theorem takeFrame_of_valid {s : State} {frame : Nat} (hc : clocksRun s = true) (hp : s.bow.refPresent = true) (hh : bits frame 0 8 = 0xD5)
    (hf : frOk frame = true) (check : Bool) (ago : Nat) (offset : Int) :
    takeFrame s check frame ago offset = validFrame s (frType frame = 2) (frCount frame) ago offset := by
  simp only [takeFrame, hc, hh, hf, modBow_refPresent hp, bne_self_eq_false, Bool.not_true, Bool.or_self, Bool.false_eq_true, if_false]

/-! ### Missing CHECK frames -/

theorem checkMissed_of_not_synced {s : State} (h : s.bow.st ≠ .synced) : checkMissed s = s := by
  rw [checkMissed, bne_iff_ne.2 h, if_pos rfl]

theorem checkMissed_of_synced {s : State} (h : s.bow.st = .synced) : checkMissed s =
    let u := modBow s (fun b => { b with missed := b.missed + 1 })
    if atLeast1 s Reg.tckCtrlCheckMiss ≤ s.bow.missed + 1 then bowTo u .lost .checkMissing else u := by
  rw [checkMissed, h, bne_self_eq_false, if_neg Bool.false_ne_true]
  rfl

/-! ### Valid frames, by the state they find -/

section
variable {s : State} {count ago : Nat} (offset : Int)

/-- A Bow that is FREE or LOST adopts a frame where SYNC_EN is set (R35). -/
theorem validFrame_unsynced (h : s.bow.st = .free ∨ s.bow.st = .lost) (check : Bool) : validFrame s check count ago offset =
    if flagF s Reg.tckCtrlSyncEn then bowTo (adopt s count ago offset) .adopted .none else s := by
  rcases h with h | h <;> rw [validFrame, h]

theorem validFrame_adopted_other (h : s.bow.st = .adopted) (hd : (count + ago) % 2 ^ 64 ≠ s.bow.count) (check : Bool) :
    validFrame s check count ago offset = adopt s count ago offset := by
  rw [validFrame, h, decide_eq_false hd]
  rfl

theorem validFrame_adopted_same (h : s.bow.st = .adopted) (hd : (count + ago) % 2 ^ 64 = s.bow.count) (check : Bool) :
    validFrame s check count ago offset = if check && decide (s.bow.phase.natAbs ≤ 16) then bowTo s .synced .none else s := by
  rw [validFrame, h, decide_eq_true hd]
  rfl

theorem validFrame_synced_same (h : s.bow.st = .synced) (hd : (count + ago) % 2 ^ 64 = s.bow.count) (check : Bool) :
    validFrame s check count ago offset = if check then modBow s (fun b => { b with missed := 0, phase := offset }) else s := by
  rw [validFrame, h, decide_eq_true hd]
  rfl

theorem validFrame_synced_other (h : s.bow.st = .synced) (hd : (count + ago) % 2 ^ 64 ≠ s.bow.count) (check : Bool) :
    validFrame s check count ago offset = if check then bowTo s .lost .mismatch else badFrame s := by
  rw [validFrame, h, decide_eq_false hd]
  rfl

end

/-! ### What takes the Bow to LOST beside a frame -/

theorem tickRefLost_of_synchronised {s : State} (h : s.bow.st = .adopted ∨ s.bow.st = .synced) :
    tickRefLost s = bowTo (modBow s (fun b => { b with refPresent := false })) .lost .refMissing := by
  rcases h with h | h <;> simp [tickRefLost, h]

theorem tickRefLost_of_unsynced {s : State} (h : s.bow.st = .free ∨ s.bow.st = .lost) :
    tickRefLost s = modBow s (fun b => { b with refPresent := false }) := by
  rcases h with h | h <;> simp [tickRefLost, h]

theorem phaseLost_of_beyond {s : State} {ph : Int} (h : s.bow.st = .synced) (hp : 16 < ph.natAbs) :
    phaseLost ph s = bowTo (modBow s (fun b => { b with phase := ph })) .lost .phase := by
  simp [phaseLost, h, hp]

theorem phaseLost_of_within {s : State} {ph : Int} (h : s.bow.st ≠ .synced ∨ ph.natAbs ≤ 16) : phaseLost ph s = s := by
  rcases h with h | h
  · simp [phaseLost, h]
  · simp [phaseLost, Nat.not_lt.2 h]

end Sys2Proof.Machine

/-! SETTLED. Frames and the states of the Bow. -/
namespace Sys2Proof.Machine
open Sys2Proof

/-- Settles O27: each CHECK frame by the state it finds, then the three other ways to LOST and what a change of state leaves. -/
theorem bowStates : Obligations.BowStates := by
  refine fun s => ⟨fun frame ago offset hc hp hh hf ht => ?frames, ⟨fun h => ?refLost, fun h => ?refStays⟩,
    fun ph => ⟨fun h hph => ?phase, fun h => ?phaseStays⟩, ⟨fun h hm => ?missed, fun h hm => ?missedOut, fun h => ?missedStays⟩,
    fun st why h => ⟨bowTo_bow h why, getF_bowTo_stateChg h why⟩⟩
  case frames =>
    have go : exec (.checkFrame frame ago offset) s = .next (validFrame s true (frCount frame) ago offset) := by
      refine congrArg Host.Outcome.next ?_
      rw [checkFrame, takeFrame_of_valid hc hp hh hf, decide_eq_true ht]
    intro now diff adopted run
    rw [show run = _ from go]
    refine ⟨fun h hs => ?adopts, fun h hs => ?off, fun h hd => ?again, fun h hd hph => ?confirms, fun h hd hph => ?waits,
      fun h hd => ?trims, fun h hd => ?contradicts⟩
    case adopts =>
      rw [validFrame_unsynced offset h, flagF_eq_true hs, if_pos rfl]
      rfl
    case off => rw [validFrame_unsynced offset h, flagF_eq_false hs, if_neg Bool.false_ne_true]
    case again =>
      rw [validFrame_adopted_other offset h hd]
      rfl
    case confirms => rw [validFrame_adopted_same offset h hd, Bool.true_and, decide_eq_true hph, if_pos rfl]
    case waits =>
      rw [validFrame_adopted_same offset h hd, Bool.true_and, decide_eq_false (Nat.not_le.2 hph), if_neg Bool.false_ne_true]
    case trims => rw [validFrame_synced_same offset h hd, if_pos rfl]
    case contradicts => rw [validFrame_synced_other offset h hd, if_pos rfl]
  case refLost => exact congrArg Host.Outcome.next (tickRefLost_of_synchronised h)
  case refStays => exact congrArg Host.Outcome.next (tickRefLost_of_unsynced h)
  case phase => exact congrArg Host.Outcome.next (phaseLost_of_beyond h hph)
  case phaseStays => exact congrArg Host.Outcome.next (phaseLost_of_within h)
  case missed => exact congrArg Host.Outcome.next ((checkMissed_of_synced h).trans (if_neg (Nat.not_le.2 hm)))
  case missedOut => exact congrArg Host.Outcome.next ((checkMissed_of_synced h).trans (if_pos hm))
  case missedStays => exact congrArg Host.Outcome.next (checkMissed_of_not_synced h)

/-- Settles O25: a frame that fails its check is counted, and the CHECK frame it was is missing besides. -/
theorem badFramesDiscarded : Obligations.BadFramesDiscarded := by
  refine fun s frame ago offset hc hh hf => ⟨?load, fun h => ?check, fun h => ?checkSynced⟩
  case load => exact congrArg Host.Outcome.next (takeFrame_of_bad hc hh hf false ago offset)
  case check =>
    exact congrArg Host.Outcome.next ((takeFrame_of_bad hc hh hf true ago offset).trans (checkMissed_of_not_synced h))
  case checkSynced =>
    exact congrArg Host.Outcome.next ((takeFrame_of_bad hc hh hf true ago offset).trans (checkMissed_of_synced h))

/-- Settles O26: a LOAD frame by the state it finds. -/
theorem loadFrames : Obligations.LoadFrames := by
  intro s frame ago offset hc hp hh hf ht same
  have go : exec (.loadFrame frame ago offset) s = .next (validFrame s false (frCount frame) ago offset) := by
    refine congrArg Host.Outcome.next ?_
    rw [loadFrame, takeFrame_of_valid hc hp hh hf, decide_eq_false (by rw [ht]; decide)]
  rw [go]
  refine ⟨fun h hd => ?syncedSame, fun h hd => ?syncedOther, fun h hd => ?adoptedSame, fun h hd => ?adoptedOther, fun h hs => ?adopts,
    fun h hs => ?off⟩
  case syncedSame => rw [validFrame_synced_same offset h hd, if_neg Bool.false_ne_true]
  case syncedOther =>
    rw [validFrame_synced_other offset h hd, if_neg Bool.false_ne_true]
    rfl
  case adoptedSame => rw [validFrame_adopted_same offset h hd, Bool.false_and, if_neg Bool.false_ne_true]
  case adoptedOther => rw [validFrame_adopted_other offset h hd]
  case adopts => rw [validFrame_unsynced offset h, flagF_eq_true hs, if_pos rfl]
  case off => rw [validFrame_unsynced offset h, flagF_eq_false hs, if_neg Bool.false_ne_true]

end Sys2Proof.Machine

/-! SUPPORT. The events of a tick edge (R40–R46, R142, R273, R318, R433, R436): what each does by whether its tick has come, and what a
commit, a gate list, a launch and a refill leave. -/
namespace Sys2Proof.Machine
open Sys2Proof

section
variable {s : State} {t : Nat}

/-! ### Crossing alignment and preparation -/

theorem crossingAlignment_of_due (ha : s.bow.align = some t) (h : t ≤ tickOf s) : crossingAlignment s =
    setF (modBow s (fun b => { b with align := none, alignFelt := false })) Reg.tckXalignCount t := by
  simp only [crossingAlignment, ha, ge_iff_le, h, if_true]

theorem crossingAlignment_of_early (ha : s.bow.align = some t) (h : tickOf s < t) : crossingAlignment s = s := by
  simp only [crossingAlignment, ha, ge_iff_le, Nat.not_le.2 h, if_false]

/-- The first event not prepared is prepared from four ticks before its own (R42). -/
theorem eventPrepare_of_near {e : SchedEvt} (hf : schedFirst s (fun e => !e.prepared) = some t) (h : t ≤ tickOf s + 4)
    (he : s.bow.sched.find? (fun e => !e.prepared && e.tick = t) = some e) : eventPrepare s = prepareEvent s e := by
  simp only [eventPrepare, hf, Nat.not_lt.2 h, he, if_false]

theorem eventPrepare_of_early (hf : schedFirst s (fun e => !e.prepared) = some t) (h : tickOf s + 4 < t) : eventPrepare s = s := by
  simp only [eventPrepare, hf, h, if_true]

/-! ### The event of a tick that the table names first

EPOCH_COMMIT and GATE_LIST_TAKEOVER ask for the least tick of their own entries. -/

/-- What a command does with the first of the entries at which a test holds, where its tick has come. -/
def atFirst (s : State) (p : SchedEvt → Bool) (k : Nat → State) : State :=
  match schedFirst s p with
  | some t => if decide (t ≤ tickOf s) && !(bowRests s) then k t else s
  | none => s

theorem epochCommit_eq (s : State) (index shard : Nat) : epochCommit index shard s =
    let u := edgeCommits (edgeUpTo s 2) (fun j => decide (j < shardKey index shard))
    atFirst u (isCommitOf (shardKey index shard)) (commitAt u (shardKey index shard)) := rfl

theorem gateListTakeover_eq (s : State) (port : Nat) : gateListTakeover port s =
    let u := edgeGates (edgeUpTo s 3) (fun j => decide (j < port))
    atFirst u (isGateOf port) (gateAt u port) := rfl

variable {p : SchedEvt → Bool} (k : Nat → State)

theorem atFirst_of_due (hf : schedFirst s p = some t) (h : t ≤ tickOf s) (hr : bowRests s = false) : atFirst s p k = k t := by
  simp only [atFirst, hf, h, hr, decide_true, Bool.not_false, Bool.and_self, if_true]

theorem atFirst_of_early (hf : schedFirst s p = some t) (h : tickOf s < t) : atFirst s p k = s := by
  simp only [atFirst, hf, Nat.not_le.2 h, decide_false, Bool.false_and, Bool.false_eq_true, if_false]

theorem atFirst_of_none (hf : schedFirst s p = none) : atFirst s p k = s := by simp only [atFirst, hf]

end

/-! ### Commits -/

/-- The events of a commit complete, each with its record (R142). -/
def completeCommits (mine : List SchedEvt) (record : List Byte) (s : State) : State :=
  mine.foldl (fun t e => match workOf t e.work with
    | some w => completeWith t w (w.f 24 8) record .ok
    | none => t) s

/-- A commit of prepared events advances the epoch, makes its versions those of the next epoch and completes each event with the record. -/
theorem commitAt_prepared {s : State} {sk tick : Nat} {h : Shard} (hs : mget s.srch.shards sk = some h) (hd : h.detaching = none)
    (he : h.epoch + 1 < 2 ^ 48 - 1) (hp : (s.bow.sched.filter (fun e => isCommitOf sk e && e.tick = tick)).any (fun e => !e.prepared) = false) :
    commitAt s sk tick =
      let mine := s.bow.sched.filter (fun e => isCommitOf sk e && e.tick = tick)
      let n := (h.fixed.filter (fun f => f.1 = tick)).foldl (fun (a : Nat × Nat) f => (a.1 + f.2.1, a.2 + f.2.2)) (0, 0)
      let u := schedFree s (fun e => isCommitOf sk e && e.tick = tick)
      let u := modShard u sk (fun x => { x with epoch := h.epoch + 1, fixed := x.fixed.filter (fun f => f.1 != tick) })
      let u := modSrch u (fun r => { r with versions := r.versions.map (fun v =>
        if v.1 / 2 ^ 32 = sk && decide (v.2.vfrom > h.epoch) then (v.1, commitVersion (h.epoch + 1) tick v.2) else v) })
      completeCommits mine (commitRecord (h.epoch + 1) (decide (mine.length > 1)) n.1 n.2) u := by
  have hfree : mget (schedFree s (fun e => isCommitOf sk e && e.tick = tick)).srch.shards sk = some h := hs
  simp only [commitAt, hs, hd, Option.isSome_none, Bool.false_eq_true, if_false]
  rw [if_neg (Bool.eq_false_iff.1 hp), hfree, Option.getD_some, if_neg (Nat.ne_of_lt he)]
  rfl

/-- Where every event of a kind is prepared, none of a tick is left to prepare. -/
theorem any_unprepared_of_all {l : List SchedEvt} {p : SchedEvt → Bool} (h : l.all (fun e => !(p e) || e.prepared) = true) :
    (l.filter p).any (fun e => !e.prepared) = false := by
  rw [List.any_eq_false]
  intro e he
  obtain ⟨hl, hp⟩ := List.mem_filter.1 he
  have := List.all_eq_true.1 h e hl
  rw [hp, Bool.not_true, Bool.false_or] at this
  rw [this]
  decide

/-! ### Gate lists -/

/-- The only list of a port for its tick takes over, and nothing supersedes it. -/
theorem gateAt_of_one {s : State} {p t : Nat} {e : SchedEvt} {l : List GateEnt}
    (hm : s.bow.sched.filter (fun e => isGateOf p e && e.tick = t) = [e]) (hg : gateOf e = some (p, l)) :
    gateAt s p t =
      let u := schedFree s (fun e => isGateOf p e && e.tick = t)
      completeId (gateShow u p ⟨t, l, gateCur u t l⟩) e.work .ok := by
  simp only [gateAt, hm, List.getLast?_singleton, Option.bind_some, hg]
  rfl

section
variable {s : State} {p : Nat} {g : GateList} (hg : mget s.host.gates p = some g)
include hg

theorem gateEntryChange_of_other (ht : g.tick ≤ tickOf s) (hc : gateCur s g.tick g.ents ≠ g.cur) :
    gateEntryChange p s = gateShow s p { g with cur := gateCur s g.tick g.ents } := by
  simp only [gateEntryChange, hg, Nat.not_lt.2 ht, hc, decide_false, Bool.or_self, Bool.false_eq_true, if_false]

theorem gateEntryChange_of_same (h : tickOf s < g.tick ∨ gateCur s g.tick g.ents = g.cur) : gateEntryChange p s = s := by
  rcases h with h | h <;> simp [gateEntryChange, hg, h]

end

/-! ### Launches -/

section
variable {s : State} {i : Nat} {e : SchedEvt}

theorem imageLaunch_of_due (hf : s.bow.sched.find? (isLaunchOf i) = some e) (ht : e.tick ≤ tickOf s) (hr : bowRests s = false) :
    imageLaunch i s =
      let u := edgeUpTo s 4
      ((dueLaunches u).takeWhile (fun f => !(isLaunchOf i f)) ++ [e]).foldl launchEvent u := by
  simp only [imageLaunch, hf, Nat.not_lt.2 ht, hr, decide_false, Bool.or_self, Bool.false_eq_true, if_false]

theorem imageLaunch_of_early (hf : s.bow.sched.find? (isLaunchOf i) = some e) (ht : tickOf s < e.tick) : imageLaunch i s = s := by
  simp only [imageLaunch, hf, ht, decide_true, Bool.true_or, if_true]

variable (hk : e.kind = .launch i)
include hk

/-- While the Bow is SYNCED a prepared launch begins the first step of its image. -/
theorem launchEvent_of_synced (hs : s.bow.st = .synced) (hp : e.prepared = true) {x : Image}
    (hx : imageOf (schedFree s (fun f => isLaunchOf i f && f.tick = e.tick)) i = some x) : launchEvent s e =
      let v := setF (schedFree s (fun f => isLaunchOf i f && f.tick = e.tick)) Reg.idNumsigLast x.numsig
      let v := { v with twin := { v.twin with blockWords := v.twin.blockWords.filter (fun b => !(x.blocks.testBit b.1)),
                                              blockSeg := v.twin.blockSeg.filter (fun b => !(x.blocks.testBit b.1)) } }
      startStep (setImage v i { x with run := x.run.map (fun r => { r with launched := true }) }) i := by
  simp only [launchEvent, hk, hs, if_true, doLaunch, hp, hx]

/-- In any other state it misses (R38). -/
theorem launchEvent_of_unsynced (hs : s.bow.st ≠ .synced) (hu : (imageOf s i).bind (·.unload) = none) : launchEvent s e =
    completeId (bump (dropRun (schedFree s (fun f => f = e)) i) Reg.tckStatusMissedRun) e.work .notSynchronised := by
  simp only [launchEvent, hk, hs, if_false, missLaunch, hu]

end

/-! ### Roles -/

section
variable {s : State} {p t w : Nat} (hr : s.felt.role = some (p, t, w))
include hr

theorem roleApply_of_due (h : t ≤ tickOf s) : roleApply s =
    let u := setF (modFelt s (fun f => { f with role := none })) Reg.fltRoleProfile p
    completeId (setStage (setF (setF u Reg.fltRolePending 0) Reg.fltRoleNext 0)) w .ok := by
  simp only [roleApply, hr, Nat.not_lt.2 h, if_false]

theorem roleApply_of_early (h : tickOf s < t) : roleApply s = s := by simp only [roleApply, hr, h, if_true]

end

/-! ### Refills -/

theorem boundaryWork_eq (s : State) :
    boundaryWork s = if s.bow.edgeWork then skewMigrate (modBow s (fun b => { b with edgeWork := false })) else s := rfl

/-- A refill of one meter (R433), by the capacity and rates of its kind. -/
theorem meterFill_eq (s : State) (n : Nat) (m : Meter) : meterFill s (decide (n ≥ 512)) (n % 512) m =
    let f := meterF s (decide (n ≥ 512)) (n % 512)
    let one := if n ≥ 512 then 64 else 1
    ⟨min (meterCap (decide (n ≥ 512)) f.2.1) (m.tc + f.1 * one),
      min (meterCap (decide (n ≥ 512)) f.2.2.2) (m.tp + max f.1 f.2.2.1 * one)⟩ := by
  simp only [meterFill, decide_eq_true_eq]

theorem meterRefill_eq (s : State) : meterRefill s = modHost s (fun h => { h with
    meters := h.meters.map (fun m => (m.1, meterFill s (decide (m.1 ≥ 512)) (m.1 % 512) m.2)) }) := rfl

end Sys2Proof.Machine

/-! SETTLED. The events of a tick edge. -/
namespace Sys2Proof.Machine
open Sys2Proof

/-- Settles O28: each event by whether its tick has come; the first of a class acts on what the classes and places before it leave. -/
theorem tickEvents : Obligations.TickEvents := by
  refine fun s => ⟨fun t ha => ⟨fun h => ?aligns, fun h => ?alignsLater⟩,
    fun t e hf => ⟨fun h he => ⟨fun slot hk => ?fills, fun i sh hk => ?fixes, fun p l hk => ?preparesGate⟩, fun h => ?preparesLater⟩,
    fun i sh => ⟨fun t hf h hr => ?commits, fun t hf h => ?commitsLater, fun hf => ?commitsNone⟩,
    fun k t h hs hd he hp => ?commit,
    fun p => ⟨fun t hf h hr => ?gates, fun t hf h => ?gatesLater, fun hf => ?gatesNone⟩,
    fun p t e l hm hg => ?gate,
    fun p g hg => ⟨fun ht hc => ?entry, fun h => ?entryStays⟩,
    fun i e hf ht hr => ?launches, fun i e hf ht => ?launchesLater,
    fun e i hk => ⟨fun hs hp x hx => ?launch, fun hs hu => ?misses⟩,
    fun p t w hr => ⟨fun h => ?role, fun h => ?roleLater⟩,
    ⟨fun h => ?paces, fun h => ?pacesWork⟩, ?refills⟩
  case aligns => exact congrArg Host.Outcome.next (crossingAlignment_of_due ha h)
  case alignsLater => exact congrArg Host.Outcome.next (crossingAlignment_of_early ha h)
  case fills =>
    refine congrArg Host.Outcome.next ((eventPrepare_of_near hf h he).trans ?_)
    rw [prepareEvent, hk]
  case fixes =>
    refine congrArg Host.Outcome.next ((eventPrepare_of_near hf h he).trans ?_)
    rw [prepareEvent, hk]
  case preparesGate =>
    refine congrArg Host.Outcome.next ((eventPrepare_of_near hf h he).trans ?_)
    rw [prepareEvent, hk]
  case preparesLater => exact congrArg Host.Outcome.next (eventPrepare_of_early hf h)
  case commits => exact congrArg Host.Outcome.next ((epochCommit_eq s i sh).trans (atFirst_of_due _ hf h hr))
  case commitsLater => exact congrArg Host.Outcome.next ((epochCommit_eq s i sh).trans (atFirst_of_early _ hf h))
  case commitsNone => exact congrArg Host.Outcome.next ((epochCommit_eq s i sh).trans (atFirst_of_none _ hf))
  case commit => exact commitAt_prepared hs hd he (any_unprepared_of_all hp)
  case gates => exact congrArg Host.Outcome.next ((gateListTakeover_eq s p).trans (atFirst_of_due _ hf h hr))
  case gatesLater => exact congrArg Host.Outcome.next ((gateListTakeover_eq s p).trans (atFirst_of_early _ hf h))
  case gatesNone => exact congrArg Host.Outcome.next ((gateListTakeover_eq s p).trans (atFirst_of_none _ hf))
  case gate => exact gateAt_of_one hm hg
  case entry => exact congrArg Host.Outcome.next (gateEntryChange_of_other hg ht hc)
  case entryStays => exact congrArg Host.Outcome.next (gateEntryChange_of_same hg h)
  case launches => exact congrArg Host.Outcome.next (imageLaunch_of_due hf ht hr)
  case launchesLater => exact congrArg Host.Outcome.next (imageLaunch_of_early hf ht)
  case launch => exact launchEvent_of_synced hk hs hp hx
  case misses => exact launchEvent_of_unsynced hk hs hu
  case role => exact congrArg Host.Outcome.next (roleApply_of_due hr h)
  case roleLater => exact congrArg Host.Outcome.next (roleApply_of_early hr h)
  case paces => exact congrArg Host.Outcome.next ((boundaryWork_eq _).trans (if_neg (Bool.eq_false_iff.1 h)))
  case pacesWork => exact congrArg Host.Outcome.next ((boundaryWork_eq _).trans (if_pos h))
  case refills =>
    refine congrArg Host.Outcome.next ?_
    rw [meterRefill_eq]
    simp only [meterFill_eq]

end Sys2Proof.Machine

/-! SUPPORT. Lock-step twins (R53–R60): what a state becomes that is paired, and what each exchange does by whether the twin is there and
whether segments are compared. -/
namespace Sys2Proof.Machine
open Sys2Proof

/-- A twin's state in which port 15 is trained to the twin: the comparison begins where it waited for that (R53). -/
def pairedTwin (t : Twin) : Twin := { t with linked := true, st := if t.st = 1 then 2 else t.st }

@[simp] theorem twinUp_modTwin (s : State) (f : Twin → Twin) : twinUp (modTwin s f) = twinUp s := rfl

theorem pairedTwin_comparing {t : Twin} (h : t.st = 1 ∨ t.st = 2) : pairedTwin t = { t with linked := true, st := 2 } := by
  rcases h with h | h <;> rw [pairedTwin, h] <;> rfl

theorem pairedTwin_st_other {t : Twin} (h1 : t.st ≠ 1) (h2 : t.st ≠ 2) : (pairedTwin t).st ≠ 2 := by
  rw [pairedTwin, if_neg h1]
  exact h2

section
variable {s : State}

theorem twinPair_of_up (h : twinUp s = true) : twinPair s = modTwin s pairedTwin := by
  rw [twinPair, h, Bool.not_true, if_neg Bool.false_ne_true]
  rfl

theorem twinPair_of_down (h : twinUp s = false) : twinPair s = s := by rw [twinPair, h, Bool.not_false, if_pos rfl]

/-- Twins compare once port 15 is trained to the twin, from PAIRING on. -/
theorem twinPair_comparing (h : twinUp s = true) (hst : s.twin.st = 1 ∨ s.twin.st = 2) :
    twinPair s = modTwin s (fun t => { t with linked := true, st := 2 }) := by
  rw [twinPair_of_up h, modTwin, pairedTwin_comparing hst]
  rfl

/-- Whether the node exchanges and compares digests. -/
def comparing (s : State) : Bool := s.twin.st = 2 && twinUp s

theorem comparing_of_down (h : twinUp s = false) : comparing s = false := by rw [comparing, h, Bool.and_false]

theorem comparing_paired (h : twinUp s = true) (f : Twin → Twin) (hf : (f s.twin).st = 2) : comparing (modTwin s f) = true := by
  rw [comparing, twinUp_modTwin, h, modTwin_twin, hf]
  rfl

theorem comparing_paired_other (h1 : s.twin.st ≠ 1) (h2 : s.twin.st ≠ 2) : comparing (modTwin s pairedTwin) = false := by
  rw [comparing, modTwin_twin, decide_eq_false (pairedTwin_st_other h1 h2), Bool.false_and]

/-! ### Frames (R55) -/

theorem twin_eq (frame : List Byte) (checks : List (List Nat)) (s : State) : twin frame checks s =
    let u := twinPair s
    if comparing u then modTwin u (fun t => { t with peer := t.peer ++ frameDigests (tickOf u) frame checks }) else u := rfl

/-- The frame of the oldest digests unsent leaves for the twin. -/
def sendDigests (s : State) : State :=
  let tick := (s.twin.unsent.map (·.tick)).foldl min (tickOf s)
  let ds := s.twin.unsent.filter (fun d => d.tick = tick)
  emit (modTwin s (fun t => { t with unsent := t.unsent.filter (fun d => d.tick != tick) })) (.twinFrame (twinFrame tick ds) (ds.map (·.chk)))

theorem twinFrameSend_eq (s : State) : twinFrameSend s =
    let u := twinPair s
    if comparing u then sendDigests u else u := rfl

/-! ### Comparison points (R56–R58) -/

theorem edgeComparison_of_due (h : s.twin.judged ≤ tickOf s) : edgeComparison s = comparisonPoint s := if_pos h

theorem edgeComparison_of_judged (h : tickOf s < s.twin.judged) : edgeComparison s = s := if_neg (Nat.not_le.2 h)

/-- The state in which a comparison point finds the twin: the point of this tick is had. -/
def judgedNow (s : State) : State := modTwin (twinPair s) (fun t => { t with judged := tickOf s + 1 })

theorem judgedNow_of_up (h : twinUp s = true) :
    judgedNow s = modTwin (modTwin s pairedTwin) (fun t => { t with judged := tickOf s + 1 }) := by rw [judgedNow, twinPair_of_up h]

theorem judgedNow_of_down (h : twinUp s = false) : judgedNow s = modTwin s (fun t => { t with judged := tickOf s + 1 }) := by
  rw [judgedNow, twinPair_of_down h]

/-- The guard of a comparison point. -/
theorem not_comparing_eq (s : State) : (s.twin.st != 2 || !(twinUp s)) = !(comparing s) := by
  rw [comparing, Bool.not_and]
  rfl

/-- A node that compares nothing still has had the comparison point of its tick. -/
theorem comparisonPoint_of_not_comparing (h : comparing (judgedNow s) = false) : comparisonPoint s = judgedNow s :=
  if_pos (by rw [← judgedNow, not_comparing_eq, h]; rfl)

/-! ### A lost link and what ACTION asks for (R57, R59) -/

theorem twinLinkLost_of_linked (he : flagF s Reg.tckTwinCtrlEn = true) (hst : s.twin.st ≠ 0) (hu : twinUp s = false)
    (hl : s.twin.linked = true) : ∃ code sev, twinLinkLost s = twinUnpair (twinAct (crownEventOpen
      { setF (modTwin s (fun t => { t with linked := false })) Reg.tckTwinStatusLinkLost 1 with fresh := s.fresh + 1 } code sev)) := by
  simp only [twinLinkLost, he, hst, hu, hl, Bool.not_true, decide_false, Bool.or_self, Bool.false_eq_true, if_false]
  exact ⟨_, _, rfl⟩

/-- A link already shown lost, or one that is there, is not shown. -/
theorem twinLinkLost_of_unlinked (h : s.twin.linked = false ∨ twinUp s = true) : twinLinkLost s = s := by
  rcases h with h | h <;> simp only [twinLinkLost, h, Bool.not_false, Bool.or_true, Bool.true_or, if_true]

theorem twinAct_of_none (h : flagF s Reg.tckTwinCtrlAction = false) : twinAct s = s := by
  rw [twinAct, h, Bool.not_false, if_pos rfl]

theorem twinAct_of_halt (h : flagF s Reg.tckTwinCtrlAction = true) : twinAct s =
    let t := triggerCapture (modTwin s (fun t => { t with st := 3, held := [] })) 4
    let t := (t.felt.images.map (·.1)).foldl (fun s i =>
      if ((imageOf s i).bind (·.run)).any (·.launched) then endRun s i .fenced 0 else s) t
    s.twin.held.foldl (fun s h => pushComp s h.1 false { h.2.1 with status := Status.fenced.code })
      (abortTenant t (getF t Reg.tckTwinCtrlTenant) .fenced) := by
  rw [twinAct, h, Bool.not_true, if_neg Bool.false_ne_true]

end

end Sys2Proof.Machine

/-! SETTLED. Twins. -/
namespace Sys2Proof.Machine
open Sys2Proof

/-- Settles O29: each exchange by whether the twin is there and segments are compared, then the lost link and what ACTION asks for. -/
theorem twinRows : Obligations.TwinRows := by
  refine fun s => ⟨fun hu => ⟨fun hst => ⟨fun frame checks => ?takes, ?sends, fun hj => ?compares⟩,
      fun h1 h2 => ⟨fun frame checks => ?takesNone, ?sendsNone, fun hj => ?comparesNone⟩⟩,
    fun hu => ⟨fun frame checks => ?takesDown, ?sendsDown, fun hj => ?comparesDown, fun he hst hl => ?lost⟩,
    fun hj => congrArg Host.Outcome.next (edgeComparison_of_judged hj), fun h => congrArg Host.Outcome.next (twinLinkLost_of_unlinked h),
    twinAct_of_none, twinAct_of_halt, rfl⟩
  case takes =>
    refine congrArg Host.Outcome.next ((twin_eq frame checks s).trans ?_)
    rw [twinPair_comparing hu hst]
    exact if_pos (comparing_paired hu _ rfl)
  case sends =>
    refine congrArg Host.Outcome.next ((twinFrameSend_eq s).trans ?_)
    rw [twinPair_comparing hu hst]
    exact if_pos (comparing_paired hu _ rfl)
  case compares =>
    refine congrArg Host.Outcome.next ((edgeComparison_of_due hj).trans ?_)
    have hc : comparing (judgedNow s) = true := by
      rw [judgedNow_of_up hu]
      exact comparing_paired hu pairedTwin (by rw [pairedTwin_comparing hst])
    have hgo : ¬ ((judgedNow s).twin.st != 2 || !(twinUp (judgedNow s))) = true := by
      rw [not_comparing_eq, hc]
      decide
    rw [judgedNow_of_up hu] at hgo
    rw [comparisonPoint, twinPair_of_up hu]
    exact if_neg hgo
  case takesNone =>
    refine congrArg Host.Outcome.next ((twin_eq frame checks s).trans ?_)
    rw [twinPair_of_up hu]
    exact if_neg (Bool.eq_false_iff.1 (comparing_paired_other h1 h2))
  case sendsNone =>
    refine congrArg Host.Outcome.next ((twinFrameSend_eq s).trans ?_)
    rw [twinPair_of_up hu]
    exact if_neg (Bool.eq_false_iff.1 (comparing_paired_other h1 h2))
  case comparesNone =>
    have hc : comparing (judgedNow s) = false := by
      rw [judgedNow_of_up hu]
      exact comparing_paired_other h1 h2
    exact congrArg Host.Outcome.next
      ((edgeComparison_of_due hj).trans ((comparisonPoint_of_not_comparing hc).trans (judgedNow_of_up hu)))
  case takesDown =>
    refine congrArg Host.Outcome.next ((twin_eq frame checks s).trans ?_)
    rw [twinPair_of_down hu]
    exact if_neg (Bool.eq_false_iff.1 (comparing_of_down hu))
  case sendsDown =>
    refine congrArg Host.Outcome.next ((twinFrameSend_eq s).trans ?_)
    rw [twinPair_of_down hu]
    exact if_neg (Bool.eq_false_iff.1 (comparing_of_down hu))
  case comparesDown =>
    have hc : comparing (judgedNow s) = false := by
      rw [judgedNow_of_down hu]
      exact comparing_of_down hu
    exact congrArg Host.Outcome.next
      ((edgeComparison_of_due hj).trans ((comparisonPoint_of_not_comparing hc).trans (judgedNow_of_down hu)))
  case lost =>
    obtain ⟨code, sev, h⟩ := twinLinkLost_of_linked he hst hu hl
    exact ⟨code, sev, congrArg Host.Outcome.next h⟩

end Sys2Proof.Machine

/-! SUPPORT. Packets that a node passes on and those that carry the fabric's own messages (R384–R391, R397, R398): where a packet for another
node goes, and what a NAK comes to by the message it ends. -/
namespace Sys2Proof.Machine
open Sys2Proof

/-- Where no message has lost its last path, nothing is left to fail. -/
theorem sysLost_of_none {s : State} (h : s.brim.cut = []) : sysLost s = s := by
  rw [sysLost, h, List.foldl_nil, modBrim, ← h]

/-- A packet's command ends by failing the SYS messages that have lost their last path. -/
theorem next_sysLost {s t : State} (h : s = t) : (Host.Outcome.next (sysLost s) : Host.Outcome State Fault Refusal) = .next (sysLost t) := by
  rw [h]

/-! ### Packets for another node -/

section
variable {s : State} {port : Nat} {p : Packet}

theorem packetForward_of_quarantine (h : portSt s port = 3) : packetForward port p s = bump s (Reg.brmPfwdDropped.ix port) := if_pos h

theorem packetForward_of_not_through (hq : portSt s port ≠ 3) (h : portUp s port = false ∨ p.dest = nodeNo s) :
    packetForward port p s = s := by
  rcases h with h | h <;> simp [packetForward, hq, h]

theorem packetForward_of_through (hq : portSt s port ≠ 3) (hu : portUp s port = true) (hd : p.dest ≠ nodeNo s) :
    packetForward port p s = forwardOn port (inBuffer p) (arrives s port p) := by
  simp only [packetForward, hq, hu, hd, Bool.not_true, decide_false, Bool.or_self, Bool.false_eq_true, if_false]

/-- A packet leaves by the port towards its node. -/
theorem forwardOn_of_up {q : Nat} (hp : port < 14) (hd : p.dest < 64) (hq : portTo (nodeNo s) p.dest = some q) (hu : portUp s q = true) :
    forwardOn port p s =
      let u := modBrim s (fun b => { b with forwards := b.forwards ++ [⟨port, q, p⟩] })
      bump (sendOn u q p (some (fwdKey p, p.offset))) (Reg.brmPfwdFwd.ix q) := by
  simp only [forwardOn, hp, hd, hq, hu, decide_true, Bool.and_self, if_true]

/-- A packet with no port up that way is dropped and refused. -/
theorem forwardOn_of_none (h : 14 ≤ port ∨ 64 ≤ p.dest ∨ portTo (nodeNo s) p.dest = none ∨
      ∃ q, portTo (nodeNo s) p.dest = some q ∧ portUp s q = false) : forwardOn port p s = dropPacket s port p 4 false := by
  rw [forwardOn]
  by_cases hin : (decide (port < 14) && decide (p.dest < 64)) = true
  · simp only [Bool.and_eq_true, decide_eq_true_eq] at hin
    obtain ⟨hp, hd⟩ := hin
    rcases h with h | h | h | ⟨q, hq, hu⟩
    · exact absurd hp (Nat.not_lt.2 h)
    · exact absurd hd (Nat.not_lt.2 h)
    · simp only [hp, hd, h, decide_true, Bool.and_self, if_true]
    · simp only [hp, hd, hq, hu, decide_true, Bool.and_self, Bool.false_eq_true, if_true, if_false]
  · rw [if_neg hin]

end

/-! ### NAKs -/

/-- What a NAK counts and tells of a lender's page, before it acts on the message. -/
def nakSeen (t : State) (p : Packet) : State :=
  let u := bump t Reg.rmaNakReceived
  if p.lent && p.reason = 2 then lentUnknown u p.src p.key else u

/-- A message ends with a status: a SYS message where it was awaited, any other as its kind says. -/
def endMsg (s : State) (id : Nat) (m : OutMsg) (st : Status) : State :=
  match m.sys with
  | some y => sysFailed (modBrim s (fun b => { b with msgs := mdel b.msgs id })) m.dest y st
  | none => failMsg s id st

theorem endMsg_of_sys {m : OutMsg} {y : SysMsg} (h : m.sys = some y) (s : State) (id : Nat) (st : Status) :
    endMsg s id m st = sysFailed (modBrim s (fun b => { b with msgs := mdel b.msgs id })) m.dest y st := by rw [endMsg, h]

theorem endMsg_of_none {m : OutMsg} (h : m.sys = none) (s : State) (id : Nat) (st : Status) : endMsg s id m st = failMsg s id st := by
  rw [endMsg, h]

/-- What a NAK comes to: a packet without a path goes another way, and where none is left, or for any other reason, its message ends. -/
def nakActs (u : State) (p : Packet) : State :=
  match mget u.brim.msgs p.msgid with
  | none => u
  | some m =>
    if p.reason = 4 then (match resend u p.msgid (p.offset / 4096) with | some t => t | none => endMsg u p.msgid m .fenced)
    else endMsg (if p.reason = 5 || p.reason = 6 then stopMsg u p.msgid else u) p.msgid m (nakStatus p.reason)

/-- A NAK that the node takes acts on its message. -/
theorem nak_ready {s t : State} {port : Nat} {p0 p : Packet} (h : PacketReady s port 8 p0 t p) :
    nak port p0 s = nakActs (nakSeen t p) p := by
  rw [nak, nakIn, receive_ready h]
  rfl

section
variable {u : State} {p : Packet}

theorem nakActs_of_unknown (h : mget u.brim.msgs p.msgid = none) : nakActs u p = u := by simp only [nakActs, h]

variable {m : OutMsg} (hm : mget u.brim.msgs p.msgid = some m)
include hm

theorem nakActs_of_path (hr : p.reason = 4) {v : State} (hs : resend u p.msgid (p.offset / 4096) = some v) : nakActs u p = v := by
  simp only [nakActs, hm, hr, hs, if_true]

theorem nakActs_of_no_path (hr : p.reason = 4) (hs : resend u p.msgid (p.offset / 4096) = none) :
    nakActs u p = endMsg u p.msgid m .fenced := by
  simp only [nakActs, hm, hr, hs, if_true]

theorem nakActs_of_other (hr : p.reason ≠ 4) : nakActs u p =
    endMsg (if p.reason = 5 || p.reason = 6 then stopMsg u p.msgid else u) p.msgid m (nakStatus p.reason) := by
  simp only [nakActs, hm, hr, if_false]

end

/-! ### SYS messages and port maps -/

/-- What a whole SYS message brings (R127): a shard search that joins the others, or a partial list, late where it is no longer awaited. -/
def sysActs (src : Nat) (m : SysMsg) (s : State) : State :=
  match m with
  | .request ref index shard par filter query qfmt qpois expiry =>
    joinSearch s (newSearch s ref (some src) index shard par filter query qfmt (if qpois then some none else none) expiry)
  | .partialList ref b => if openPart s ref then arrivePart s ref (partialOf b) else bump s Reg.fwRecoverLateDropped

/-- A SYS message acts once its last packet is there. -/
theorem sys_ready {s t : State} {port : Nat} {p0 p : Packet} (h : PacketReady s port 9 p0 t p) (m : SysMsg) :
    sys port p0 m s = reassemble t port p none (sysActs p.src m) := by
  rw [sys, receive_ready h]
  rfl

theorem portmap_ready {s t : State} {port : Nat} {p0 p : Packet} (h : PacketReady s port 10 p0 t p) :
    portmap port p0 s = modBrim t (fun b => { b with portmaps := mput b.portmaps p.src (getLE p.payload 0 8) }) := by
  rw [portmap, receive_ready h]

end Sys2Proof.Machine

/-! SETTLED. Forwarded packets and the fabric's own messages. -/
namespace Sys2Proof.Machine
open Sys2Proof

/-- Settles O58: a packet on its way by the port it came by and the one it leaves by, then the packets of the fabric that the node takes. -/
theorem forwardingAndSystemPackets : Obligations.ForwardingAndSystemPackets := by
  refine ⟨fun s port p => ⟨fun h => ?quarantine, fun hq hu hd => ⟨fun q hp hn ht hup => ?forwards, fun hn => ?drops⟩,
      fun hq h => ?stays, sysLost_of_none⟩,
    fun s port p0 t p => ⟨fun h => ⟨fun hm => ?nakUnknown, fun m hm hr => ⟨fun v hv => ?nakResent, fun hn hy => ?nakNoPath⟩,
        fun m hm hr => ⟨fun hy => ?nakEnds, fun y hy => ?nakEndsSys⟩⟩,
      fun h => ⟨fun ref index shard par filter query qfmt qpois expiry => ?request, fun ref b => ?partialList⟩, fun h => ?portmap⟩⟩
  case quarantine => exact next_sysLost (packetForward_of_quarantine h)
  case forwards => exact next_sysLost ((packetForward_of_through hq hu hd).trans (forwardOn_of_up hp hn ht hup))
  case drops => exact next_sysLost ((packetForward_of_through hq hu hd).trans (forwardOn_of_none hn))
  case stays => exact next_sysLost (packetForward_of_not_through hq h)
  case nakUnknown => exact next_sysLost ((nak_ready h).trans (nakActs_of_unknown hm))
  case nakResent => exact next_sysLost ((nak_ready h).trans (nakActs_of_path hm hr hv))
  case nakNoPath => exact next_sysLost ((nak_ready h).trans ((nakActs_of_no_path hm hr hn).trans (endMsg_of_none hy _ _ _)))
  case nakEnds => exact next_sysLost ((nak_ready h).trans ((nakActs_of_other hm hr).trans (endMsg_of_none hy _ _ _)))
  case nakEndsSys => exact next_sysLost ((nak_ready h).trans ((nakActs_of_other hm hr).trans (endMsg_of_sys hy _ _ _)))
  case request => exact next_sysLost (sys_ready h _)
  case partialList => exact next_sysLost (sys_ready h _)
  case portmap => exact next_sysLost (portmap_ready h)

end Sys2Proof.Machine

/-! SUPPORT. Indexes, shards, tables and pins (R93–R97, R170, R193, R428): what each ADMIN command whose operand is ready does, by the check
that decides it, and what the end of a detach leaves. -/
namespace Sys2Proof.Machine
open Sys2Proof

section
variable {s t : State} {id : Nat} {w : Work} {op : List Byte}

/-! ### Indexes -/

section
variable (h : AdminReady s id 0x08 48 false w t op)
include h

theorem indexRegister_of_foreign (hm : adminMay w (ixTenant (op.take 48)) = false) : indexRegister id s = complete t w .accessDenied := by
  simp only [indexRegister, onAdmin_ready h, hm, Bool.not_false, if_true]

variable (hm : adminMay w (ixTenant (op.take 48)) = true) (hok : indexOk t (op.take 48) = true)
  (hnew : mhas t.srch.indexes (getLE (op.take 48) 0 2) = false)
include hm hok hnew

/-- The registration passes its checks, so the size of the table decides. -/
theorem indexRegister_of_checked : indexRegister id s =
    if t.srch.indexes.length ≥ 256 then complete (bump t Reg.srcRefuseTableFull) w .tableFull
    else complete (modSrch t (fun x => { x with indexes := mput x.indexes (getLE (op.take 48) 0 2) (op.take 48) })) w .ok := by
  simp only [indexRegister, onAdmin_ready h, hm, hok, hnew, Bool.not_true, Bool.or_self, Bool.false_eq_true, if_false]

theorem indexRegister_of_room (hl : t.srch.indexes.length < 256) : indexRegister id s =
    complete (modSrch t (fun x => { x with indexes := mput x.indexes (getLE (op.take 48) 0 2) (op.take 48) })) w .ok := by
  rw [indexRegister_of_checked h hm hok hnew, if_neg (Nat.not_le.2 hl)]

theorem indexRegister_of_full (hl : 256 ≤ t.srch.indexes.length) : indexRegister id s =
    complete (bump t Reg.srcRefuseTableFull) w .tableFull := by
  rw [indexRegister_of_checked h hm hok hnew, if_pos hl]

end

/-- An index of which a shard is attached stays (R428). -/
theorem indexDeregister_of_own (h : AdminReady s id 0x09 8 false w t op) {r : List Byte} (hr : mget t.srch.indexes (getLE op 0 2) = some r)
    (hm : adminMay w (ixTenant r) = true) (hz : zeroAt op 2 6 = true) : indexDeregister id s =
    if t.srch.shards.any (fun h => h.1 / 65536 = getLE op 0 2) then complete t w .busy
    else complete (modSrch t (fun x => { x with indexes := mdel x.indexes (getLE op 0 2) })) w .ok := by
  simp only [indexDeregister, onAdmin_ready h, hr, hm, hz, Bool.not_true, Bool.false_eq_true, if_false]

/-! ### Shards -/

/-- An attachment that passes its checks is decided by the size of the table (R95). -/
theorem shardAttach_of_checked (h : AdminReady s id 0x0A 200 false w t op) {r : List Byte}
    (hr : mget t.srch.indexes (getLE (op.take 192) 0 2) = some r) (hm : adminMay w (ixTenant r) = true)
    (hnew : mhas t.srch.shards (shardKey (getLE (op.take 192) 0 2) (getLE (op.take 192) 2 2)) = false)
    (hok : shardOk t r (op.take 192) = true) (he : getLE op 192 6 ≠ 2 ^ 48 - 1) (hz : zeroAt op 198 2 = true) : shardAttach id s =
    if 4096 ≤ t.srch.shards.length then complete (bump t Reg.srcRefuseTableFull) w .tableFull
    else complete (modSrch t (fun x => { x with
      shards := mput x.shards (shardKey (getLE (op.take 192) 0 2) (getLE (op.take 192) 2 2))
        ⟨op.take 192, getLE op 192 6, none, 0, 0, []⟩ })) w .ok := by
  simp only [shardAttach, onAdmin_ready h, hr, hm, hnew, hok, he, hz, decide_false, Bool.not_true, Bool.or_self, Bool.false_eq_true, if_false,
    ge_iff_le]

section
variable (h : AdminReady s id 0x0B 8 false w t op) {r : List Byte} (hr : mget t.srch.indexes (getLE op 0 2) = some r)
  (hm : adminMay w (ixTenant r) = true) (hz : zeroAt op 4 4 = true)
include h hr hm hz

theorem shardDetach_of_unattached (hs : mget t.srch.shards (shardKey (getLE op 0 2) (getLE op 2 2)) = none) :
    shardDetach id s = complete t w .fenced := by
  simp only [shardDetach, onAdmin_ready h, hr, hm, hz, hs, Bool.not_true, Bool.false_eq_true, if_false]

/-- A shard is detached once (R97). -/
theorem shardDetach_of_attached {sh : Shard} (hs : mget t.srch.shards (shardKey (getLE op 0 2) (getLE op 2 2)) = some sh) :
    shardDetach id s = if sh.detaching.isSome then complete t w .busy
      else beginWork (endShard t (shardKey (getLE op 0 2) (getLE op 2 2)) id) id := by
  simp only [shardDetach, onAdmin_ready h, hr, hm, hz, hs, Bool.not_true, Bool.false_eq_true, if_false]

end

/-- A detach ends once no admitted search is left and every version is folded (R97). -/
theorem shardDetachComplete_of_idle {i sh d : Nat} {h : Shard} {c : Ctx3} {u : State} (hc : ctxOf s (shardKey i sh) = some (h, c))
    (hd : h.detaching = some d)
    (hi : s.srch.searches.any (fun x => admittedS x.2 && shardKey x.2.index x.2.shard = shardKey i sh) = false) (hu : foldAll s c = some u) :
    shardDetachComplete i sh s =
      let v := (u.bow.sched.filter (isCommitOf (shardKey i sh))).foldl (fun a e => completeId a e.work .fenced)
        (schedFree u (isCommitOf (shardKey i sh)))
      completeId (modSrch v (fun r => { r with shards := mdel r.shards (shardKey i sh) })) d .ok h.epoch := by
  simp only [shardDetachComplete, hc, hd, hi, hu, Bool.false_eq_true, if_false]

/-! ### Tables -/

section
variable (h : AdminReady s id 0x10 32 false w t op)
include h

theorem tableRegister_of_foreign (hm : adminMay w (tbTenant (op.take 32)) = false) : tableRegister id s = complete t w .accessDenied := by
  simp only [tableRegister, onAdmin_ready h, hm, Bool.not_false, if_true]

variable (hm : adminMay w (tbTenant (op.take 32)) = true) (hok : tableOk t (op.take 32) = true)
  (hnew : mhas t.card.tables (getLE (op.take 32) 0 2) = false)
include hm hok hnew

/-- The registration passes its checks, so the number of tables decides. -/
theorem tableRegister_of_checked : tableRegister id s =
    if t.card.tables.length ≥ 1024 then complete (bump t Reg.crdRefuseTableFull) w .tableFull
    else complete (modCard t (fun c => { c with
      tables := mput c.tables (getLE (op.take 32) 0 2) ⟨op.take 32, getLE (op.take 32) 28 4, [], []⟩ })) w .ok := by
  simp only [tableRegister, onAdmin_ready h, hm, hok, hnew, Bool.not_true, Bool.or_self, Bool.false_eq_true, if_false]

theorem tableRegister_of_room (hl : t.card.tables.length < 1024) : tableRegister id s =
    complete (modCard t (fun c => { c with
      tables := mput c.tables (getLE (op.take 32) 0 2) ⟨op.take 32, getLE (op.take 32) 28 4, [], []⟩ })) w .ok := by
  rw [tableRegister_of_checked h hm hok hnew, if_neg (Nat.not_le.2 hl)]

theorem tableRegister_of_full (hl : 1024 ≤ t.card.tables.length) : tableRegister id s =
    complete (bump t Reg.crdRefuseTableFull) w .tableFull := by
  rw [tableRegister_of_checked h hm hok hnew, if_pos hl]

end

/-- A table that a pin, a SCATTER or a waiting GATHER holds stays (R428). -/
theorem tableDeregister_of_own (h : AdminReady s id 0x11 8 false w t op) {x : Table} (hx : mget t.card.tables (getLE op 0 2) = some x)
    (hm : adminMay w (tbTenant x.reg) = true) (hz : zeroAt op 2 6 = true) : tableDeregister id s =
    if tableHeld t (getLE op 0 2) x then complete t w .busy
    else complete (modCard t (fun c => { c with tables := mdel c.tables (getLE op 0 2) })) w .ok := by
  simp only [tableDeregister, onAdmin_ready h, hx, hm, hz, Bool.not_true, Bool.false_eq_true, if_false]

/-! ### Pins -/

section
variable (h : AdminReady s id 0x12 8 false w t op) {x : Table} (hx : mget t.card.tables (getLE op 0 2) = some x)
  (hm : adminMay w (tbTenant x.reg) = true) (hz : zeroAt op 2 6 = true)
include h hx hm hz

theorem pin_of_full (hp : mfree t.card.pins 256 = none) : pin id s = complete (bump t Reg.crdRefuseTableFull) w .tableFull := by
  simp only [pin, onAdmin_ready h, hx, hm, hz, hp, Bool.not_true, Bool.false_eq_true, if_false]

theorem pin_of_free {k : Nat} (hp : mfree t.card.pins 256 = some k) : pin id s =
    complete (modCard t (fun c => { c with pins := mput c.pins k ⟨getLE op 0 2, x.tver⟩ })) w .ok k := by
  simp only [pin, onAdmin_ready h, hx, hm, hz, hp, Bool.not_true, Bool.false_eq_true, if_false]

end

section
variable (h : AdminReady s id 0x13 8 false w t op)
include h

theorem unpin_of_own {p : PinEnt} {x : Table} (hp : mget t.card.pins (getLE op 0 2) = some p) (hx : mget t.card.tables p.table = some x)
    (hm : adminMay w (tbTenant x.reg) = true) (hz : zeroAt op 2 6 = true) : unpin id s =
    complete (modCard t (fun c => { c with pins := mdel c.pins (getLE op 0 2) })) w .ok := by
  simp only [unpin, onAdmin_ready h, hp, hx, hm, hz, Bool.not_true, Bool.false_eq_true, if_false]

theorem unpin_of_unknown (hp : mget t.card.pins (getLE op 0 2) = none) : unpin id s = complete t w .malformed := by
  simp only [unpin, onAdmin_ready h, hp]

end

end

end Sys2Proof.Machine

/-! SETTLED. Indexes, shards, tables and pins. -/
namespace Sys2Proof.Machine
open Sys2Proof

/-- Settles O50: each command by the check that decides it once its operand is ready, and the detach's end. -/
theorem indexAndTableCommands : Obligations.IndexAndTableCommands := by
  refine ⟨fun s id w t op => ⟨fun h => ⟨fun hm => ?ixForeign, fun hm hok hnew => ⟨fun hl => ?ixRoom, fun hl => ?ixFull⟩⟩,
      fun h r hr hm hz => ?ixDeregister,
      fun h r hr hm hnew hok he hz => ?attach,
      fun h r hr hm hz => ⟨fun hs => ?unattached, fun sh hs => ?detach⟩,
      fun i sh h c d u hc hd hi hu => ?detached⟩,
    fun s id w t op => ⟨fun h => ⟨fun hm => ?tbForeign, fun hm hok hnew => ⟨fun hl => ?tbRoom, fun hl => ?tbFull⟩⟩,
      fun h x hx hm hz => ?tbDeregister,
      fun h x hx hm hz => ⟨fun hp => ?pinsFull, fun k hp => ?pin⟩,
      fun h p x hp hx hm hz => ?unpin, fun h hp => ?unpinUnknown⟩⟩
  case ixForeign => exact congrArg Host.Outcome.next (indexRegister_of_foreign h hm)
  case ixRoom => exact congrArg Host.Outcome.next (indexRegister_of_room h hm hok hnew hl)
  case ixFull => exact congrArg Host.Outcome.next (indexRegister_of_full h hm hok hnew hl)
  case ixDeregister =>
    exact (congrArg Host.Outcome.next (indexDeregister_of_own h hr hm hz)).trans (apply_ite _ _ _ _)
  case attach => exact (congrArg Host.Outcome.next (shardAttach_of_checked h hr hm hnew hok he hz)).trans (apply_ite _ _ _ _)
  case unattached => exact congrArg Host.Outcome.next (shardDetach_of_unattached h hr hm hz hs)
  case detach => exact (congrArg Host.Outcome.next (shardDetach_of_attached h hr hm hz hs)).trans (apply_ite _ _ _ _)
  case detached => exact congrArg Host.Outcome.next (shardDetachComplete_of_idle hc hd hi hu)
  case tbForeign => exact congrArg Host.Outcome.next (tableRegister_of_foreign h hm)
  case tbRoom => exact congrArg Host.Outcome.next (tableRegister_of_room h hm hok hnew hl)
  case tbFull => exact congrArg Host.Outcome.next (tableRegister_of_full h hm hok hnew hl)
  case tbDeregister => exact (congrArg Host.Outcome.next (tableDeregister_of_own h hx hm hz)).trans (apply_ite _ _ _ _)
  case pinsFull => exact congrArg Host.Outcome.next (pin_of_full h hx hm hz hp)
  case pin => exact congrArg Host.Outcome.next (pin_of_free h hx hm hz hp)
  case unpin => exact congrArg Host.Outcome.next (unpin_of_own h hp hx hm hz)
  case unpinUnknown => exact congrArg Host.Outcome.next (unpin_of_unknown h hp)

end Sys2Proof.Machine

/-! SUPPORT. Searches (R110–R130, R157): the admission of a waiting shard search and what it starts, the rounds of an admitted one, the ways
it ends, and the merge. -/
namespace Sys2Proof.Machine
open Sys2Proof

/-! ### Admission -/

/-- The node admits shard searches and this one is the first that waits (R129, R476). -/
structure AdmitReady (a : State) (id : Nat) (x : SSearch) : Prop where
  ring : ringUp a = true
  noReset : a.power.warmPend = false
  uncapped : flagF a Reg.rstPowerCapped = false
  first : a.srch.searches.find? (fun x => x.2.phase = .waiting) = some (id, x)

/-- The engine that takes a search, which a PQ index makes ask for its lookup table too (R129). -/
def engineFor (a : State) (x : SSearch) (c : Ctx3) : Option Nat :=
  pickEngine a (x.par.lw + x.par.k) (if ixCode c.reg = 1 then ixM c.reg else 0)

theorem pickEngine_eq_engineFor (a : State) (x : SSearch) (c : Ctx3) :
    pickEngine a (x.par.lw + x.par.k) (if ixCode c.reg = 1 then ixM c.reg else 0) = engineFor a x c := rfl

/-- The codebook that an admission reads: none is needed for a query that is poisoned. -/
def admitBook (a : State) (c : Ctx3) (x : SSearch) : State × Option (List Byte) :=
  if x.qpois.isSome then (a, some []) else readBook a c

/-- A shard search as it is admitted to an engine, with the pre-scan slot that its index has free (R129, R130). -/
def admittedAs (a : State) (h : Shard) (c : Ctx3) (e : Nat) (k : Option Nat) (x : SSearch) : SSearch :=
  let slots := engineSlots a e
  let q := vecVals x.qfmt (ixDims c.reg) x.query
  { x with
    phase := .running, engine := e, slot := lowestGap slots (slots.length + 1) 0, order := a.srch.nextOrder, epoch := h.epoch,
    admitted := tickOf a, lut := lutOf c.reg ((admitBook a c x).2.getD []) x.qfmt q, nq := queryNorm c.reg x.qfmt q, len := x.par.l,
    scan := if takesScan x then k else none }

/-- The admitted search stands in the table, and a scan in its slot. -/
def placeAdmitted (a : State) (id : Nat) (h : Shard) (c : Ctx3) (e : Nat) (k : Option Nat) (x : SSearch) : State :=
  setSearch (modSrch (admitBook a c x).1 (fun r => { r with
    nextOrder := r.nextOrder + 1
    slots := if takesScan x then (k.map (fun k => mput r.slots (x.index * 1024 + k) id)).getD r.slots else r.slots })) id
    (admittedAs a h c e k x)

/-- What an admitted search starts: nothing where its query or codebook is poisoned, its pre-scan, or its descent (R117, R121, R123). -/
def startAdmitted (t : State) (c : Ctx3) (id : Nat) (y : SSearch) (book : Option (List Byte)) : State :=
  if y.qpois.isSome || book.isNone then failSearch (consumeQuery t y.qpois) id .poisoned
  else if takesScan y then
    let u := bump t Reg.srcPathPrescan
    if kettleScan u c (filterOps y.filter) then setSearch u id { y with phase := .scanning }
    else afterScan (bump u Reg.srcPathEngineScan) c id y
  else beginTraversal t c id y

section
variable {a : State} {id : Nat} {x : SSearch} (ha : AdmitReady a id x)
include ha

theorem shardSearchAdmit_of_unhosted (hc : ctxOf a (shardKey x.index x.shard) = none) : shardSearchAdmit a = failSearch a id .fenced := by
  simp only [shardSearchAdmit, ha.ring, ha.noReset, ha.uncapped, ha.first, hc, Bool.not_true, Bool.or_self, Bool.false_eq_true, if_false]

variable {h : Shard} {c : Ctx3} (hc : ctxOf a (shardKey x.index x.shard) = some (h, c))
include hc

theorem shardSearchAdmit_of_detaching (hd : h.detaching.isSome = true) : shardSearchAdmit a = failSearch a id .fenced := by
  simp only [shardSearchAdmit, ha.ring, ha.noReset, ha.uncapped, ha.first, hc, hd, Bool.not_true, Bool.or_self, Bool.false_eq_true, if_false,
    if_true]

variable (hd : h.detaching = none)
include hd

theorem shardSearchAdmit_of_no_engine (he : engineFor a x c = none) : shardSearchAdmit a = a := by
  simp only [shardSearchAdmit, ha.ring, ha.noReset, ha.uncapped, ha.first, hc, hd, pickEngine_eq_engineFor, he, Option.isSome_none,
    Bool.not_true, Bool.or_self, Bool.false_eq_true, if_false]

theorem shardSearchAdmit_of_no_slot (hs : takesScan x = true) (hk : pickScan a x.index c.reg = none) : shardSearchAdmit a = a := by
  cases he : engineFor a x c with
  | none => exact shardSearchAdmit_of_no_engine ha hc hd he
  | some e =>
    simp only [shardSearchAdmit, ha.ring, ha.noReset, ha.uncapped, ha.first, hc, hd, pickEngine_eq_engineFor, he, hs, hk,
      Option.isSome_none, Option.isNone_none, Bool.not_true, Bool.or_self, Bool.and_self, Bool.false_eq_true, if_false, if_true]

/-- Where an engine is free, and for a scan a slot, the search is admitted. -/
theorem shardSearchAdmit_of_room {e : Nat} (he : engineFor a x c = some e)
    (hk : takesScan x = true → (pickScan a x.index c.reg).isSome = true) :
    shardSearchAdmit a = startAdmitted (placeAdmitted a id h c e (pickScan a x.index c.reg) x) c id
      (admittedAs a h c e (pickScan a x.index c.reg) x) (admitBook a c x).2 := by
  have hslot : (takesScan x && (pickScan a x.index c.reg).isNone) = false := by
    cases hs : takesScan x with
    | false => rfl
    | true => rw [Option.isNone_eq_false_iff.2 (hk hs), Bool.and_false]
  simp only [shardSearchAdmit, ha.ring, ha.noReset, ha.uncapped, ha.first, hc, hd, pickEngine_eq_engineFor, he, hslot,
    Option.isSome_none, Bool.not_true, Bool.or_self, Bool.false_eq_true, if_false]
  -- what decides on the scan is the search's own, so it is the same before and after the admission
  have hself : takesScan (admittedAs a h c e (pickScan a x.index c.reg) x) = takesScan x := rfl
  rw [startAdmitted, hself, placeAdmitted]
  unfold admittedAs admitBook
  cases hs : takesScan x with
  | false => rfl
  | true =>
    obtain ⟨k, hk⟩ := Option.isSome_iff_exists.1 (hk hs)
    rw [hk]
    rfl

end

section
variable {t : State} {c : Ctx3} {y : SSearch} {book : Option (List Byte)} (id : Nat)

theorem startAdmitted_of_poisoned (h : y.qpois.isSome = true ∨ book = none) :
    startAdmitted t c id y book = failSearch (consumeQuery t y.qpois) id .poisoned := by
  refine if_pos ?_
  rcases h with h | h
  · rw [h, Bool.true_or]
  · rw [h, Option.isNone_none, Bool.or_true]

variable (hq : y.qpois = none) (hb : book.isSome = true)
include hq hb

theorem startAdmitted_of_unscanned (hs : takesScan y = false) : startAdmitted t c id y book = beginTraversal t c id y := by
  simp only [startAdmitted, hq, Option.isNone_eq_false_iff.2 hb, hs, Option.isSome_none, Bool.or_self, Bool.false_eq_true, if_false]

/-- A pre-scan is the kettles' where they can do it, else the engine's (R123). -/
theorem startAdmitted_of_scan (hs : takesScan y = true) : startAdmitted t c id y book =
    let u := bump t Reg.srcPathPrescan
    if kettleScan u c (filterOps y.filter) then setSearch u id { y with phase := .scanning }
    else afterScan (bump u Reg.srcPathEngineScan) c id y := by
  simp only [startAdmitted, hq, Option.isNone_eq_false_iff.2 hb, hs, Option.isSome_none, Bool.or_self, Bool.false_eq_true, if_false, if_true]

end

/-- A shard search that has waited ADMIT ticks completes BUSY (R129). -/
theorem admitTimeout_of_waiting {s : State} {id : Nat} {x : SSearch} (hx : searchOf s id = some x) (hp : x.phase = .waiting) :
    admitTimeout id s = if x.arrived + atLeast1 s Reg.srcCtrlAdmit ≤ tickOf s then failSearch s id .busy else s := by
  simp only [admitTimeout, hx, hp, decide_true, Bool.true_and, decide_eq_true_eq, ge_iff_le]

/-! ### Rounds -/

theorem pastDeadline_eq {s : State} {x : SSearch} (hp : x.phase ≠ .waiting) (hd : x.par.deadline ≠ 0) :
    pastDeadline s x = decide (x.admitted + x.par.deadline ≤ tickOf s) := by
  rw [pastDeadline, bne_iff_ne.2 hp, bne_iff_ne.2 hd, Bool.true_and, Bool.true_and]

theorem searchDeadline_of_admitted {s : State} {id : Nat} {x : SSearch} (hx : searchOf s id = some x) :
    searchDeadline id s = if pastDeadline s x then endSearch s id x (formPartial x 8) else s := by
  simp only [searchDeadline, hx]

section
variable {s : State} {id : Nat} {x : SSearch} {h : Shard} {c : Ctx3} (hx : searchOf s id = some x) (hp : x.phase = .running)
  (hc : ctxOf s (shardKey x.index x.shard) = some (h, c)) (he : engineDown s x.engine = false)
include hx hp hc he

/-- A round that its deadline overtakes is discarded (R115). -/
theorem traversalRound_of_late (hd : pastDeadline s x = true) : traversalRound id s = endSearch s id x (formPartial x 8) := by
  simp only [traversalRound, hx, hp, hc, he, hd, Bool.false_eq_true, if_false, if_true, searchDeadline_of_admitted hx]

/-- An exhaustive search ends once every allowed record can be read (R121). -/
theorem traversalRound_of_exhaustive (hd : pastDeadline s x = false) (hex : x.exhaustive = true) : traversalRound id s =
    let al := allowed s c x
    if al.2.1.all (fun i => recReady s c i x.epoch) then
      let r := exhaust al.1 c { x with poison := x.poison + al.2.2 } al.2.1
      endSearch (countItems r.1 (r.2.poison - x.poison)) id r.2 (formPartial r.2 16)
    else wantUnits s (al.2.1.flatMap (recBlocked s c)) := by
  simp only [traversalRound, hx, hp, hc, he, hd, hex, Bool.false_eq_true, if_false, if_true]

/-- A round runs once every record of its batch is staged or can be read (R110). -/
theorem traversalRound_of_batch (hd : pastDeadline s x = false) (hex : x.exhaustive = false) : traversalRound id s =
    if (batchOf x).all (fun e => (stagedOf s c x.staged e.loc x.epoch).isSome || recReady s c e.loc x.epoch) then
      let r := oneRound s c x
      continueSearch (countItems r.1 (r.2.poison - x.poison)) c id r.2
    else wantUnits s ((batchOf x).flatMap (fun e => recBlocked s c e.loc)) := by
  simp only [traversalRound, hx, hp, hc, he, hd, hex, Bool.false_eq_true, if_false]

end

/-- A shard search run for another node ends at the tick of its message (R127). -/
theorem shardSearchExpiry_of_remote {s : State} {id n : Nat} {x : SSearch} (hx : searchOf s id = some x) (hn : x.node = some n) :
    shardSearchExpiry id s = if x.expiry ≤ tickOf s then failSearch s id .timeout else s := by
  simp only [shardSearchExpiry, hx, hn, Option.isSome_some, Bool.true_and, decide_eq_true_eq, ge_iff_le]

/-! ### The merge -/

/-- The trees that may run a coordinator's merge (R158): the stable ones where it asks for them, else the ordinary ones. -/
def treesFor (s : State) (c : Coord) : List Nat :=
  if c.canon || flagF s Reg.selCtrlAllStable then (List.range 4).map (· + 28) else List.range 28

/-- A merge waits only while every tree of its kind is in reset. -/
theorem merge_of_first {s : State} {cid : Nat} {rest : List Nat} {c : Coord} (hr : ringUp s = true) (hm : s.srch.merges = cid :: rest)
    (hc : mget s.srch.coords cid = some c) : merge s =
    if (treesFor s c).all (fun i => s.fw.inReset.any (fun x => x.1 = .tree i)) then s else runMerge s cid c := by
  simp only [merge, hr, hm, hc, Bool.not_true, Bool.false_eq_true, if_false]
  rfl

end Sys2Proof.Machine

/-! SETTLED. Shard searches from admission to merge. -/
namespace Sys2Proof.Machine
open Sys2Proof

/-- Settles O44: the admission by what it finds free, a round by what ends it and what it can read, then the ways to end and the merge. -/
theorem searchEvents : Obligations.SearchEvents := by
  refine fun s => ⟨fun hr hw hp id x hx => ?admission, fun id x hx hp => ?admitTimeout,
    fun id x h c hx hp hc he => ⟨fun hd => ?late, fun hd hex t locs n ha => ?exhaustive,
      fun hd hex => ⟨fun hall => ?round, fun hall => ?roundWaits⟩⟩,
    fun id x hx hp hd => ?deadline, fun id x n hx hn => ?expiry, fun cid rest c hr hm hc => ⟨fun ht => ?merges, fun ht => ?mergeWaits⟩⟩
  case admission =>
    have ha : AdmitReady (edgeUpTo s 3) id x := ⟨hr, hw, hp, hx⟩
    refine ⟨fun hc => ?unhosted, fun h c hc hd => ?detaching, fun h c hc hd => ⟨fun hn => ?noRoom, fun e k he hk hslot => ?room⟩⟩
    case unhosted => exact congrArg Host.Outcome.next (shardSearchAdmit_of_unhosted ha hc)
    case detaching => exact congrArg Host.Outcome.next (shardSearchAdmit_of_detaching ha hc hd)
    case noRoom =>
      rcases hn with he | ⟨hs, hk⟩
      · exact congrArg Host.Outcome.next (shardSearchAdmit_of_no_engine ha hc hd he)
      · exact congrArg Host.Outcome.next (shardSearchAdmit_of_no_slot ha hc hd hs hk)
    case room =>
      subst hk
      have hstart := shardSearchAdmit_of_room ha hc hd he hslot
      refine ⟨fun hq => ?poisoned, fun hq hb => ⟨fun hs => ?descends, fun hs => ⟨fun hk => ?kettles, fun hk => ?engine⟩⟩⟩
      case poisoned => exact congrArg Host.Outcome.next (hstart.trans (startAdmitted_of_poisoned id hq))
      case descends => exact congrArg Host.Outcome.next (hstart.trans (startAdmitted_of_unscanned id hq hb hs))
      case kettles => exact congrArg Host.Outcome.next ((hstart.trans (startAdmitted_of_scan id hq hb hs)).trans (if_pos hk))
      case engine =>
        exact congrArg Host.Outcome.next ((hstart.trans (startAdmitted_of_scan id hq hb hs)).trans (if_neg (Bool.eq_false_iff.1 hk)))
  case admitTimeout => exact (congrArg Host.Outcome.next (admitTimeout_of_waiting hx hp)).trans (apply_ite _ _ _ _)
  case late => exact congrArg Host.Outcome.next (traversalRound_of_late hx hp hc he hd)
  case exhaustive =>
    have hround := traversalRound_of_exhaustive hx hp hc he hd hex
    rw [ha] at hround
    exact ⟨fun hall => congrArg Host.Outcome.next (hround.trans (if_pos hall)),
      fun hall => congrArg Host.Outcome.next (hround.trans (if_neg (Bool.eq_false_iff.1 hall)))⟩
  case round => exact congrArg Host.Outcome.next ((traversalRound_of_batch hx hp hc he hd hex).trans (if_pos hall))
  case roundWaits =>
    exact congrArg Host.Outcome.next ((traversalRound_of_batch hx hp hc he hd hex).trans (if_neg (Bool.eq_false_iff.1 hall)))
  case deadline =>
    have hend := searchDeadline_of_admitted hx
    simp only [pastDeadline_eq hp hd, decide_eq_true_eq] at hend
    exact (congrArg Host.Outcome.next hend).trans (apply_ite _ _ _ _)
  case expiry => exact (congrArg Host.Outcome.next (shardSearchExpiry_of_remote hx hn)).trans (apply_ite _ _ _ _)
  case merges => exact congrArg Host.Outcome.next ((merge_of_first hr hm hc).trans (if_neg (Bool.eq_false_iff.1 ht)))
  case mergeWaits => exact congrArg Host.Outcome.next ((merge_of_first hr hm hc).trans (if_pos ht))

end Sys2Proof.Machine

/-! SUPPORT. SEARCH (R125–R127): the checks of its descriptor and of its query block, and the shard searches that it starts. -/
namespace Sys2Proof.Machine
open Sys2Proof

/-- A SEARCH's fields are in their ranges, and its block and its result lie in its tenant's window (R109, R125). -/
structure SearchFields (s : State) (w : Work) : Prop where
  block : inWindow s w.tenant (w.f 40 8) 16 = true
  result : inWindow s w.tenant (w.f 48 8) (w.f 56 4) = true
  par : parOk (searchPar w) = true
  order : w.f 36 1 < 2
  zero37 : zeroAt w.desc 37 3 = true
  zero60 : zeroAt w.desc 60 4 = true
  blockAligned : w.f 40 8 % 64 = 0
  resultAligned : w.f 48 8 % 64 = 0
  room : 64 + 16 * (searchPar w).k ≤ w.f 56 4

theorem SearchFields.shape {s : State} {w : Work} (h : SearchFields s w) :
    (parOk (searchPar w) && decide (w.f 36 1 < 2) && zeroAt w.desc 37 3 && zeroAt w.desc 60 4 && decide (w.f 40 8 % 64 = 0)
      && decide (w.f 48 8 % 64 = 0) && decide (w.f 56 4 ≥ 64 + 16 * (searchPar w).k)) = true := by
  simp only [h.par, h.order, h.zero37, h.zero60, h.blockAligned, h.resultAligned, ge_iff_le, h.room, decide_true, Bool.and_self]

/-- Where the filter of a block that names `ns` shards stands (R126). -/
def filterAt (ns : Nat) : Nat := roundUp (8 + 2 * ns) 16

/-- Where the query stands, after a filter of `nops` operations. -/
def queryAt (ns nops : Nat) : Nat := filterAt ns + 16 * nops

/-- The shards that a block names. -/
def blockShards (ns : Nat) (bs : List Byte) : List Nat := (List.range ns).map (fun i => getLE bs (8 + 2 * i) 2)

/-- The filter program of a block. -/
def blockFilter (ns nops : Nat) (bs : List Byte) : List Byte := (bs.drop (filterAt ns)).take (16 * nops)

theorem roundUp_eq_filterAt (ns : Nat) : roundUp (8 + 2 * ns) 16 = filterAt ns := rfl
theorem filterAt_add (ns nops : Nat) : filterAt ns + 16 * nops = queryAt ns nops := rfl
theorem map_eq_blockShards (ns : Nat) (bs : List Byte) : (List.range ns).map (fun i => getLE bs (8 + 2 * i) 2) = blockShards ns bs := rfl
theorem take_eq_blockFilter (ns nops : Nat) (bs : List Byte) : (bs.drop (filterAt ns)).take (16 * nops) = blockFilter ns nops bs := rfl

/-- A query block of `ns` shards and `nops` filter operations is one for the index `r` (R120, R124, R126). -/
structure SearchBlock (par : SearchPar) (r : List Byte) (ns nops : Nat) (bs : List Byte) : Prop where
  nonempty : 1 ≤ ns
  shardsFit : ns ≤ 1024
  opsFit : nops ≤ 32
  dims : getLE bs 2 2 = ixDims r
  format : getLE bs 4 1 = 2 ∨ getLE bs 4 1 = 3
  zero6 : zeroAt bs 6 2 = true
  padding : zeroAt bs (8 + 2 * ns) (filterAt ns - (8 + 2 * ns)) = true
  distinct : noRepeats (blockShards ns bs) = true
  filter : filterOk r (blockFilter ns nops bs) = true
  slots : nops = 0 ∨ par.thresh ≤ par.hint ∨ ixPreSlots r ≠ 0

section
variable {par : SearchPar} {r : List Byte} {ns nops : Nat} {bs : List Byte} (h : SearchBlock par r ns nops bs)
include h

theorem SearchBlock.counts : (decide (ns = 0) || decide (ns > 1024) || decide (nops > 32)) = false := by
  rw [decide_eq_false (Nat.ne_of_gt h.nonempty), decide_eq_false (Nat.not_lt.2 h.shardsFit), decide_eq_false (Nat.not_lt.2 h.opsFit)]
  rfl

theorem SearchBlock.formatKnown : (getLE bs 4 1 != 2 && getLE bs 4 1 != 3) = false := by
  rcases h.format with h | h <;> rw [h] <;> rfl

/-- A filter for which the pre-scan is taken has a slot of its index (R124). -/
theorem SearchBlock.slotted : (nops != 0 && decide (par.hint < par.thresh) && decide (ixPreSlots r = 0)) = false := by
  rcases h.slots with h | h | h
  · rw [h]; rfl
  · rw [decide_eq_false (Nat.not_lt.2 h), Bool.and_false, Bool.false_and]
  · rw [decide_eq_false h, Bool.and_false]

theorem SearchBlock.checks : (getLE bs 2 2 != ixDims r || (getLE bs 4 1 != 2 && getLE bs 4 1 != 3) || !(zeroAt bs 6 2)
    || !(zeroAt bs (8 + 2 * ns) (filterAt ns - (8 + 2 * ns))) || !(noRepeats (blockShards ns bs)) || !(filterOk r (blockFilter ns nops bs))
    || (nops != 0 && decide (par.hint < par.thresh) && decide (ixPreSlots r = 0))) = false := by
  simp only [h.dims, h.formatKnown, h.zero6, h.padding, h.distinct, h.filter, h.slotted, bne_self_eq_false, Bool.not_true, Bool.or_self]

end

/-- What a SEARCH that passes its checks starts: its coordinator, and a shard search for each shard that it names (R127). -/
def splitSearch (s : State) (w : Work) (r : List Byte) (ns nops : Nat) (bs : List Byte) (q : RdRes) : State :=
  let cid := s.srch.nextCoord
  let c : Coord := ⟨w.id, w.f 8 2, (searchPar w).k, decide (w.f 36 1 = 1), blockShards ns bs, w.f 48 8, w.f 56 4, [], []⟩
  let t := beginWork (modSrch s (fun x => { x with coords := mput x.coords cid c, nextCoord := cid + 1 })) w.id
  ((blockShards ns bs).zip (List.range ns)).foldl (fun t p =>
    startShard (cid * 1024 + p.2) (w.f 8 2) p.1 (ixMapPage r * 65536) (searchPar w) (blockFilter ns nops bs) q.bytes (getLE bs 4 1)
      (if q.bad then some (q.first (w.f 40 8 + queryAt ns nops)) else none) w.expiry t) t

section
variable {s : State} {id : Nat} {w : Work} (hw : WorkReady s id 1 w)
include hw

theorem search_of_unknown (hr : mget s.srch.indexes (w.f 8 2) = none) : search id s = complete s w .malformed := by
  simp only [search, onWork_ready hw, hr]

variable {r : List Byte} (hr : mget s.srch.indexes (w.f 8 2) = some r)
include hr

theorem search_of_foreign (ht : ixTenant r ≠ w.tenant) : search id s = complete s w .accessDenied := by
  simp only [search, onWork_ready hw, hr, bne_iff_ne.2 ht, if_true]

/-- A SEARCH whose head, block and query are read in time and pass their checks is split over its shards. -/
theorem search_of_good (ht : ixTenant r = w.tenant) (hf : SearchFields s w) {t u v : State} {hd bd qd : RdRes}
    (hh : nrRead s (w.f 40 8) 8 = (t, hd)) (hht : hd.timeout = false) (hhb : hd.bad = false) {ns nops : Nat}
    (hns : getLE hd.bytes 0 2 = ns) (hnops : getLE hd.bytes 5 1 = nops)
    (hwin : inWindow s w.tenant (w.f 40 8) (queryAt ns nops + 2 * ixDims r) = true)
    (hb : nrRead t (w.f 40 8) (queryAt ns nops) = (u, bd)) (hbt : bd.timeout = false) (hbb : bd.bad = false)
    (hok : SearchBlock (searchPar w) r ns nops bd.bytes)
    (hq : nrRead u (w.f 40 8 + queryAt ns nops) (2 * ixDims r) = (v, qd)) (hqt : qd.timeout = false) :
    search id s = splitSearch v w r ns nops bd.bytes qd := by
  simp only [search, onWork_ready hw, hr, ht, bne_self_eq_false, hf.block, hf.result, hf.shape, Bool.not_true, Bool.or_self,
    Bool.false_eq_true, if_false]
  simp only [hh, hht, hhb, hns, hnops, roundUp_eq_filterAt, filterAt_add, hwin, Bool.not_true, Bool.false_eq_true, if_false]
  simp only [hok.counts, hb, hbt, hbb, map_eq_blockShards, take_eq_blockFilter, hok.checks, Bool.false_eq_true, if_false]
  simp only [hq, hqt, Bool.false_eq_true, if_false]
  rfl

end

end Sys2Proof.Machine

/-! SETTLED. The SEARCH descriptor. -/
namespace Sys2Proof.Machine
open Sys2Proof

/-- Settles O43: the index by whether it is known and the tenant's own, then the descriptor and block that pass every check. -/
theorem searchDescriptor : Obligations.SearchDescriptor := by
  refine fun s id w hw => ⟨fun hr => ?unknown, fun r hr ht => ?foreign,
    fun r t u v hd bd qd hr ht hqb hres hpar hord hz37 hz60 hqa hra hroom hh hht hhb hb hbt hbb hq hqt hwin hn0 hn hops hdims hfmt hz6 hpad
      hdist hfilter hslots => ?good⟩
  case unknown => exact congrArg Host.Outcome.next (search_of_unknown hw hr)
  case foreign => exact congrArg Host.Outcome.next (search_of_foreign hw hr ht)
  case good =>
    have hf : SearchFields s w := ⟨hqb, hres, hpar, hord, hz37, hz60, hqa, hra, hroom⟩
    have hok : SearchBlock (searchPar w) r (getLE hd.bytes 0 2) (getLE hd.bytes 5 1) bd.bytes :=
      ⟨hn0, hn, hops, hdims, hfmt, hz6, hpad, hdist, hfilter, hslots⟩
    exact congrArg Host.Outcome.next (search_of_good hw hr ht hf hh hht hhb rfl rfl hwin hb hbt hbb hok hq hqt)

end Sys2Proof.Machine

/-! SUPPORT. Updates of a shard (R136–R139, R143, R146, R153): what an INSERT or DELETE comes to by its plan, what decides a COMMIT, and what
folds and retirements do. -/
namespace Sys2Proof.Machine
open Sys2Proof

/-! ### INSERT and DELETE -/

/-- An INSERT or DELETE that waits to begin is carried as far as it goes. -/
theorem exec_update {s : State} {id cls : Nat} {w : Work} (hw : WorkReady s id cls w) (hcls : cls = 2 ∨ cls = 3) :
    exec (if cls = 2 then .insert id else .delete id) s = .next (runUpdate s w) := by
  rcases hcls with rfl | rfl
  · exact congrArg Host.Outcome.next (onWork_ready hw runUpdate)
  · exact congrArg Host.Outcome.next (onWork_ready hw runUpdate)

section
variable {s : State} {w : Work}

theorem runUpdate_of_unattached (hc : ctxOf s (shardKey (w.f 8 2) (w.f 10 2)) = none) : runUpdate s w = failUpdate s w .fenced := by
  simp only [runUpdate, hc]

variable {h : Shard} {c : Ctx3} (hc : ctxOf s (shardKey (w.f 8 2) (w.f 10 2)) = some (h, c))
include hc

theorem runUpdate_of_detaching (hd : h.detaching.isSome = true) : runUpdate s w = failUpdate s w .fenced := by
  simp only [runUpdate, hc, hd, if_true]

variable (hd : h.detaching = none) {t : State}
include hd

theorem runUpdate_of_fail {st : Status} (hp : planUpdate s h c w (mget s.srch.updates w.id) = (t, .fail st)) :
    runUpdate s w = failUpdate t w st := by
  simp only [runUpdate, hc, hd, hp, Option.isSome_none, Bool.false_eq_true, if_false]

theorem runUpdate_of_write {rows : List (Nat × RowVer)} {out : Nat}
    (hp : planUpdate s h c w (mget s.srch.updates w.id) = (t, .write rows out)) :
    runUpdate s w = writeRows t (shardKey (w.f 8 2) (w.f 10 2)) w rows out := by
  simp only [runUpdate, hc, hd, hp, Option.isSome_none, Bool.false_eq_true, if_false]

variable {ws : List RowWait} {fwd : Option (List Nat)} {bld : Option Nat}

/-- An update that waits for the first time waits from now, and counts where it waits for a fold (R137). -/
theorem runUpdate_of_first_wait (hu : mget s.srch.updates w.id = none)
    (hp : planUpdate s h c w (mget s.srch.updates w.id) = (t, .wait ws fwd bld)) : runUpdate s w =
      let t := if ws.any isFold then bump t Reg.srcUpdWaits else t
      beginWork (modSrch t (fun r => { r with
        updates := mput r.updates w.id ⟨tickOf t, ws.any isFold, ws.any isFold, fwd, bld⟩ })) w.id := by
  rw [hu] at hp
  simp only [runUpdate, hc, hd, hu, hp, Option.isSome_none, Bool.false_eq_true, if_false, Bool.not_false, Bool.and_true, Bool.or_false]

/-- An update that waits again keeps the tick it waits from, unless its wait for a fold begins now, and is counted once (R137, R138). -/
theorem runUpdate_of_further_wait {x : Upd} (hu : mget s.srch.updates w.id = some x)
    (hp : planUpdate s h c w (mget s.srch.updates w.id) = (t, .wait ws fwd bld)) : runUpdate s w =
      let t := if ws.any isFold && !x.counted then bump t Reg.srcUpdWaits else t
      let since := if ws.any isFold && !x.fold then tickOf t else x.since
      beginWork (modSrch t (fun r => { r with
        updates := mput r.updates w.id ⟨since, ws.any isFold, ws.any isFold || x.counted, fwd, bld⟩ })) w.id := by
  rw [hu] at hp
  simp only [runUpdate, hc, hd, hu, hp, Option.isSome_none, Bool.false_eq_true, if_false]

end

section
variable {t u : State} {w : Work} {rows : List (Nat × RowVer)} {out : Nat}

/-- LOCAL_OUT is written first: an INSERT of which it cannot be written ends with the status of the write (R155). -/
theorem writeRows_of_out_fail {st : Status} (hi : w.cls = 2) (ho : nrWrite t (w.f 32 8) (toBytes 4 out) [] = (u, some st)) (sk : Nat) :
    writeRows t sk w rows out = failUpdate u w st := by
  simp only [writeRows, hi, if_true, ho]

theorem writeRows_of_out_written (hr : rows ≠ [])
    (ho : (if w.cls = 2 then nrWrite t (w.f 32 8) (toBytes 4 out) [] else (t, none)) = (u, none)) (sk : Nat) :
    writeRows t sk w rows out =
      let u := rows.foldl (fun a r => putVersion a sk r.1 r.2) u
      let u := modShard u sk (fun x => { x with ins := x.ins + b2n (w.cls = 2), dels := x.dels + b2n (!decide (w.cls = 2)) })
      complete (dropUpd u w.id) w .ok (res := if w.cls = 2 then toBytes 4 out else []) := by
  have he : rows.isEmpty = false := List.isEmpty_eq_false_iff.2 hr
  simp only [writeRows, ho, he, Bool.false_eq_true, if_false]

end

theorem updatePrepareComplete_of_waiting {s : State} {id : Nat} {w : Work} (hw : workOf s id = some w)
    (hu : mhas s.srch.updates id = true) : updatePrepareComplete id s = runUpdate s w := by
  simp only [updatePrepareComplete, hw, hu, if_true]

/-! ### COMMIT -/

/-- A COMMIT's fields are in their ranges, and its record and its index are its tenant's (R143). -/
structure CommitFields (s : State) (w : Work) (r : List Byte) : Prop where
  index : mget s.srch.indexes (w.f 8 2) = some r
  zero12 : zeroAt w.desc 12 4 = true
  zero32 : zeroAt w.desc 32 32 = true
  aligned : w.f 24 8 % 16 = 0
  reach : tickFar s (w.f 16 8) = false
  record : inWindow s w.tenant (w.f 24 8) 16 = true
  own : ixTenant r = w.tenant

section
variable {s : State} {id : Nat} {w : Work} {r : List Byte} (hw : WorkReady s id 4 w) (hf : CommitFields s w r)
include hw hf

/-- A COMMIT whose fields pass is decided by its shard, then its tick, then the room in the schedule. -/
theorem commit_of_fields : commit id s =
    if mhas s.srch.shards (shardKey (w.f 8 2) (w.f 10 2)) then
      if tickNear s (w.f 16 8) then complete s w .timeout
      else if schedFull s then schedRefuse s w
      else schedAdd s (.commit (w.f 8 2) (w.f 10 2)) (w.f 16 8) w
    else complete s w .fenced := by
  simp only [commit, onWork_ready hw, hf.index, hf.zero12, hf.zero32, hf.aligned, hf.reach, hf.record, hf.own, firstOf, bne_self_eq_false,
    Bool.not_true, Bool.or_self, Bool.false_eq_true, if_false]
  cases mhas s.srch.shards (shardKey (w.f 8 2) (w.f 10 2)) with
  | false => rfl
  | true => cases tickNear s (w.f 16 8) <;> rfl

theorem commit_of_unattached (hs : mhas s.srch.shards (shardKey (w.f 8 2) (w.f 10 2)) = false) : commit id s = complete s w .fenced :=
  (commit_of_fields hw hf).trans (if_neg (Bool.eq_false_iff.1 hs))

variable (hs : mhas s.srch.shards (shardKey (w.f 8 2) (w.f 10 2)) = true)
include hs

theorem commit_of_near (hn : tickNear s (w.f 16 8) = true) : commit id s = complete s w .timeout := by
  rw [commit_of_fields hw hf, if_pos hs, if_pos hn]

theorem commit_of_full (hn : tickNear s (w.f 16 8) = false) (hl : schedFull s = true) : commit id s = schedRefuse s w := by
  rw [commit_of_fields hw hf, if_pos hs, if_neg (Bool.eq_false_iff.1 hn), if_pos hl]

theorem commit_of_room (hn : tickNear s (w.f 16 8) = false) (hl : schedFull s = false) :
    commit id s = schedAdd s (.commit (w.f 8 2) (w.f 10 2)) (w.f 16 8) w := by
  rw [commit_of_fields hw hf, if_pos hs, if_neg (Bool.eq_false_iff.1 hn), if_neg (Bool.eq_false_iff.1 hl)]

end

/-! ### Folds -/

theorem foldBlocked_eq_false_iff {s : State} {sk e : Nat} :
    foldBlocked s sk e = false ↔ readersBelow s sk e = [] ∧ buildsBelow s sk e = [] := by
  simp only [foldBlocked, Bool.or_eq_false_iff, Bool.not_eq_false', List.isEmpty_iff]

section
variable {s t : State} {c : Ctx3} {loc : Nat} {v : RowVer}

theorem foldRow_of_unwritable (hr : writeRecord s c loc v.record = none) : foldRow s c loc v = none := by
  simp only [foldRow, hr, Option.bind_none, Option.map_none]

/-- A version without other parts folds with its record. -/
theorem foldRow_of_record (hd : v.data = none) (hr : writeRecord s c loc v.record = some t) :
    foldRow s c loc v = some (modSrch t (fun r => { r with versions := mdel r.versions (rowKey c.sk loc) })) := by
  simp only [foldRow, hr, hd, Option.bind_some, Option.map_some]

theorem foldRow_of_parts {d : RowData} {u : State} (hd : v.data = some d) (hr : writeRecord s c loc v.record = some t)
    (hp : writeParts t c loc d = some u) :
    foldRow s c loc v = some (modSrch u (fun r => { r with versions := mdel r.versions (rowKey c.sk loc) })) := by
  simp only [foldRow, hr, hd, hp, Option.bind_some, Option.map_some]

variable {i sh : Nat} {h : Shard} (hc : ctxOf s (shardKey i sh) = some (h, c)) (hn : newer s (shardKey i sh) loc = some v)
include hc hn

theorem rowFold_of_seen (hb : foldBlocked s (shardKey i sh) v.vfrom = true) : rowFold i sh loc s = s := by
  simp only [rowFold, hc, hn, hb, Bool.not_true, Bool.and_false, Bool.false_eq_true, if_false]

/-- A committed version that no reader holds back folds, or stays where it cannot be written now (R136). -/
theorem rowFold_of_unseen (he : v.vfrom ≤ h.epoch) (hb : foldBlocked s (shardKey i sh) v.vfrom = false) :
    rowFold i sh loc s = (foldRow s c loc v).getD s := by
  simp only [rowFold, hc, hn, hb, decide_eq_true he, Bool.not_false, Bool.and_self, if_true]

end

/-! ### Retirement -/

/-- The epoch of the version that a row must fold before it takes another, 0 where it waits for no fold. -/
def foldEpoch : RowWait → Nat
  | .fold v => v
  | .ready => 0
  | .commit => 0

theorem foldEpoch_eq : foldEpoch = fun x => match x with | .fold v => v | _ => 0 := by
  funext x
  cases x with
  | ready => rfl
  | commit => rfl
  | fold v => rfl

/-- An update that has waited RETIRE_WAIT ticks retires the readers of the versions it waits for (R138). -/
theorem forcedRetirement_of_long_wait {s t : State} {id : Nat} {w : Work} {u : Upd} {h : Shard} {c : Ctx3} {ws : List RowWait}
    {fwd : Option (List Nat)} {bld : Option Nat} (hw : workOf s id = some w) (hu : mget s.srch.updates id = some u) (hf : u.fold = true)
    (h0 : getF s Reg.srcUpdCtrlRetireWait ≠ 0) (ht : u.since + getF s Reg.srcUpdCtrlRetireWait ≤ tickOf s)
    (hc : ctxOf s (shardKey (w.f 8 2) (w.f 10 2)) = some (h, c)) (hp : planUpdate s h c w (some u) = (t, .wait ws fwd bld)) :
    forcedRetirement id s = retireBelow s c.sk (maxD 0 (ws.map foldEpoch)) := by
  simp only [forcedRetirement, hw, hu, hf, hc, hp, decide_eq_false h0, decide_eq_false (Nat.not_lt.2 ht), Bool.not_true, Bool.or_self,
    Bool.false_eq_true, if_false]
  exact congrArg (fun f => retireBelow s c.sk (maxD 0 (ws.map f))) foldEpoch_eq.symm

/-- With few versions left, the one search that holds a fold up is retired with the older readers of its shard (R139). -/
theorem versionPressureRetire_of_sole {s : State} {id : Nat} {x : SSearch} (h0 : getF s Reg.srcUpdCtrlVerLow ≠ 0)
    (hl : verEntries - s.srch.versions.length < getF s Reg.srcUpdCtrlVerLow)
    (hx : s.srch.searches.filter (fun x => blocksFold s x.2) = [(id, x)]) :
    versionPressureRetire s = retireBelow s (shardKey x.index x.shard) (x.epoch + 1) := by
  simp only [versionPressureRetire, decide_eq_false h0, decide_eq_false (Nat.not_le.2 hl), ge_iff_le, Bool.or_self, Bool.false_eq_true,
    if_false, hx, List.foldl_cons, List.foldl_nil]

end Sys2Proof.Machine

/-! SETTLED. INSERT, DELETE, COMMIT and what follows them. -/
namespace Sys2Proof.Machine
open Sys2Proof

/-- Settles O45: an INSERT or DELETE by its shard and its plan, a COMMIT by what R143 checks last, a fold by who still sees the older version
and by what can be written, and the two retirements. -/
theorem updates : Obligations.Updates := by
  refine ⟨fun s id cls w hw hid => ⟨fun hcls => ?update,
      fun hcls r hr h12 h32 ha hfar hin hown => ?commit⟩,
    fun s => ⟨fun id w hw hu => ?goesOn, fun i sh loc h c v hc hn he => ⟨fun hr hb => ?folds, fun hb => ?seen⟩,
      fun id w u h c t ws fwd bld hw hu hf h0 ht hc hp => ?forced, fun x id h0 hl hx => ?pressure, fun sk e => rfl⟩⟩
  case update =>
    have hrun := exec_update hw hcls
    obtain ⟨-, rfl, -⟩ := hw
    subst hid
    refine ⟨fun hc => ?unattached, fun h c hc hd => ?detaching, fun h c t u rows out hc hd hp hr ho => ?writes,
      fun h c t u rows out st hc hd hi hp ho => ?outFails, fun h c t st hc hd hp => ?fails,
      fun h c t ws fwd bld hc hd hp => ⟨fun hu => ?waits, fun x hu => ?waitsOn⟩⟩
    case unattached => exact hrun.trans (congrArg Host.Outcome.next (runUpdate_of_unattached hc))
    case detaching => exact hrun.trans (congrArg Host.Outcome.next (runUpdate_of_detaching hc hd))
    case writes => exact hrun.trans (congrArg Host.Outcome.next ((runUpdate_of_write hc hd hp).trans (writeRows_of_out_written hr ho _)))
    case outFails => exact hrun.trans (congrArg Host.Outcome.next ((runUpdate_of_write hc hd hp).trans (writeRows_of_out_fail hi ho _)))
    case fails => exact hrun.trans (congrArg Host.Outcome.next (runUpdate_of_fail hc hd hp))
    case waits => exact hrun.trans (congrArg Host.Outcome.next (runUpdate_of_first_wait hc hd hu hp))
    case waitsOn => exact hrun.trans (congrArg Host.Outcome.next (runUpdate_of_further_wait hc hd hu hp))
  case commit =>
    subst hcls
    have hf : CommitFields s w r := ⟨hr, h12, h32, ha, hfar, hin, hown⟩
    exact ⟨fun hs => congrArg Host.Outcome.next (commit_of_unattached hw hf hs),
      fun hs hn => congrArg Host.Outcome.next (commit_of_near hw hf hs hn),
      fun hs hn hl => congrArg Host.Outcome.next (commit_of_full hw hf hs hn hl),
      fun hs hn hl => congrArg Host.Outcome.next (commit_of_room hw hf hs hn hl)⟩
  case goesOn => exact congrArg Host.Outcome.next (updatePrepareComplete_of_waiting hw hu)
  case folds =>
    have hfold := rowFold_of_unseen hc hn he (foldBlocked_eq_false_iff.2 ⟨hr, hb⟩)
    refine ⟨fun t u d hd hw hp => ?parts, fun t hd hw => ?record, fun hw => ?unwritable⟩
    case parts => exact congrArg Host.Outcome.next (hfold.trans (congrArg (·.getD s) (foldRow_of_parts hd hw hp)))
    case record => exact congrArg Host.Outcome.next (hfold.trans (congrArg (·.getD s) (foldRow_of_record hd hw)))
    case unwritable => exact congrArg Host.Outcome.next (hfold.trans (congrArg (·.getD s) (foldRow_of_unwritable hw)))
  case seen =>
    have hblocked : foldBlocked s (shardKey i sh) v.vfrom = true :=
      Bool.of_not_eq_false (fun hf => (foldBlocked_eq_false_iff.1 hf).elim (fun h1 h2 => hb.elim (· h1) (· h2)))
    exact congrArg Host.Outcome.next (rowFold_of_seen hc hn hblocked)
  case forced =>
    exact congrArg Host.Outcome.next ((forcedRetirement_of_long_wait hw hu hf h0 ht hc hp).trans
      (congrArg (fun f => retireBelow s c.sk (maxD 0 (ws.map f))) foldEpoch_eq))
  case pressure => exact congrArg Host.Outcome.next (versionPressureRetire_of_sole h0 hl hx)

end Sys2Proof.Machine

/-! SUPPORT. GATHER and SCATTER (R176–R194): what an admitted GATHER comes to by its checks, its lists and its rows, what a SCATTER's checks
leave, how it starts and goes on, and the end of the load window. -/
namespace Sys2Proof.Machine
open Sys2Proof

/-! ### GATHER -/

/-- The walk of a GATHER's list by its plan: at the newest version of each row for LATEST, else at the version bound or pinned (R182). -/
def gatherWalk (s : State) (w : Work) (p : GatherPlan) (wts : Option (List (Nat × Option Nat))) : State × Carder × List OutRow :=
  gatherLoop p.reg w (if (w.f 12 1).testBit 1 then none else some p.tv) p.tver wts p.idx 0 p.ends s carderNew (bagZero (tbDim p.reg)) []

/-- The GATHER that waits longest is carried out on a free Carder (R178). -/
theorem gatherAdmit_of_first {s : State} {id : Nat} {rest : List Nat} {w : Work} (hf : s.card.waiting = id :: rest)
    (hc : carderFree s = true) (hw : workOf s id = some w) :
    gatherAdmit s = runGather (modCard s (fun c => { c with waiting := rest })) w := by
  have hdrop : modCard s (fun c => { c with waiting := c.waiting.drop 1 }) = modCard s (fun c => { c with waiting := rest }) := by
    simp only [modCard, hf, List.drop_one, List.tail_cons]
  have hwork : workOf (modCard s (fun c => { c with waiting := rest })) id = some w := hw
  simp only [gatherAdmit, hf, hc, hdrop, hwork, Bool.not_true, Bool.false_eq_true, if_false]

section
variable {s u : State} {w : Work}

theorem runGather_of_error {st : Status} (hg : gatherCheck s w = (u, .error st)) : runGather s w = complete u w st := by
  simp only [runGather, hg]

variable {p : GatherPlan} (hg : gatherCheck s w = (u, .ok p))
include hg

/-- A GATHER whose list, offsets or weights a lender does not give ends TIMEOUT with no row (R180). -/
theorem runGather_of_silent (hs : p.silent = true ∨ (readWeights u w).2.2 = true) :
    runGather s w = endGather (readWeights u w).1 w p.reg p.tv carderNew [] .timeout := by
  simp only [runGather, hg, Bool.or_eq_true, hs, if_true]

variable (hp : p.silent = false) (hw : (readWeights u w).2.2 = false)
include hp hw

theorem runGather_of_stop (hk : (gatherWalk (readWeights u w).1 w p (readWeights u w).2.1).2.1.stop = true) :
    runGather s w =
      let g := gatherWalk (readWeights u w).1 w p (readWeights u w).2.1
      endGather g.1 w p.reg p.tv g.2.1 g.2.2 .timeout := by
  rw [gatherWalk] at hk
  simp only [runGather, hg, hp, hw, hk, gatherWalk, Bool.or_self, Bool.true_or, Bool.false_eq_true, if_false, if_true]

/-- A GATHER whose rows were all answered ends with its rows, or with its bags to the last (R179). -/
theorem runGather_of_walked (hk : (gatherWalk (readWeights u w).1 w p (readWeights u w).2.1).2.1.stop = false) :
    runGather s w =
      let g := gatherWalk (readWeights u w).1 w p (readWeights u w).2.1
      endGather g.1 w p.reg p.tv g.2.1 (if w.f 10 1 = 0 then g.2.2 else lastBags w (tbDim p.reg) g.2.2) .ok := by
  rw [gatherWalk] at hk
  simp only [runGather, hg, hp, hw, hk, gatherWalk, Bool.or_self, Bool.false_or, Bool.false_eq_true, if_false, decide_eq_true_eq]

end

/-! ### The checks of a SCATTER -/

/-- A list that is read in time is known whole. -/
theorem knownEntries_of_answered {x : RdRes} (hx : x.timeout = false) (s : State) (addr e n : Nat) :
    knownEntries s addr e n x = (List.range n).map (fun i => getLE x.bytes (e * i) e) := by
  have hall : (List.range n).filter (fun i => !x.timeout || !(nrSilent s (addr + e * i) e)) = List.range n :=
    List.filter_eq_self.2 (fun i _ => by rw [hx]; rfl)
  rw [knownEntries, hall]

section
variable {s t : State} {w : Work} {r : RdRes}

theorem scatterCheck_of_misshapen (hok : scatterOk s w = false) : scatterCheck s w = (s, .error .malformed) := by
  simp only [scatterCheck, hok, Bool.not_false, if_true]

variable (hok : scatterOk s w = true) (hin : scatterIn s w = true) (ht : r.timeout = false) (hb : r.bad = false)
include hok hin ht hb

/-- A table SCATTER of its own tenant whose list the table allows passes with that list (R186). -/
theorem scatterCheck_of_table_list {x : Table} {idx : List Nat} (hm : w.f 10 1 ≠ 3) (hx : mget s.card.tables (w.f 8 2) = some x)
    (hown : tbTenant x.reg = w.tenant) (hr : rdW s (w.f 24 8) (4 * w.f 16 4) = (t, r))
    (hidx : (List.range (w.f 16 4)).map (fun i => getLE r.bytes (4 * i) 4) = idx) (hl : scatterListOk w x.reg idx = true) :
    scatterCheck s w = (t, .ok ⟨⟨w.f 8 2, idx, false, [], 0, 0, 0, false⟩, false⟩) := by
  simp only [scatterCheck, hok, hin, hx, hown, hr, hb, ht, decide_eq_false hm, knownEntries_of_answered ht, hidx, hl, bne_self_eq_false,
    Bool.not_true, Bool.or_self, Bool.false_eq_true, if_false]

/-- A raw SCATTER to even addresses whose rows lie in its tenant's window passes with its list (R186). -/
theorem scatterCheck_of_raw_list {idx : List Nat} (hm : w.f 10 1 = 3) (hr : rdW s (w.f 24 8) (8 * w.f 16 4) = (t, r))
    (hidx : (List.range (w.f 16 4)).map (fun i => getLE r.bytes (8 * i) 8) = idx)
    (heven : idx.any (fun a => a % 2 != 0) = false) (hwin : idx.any (fun a => !(inWindow t w.tenant a (2 * w.f 20 2))) = false) :
    scatterCheck s w = (t, .ok ⟨⟨1024, idx, false, [], 0, 0, 0, false⟩, false⟩) := by
  simp only [scatterCheck, hok, hin, hm, hr, hb, ht, knownEntries_of_answered ht, hidx, heven, hwin, decide_true,
    Bool.not_true, Bool.false_eq_true, if_false, if_true]
  cases mget s.card.tables (w.f 8 2) with
  | none => rfl
  | some _ => rfl

end

/-- Raw addresses that each pass both checks fail neither over the list. -/
theorem any_of_all_even_inside {idx : List Nat} {inside : Nat → Bool} (h : idx.all (fun a => a % 2 = 0 && inside a) = true) :
    idx.any (fun a => a % 2 != 0) = false ∧ idx.any (fun a => !(inside a)) = false := by
  have hpass : ∀ a ∈ idx, a % 2 = 0 ∧ inside a = true := fun a ha =>
    (Bool.and_eq_true_iff.1 (List.all_eq_true.1 h a ha)).imp_left of_decide_eq_true
  refine ⟨List.any_eq_false.2 (fun a ha => ?even), List.any_eq_false.2 (fun a ha => ?within)⟩
  case even => rw [(hpass a ha).1]; exact Bool.false_ne_true
  case within => rw [(hpass a ha).2]; exact Bool.false_ne_true

/-! ### SCATTER -/

section
variable {s t : State} {id : Nat} {w : Work} (hw : WorkReady s id 6 w)
include hw

theorem scatter_of_error {st : Status} (hc : scatterCheck s w = (t, .error st)) : scatter id s = complete t w st := by
  simp only [scatter, onWork_ready hw, hc]

variable {y : Scat} (hc : scatterCheck s w = (t, .ok ⟨y, false⟩))
include hc

/-- A SCATTER on a table joins its order (R189). -/
theorem scatter_of_table (hy : y.table ≠ 1024) : scatter id s =
    let u := modCard t (fun c => { c with tables := mmod c.tables y.table (fun t => { t with queue := t.queue ++ [w.id] }) })
    beginWork (setScat u w.id y) w.id := by
  simp only [scatter, onWork_ready hw, hc, hy, Bool.false_eq_true, if_false]

theorem scatter_of_raw (hy : y.table = 1024) : scatter id s = beginWork (setScat t w.id y) w.id := by
  simp only [scatter, onWork_ready hw, hc, hy, Bool.false_eq_true, if_false, if_true]

end

section
variable {s : State} {id : Nat} {w : Work} {x : Scat} (hw : workOf s id = some w) (hx : mget s.card.scatters id = some x)
include hw hx

/-- The first SCATTER in its table's order starts on a free Carder, but where its table's TVER has no successor (R187–R189). -/
theorem scatterStart_of_turn {t : Table} (hb : x.begun = false) (hc : carderFree s = true) (hy : x.table ≠ 1024)
    (ht : mget s.card.tables x.table = some t) (hq : t.queue.head? = some id) (hv : t.tver ≠ 2 ^ 32 - 2) :
    scatterStart id s = scatterRows w x.table t.reg t.tver (distinct [] x.idx) s { x with begun := true } := by
  simp only [scatterStart, hw, hx, hb, hc, hy, ht, hq, hv, bne_self_eq_false, Bool.not_true, Bool.or_self, Bool.false_eq_true, if_false]

theorem scatterStart_of_raw (hb : x.begun = false) (hc : carderFree s = true) (hy : x.table = 1024) :
    scatterStart id s = scatterRaw w (w.f 20 2) x.idx 0 s { x with begun := true } := by
  simp only [scatterStart, hw, hx, hb, hc, hy, Bool.not_true, Bool.or_self, Bool.false_eq_true, if_false, if_true]

theorem scatterRowResume_of_todo {t : Table} (ht : mget s.card.tables x.table = some t) (hb : x.begun = true) (hr : x.todo ≠ []) :
    scatterRowResume id s = scatterRows w x.table t.reg t.tver x.todo s x := by
  simp only [scatterRowResume, hw, hx, ht, hb, List.isEmpty_eq_false_iff.2 hr, Bool.not_false, Bool.and_self, if_true]

end

/-! ### The load window -/

theorem loadWindowEnd_of_early {s : State} (h : tickOf s < s.card.window + atLeast1 s Reg.crdCtrlWindow) : loadWindowEnd s = s := by
  simp only [loadWindowEnd, h, if_true]

/-- The window's counts as they stand in a table's LOAD_PAGE (R194). -/
def loadBytes (t : Table) : List Byte := (List.range (loadShards t.reg)).flatMap (fun k => toBytes 4 ((mget t.load k).getD 0))

/-- Every table that counts its load has its counts written (R194). -/
def writeLoads (s : State) : State :=
  s.card.tables.foldl (fun a x => if tbShift x.2.reg = 0 then a else nrPut a (getLE x.2.reg 24 4 * 65536) (loadBytes x.2)) s

/-- The counts cleared and the next window begun, with each site's lines since the last one (R194). -/
def beginWindow (t : State) : State :=
  modCard t (fun c => { c with
    tables := c.tables.map (fun x => (x.1, { x.2 with load := [] })),
    window := tickOf t, traffic := (List.range 8).map (fun i => (siteLines t).getD i 0 - c.mark.getD i 0), mark := siteLines t })

theorem loadWindowEnd_of_due {s : State} (h : s.card.window + atLeast1 s Reg.crdCtrlWindow ≤ tickOf s) :
    loadWindowEnd s = skewMigrate (beginWindow (writeLoads s)) := by
  simp only [loadWindowEnd, Nat.not_lt.2 h, if_false]
  rfl

end Sys2Proof.Machine

/-! SETTLED. GATHER, SCATTER and the load window. -/
namespace Sys2Proof.Machine
open Sys2Proof

/-- Settles O46: a GATHER from its wait to its end, a SCATTER by what its checks leave, by its turn and by the rows left to it, and the load
window by its tick. -/
theorem embeddingRows : Obligations.EmbeddingRows := by
  refine fun s => ⟨fun id w hw => ?gatherWaits,
    fun id rest w hf hc hw => ⟨fun u st hg => ?gatherFails,
      fun u p hg => ⟨fun hs => ?gatherSilent, fun hp hwt => ⟨fun hk => ?gatherStops, fun hk => ?gathered⟩⟩⟩,
    fun id w t st hw hc => ?scatterFails, fun id w hw hok => ?misshapen,
    fun id w x t r hw hok hm hy hx hown hin hr ht hb hl => ?joins, fun id w t r hw hok hm hin hr ht hb hl => ?raw,
    fun id w x t hw hx hb hc hy ht hq hv => ?starts, fun id w x hw hx hb hc hy => ?startsRaw,
    fun id w x t hw hx ht hb hr => ?resumes, fun h => ?windowEnds, fun h => ?windowRuns⟩
  case gatherWaits => exact congrArg Host.Outcome.next (onWork_ready hw _)
  case gatherFails => exact congrArg Host.Outcome.next ((gatherAdmit_of_first hf hc hw).trans (runGather_of_error hg))
  case gatherSilent => exact congrArg Host.Outcome.next ((gatherAdmit_of_first hf hc hw).trans (runGather_of_silent hg hs))
  case gatherStops => exact congrArg Host.Outcome.next ((gatherAdmit_of_first hf hc hw).trans (runGather_of_stop hg hp hwt hk))
  case gathered => exact congrArg Host.Outcome.next ((gatherAdmit_of_first hf hc hw).trans (runGather_of_walked hg hp hwt hk))
  case scatterFails => exact congrArg Host.Outcome.next (scatter_of_error hw hc)
  case misshapen => exact congrArg Host.Outcome.next (scatter_of_error hw (scatterCheck_of_misshapen hok))
  case joins =>
    have hcheck := scatterCheck_of_table_list hok hin ht hb hm hx hown hr rfl hl
    exact congrArg Host.Outcome.next (scatter_of_table hw hcheck hy)
  case raw =>
    obtain ⟨heven, hwin⟩ := any_of_all_even_inside hl
    have hcheck := scatterCheck_of_raw_list hok hin ht hb hm hr rfl heven hwin
    exact congrArg Host.Outcome.next (scatter_of_raw hw hcheck rfl)
  case starts => exact congrArg Host.Outcome.next (scatterStart_of_turn hw hx hb hc hy ht hq hv)
  case startsRaw => exact congrArg Host.Outcome.next (scatterStart_of_raw hw hx hb hc hy)
  case resumes => exact congrArg Host.Outcome.next (scatterRowResume_of_todo hw hx ht hb hr)
  case windowEnds => exact congrArg Host.Outcome.next (loadWindowEnd_of_due h)
  case windowRuns => exact congrArg Host.Outcome.next (loadWindowEnd_of_early h)

end Sys2Proof.Machine

/-! SUPPORT. Slots and bundles (R223, R224): which slots a bundle acts with, what a bundle that does not fault has legal, and which encoding an
operation of the X slot has. -/
namespace Sys2Proof.Machine
open Sys2Proof

/-! ### The slots of a bundle -/

theorem bEn_of_needs_X {b rep : Nat} (h : (neededSlots b rep).contains 1 = true) : bEn b 1 = true := by
  have listed (l : List Nat) (hl : 1 ∈ if l.isEmpty then [0] else l) : 1 ∈ l := by
    split at hl
    · exact absurd (List.mem_singleton.1 hl) Nat.one_ne_zero
    · exact hl
  simpa using listed _ (List.contains_iff_mem.1 h)

theorem legalX_of_needs {b rep : Nat} (hl : bundleLegal b = true) (h : (neededSlots b rep).contains 1 = true) : legalX (slotX b) = true := by
  simp only [bundleLegal, bEn_of_needs_X h, if_true, Bool.and_eq_true] at hl
  exact hl.1.1.2

/-- A list that names `a` where a test fails is empty only where the test holds. -/
theorem of_ite_nil_singleton {α : Type} {p : Bool} {a : α} (h : (if p = true then [] else [a]) = []) : p = true := by
  cases p with
  | true => rfl
  | false => exact absurd h (List.cons_ne_nil _ _)

/-- A bundle none of whose slots faults is legal in each (R223). -/
theorem bundleLegal_of_no_faults {v : Env} {c : Cell} (h : bundleFaults v c = []) : bundleLegal (c.bundle c.base.seq.pc) = true := by
  rw [← Bool.not_eq_false]
  intro hl
  simp only [bundleFaults, hl, Bool.not_false, if_true] at h
  split at h
  · exact List.cons_ne_nil _ _ h
  split at h
  · exact List.cons_ne_nil _ _ h
  simp only [List.append_eq_nil_iff] at h
  obtain ⟨⟨⟨hC, hX⟩, hV⟩, hM⟩ := h
  simp only [bundleLegal, of_ite_nil_singleton hC, of_ite_nil_singleton hX, of_ite_nil_singleton hV, of_ite_nil_singleton hM, Bool.and_self,
    Bool.true_eq_false] at hl

/-! ### The X slot -/

/-- The encoding of operation `op` of the X slot, in the numbering of `slotOp` (R250). -/
def encodesX (w op : Nat) : Prop :=
  match op with
  | 0 => bits w 21 3 = 0 ∧ bits w 17 4 = 0
  | 1 => bits w 21 3 = 0 ∧ bits w 17 4 = 1
  | 2 => bits w 21 3 = 0 ∧ bits w 17 4 = 2
  | 3 => bits w 21 3 = 1
  | 4 => bits w 21 3 = 2
  | 5 => bits w 21 3 = 3
  | 6 => bits w 21 3 = 4
  | 7 => bits w 21 3 = 5 ∧ w.testBit 20 = false
  | 8 => bits w 21 3 = 5 ∧ w.testBit 20 = true
  | 9 => bits w 21 3 = 6
  | _ => bits w 21 3 = 7

theorem bits_lt (n lo w : Nat) : bits n lo w < 2 ^ w := Nat.mod_lt _ (Nat.two_pow_pos w)

/-- A legal X slot has the encoding of the operation that it holds. -/
theorem encodesX_slotOp {b : Nat} (rep : Nat) (hl : legalX (slotX b) = true) : encodesX (slotX b) (slotOp 1 b rep) := by
  by_cases h0 : bits (slotX b) 21 3 = 0
  · simp only [legalX, h0, Bool.and_eq_true, decide_eq_true_eq] at hl
    have hsub : bits (slotX b) 17 4 ≤ 2 := hl.1.1
    have ho : bits (slotX b) 17 4 = 0 ∨ bits (slotX b) 17 4 = 1 ∨ bits (slotX b) 17 4 = 2 := by omega
    rcases ho with ho | ho | ho
    all_goals
      simp only [slotOp, h0, ho]
      exact ⟨h0, ho⟩
  by_cases h5 : bits (slotX b) 21 3 = 5
  · simp only [slotOp, h5]
    cases ht : (slotX b).testBit 20 <;> exact ⟨h5, ht⟩
  have hlt : bits (slotX b) 21 3 < 8 := bits_lt _ _ _
  have hc : bits (slotX b) 21 3 = 1 ∨ bits (slotX b) 21 3 = 2 ∨ bits (slotX b) 21 3 = 3 ∨ bits (slotX b) 21 3 = 4 ∨ bits (slotX b) 21 3 = 6 ∨
      bits (slotX b) 21 3 = 7 := by omega
  rcases hc with hc | hc | hc | hc | hc | hc
  all_goals
    simp only [slotOp, hc]
    exact hc

/-- A cell's slot that is ready holds a legal bundle. -/
theorem SlotReady.encodesX {s img cell ecc ups op x r t c} (h : SlotReady s img cell ecc ups 1 op x r t c) :
    encodesX (slotX (c.bundle c.base.seq.pc)) op := by
  have hl := legalX_of_needs (bundleLegal_of_no_faults h.legal) h.needed
  have he := encodesX_slotOp c.base.seq.rep hl
  rwa [h.holds] at he

end Sys2Proof.Machine

/-! SUPPORT. What each operation of the X slot does (R207, R250–R252) where nothing stands against it. -/
namespace Sys2Proof.Machine
open Sys2Proof

/-! ### Which operation a word names -/

section
variable {v : Env} {b k : Core} {bundle : Nat}

theorem actX_xnop (h : encodesX (slotX bundle) 0) : actX v b k bundle = ok k := by
  obtain ⟨hc, ho⟩ := h
  simp [actX, hc, ho]

theorem actX_wrel (h : encodesX (slotX bundle) 1) : actX v b k bundle = wrelX v b k (slotX bundle) := by
  obtain ⟨hc, ho⟩ := h
  simp [actX, hc, ho]

theorem actX_wgive (h : encodesX (slotX bundle) 2) : actX v b k bundle = wgiveX v b k (slotX bundle) := by
  obtain ⟨hc, ho⟩ := h
  simp [actX, hc, ho]

theorem actX_vlda (h : encodesX (slotX bundle) 3) :
    actX v b k bundle = loadLine v b k (256 * (bits (slotX bundle) 0 11 + v.n)) (bits (slotX bundle) 16 5 + v.n) := by
  have hc : bits (slotX bundle) 21 3 = 1 := h
  simp only [actX, hc]

theorem actX_vsta (h : encodesX (slotX bundle) 4) :
    actX v b k bundle = storeLine b k (256 * (bits (slotX bundle) 0 11 + v.n)) (bits (slotX bundle) 16 5 + v.n) := by
  have hc : bits (slotX bundle) 21 3 = 2 := h
  simp only [actX, hc]

theorem actX_vld (h : encodesX (slotX bundle) 5) (ht : (b.rs (bits (slotX bundle) 11 5)).tag = false) :
    actX v b k bundle = withInc (loadLine v b k (vAddr b (slotX bundle)).1 (bits (slotX bundle) 16 5 + v.n)) v (slotX bundle)
      (vAddr b (slotX bundle)).2 := by
  have hc : bits (slotX bundle) 21 3 = 3 := h
  simp only [actX, hc, ht, Bool.false_eq_true, if_false]

theorem actX_vst (h : encodesX (slotX bundle) 6) (ht : (b.rs (bits (slotX bundle) 11 5)).tag = false) :
    actX v b k bundle = withInc (storeLine b k (vAddr b (slotX bundle)).1 (bits (slotX bundle) 16 5 + v.n)) v (slotX bundle)
      (vAddr b (slotX bundle)).2 := by
  have hc : bits (slotX bundle) 21 3 = 4 := h
  simp only [actX, hc, ht, Bool.false_eq_true, if_false]

/-- SLD and SST have one encoding but for bit 20 (R250). -/
theorem actX_sldst (hc : bits (slotX bundle) 21 3 = 5) : actX v b k bundle = sldst v b k (slotX bundle) := by simp only [actX, hc]

theorem actX_send (h : encodesX (slotX bundle) 9) : actX v b k bundle = sendX v b k (slotX bundle) := by
  have hc : bits (slotX bundle) 21 3 = 6 := h
  simp only [actX, hc]

theorem actX_recv (h : encodesX (slotX bundle) 10) : actX v b k bundle = recvX v b k (slotX bundle) := by
  have hc : bits (slotX bundle) 21 3 = 7 := h
  simp only [actX, hc]

end

/-! ### Loads and stores -/

section
variable {v : Env} {b k : Core} {a r w : Nat}

theorem loadLine_of_free (h : lineFault b a = none) : loadLine v b k a r =
    .done (issue (upset k (a / 16) v.ups) v 3 2 (.v (r % 32) (ones 2048)) (ofBytes (sramRead (upset b (a / 16) v.ups) (a / 16) 16).bytes)
      (sramRead (upset b (a / 16) v.ups) (a / 16) 16).bad) (sramRead (upset b (a / 16) v.ups) (a / 16) 16).hits := by
  simp only [loadLine, h]

theorem storeLine_of_free (h : lineFault b a = none) :
    storeLine b k a r = .done (putWords k (a / 16) (toBytes 256 (b.rv (r % 32)).val) (fun _ => (b.rv (r % 32)).tag)) [] := by
  simp only [storeLine, h, ok]

/-- The address that SLD and SST compute (R251). -/
def sAddr (b : Core) (w : Nat) : Nat := ((b.rs (bits w 10 5)).val + ux 64 (8 * sx 10 (bits w 0 10))) % 2 ^ 64

theorem sldst_of_poison (ht : (b.rs (bits w 10 5)).tag = true) : sldst v b k w = .fault fPoison := by
  simp only [sldst, ht, if_true]

variable (ht : (b.rs (bits w 10 5)).tag = false) (hr : sAddr b w ≤ sramTop) (ha : sAddr b w % 8 = 0)
  (ho : ringOwned b.wins (sAddr b w / 256) = false)
include ht hr ha ho

/-- SLD and SST at an address that is in range, aligned and the cell's own. -/
theorem sldst_of_free : sldst v b k w =
    if w.testBit 20 then
      let y := pokeWord k (sAddr b w) (toBytes 8 (b.rs ((bits w 15 5 + v.n) % 32)).val) (b.rs ((bits w 15 5 + v.n) % 32)).tag
      .done y.1 y.2
    else
      let y := sramRead (upset b (sAddr b w / 16) v.ups) (sAddr b w / 16) 1
      .done (issue (upset k (sAddr b w / 16) v.ups) v 3 2 (.s ((bits w 15 5 + v.n) % 32) (ones 64)) (getLE y.bytes (sAddr b w % 16) 8) y.bad) y.hits := by
  unfold sAddr at *
  simp only [sldst, ht, Nat.not_lt.2 hr, ha, ho, decide_false, bne_self_eq_false, Bool.or_self, Bool.false_eq_true, if_false]

end

/-- Eight bytes put into a word: a read-modify-write, which leaves a poisoned word poisoned (R306, R315). -/
theorem pokeWord_of_eight (k : Core) (a val : Nat) (pois : Bool) : pokeWord k a (toBytes 8 val) pois =
    (k.setWord (a / 16) ⟨putLE (k.word (a / 16)).data (a % 16) 8 val, pois || decide ((k.word (a / 16)).cls ≥ 2), 0⟩,
      if (k.word (a / 16)).hit = 0 then [] else [(a / 16, rmwHit + (k.word (a / 16)).hit)]) := by
  have hpart : ((toBytes 8 val).length != 16) = true := rfl
  by_cases hh : (k.word (a / 16)).hit = 0 <;>
    simp only [pokeWord, putLE, hpart, hh, Bool.true_and, bne_iff_ne, ne_eq, not_true_eq_false, not_false_eq_true, if_true, if_false]

/-! ### Windows -/

section
variable {v : Env} {b k : Core} {w : Nat} (hd : (b.win (bits w 0 2)).dir ≠ 0xFF)
include hd

theorem wrelX_of_ready (ho : (b.win (bits w 0 2)).own = false)
    (hn : (if (b.win (bits w 0 2)).dir = 0 then (b.win (bits w 0 2)).xfer else (b.win (bits w 0 2)).xfer - 1) < v.totals.getD (bits w 0 2) 0)
    {f : Nat} (hf : (b.win (bits w 0 2)).ready = some f) (hb : f + 8 ≤ v.felt) :
    wrelX v b k w = ok (k.setWin (bits w 0 2) (fun y => { y with own := true })) := by
  simp only [wrelX, hd, ho, Nat.not_le.2 hn, hf, hb, decide_false, Bool.or_self, Bool.false_eq_true, if_false, if_true]

theorem wgiveX_of_owned (ho : (b.win (bits w 0 2)).own = true)
    (hn : (b.win (bits w 0 2)).dir = 1 → (b.win (bits w 0 2)).xfer < v.totals.getD (bits w 0 2) 0) :
    wgiveX v b k w =
      let k := k.setWin (bits w 0 2) (fun y => { y with own := false, xfer := y.xfer + 1, ready := none })
      ok { k with gave := k.gave ++ [bits w 0 2] } := by
  have hlast : (decide ((b.win (bits w 0 2)).dir = 1) && decide (v.totals.getD (bits w 0 2) 0 ≤ (b.win (bits w 0 2)).xfer)) = false := by
    rw [Bool.and_eq_false_imp]
    simpa only [decide_eq_true_eq, decide_eq_false_iff_not, Nat.not_le] using hn
  simp only [wgiveX, hd, ho, hlast, decide_false, Bool.not_true, Bool.or_self, Bool.false_eq_true, if_false]

end

/-- The transfers that a slot finds listed for a window of its cell. -/
theorem cellEnv_totals (s : State) (x : Image) (r : Run) (n : Nat) (c : Cell) (ups : List (Nat × Nat)) (w : Nat) :
    (cellEnv s x r n c ups).totals.getD (bits w 0 2) 0 = xferCount x.staging n (bits w 0 2) := by
  have hlt : bits w 0 2 < 4 := bits_lt _ _ _
  simp [cellEnv, hlt]

/-! ### Flits -/

section
variable {v : Env} {b k : Core} {w : Nat}

theorem recvX_of_off (h : (b.rp (bits w 7 3)).val.testBit 0 = false) : recvX v b k w = ok k := by
  simp only [recvX, h, Bool.false_eq_true, if_false]

theorem recvX_of_flit (h : (b.rp (bits w 7 3)).val.testBit 0 = true) {f : Flit}
    (hf : v.flits.find? (fun f => f.at_ = v.cyc && f.cell = v.cell && f.dir = bits w 12 2) = some f) :
    recvX v b k w =
      let q := bits w 14 2 + v.n
      ok (issue k v 1 2 (.v ((bits w 16 5 + q / 4) % 32) (ones 512 * 2 ^ (512 * (q % 4)))) (f.val * 2 ^ (512 * (q % 4))) f.tag) := by
  simp only [recvX, h, hf, if_true]

end

end Sys2Proof.Machine

/-! SETTLED. Memory, window and mesh slots. -/
namespace Sys2Proof.Machine
open Sys2Proof

/-- Settles O38: each operation of the X slot, by its encoding and by what stands for it: an address that is free, a window that is ready or the
cell's own, a predicate and the flit that arrives. -/
theorem memorySlots : Obligations.MemorySlots := by
  refine fun s t img cell ecc ups x r c => ⟨fun h => ?xnop, fun h hl => ?vlda, fun h hl => ?vsta, fun hp hl => ⟨fun h => ?vld, fun h => ?vst⟩,
    fun hp hr ha ho => ⟨fun h => ?sld, fun h => ?sst⟩,
    fun hd => ⟨fun h ho hn ⟨f, hf, hb⟩ => ?wrel, fun h ho hn => ?wgive⟩, ⟨fun h => ?send, fun h hon => ?recvOff, fun f h hon hf => ?recv⟩⟩
  case xnop => exact congrArg Host.Outcome.next (cellOp_done h (actX_xnop h.encodesX))
  case vlda => exact congrArg Host.Outcome.next (cellOp_done h ((actX_vlda h.encodesX).trans (loadLine_of_free hl)))
  case vsta => exact congrArg Host.Outcome.next (cellOp_done h ((actX_vsta h.encodesX).trans (storeLine_of_free hl)))
  case vld =>
    refine congrArg Host.Outcome.next (cellOp_done h ((actX_vld h.encodesX hp).trans ?_))
    rw [loadLine_of_free hl]
    rfl
  case vst =>
    refine congrArg Host.Outcome.next (cellOp_done h ((actX_vst h.encodesX hp).trans ?_))
    rw [storeLine_of_free hl]
    rfl
  case sld =>
    refine congrArg Host.Outcome.next (cellOp_done h ((actX_sldst h.encodesX.1).trans ((sldst_of_free hp hr ha ho).trans ?_)))
    rw [if_neg (Bool.eq_false_iff.1 h.encodesX.2)]
    rfl
  case sst =>
    refine congrArg Host.Outcome.next (cellOp_done h ((actX_sldst h.encodesX.1).trans ((sldst_of_free hp hr ha ho).trans ?_)))
    rw [if_pos h.encodesX.2, pokeWord_of_eight]
    rfl
  case wrel =>
    refine congrArg Host.Outcome.next (cellOp_done h ((actX_wrel h.encodesX).trans (wrelX_of_ready hd ho ?_ hf hb)))
    rwa [cellEnv_totals]
  case wgive =>
    refine congrArg Host.Outcome.next (cellOp_done h ((actX_wgive h.encodesX).trans (wgiveX_of_owned hd ho ?_)))
    rwa [cellEnv_totals]
  case send => exact congrArg Host.Outcome.next (cellOp_done h (actX_send h.encodesX))
  case recvOff => exact congrArg Host.Outcome.next (cellOp_done h ((actX_recv h.encodesX).trans (recvX_of_off hon)))
  case recv => exact congrArg Host.Outcome.next (cellOp_done h ((actX_recv h.encodesX).trans (recvX_of_flit hon hf)))

end Sys2Proof.Machine

/-! SUPPORT. Faults of a cell and the order of bundles (R218, R219, R224, R225, R233, R234): what a cell fault leaves, which slots are the cause of one,
and where a cell goes at the end of an issue cycle. -/
namespace Sys2Proof.Machine
open Sys2Proof

/-! ### Images and their cells -/

@[simp] theorem imageOf_setImage (s : State) (i : Nat) (x : Image) : imageOf (setImage s i x) i = some x := mget_mput_same _ _ _

theorem mget_mmod_same {α : Type} {m : SMap α} {k : Nat} {v : α} (h : mget m k = some v) (f : α → α) : mget (mmod m k f) k = some (f v) := by
  simp only [mmod, h, mget_mput_same]

theorem mget_mmod_other {α : Type} (m : SMap α) {k j : Nat} (h : j ≠ k) (f : α → α) : mget (mmod m k f) j = mget m j := by
  unfold mmod
  split
  · rfl
  · exact mget_mput_other _ _ _ _ h

/-! ### What a fault leaves -/

/-- A fault takes the cell back to where its issue cycle began and leaves the image's other cells alone (R219). -/
theorem imageOf_cellFault {s : State} {img cell : Nat} {x : Image} {r : Run} {c : Cell} (hx : imageOf s img = some x) (hr : x.run = some r)
    (hc : mget x.cells cell = some c) (fs : List (Nat × Option Nat)) :
    ∃ q, imageOf (cellFault s img cell fs) img =
      some { x.modCell cell (fun y => { y with cur := y.base, acted := [], faulted := true }) with run := some q } := by
  simp only [cellFault, hx, hr, hc, imageOf_setImage]
  exact ⟨_, rfl⟩

/-! ### What makes a bundle fault -/

section
variable {v : Env} {c : Cell} (hpc : c.base.seq.pc ≤ 4095) (he : (mget c.codeErr c.base.seq.pc).getD 0 < beyond)
  (hl : bundleLegal (c.bundle c.base.seq.pc) = true)
include hpc he hl

/-- Of a legal bundle read without error, a slot that it acts with and that faults is among the causes. -/
theorem mem_bundleFaults {slot f : Nat} (hn : (neededSlots (c.bundle c.base.seq.pc) c.base.seq.rep).contains slot = true)
    (ha : actSlot slot v c.base c.base (c.bundle c.base.seq.pc) = .fault f) : (f, some slot) ∈ bundleFaults v c := by
  simp only [bundleFaults, Nat.not_lt.2 hpc, Nat.not_le.2 he, hl, if_false, Bool.not_true, Bool.false_eq_true, List.mem_filterMap]
  exact ⟨slot, List.contains_iff_mem.1 hn, by rw [ha]⟩

end

/-- A slot of a cell that issues, of a bundle that has a cause to fault: the cell faults by all its causes (R218). -/
theorem cellOp_of_faults {s t0 : State} {img cell ecc slot op : Nat} {ups : List (Nat × Nat)} {x : Image} {r : Run} {c0 c : Cell}
    (hx : imageOf s img = some x) (hr : x.run = some r) (hs : r.inStep = true) (hf : x.freeze = none) (hc : mget x.cells cell = some c0)
    (hst : c0.base.seq.stopped = false) (hnf : c0.faulted = false) (hrd : readCode s img cell ecc c0 = (t0, c))
    (hn : (neededSlots (c.bundle c.base.seq.pc) c.base.seq.rep).contains slot = true)
    (ho : slotOp slot (c.bundle c.base.seq.pc) c.base.seq.rep = op) (ha : c.acted.contains slot = false)
    (hd : dueWrels { t0 with fresh := t0.fresh + 1 } x r = [])
    (hfs : bundleFaults (cellEnv { t0 with fresh := t0.fresh + 1 } x r cell c ups) c ≠ []) :
    cellOp img cell ecc ups slot op s =
      let t := { t0 with fresh := t0.fresh + 1 }
      endCycle (cellFault t img cell (bundleFaults (cellEnv t x r cell c ups) c)) img := by
  have hne := List.isEmpty_eq_false_iff.2 hfs
  simp only [cellOp, hx, hr, hc, hrd, hs, hf, hst, hnf, hn, ho, ha, hd, hne, Option.isSome_none, List.isEmpty_nil, bne_self_eq_false, Bool.not_true,
    Bool.not_false, Bool.or_self, Bool.false_eq_true, if_false, if_true]

/-! ### Operands that carry poison -/

section
variable {v : Env} {b k : Core} {w : Nat}

theorem cReg_of_poison (ht : (b.rs (bits w 16 5)).tag = true) (lat : Nat) (f : Nat → Nat → Nat) : cReg b k v w lat f = .fault fPoison := by
  simp only [cReg, ht, Bool.true_or, if_true]

theorem vBin_of_poison (ht : (b.rv (bits w 16 5)).tag = true) (lat : Nat) (f : Nat → Nat → Nat) : vBin b k v w lat f = .fault fPoison := by
  simp only [vBin, ht, Bool.true_or, if_true]

end

/-- A C slot that holds an operation other than CNOP acts with it, in the bundle's first repetition alone (R224). -/
theorem encodesC_of_slotOp {b rep op : Nat} (ho : slotOp 0 b rep = op) (h0 : op ≠ 0) : bEn b 0 = true ∧ rep = 0 ∧ bits (slotC b) 26 6 = op := by
  simp only [slotOp] at ho
  split at ho
  next h =>
    rw [Bool.and_eq_true, decide_eq_true_eq] at h
    exact ⟨h.1, h.2, ho⟩
  next => exact absurd ho.symm h0

theorem actSlot_C {v : Env} {b k : Core} {bundle : Nat} (he : bEn bundle 0 = true) (hn : v.n = 0) : actSlot 0 v b k bundle = actC v b k bundle := by
  simp only [actSlot, he, hn, decide_true, Bool.and_self, if_true]

theorem actC_add {v : Env} {b k : Core} {bundle : Nat} (h : bits (slotC bundle) 26 6 = 0x01) :
    actC v b k bundle = cReg b k v (slotC bundle) 1 (fun x y => x + y) := by
  simp only [actC, h]

theorem actV_vadd {v : Env} {b k : Core} {bundle : Nat} (h : bits (slotV bundle) 26 6 = 0x01) :
    actV v b k bundle = vBin b k v (slotV bundle) 4 f32Add := by
  simp only [actV, h]

/-! ### The end of an issue cycle -/

/-- No write that lands moves a cell in its code. -/
@[simp] theorem landWrite_seq (c : Core) (w : PWrite) : (landWrite c w).seq = c.seq := by
  unfold landWrite
  cases w.tgt with
  | s r m => dsimp only; split <;> rfl
  | p r m => dsimp only; split <;> rfl
  | v r m => rfl
  | acc a => rfl
  | lane e => rfl
  | set => rfl

theorem foldl_landWrite_seq (c : Core) (ws : List PWrite) : (ws.foldl landWrite c).seq = c.seq := by
  induction ws generalizing c with
  | nil => rfl
  | cons w ws ih => rw [List.foldl_cons, ih, landWrite_seq]

@[simp] theorem landAll_seq (c : Core) (cyc : Nat) : (landAll c cyc).seq = c.seq := foldl_landWrite_seq _ _

theorem step_seq_of_running {c : Cell} (hf : c.faulted = false) (hs : c.cur.seq.stopped = false) (cyc : Nat) :
    (c.step cyc).base.seq = seqNext c.cur.seq (c.bundle c.cur.seq.pc) := by
  simp only [Cell.step, landAll_seq, hf, hs, Bool.false_eq_true, if_false]

theorem loopEnd_of_other {pc : Nat} {ls : List CLoop} (h : ∀ l, ls.head? = some l → l.last ≠ pc) : loopEnd pc ls = (pc + 1, ls) := by
  cases ls with
  | nil => rfl
  | cons l ls => exact if_neg (h l rfl)

theorem loopEnd_of_left {pc : Nat} {l : CLoop} (ls : List CLoop) (h : l.last = pc) (hl : 0 < l.left) :
    loopEnd pc (l :: ls) = (l.first, { l with left := l.left - 1 } :: ls) := by
  simp only [loopEnd, h, hl, if_true]

theorem not_isJump_of_isLoop {b : Nat} (h : isLoop b = true) : isJump b = false := by
  simp only [isLoop, Bool.and_eq_true, decide_eq_true_eq] at h
  simp [isJump, h.2]

section
variable {q : Seq} {b : Nat}

theorem seqNext_of_repeat (hl : isLoop b = false) (h : q.rep < bRepeat b) : seqNext q b = { q with rep := q.rep + 1 } := by
  simp only [seqNext, hl, h, Bool.and_false, Bool.false_eq_true, if_false, if_true]

/-- The first cycle of a LOOP that is not repeated pushes its loop and goes on to the body (R233). -/
theorem seqNext_of_loop (hl : isLoop b = true) (h0 : q.rep = 0) (hr : bRepeat b = 0) (hs : bStop b = false) (hj : q.jump = none)
    (hn : 0 < bits (slotC b) 0 12) :
    seqNext q b = { q with pc := q.pc + 1, rep := 0,
                           loops := ⟨q.pc + 1, q.pc + bits (slotC b) 0 12, bits (slotC b) 12 14 - 1⟩ :: q.loops } := by
  have hbody : loopEnd q.pc (⟨q.pc + 1, q.pc + bits (slotC b) 0 12, bits (slotC b) 12 14 - 1⟩ :: q.loops) =
      (q.pc + 1, ⟨q.pc + 1, q.pc + bits (slotC b) 0 12, bits (slotC b) 12 14 - 1⟩ :: q.loops) :=
    loopEnd_of_other fun l hm => by
      cases hm
      exact Nat.ne_of_gt (Nat.lt_add_of_pos_right hn)
  simp only [seqNext, hl, h0, hr, hs, hj, not_isJump_of_isLoop hl, hbody, decide_true, Bool.and_self, Nat.lt_irrefl, Bool.false_eq_true, if_true, if_false]

variable (hl : isLoop b = false) (hr : bRepeat b ≤ q.rep)
include hl hr

theorem seqNext_of_stop (hs : bStop b = true) : seqNext q b = { q with rep := 0, stopped := true } := by
  simp only [seqNext, hl, Nat.not_lt.2 hr, hs, Bool.and_false, Bool.false_eq_true, if_false, if_true]

variable (hs : bStop b = false)
include hs

theorem seqNext_of_delay {d : Nat} (hj : q.jump = some d) : seqNext q b = { q with pc := d, rep := 0, jump := none } := by
  simp only [seqNext, hl, Nat.not_lt.2 hr, hs, hj, Bool.and_false, Bool.false_eq_true, if_false]

variable (hj : q.jump = none)
include hj

theorem seqNext_of_jump (h : isJump b = true) : seqNext q b = { q with pc := q.pc + 1, rep := 0, jump := some (bits (slotC b) 0 12) } := by
  simp only [seqNext, hl, Nat.not_lt.2 hr, hs, hj, h, Bool.and_false, Bool.false_eq_true, if_false, if_true]

theorem seqNext_of_plain (h : isJump b = false) :
    seqNext q b = { q with pc := (loopEnd q.pc q.loops).1, rep := 0, loops := (loopEnd q.pc q.loops).2 } := by
  simp only [seqNext, hl, Nat.not_lt.2 hr, hs, hj, h, Bool.and_false, Bool.false_eq_true, if_false]

/-- Where the innermost loop does not end on the bundle, the next one follows. -/
theorem seqNext_of_no_end (h : isJump b = false) (ho : ∀ l, q.loops.head? = some l → l.last ≠ q.pc) : seqNext q b = { q with pc := q.pc + 1, rep := 0 } := by
  rw [seqNext_of_plain hl hr hs hj h, loopEnd_of_other ho]

end

end Sys2Proof.Machine

/-! SETTLED. Cell faults and the order of bundles. -/
namespace Sys2Proof.Machine
open Sys2Proof

/-- Settles O39: what a fault leaves of the cell and of its image; a poisoned operand is a cause to fault, so the cell faults in place of the
slot; and the next bundle by repetition, STOP, JUMP and the innermost loop. -/
theorem cellFaultsAndOrder : Obligations.CellFaultsAndOrder := by
  refine ⟨⟨fun u img cell x r c fs hx hr hc => ?leaves, fun s t t0 img cell ecc slot x r c0 c => ?faults⟩, fun c cyc hf hs => ?order⟩
  case leaves =>
    obtain ⟨q, hq⟩ := imageOf_cellFault hx hr hc fs
    exact ⟨_, _, hq, mget_mmod_same hc _, rfl, fun n hn => mget_mmod_other _ hn _⟩
  case faults =>
    intro b fs hx hr hi hz hc hst hnf hrd ht hn ha hd hpc he hl
    subst ht
    have faulted (op : Nat) (ho : slotOp slot b c.base.seq.rep = op)
        (hact : actSlot slot (cellEnv { t0 with fresh := t0.fresh + 1 } x r cell c []) c.base c.base b = .fault fPoison) :
        (fPoison, some slot) ∈ fs ∧ (.next (cellOp img cell ecc [] slot op s) : Host.Outcome State Fault Refusal) =
          .next (endCycle (cellFault { t0 with fresh := t0.fresh + 1 } img cell fs) img) := by
      have hmem := mem_bundleFaults hpc he hl hn hact
      exact ⟨hmem, congrArg _ (cellOp_of_faults hx hr hi hz hc hst hnf hrd hn ho ha hd (List.ne_nil_of_mem hmem))⟩
    refine ⟨?add, ?vadd, ?sld⟩
    case add =>
      rintro rfl ho ht
      obtain ⟨hen, hrep, hop⟩ := encodesC_of_slotOp ho Nat.one_ne_zero
      exact faulted 1 ho ((actSlot_C hen hrep).trans ((actC_add hop).trans (cReg_of_poison ht _ _)))
    case vadd =>
      rintro rfl ho ht
      exact faulted 1 ho ((actV_vadd ho).trans (vBin_of_poison ht _ _))
    case sld =>
      rintro rfl ho ht
      have henc := encodesX_slotOp c.base.seq.rep (legalX_of_needs hl hn)
      rw [ho] at henc
      exact faulted 7 ho ((actX_sldst henc.1).trans (sldst_of_poison ht))
  case order =>
    rw [step_seq_of_running hf hs cyc]
    refine ⟨seqNext_of_repeat, fun hl hr => ⟨seqNext_of_stop hl hr, fun hst => ⟨fun d => seqNext_of_delay hl hr hst,
      seqNext_of_jump hl hr hst, fun hj hn => ⟨fun he => ?ends, fun l ls he => ⟨fun ho => ?inside, fun hlast hleft => ?again⟩⟩⟩⟩,
      seqNext_of_loop⟩
    case ends => exact seqNext_of_no_end hl hr hst hj hn (fun l hm => by rw [he] at hm; cases hm)
    case inside => exact seqNext_of_no_end hl hr hst hj hn (fun m hm => by rw [he] at hm; cases hm; exact ho)
    case again => rw [seqNext_of_plain hl hr hst hj hn, he, loopEnd_of_left ls hlast hleft]

end Sys2Proof.Machine

/-! SUPPORT. Running images (R207–R213, R220, R263–R270): a boundary by what it finds, a freeze by how it ends, and a transfer that is ready. -/
namespace Sys2Proof.Machine
open Sys2Proof

/-! ### Boundaries -/

/-- The state in which a boundary acts: it counts as dealt with (R263). -/
def boundaryMet (s : State) (img : Nat) (x : Image) (r : Run) : State := setImage s img { x with run := some { r with bound := r.bound + r.period } }

/-- What a boundary that has come makes of the running step, by what it finds (R263, R269). -/
def boundaryActs (t : State) (img : Nat) (x : Image) (r : Run) : State :=
  if !r.inStep then nextStep t img
  else if !(x.quiet r (r.bound + r.period)) then
    modImage (bump t Reg.fltImagesOverruns) img (fun x => { x with run := x.run.map (fun r => { r with skipped := r.skipped + 1, overrun := true }) })
  else if r.last then endRun t img .ok 0
  else nextStep (closeStep t img .ok false 0) img

section
variable {s : State} {img : Nat} {x : Image} {r : Run} (hx : imageOf s img = some x) (hr : x.run = some r)
include hx hr

theorem oneBoundary_of_early (h : r.launched = false ∨ tickOf s < r.bound + r.period) : oneBoundary img s = s := by
  rcases h with h | h <;> simp [oneBoundary, hx, hr, h]

/-- A boundary that has come acts, and leaves the firmware work of its tick to be done (R43). -/
theorem oneBoundary_of_due (hl : r.launched = true) (ht : r.bound + r.period ≤ tickOf s) :
    oneBoundary img s = modBow (boundaryActs (boundaryMet s img x r) img x r) (fun b => { b with edgeWork := true }) := by
  have hdue : (!r.launched || decide (tickOf s < r.bound + r.period)) = false := by simp [hl, ht]
  simp only [oneBoundary, hx, hr, hdue, Bool.false_eq_true, if_false]
  rfl

end

section
variable {t : State} {img : Nat} {x : Image} {r : Run}

theorem boundaryActs_of_between (hi : r.inStep = false) : boundaryActs t img x r = nextStep t img := by
  simp only [boundaryActs, hi, Bool.not_false, if_true]

variable (hi : r.inStep = true)
include hi

theorem boundaryActs_of_overrun (hq : x.quiet r (r.bound + r.period) = false) : boundaryActs t img x r =
    modImage (bump t Reg.fltImagesOverruns) img (fun x =>
      { x with run := x.run.map (fun r => { r with skipped := r.skipped + 1, overrun := true }) }) := by
  simp only [boundaryActs, hi, hq, Bool.not_true, Bool.not_false, Bool.false_eq_true, if_false, if_true]

variable (hq : x.quiet r (r.bound + r.period) = true)
include hq

theorem boundaryActs_of_last (hn : r.last = true) : boundaryActs t img x r = endRun t img .ok 0 := by
  simp only [boundaryActs, hi, hq, hn, Bool.not_true, Bool.false_eq_true, if_false, if_true]

theorem boundaryActs_of_more (hn : r.last = false) : boundaryActs t img x r = nextStep (closeStep t img .ok false 0) img := by
  simp only [boundaryActs, hi, hq, hn, Bool.not_true, Bool.false_eq_true, if_false]

end

/-! ### Freezes -/

/-- The state as a frozen image resumes in it after `n` Felt cycles: the late release and its cycles are counted (R212, R213, R220). -/
def thawed (s : State) (img : Nat) (x : Image) (r : Run) (n : Nat) : State :=
  setImage (bumpBy (bump s Reg.fltLateReleases) Reg.fltStallCycles n) img
    { x with freeze := none, run := some { r with late := r.late + 1, stall := r.stall + n } }

/-- When each transfer that a freeze waits for became ready. -/
def readyTimes (x : Image) (f : Freeze) : List (Option Nat) :=
  f.waits.map (fun w => (mget x.cells w.1).bind (fun c => (c.base.win w.2).ready))

/-- Folding to the least of a list that begins with its least. -/
theorem foldl_least {g : Option Nat → Nat → Option Nat} (hg : ∀ m c, g (some m) c = some (min m c)) {m : Nat} {l : List Nat}
    (h : ∀ c ∈ l, m ≤ c) : l.foldl g (some m) = some m := by
  induction l with
  | nil => rfl
  | cons c l ih =>
    obtain ⟨hc, hl⟩ := List.forall_mem_cons.1 h
    rw [List.foldl_cons, hg, Nat.min_eq_left hc, ih hl]

section
variable {s : State} {img : Nat} {x : Image} {r : Run} {f : Freeze} (hx : imageOf s img = some x) (hr : x.run = some r) (hf : x.freeze = some f)
include hx hr hf

theorem lateReleaseResume_of_ready (h : (readyTimes x f).all (·.isSome) = true) :
    lateReleaseResume img s = thawed s img x r (maxD f.felt ((readyTimes x f).map (fun o => o.getD 0 + 8)) - f.felt) := by
  have hall : (readyTimes x f).any (·.isNone) = false := by
    simpa only [List.any_eq_false, List.all_eq_true, Option.not_isNone, Option.isNone_eq_false_iff, Bool.not_eq_true] using h
  unfold readyTimes at *
  simp only [lateReleaseResume, hx, hr, hf, hall, Bool.false_eq_true, if_false]
  rfl

theorem feltWatchdog_of_late {cell : Nat} {rest : List Nat} (hw : f.waits.map (·.1) = cell :: rest) (hm : ∀ c ∈ rest, cell ≤ c)
    (h : f.tick + atLeast1 s Reg.fltCtrlWdogStall < tickOf s) :
    feltWatchdog img s = endCycle (cellFault (thawed s img x r (tickOf s * 1800 - f.felt)) img cell [(4, some 1)]) img := by
  simp only [feltWatchdog, hx, hr, hf, Nat.not_le.2 h, if_false, hw, List.foldl_cons]
  rw [foldl_least (fun _ _ => rfl) hm]
  rfl

end

/-! ### Transfers -/

/-- The transfers up to place `i` have moved, but for those that must wait for one not yet started. -/
def movedTo (x : Image) (i : Nat) : List Xfer := (x.xfers.take (i + 1)).map (fun t => { t with moved := t.moved || !(heldFill x t) })

/-- The state once those transfers have moved their bytes, in the order in which they started (R208). -/
def caughtUp (s : State) (img : Nat) (x : Image) (i : Nat) : State :=
  ((x.xfers.take (i + 1)).filter (fun t => !t.moved && !(heldFill x t))).foldl (fun s t => moveXfer s img t) s

/-- A transfer that is ready: it and those before it have moved their bytes, it leaves the list, and its window is ready (R207, R209). -/
theorem transferReady_of_found {s : State} {img c w felt i : Nat} {x y : Image} (hx : imageOf s img = some x)
    (hi : findIdx (fun (t : Xfer) => t.cell = c && t.win = w) x.xfers = some i) (hh : (x.xfers[i]?).any (heldFill x) = false)
    (hy : imageOf (caughtUp s img x i) img = some y) :
    transferReady img c w felt s = setImage (caughtUp s img x i) img
      ({ y with xfers := (movedTo y i).take i ++ y.xfers.drop (i + 1) }.modCell c (fun k => k.both (fun k => k.setWin w (fun w =>
        { w with ready := some felt })))) := by
  unfold caughtUp at *
  simp only [transferReady, hx, hi, hh, Bool.false_eq_true, if_false, hy]
  rfl

end Sys2Proof.Machine

/-! SETTLED. Boundaries, late releases, the watchdog and transfers. -/
namespace Sys2Proof.Machine
open Sys2Proof

/-- Settles O30: a boundary by whether its tick has come and by what it finds, a freeze by what ends it, and a transfer that is ready. -/
theorem runningImages : Obligations.RunningImages := by
  refine fun s img => ⟨fun x r hx hr => ⟨fun hl ht => ?boundary, fun h => ?early⟩,
    fun x r hx hr => ⟨fun f hf => ⟨fun h => ?resumes, fun cell rest hw h hm => ?watchdog⟩, fun c w felt i y hi hh hy => ?transfer⟩⟩
  case boundary =>
    have hacts : exec (.stepBoundary img) s = _ := congrArg Host.Outcome.next (oneBoundary_of_due hx hr hl ht)
    rw [hacts]
    refine ⟨fun hi => ?between, fun hi hq => ?overrun, fun hi hq hn => ?last, fun hi hq hn => ?more⟩
    case between => rw [boundaryActs_of_between hi]; rfl
    case overrun => rw [boundaryActs_of_overrun hi hq]; rfl
    case last => rw [boundaryActs_of_last hi hq hn]; rfl
    case more => rw [boundaryActs_of_more hi hq hn]; rfl
  case early => exact congrArg Host.Outcome.next (oneBoundary_of_early hx hr h)
  case resumes => exact congrArg Host.Outcome.next (lateReleaseResume_of_ready hx hr hf h)
  case watchdog => exact congrArg Host.Outcome.next (feltWatchdog_of_late hx hr hf hw hm h)
  case transfer => exact congrArg Host.Outcome.next (transferReady_of_found hx hi hh hy)

end Sys2Proof.Machine

/-! SUPPORT. What a slot of a cell acts with (R222–R224): the operation that each opcode of the C, M and V slots names, and what becomes of a slot
that is ready. -/
namespace Sys2Proof.Machine
open Sys2Proof

/-! ### Which operation an opcode names -/

/-- The operations of the C slot, but for those that act on the order of issue (R232, R235). -/
inductive ScalarOp : Nat → (Env → Core → Core → Nat → Act) → Prop
  | add : ScalarOp 0x01 (fun v b k w => cReg b k v w 1 (fun x y => x + y))
  | sub : ScalarOp 0x02 (fun v b k w => cReg b k v w 1 (fun x y => x + (2 ^ 64 - y)))
  | and : ScalarOp 0x03 (fun v b k w => cReg b k v w 1 (fun x y => x &&& y))
  | or : ScalarOp 0x04 (fun v b k w => cReg b k v w 1 (fun x y => x ||| y))
  | xor : ScalarOp 0x05 (fun v b k w => cReg b k v w 1 (fun x y => x ^^^ y))
  | shl : ScalarOp 0x06 (fun v b k w => cReg b k v w 1 (fun x y => x * 2 ^ (y % 64)))
  | shr : ScalarOp 0x07 (fun v b k w => cReg b k v w 1 (fun x y => x / 2 ^ (y % 64)))
  | sar : ScalarOp 0x08 (fun v b k w => cReg b k v w 1 (fun x y => sarNat x (y % 64)))
  | mul : ScalarOp 0x09 (fun v b k w => cReg b k v w 3 (fun x y => x * y))
  | mins : ScalarOp 0x0A (fun v b k w => cReg b k v w 1 (fun x y => if sx 64 x ≤ sx 64 y then x else y))
  | maxs : ScalarOp 0x0B (fun v b k w => cReg b k v w 1 (fun x y => if sx 64 x ≥ sx 64 y then x else y))
  | addi : ScalarOp 0x10 (fun v b k w => cImm b k v w (fun x i => x + ux 64 (sx 16 i)))
  | andi : ScalarOp 0x11 (fun v b k w => cImm b k v w (fun x i => x &&& i))
  | ori : ScalarOp 0x12 (fun v b k w => cImm b k v w (fun x i => x ||| i))
  | ldi0 : ScalarOp 0x13 (fun v _ k w => cLdi k v w 0)
  | ldi1 : ScalarOp 0x14 (fun v _ k w => cLdi k v w 1)
  | ldi2 : ScalarOp 0x15 (fun v _ k w => cLdi k v w 2)
  | ldi3 : ScalarOp 0x16 (fun v _ k w => cLdi k v w 3)
  | stsel : ScalarOp 0x22 (fun v _ k w => ok (issue k v 1 3 .set (bits w 0 4) false))

/-- The operations of the M slot (R236, R237). -/
inductive MatrixOp : Nat → (Env → Core → Core → Nat → Act) → Prop
  | mnop : MatrixOp 0 (fun _ _ k _ => ok k)
  | mma : MatrixOp 1 mma
  | mclr : MatrixOp 2 (fun v _ k w => ok (accWrite k v (bits w 24 3) accZero))
  | mrd : MatrixOp 3 mrd
  | mwr : MatrixOp 4 mwr

/-- The operations of the V slot (R238–R249). -/
inductive VectorOp : Nat → (Env → Core → Core → Nat → Act) → Prop
  | vnop : VectorOp 0 (fun _ _ k _ => ok k)
  | vadd : VectorOp 0x01 (fun v b k w => vBin b k v w 4 f32Add)
  | vsub : VectorOp 0x02 (fun v b k w => vBin b k v w 4 f32Sub)
  | vmul : VectorOp 0x03 (fun v b k w => vBin b k v w 4 f32Mul)
  | vfma : VectorOp 0x04 (fun v b k w => vTri b k v w f32Fma)
  | vfnma : VectorOp 0x05 (fun v b k w => vTri b k v w f32Fnma)
  | vmin : VectorOp 0x06 (fun v b k w => vBin b k v w 2 f32Min)
  | vmax : VectorOp 0x07 (fun v b k w => vBin b k v w 2 f32Max)
  | vcmp : VectorOp 0x08 vcmp
  | viadd : VectorOp 0x10 (fun v b k w => vBin b k v w 2 (fun x y => x + y))
  | visub : VectorOp 0x11 (fun v b k w => vBin b k v w 2 (fun x y => x + (2 ^ 32 - y)))
  | vimul : VectorOp 0x12 (fun v b k w => vBin b k v w 4 (fun x y => x * y))
  | vand : VectorOp 0x13 (fun v b k w => vBin b k v w 2 (fun x y => x &&& y))
  | vor : VectorOp 0x14 (fun v b k w => vBin b k v w 2 (fun x y => x ||| y))
  | vxor : VectorOp 0x15 (fun v b k w => vBin b k v w 2 (fun x y => x ^^^ y))
  | vshl : VectorOp 0x16 (fun v b k w => vBin b k v w 2 (fun x y => x * 2 ^ (y % 32)))
  | vshr : VectorOp 0x17 (fun v b k w => vBin b k v w 2 (fun x y => if w.testBit 0 then sar32 x (y % 32) else x / 2 ^ (y % 32)))
  | vsel : VectorOp 0x18 vsel
  | vbc : VectorOp 0x19 vbc
  | vget : VectorOp 0x1A vget
  | vput : VectorOp 0x1B vput
  | vrot : VectorOp 0x1C vrot
  | pset : VectorOp 0x1D pset
  | pget : VectorOp 0x1E pget
  | vcvt : VectorOp 0x20 vcvt
  | vrsc : VectorOp 0x22 vrsc
  | vamax : VectorOp 0x25 (fun _ => vamax)
  | vqenc : VectorOp 0x26 vqenc
  | vqdec : VectorOp 0x27 vqdec
  | xclr : VectorOp 0x30 (fun v _ k w => ok (xPut (fixForm k w) v w (exactZero (xWide w))))
  | xdot : VectorOp 0x31 (fun v b k w => xdot v b k w 0)
  | xsum : VectorOp 0x32 (fun v b k w => xdot v b k w 1)
  | xsqd : VectorOp 0x33 (fun v b k w => xdot v b k w 2)
  | xdotqQi8 : VectorOp 0x34 (fun v b k w => xdotq v b k w 9)
  | xdotqQi4 : VectorOp 0x35 (fun v b k w => xdotq v b k w 10)
  | xrnd : VectorOp 0x38 xrnd
  | xget : VectorOp 0x39 xget
  | xadd : VectorOp 0x3A xadd

section
variable {v : Env} {b k : Core} {bundle op : Nat} {act : Env → Core → Core → Nat → Act}

theorem actC_of_scalarOp (ho : ScalarOp op act) (h : bits (slotC bundle) 26 6 = op) : actC v b k bundle = act v b k (slotC bundle) := by
  cases ho <;> simp only [actC, h]

theorem actM_of_matrixOp (ho : MatrixOp op act) (h : bits (slotM bundle) 27 5 = op) : actM v b k bundle = act v b k (slotM bundle) := by
  cases ho <;> simp only [actM, h]

theorem actV_of_vectorOp (ho : VectorOp op act) (h : bits (slotV bundle) 26 6 = op) : actV v b k bundle = act v b k (slotV bundle) := by
  cases ho <;> simp only [actV, h]

theorem ScalarOp.ne_zero (ho : ScalarOp op act) : op ≠ 0 := by cases ho <;> decide

/-- A C slot with nothing to do in a repetition leaves the cell as it is (R224). -/
theorem actSlot_cnop (h : slotOp 0 bundle v.n = 0) : actSlot 0 v b k bundle = ok k := by
  cases he : bEn bundle 0 && decide (v.n = 0) with
  | true =>
    simp only [slotOp, he, if_true] at h
    simp only [actSlot, he, if_true, actC, h]
  | false => simp only [actSlot, he, Bool.false_eq_true, if_false]

theorem actC_loop (h : bits (slotC bundle) 26 6 = 0x20) (hl : loopOk b.seq bundle = true) : actC v b k bundle = ok k := by
  simp only [actC, h, hl, if_true]

theorem actC_jump (h : bits (slotC bundle) 26 6 = 0x21) (hj : jumpOk b.seq bundle v.delay = true) : actC v b k bundle = ok k := by
  simp only [actC, h, hj, if_true]

end

/-! ### Slots that are ready -/

section
variable {s t : State} {img cell ecc op : Nat} {ups : List (Nat × Nat)} {x : Image} {r : Run} {c : Cell} {k : Core}
  {act : Env → Core → Core → Nat → Act}

/-- A slot that is ready and whose operation is done goes on with `slotDone`. -/
theorem SlotReady.next_of_done {slot : Nat} (h : SlotReady s img cell ecc ups slot op x r t c)
    (ha : actSlot slot (cellEnv t x r cell c ups) c.base c.cur (c.bundle c.base.seq.pc) = ok k) :
    (.next (cellOp img cell ecc ups slot op s) : Host.Outcome State Fault Refusal) = .next (slotDone t img cell slot k []) :=
  congrArg Host.Outcome.next (cellOp_done h ha)

/-- A C slot that is ready with an operation other than CNOP is enabled and in its bundle's first repetition (R224), so its opcode acts. -/
theorem SlotReady.next_of_actC (h : SlotReady s img cell ecc ups 0 op x r t c) (h0 : op ≠ 0)
    (ha : bits (slotC (c.bundle c.base.seq.pc)) 26 6 = op →
      actC (cellEnv t x r cell c ups) c.base c.cur (c.bundle c.base.seq.pc) = ok k) :
    (.next (cellOp img cell ecc ups 0 op s) : Host.Outcome State Fault Refusal) = .next (slotDone t img cell 0 k []) := by
  obtain ⟨hen, hrep, hop⟩ := encodesC_of_slotOp h.holds h0
  exact h.next_of_done ((actSlot_C hen hrep).trans (ha hop))

theorem SlotReady.next_of_scalar (h : SlotReady s img cell ecc ups 0 op x r t c) (ho : ScalarOp op act)
    (ha : act (cellEnv t x r cell c ups) c.base c.cur (slotC (c.bundle c.base.seq.pc)) = ok k) :
    (.next (cellOp img cell ecc ups 0 op s) : Host.Outcome State Fault Refusal) = .next (slotDone t img cell 0 k []) :=
  h.next_of_actC ho.ne_zero fun hop => (actC_of_scalarOp ho hop).trans ha

theorem SlotReady.next_of_vector (h : SlotReady s img cell ecc ups 2 op x r t c) (ho : VectorOp op act)
    (ha : act (cellEnv t x r cell c ups) c.base c.cur (slotV (c.bundle c.base.seq.pc)) = ok k) :
    (.next (cellOp img cell ecc ups 2 op s) : Host.Outcome State Fault Refusal) = .next (slotDone t img cell 2 k []) :=
  h.next_of_done ((actV_of_vectorOp ho h.holds).trans ha)

theorem SlotReady.next_of_matrix (h : SlotReady s img cell ecc ups 3 op x r t c) (ho : MatrixOp op act)
    (ha : act (cellEnv t x r cell c ups) c.base c.cur (slotM (c.bundle c.base.seq.pc)) = ok k) :
    (.next (cellOp img cell ecc ups 3 op s) : Host.Outcome State Fault Refusal) = .next (slotDone t img cell 3 k []) :=
  h.next_of_done ((actM_of_matrixOp ho h.holds).trans ha)

end

/-! ### Operands that nothing stands against -/

/-- A slot goes past a check that finds nothing against it. -/
theorem act_past_check {g : Bool} {e : Nat} {a : Act} (h : g = false) : (if g then .fault e else a) = a := if_neg (Bool.eq_false_iff.1 h)

section
variable {v : Env} {b k : Core} {w lat : Nat}

theorem cReg_of_clean {f : Nat → Nat → Nat} (hx : (b.rs (bits w 16 5)).tag = false) (hy : (b.rs (bits w 11 5)).tag = false) :
    cReg b k v w lat f = cWrite k v lat (bits w 21 5) (f (b.rs (bits w 16 5)).val (b.rs (bits w 11 5)).val % 2 ^ 64) := by
  simp only [cReg, hx, hy, Bool.or_self, Bool.false_eq_true, if_false]

theorem cImm_of_clean {f : Nat → Nat → Nat} (hx : (b.rs (bits w 16 5)).tag = false) :
    cImm b k v w f = cWrite k v 1 (bits w 21 5) (f (b.rs (bits w 16 5)).val (bits w 0 16) % 2 ^ 64) := by
  simp only [cImm, hx, Bool.false_eq_true, if_false]

variable (hx : (b.rv (bits w 16 5)).tag = false) (hy : (b.rv (bits w 11 5)).tag = false) (hp : (vPred b w).tag = false)
include hx hy hp

theorem vBin_of_clean {f : Nat → Nat → Nat} : vBin b k v w lat f = ok (vWrite k v lat (bits w 21 5) (vPred b w).val
    (ofLanes (fun i => f (laneOf (b.rv (bits w 16 5)).val i) (laneOf (b.rv (bits w 11 5)).val i) % 2 ^ 32)) false) := by
  simp only [vBin, hx, hy, hp, Bool.or_self, Bool.false_eq_true, if_false]

theorem vTri_of_clean {f : Nat → Nat → Nat → Nat} (hz : (b.rv (bits w 6 5)).tag = false) :
    vTri b k v w f = ok (vWrite k v 4 (bits w 21 5) (vPred b w).val (ofLanes (fun i =>
      f (laneOf (b.rv (bits w 16 5)).val i) (laneOf (b.rv (bits w 11 5)).val i) (laneOf (b.rv (bits w 6 5)).val i))) false) := by
  simp only [vTri, hx, hy, hz, hp, Bool.or_self, Bool.false_eq_true, if_false]

end

/-- Where the elements of a conversion lie and which bits it writes, by the widths of its formats (R239): a widening one writes the whole register,
and a narrowing one its part `e` bits up. -/
theorem cvt_place (ws wd wideVal wideBits val bits e : Nat) :
    (if ws < wd then (wideVal, wideBits) else if ws = wd then (val, bits) else (val * 2 ^ e, bits * 2 ^ e)) =
      let off := if ws ≤ wd then 0 else e
      (if ws < wd then wideVal else val * 2 ^ off, if ws < wd then wideBits else bits * 2 ^ off) := by
  rcases Nat.lt_trichotomy ws wd with h | h | h
  · simp only [h, if_true]
  · simp only [h, Nat.lt_irrefl, Nat.le_refl, if_true, if_false, Nat.pow_zero, Nat.mul_one]
  · simp only [Nat.lt_asymm h, Nat.ne_of_gt h, Nat.not_le.2 h, if_false]

end Sys2Proof.Machine

/-! SETTLED. Scalar, matrix, vector and exact operations of a cell. -/
namespace Sys2Proof.Machine
open Sys2Proof

/-- Settles O31: two registers that carry no poison, and the operation that the opcode names. -/
theorem scalarRegisterSlots : Obligations.ScalarRegisterSlots := by
  intro s t img cell ecc x r c w p q ready puts _ _ hp hq
  have acts {op lat : Nat} {f : Nat → Nat → Nat} (ho : ScalarOp op (fun v b k w => cReg b k v w lat f)) (h : ready op) :
      (.next (cellOp img cell ecc [] 0 op s) : Host.Outcome State Fault Refusal) = .next (puts lat (f p.val q.val)) :=
    h.next_of_scalar ho (cReg_of_clean hp hq)
  -- What an operation computes comes from its row of `ScalarOp`, not from the goal.
  exact ⟨(acts .add :), (acts .sub :), (acts .and :), (acts .or :), (acts .xor :), (acts .shl :), (acts .shr :), (acts .sar :), (acts .mul :),
    (acts .mins :), (acts .maxs :)⟩

/-- Settles O32: an operation on an immediate where its register carries no poison, LOOP and JUMP where they may be taken, and the others always. -/
theorem scalarOtherSlots : Obligations.ScalarOtherSlots := by
  intro s t img cell ecc x r c b w p v ready puts part
  have imm {op : Nat} {f : Nat → Nat → Nat} (ho : ScalarOp op (fun v b k w => cImm b k v w f)) (hp : p.tag = false) (h : ready op) :
      (.next (cellOp img cell ecc [] 0 op s) : Host.Outcome State Fault Refusal) = .next (puts (f p.val (bits w 0 16))) :=
    h.next_of_scalar ho (cImm_of_clean hp)
  have ldi {op n : Nat} (ho : ScalarOp op (fun v _ k w => cLdi k v w n)) (h : ready op) :
      (.next (cellOp img cell ecc [] 0 op s) : Host.Outcome State Fault Refusal) = .next (part n) :=
    h.next_of_scalar ho rfl
  refine ⟨fun _ _ hp => ⟨(imm .addi hp :), (imm .andi hp :), (imm .ori hp :)⟩,
    fun _ _ => ⟨ldi .ldi0, ldi .ldi1, ldi .ldi2, ldi .ldi3, fun h hl => ?loop, fun h hj => ?jump, fun h => h.next_of_scalar .stsel rfl⟩,
    fun h => h.next_of_done (actSlot_cnop h.holds), fun h => h.next_of_done rfl⟩
  case loop => exact h.next_of_actC (by decide) fun hop => actC_loop hop hl
  case jump => exact h.next_of_actC (by decide) fun hop => actC_jump hop hj

/-- Settles O33: each operation by its opcode; an MMA of operands that carry no poison into an accumulator of its own kind, by its format. -/
theorem matrixSlots : Obligations.MatrixSlots := by
  intro s t img cell ecc x r c w v a p row ready done
  refine ⟨fun h => h.next_of_matrix .mnop rfl, fun h => h.next_of_matrix .mclr rfl, fun h => h.next_of_matrix .mrd rfl,
    fun h => h.next_of_matrix .mwr rfl, fun h => ?mma⟩
  case mma =>
    intro q f acc sa sb pairs hp hq ha hk
    have hkind : (acc.kind.isSome && acc.kind != some (!(intFmt f))) = false := by rcases hk with hk | hk <;> simp [hk]
    have hclean : (p.tag || q.tag || acc.tag) = false := by simp only [hp, hq, ha, Bool.or_self]
    exact ⟨fun hf => h.next_of_matrix .mma ((act_past_check hkind).trans ((act_past_check hclean).trans (if_pos hf))),
      fun hf => h.next_of_matrix .mma ((act_past_check hkind).trans ((act_past_check hclean).trans (if_neg (Bool.eq_false_iff.1 hf))))⟩

/-- Settles O34: lanes that carry no poison, and the operation that the opcode names. -/
theorem laneSlots : Obligations.LaneSlots := by
  intro s t img cell ecc x r c w p q z m ready lanes
  refine ⟨fun h => h.next_of_vector .vnop rfl, fun hp hq hm => ?_⟩
  have bin {op lat : Nat} {f : Nat → Nat → Nat → Nat} (ho : VectorOp op (fun v b k w => vBin b k v w lat (f w))) (h : ready op) :
      (.next (cellOp img cell ecc [] 2 op s) : Host.Outcome State Fault Refusal) = .next (lanes lat (fun a b _ => f w a b % 2 ^ 32)) :=
    h.next_of_vector ho (vBin_of_clean hp hq hm)
  have tri {op : Nat} {f : Nat → Nat → Nat → Nat} (ho : VectorOp op (fun v b k w => vTri b k v w f)) (hz : z.tag = false) (h : ready op) :
      (.next (cellOp img cell ecc [] 2 op s) : Host.Outcome State Fault Refusal) = .next (lanes 4 f) :=
    h.next_of_vector ho (vTri_of_clean hp hq hm hz)
  exact ⟨(bin .vadd :), (bin .vsub :), (bin .vmul :), (bin .vmin :), (bin .vmax :), (bin .viadd :), (bin .visub :), (bin .vimul :), (bin .vand :),
    (bin .vor :), (bin .vxor :), (bin .vshl :), (bin .vshr :), fun hz => ⟨tri .vfma hz, tri .vfnma hz⟩⟩

/-- Settles O35: a comparison of lanes that carry no poison; the others hand the poison of their operands on. -/
theorem laneMoveSlots : Obligations.LaneMoveSlots := by
  intro s t img cell ecc x r c w p q sa m n ready puts
  refine ⟨fun hp hq hm h => ?vcmp, fun h => h.next_of_vector .vsel rfl, fun h => h.next_of_vector .vbc rfl, fun h => h.next_of_vector .vget rfl,
    fun h => h.next_of_vector .vput rfl, fun h => h.next_of_vector .vrot rfl, fun h => h.next_of_vector .pset rfl,
    fun h => h.next_of_vector .pget rfl⟩
  case vcmp =>
    have hclean : (p.tag || q.tag || m.tag) = false := by simp only [hp, hq, hm, Bool.or_self]
    exact h.next_of_vector .vcmp (act_past_check hclean)

/-- Settles O36: past the checks of its operands each operation is done; a conversion's bits are placed by the widths of its formats. -/
theorem formatSlots : Obligations.FormatSlots := by
  intro s t img cell ecc x r c w v p q z m ready part done hp hm
  have hpm : (p.tag || m.tag) = false := by simp only [hp, hm, Bool.or_self]
  refine ⟨fun h => h.next_of_vector .vcvt ((act_past_check hpm).trans ?vcvt), fun h => h.next_of_vector .vamax (act_past_check hpm),
    fun hq => ?sided⟩
  case vcvt =>
    dsimp only
    rw [cvt_place]
    rfl
  case sided =>
    have hpqm : (p.tag || q.tag || m.tag) = false := by simp only [hp, hq, hm, Bool.or_self]
    intro code scale zero block
    refine ⟨fun hz => ?codes, ?vrsc⟩
    case codes =>
      have hzero : (!(zeroOk code zero)) = false := by rw [hz, Bool.not_true]
      refine ⟨fun h => h.next_of_vector .vqenc ((act_past_check hzero).trans ((act_past_check hpqm).trans ?vqenc)),
        fun h => h.next_of_vector .vqdec ((act_past_check hzero).trans (act_past_check hpqm))⟩
      case vqenc =>
        -- Whether the part is the block's first is a `Bool` of the model and a proposition of the statement.
        simp only [decide_eq_true_eq]
        rfl
    case vrsc =>
      intro four qi code zero h hzt h18 h6 hpart hz
      have hfields : (bits z.val 18 46 != 0 || bits z.val 6 2 != 0) = false := by rw [h18, h6]; rfl
      have hrange : ((!four && decide (part ≥ 4)) || !(zeroOk code zero)) = false := by rcases hpart with h4 | h4 <;> simp [h4, hz]
      have hclean : (p.tag || q.tag || z.tag || m.tag) = false := by simp only [hp, hq, hzt, hm, Bool.or_self]
      exact h.next_of_vector .vrsc ((act_past_check hfields).trans ((act_past_check hrange).trans (act_past_check hclean)))

/-- Settles O37: the lane has the form that the instruction names, and past the checks of its other operands each operation is done. -/
theorem exactSlots : Obligations.ExactSlots := by
  intro s t img cell ecc x r c w v p q sd sa m wd seen chain ps qs both ready done gains adds
  refine ⟨fun h => h.next_of_vector .xclr rfl, fun hf => ?_⟩
  have hform : (!(formOk c.cur w)) = false := by rw [hf, Bool.not_true]
  refine ⟨fun h => h.next_of_vector .xdot (act_past_check hform), fun h => ?xsum, fun h => h.next_of_vector .xsqd (act_past_check hform),
    fun h => h.next_of_vector .xget (act_past_check hform), fun h hdiv => ?xrnd, fun h htop h45 h96 => ?xadd, fun hs hside => ?xdotq⟩
  case xsum =>
    have hpoison : (p.tag || (1 != 1 && q.tag) || m.tag) = (p.tag || m.tag) := by rw [bne_self_eq_false, Bool.false_and, Bool.or_false]
    exact h.next_of_vector .xsum ((act_past_check hform).trans (congrArg (fun pois => ok (gains pois ps)) hpoison))
  case xrnd =>
    have hdivisor : (decide (bits w 0 3 = 1) && (decide (sa.val < 1) || decide (sa.val > 2 ^ 40))) = false := by
      rw [Bool.and_eq_false_imp]
      intro hmode
      obtain ⟨hlo, hhi⟩ := hdiv (of_decide_eq_true hmode)
      simp only [Nat.not_lt.2 hlo, Nat.not_lt.2 hhi, decide_false, Bool.or_self]
    exact h.next_of_vector .xrnd (act_past_check (Bool.or_eq_false_iff.2 ⟨hform, hdivisor⟩))
  case xadd =>
    have hcopy : (!(formOk c.cur w) || p.val / 2 ^ (wd + 128) != 0 || bits (bits p.val wd 128) 45 19 != 0 ||
        bits (bits p.val wd 128) 96 32 != 0) = false := by
      rw [hform, htop, h45, h96]
      rfl
    exact h.next_of_vector .xadd (act_past_check hcopy)
  case xdotq =>
    intro dec dots
    have hnarrow : (!(xWide w) && sd.val.testBit 304) = false := by rcases hside with h | h <;> simp [h]
    have hcodes {code : Nat} (hz : zeroOk code (sideZero sd.val) = true) :
        (!(formOk c.cur w) || !(scaleOk sd.val) || !(zeroOk code (sideZero sd.val)) || (!(xWide w) && sd.val.testBit 304)) = false := by
      rw [hform, hs, hz, hnarrow]
      rfl
    exact ⟨fun h hz => h.next_of_vector .xdotqQi8 (act_past_check (hcodes hz)),
      fun h hz => h.next_of_vector .xdotqQi4 (act_past_check (hcodes hz))⟩

end Sys2Proof.Machine

/-! SUPPORT. RUN and MOVE (R261, R262, R348, R349): the status of a RUN whose step-word entries are read and what then decides it, and the
checks that a MOVE passes before its pages are moved. -/
namespace Sys2Proof.Machine
open Sys2Proof

/-! ### RUN -/

/-- The step-word entries of a RUN, at most eight and in its tenant's window, read as `b` with no poison and in time, leaving `t` (R261). -/
structure RunRead (s : State) (w : Work) (t : State) (b : RdRes) : Prop where
  few : w.f 50 1 ≤ 8
  inside : w.f 50 1 = 0 ∨ inWindow s w.tenant (w.f 56 8) (16 * w.f 50 1) = true
  read : rdW s (w.f 56 8) (16 * w.f 50 1) = (t, b)
  clean : b.bad = false
  inTime : b.timeout = false

/-- The step-word entries among the bytes read. -/
def stepEntries (b : RdRes) : List (List Byte) := chunksOf 16 8 b.bytes

/-- The run of an accepted RUN stands in its image, and its launch in the schedule (R262). -/
def scheduleRun (t : State) (w : Work) (b : RdRes) : State :=
  schedAdd (modImage t (w.f 8 1) (fun x => { x with run := some (runNew w (stepEntries b)) })) (.launch (w.f 8 1)) (w.f 16 8) w

section
variable {s t : State} {id : Nat} {w : Work} {b : RdRes} (hw : WorkReady s id 7 w) (hr : RunRead s w t b)
include hw hr

/-- Once its entries are read, what decides a RUN is its status, then the Bow, then the schedule table (R262). -/
theorem run_of_read : run id s =
    if runStatus t w (w.f 8 1) (some (stepEntries b)) != .ok then complete t w (runStatus t w (w.f 8 1) (some (stepEntries b)))
    else if t.bow.st != .synced then complete (bump t Reg.tckStatusMissedRun) w .notSynchronised
    else if schedFull t then schedRefuse t w
    else scheduleRun t w b := by
  have hin : (decide (w.f 50 1 = 0) || inWindow s w.tenant (w.f 56 8) (16 * w.f 50 1)) = true := by
    rw [Bool.or_eq_true, decide_eq_true_eq]
    exact hr.inside
  simp only [run, onWork_ready hw, hin, decide_eq_true hr.few, hr.read, hr.clean, hr.inTime, Bool.and_self, Bool.false_and, Bool.or_self,
    Bool.not_false, Bool.and_true, Bool.false_eq_true, if_true, if_false, Option.getD_some]
  rfl

theorem run_of_refused (h : runStatus t w (w.f 8 1) (some (stepEntries b)) ≠ .ok) :
    run id s = complete t w (runStatus t w (w.f 8 1) (some (stepEntries b))) := by
  rw [run_of_read hw hr, if_pos (bne_iff_ne.2 h)]

variable (h : runStatus t w (w.f 8 1) (some (stepEntries b)) = .ok)
include h

theorem run_of_unsynced (hb : t.bow.st ≠ .synced) : run id s = complete (bump t Reg.tckStatusMissedRun) w .notSynchronised := by
  simp only [run_of_read hw hr, h, bne_self_eq_false, bne_iff_ne.2 hb, Bool.false_eq_true, if_false, if_true]

variable (hb : t.bow.st = .synced)
include hb

/-- A RUN that passes its checks on a synchronised node takes a schedule entry where one is free. -/
theorem run_of_synced : run id s = if schedFull t then schedRefuse t w else scheduleRun t w b := by
  simp only [run_of_read hw hr, h, hb, bne_self_eq_false, Bool.false_eq_true, if_false]

theorem run_of_full (hf : schedFull t = true) : run id s = schedRefuse t w := by
  rw [run_of_synced hw hr h hb, if_pos hf]

theorem run_of_room (hf : schedFull t = false) : run id s = scheduleRun t w b := by
  rw [run_of_synced hw hr h hb, if_neg (Bool.eq_false_iff.1 hf)]

end

/-! ### MOVE -/

/-- The sites that an operation of a MOVE may name (R349). -/
def MoveSite (op site : Nat) : Prop := op = 5 ∧ site ≤ 7 ∨ op = 1 ∧ (site ≤ 7 ∨ site = 0xFF) ∨ site = 0

/-- The fields of a MOVE are in their ranges (R349). -/
structure MoveFields (w : Work) : Prop where
  nonempty : 1 ≤ w.f 12 4
  few : w.f 12 4 ≤ 65536
  opLow : 1 ≤ w.f 16 1
  opHigh : w.f 16 1 ≤ 5
  site : MoveSite (w.f 16 1) (w.f 17 1)
  zero18 : zeroAt w.desc 18 6 = true
  zero32 : zeroAt w.desc 32 32 = true
  aligned : w.f 24 8 % 16 = 0

theorem MoveSite.not_bad {op site : Nat} (h : MoveSite op site) :
    (if op = 5 then decide (site > 7) else if op = 1 then decide (site > 7) && site != 0xFF else site != 0) = false := by
  rcases h with ⟨rfl, hs⟩ | ⟨rfl, hs | rfl⟩ | rfl
  · rw [if_pos rfl]
    exact decide_eq_false (Nat.not_lt.2 hs)
  · rw [if_neg (Nat.ne_of_beq_eq_false rfl), if_pos rfl, decide_eq_false (Nat.not_lt.2 hs), Bool.false_and]
  · rfl
  · by_cases h5 : op = 5
    · rw [if_pos h5]
      rfl
    · rw [if_neg h5]
      exact ite_self false

/-- The range of a MOVE and its record lie in its tenant's window (R348). -/
def moveInside (s : State) (w : Work) : Bool :=
  inWindow s w.tenant (w.f 8 4 * 65536) (w.f 12 4 * 65536) && inWindow s w.tenant (w.f 24 8) 16

/-- The pages that a MOVE names. -/
def movePages (w : Work) : List Nat := (List.range (w.f 12 4)).map (· + w.f 8 4)

/-- The pages of a MOVE are moved in order, its record is written, and it completes (R349). -/
def moveAll (s : State) (w : Work) (grants : List (Nat × Nat)) : State :=
  let m := (movePages w).foldl (movePage (w.f 16 1) (w.f 17 1)) (s, ⟨0, 0, 0, false⟩, grants)
  let st : Status := if m.2.1.full then .tableFull else .ok
  completeWith (resumeWaits m.1) w (w.f 24 8) (moveRecord m.2.1 st) st

section
variable {s : State} {id : Nat} {w : Work} (hw : WorkReady s id 8 w) (grants : List (Nat × Nat))
include hw

theorem moveDesc_of_no_pages (h : w.f 12 4 = 0) : moveDesc id grants s = complete s w .malformed := by
  simp only [moveDesc, onWork_ready hw, h, decide_true, Bool.true_or, if_true]

variable (hf : MoveFields w)
include hf

/-- A MOVE of good fields is decided by its window, then by whether a page of it must wait. -/
theorem moveDesc_of_fields : moveDesc id grants s =
    if !(moveInside s w) then complete s w .accessDenied
    else if (movePages w).any (moveWaits s (w.f 16 1) (w.f 17 1)) then s
    else moveAll s w grants := by
  simp only [moveDesc, onWork_ready hw, decide_eq_false (Nat.ne_of_gt hf.nonempty), decide_eq_false (Nat.not_lt.2 hf.few),
    decide_eq_false (Nat.ne_of_gt hf.opLow), decide_eq_false (Nat.not_lt.2 hf.opHigh), hf.site.not_bad, hf.zero18, hf.zero32, hf.aligned,
    bne_self_eq_false, Bool.not_true, Bool.or_self, Bool.false_eq_true, if_false, ← Bool.not_and]
  rfl

theorem moveDesc_of_outside (hi : moveInside s w = false) : moveDesc id grants s = complete s w .accessDenied := by
  rw [moveDesc_of_fields hw grants hf, hi, Bool.not_false, if_pos rfl]

variable (hi : moveInside s w = true)
include hi

theorem moveDesc_of_waiting (hp : (movePages w).any (moveWaits s (w.f 16 1) (w.f 17 1)) = true) : moveDesc id grants s = s := by
  simp only [moveDesc_of_fields hw grants hf, hi, hp, Bool.not_true, Bool.false_eq_true, if_false, if_true]

theorem moveDesc_of_ready (hp : (movePages w).any (moveWaits s (w.f 16 1) (w.f 17 1)) = false) :
    moveDesc id grants s = moveAll s w grants := by
  simp only [moveDesc_of_fields hw grants hf, hi, hp, Bool.not_true, Bool.false_eq_true, if_false]

end

end Sys2Proof.Machine

/-! SETTLED. RUN and MOVE. -/
namespace Sys2Proof.Machine
open Sys2Proof

/-- Settles O47: a RUN by what decides it once its entries are read, a MOVE of good fields by its window and its pages, and one of no pages. -/
theorem runAndMove : Obligations.RunAndMove := by
  refine fun s id w => ⟨fun t b hw hn hin hrd hbad hto => ?run, fun grants hw hc hc' ho ho' hsite hz hz' ha => ?move,
    fun grants hw h0 => congrArg Host.Outcome.next (moveDesc_of_no_pages hw grants h0)⟩
  case run =>
    have hr : RunRead s w t b := ⟨hn, hin, hrd, hbad, hto⟩
    exact ⟨fun h => congrArg Host.Outcome.next (run_of_refused hw hr h),
      fun h hb => congrArg Host.Outcome.next (run_of_unsynced hw hr h hb),
      fun h hb hfull => congrArg Host.Outcome.next (run_of_full hw hr h hb hfull),
      fun h hb hroom => congrArg Host.Outcome.next (run_of_room hw hr h hb hroom)⟩
  case move =>
    have hf : MoveFields w := ⟨hc, hc', ho, ho', hsite, hz, hz', ha⟩
    exact ⟨fun hi => congrArg Host.Outcome.next (moveDesc_of_outside hw grants hf hi),
      fun hi hp => congrArg Host.Outcome.next (moveDesc_of_waiting hw grants hf hi hp),
      fun hi hp => congrArg Host.Outcome.next (moveDesc_of_ready hw grants hf hi hp)⟩

end Sys2Proof.Machine

/-! SUPPORT. Images and role profiles (R258–R262, R269, R273): a LOAD by the check that decides it, what UNLOAD and STOP_RUN do to an image
of the issuer's, when an event leaves the schedule, and a ROLE that is kept. -/
namespace Sys2Proof.Machine
open Sys2Proof

section
variable {s t : State} {id : Nat} {w : Work} {op : List Byte}

/-! ### LOAD -/

/-- What a LOAD does on the outcome of its checks, once the fences are applied (R258, R259): the record of a refusal, or a slot. -/
def loadChecked (v : State) (w : Work) (rc : Nat) : LoadRes → State
  | .refuse st n => failLoad (if n ≥ 8 then applyFences v else v) w rc st n
  | .accept x =>
    match mfree (applyFences v).felt.images 16 with
    | none => let r := freeVal v; failLoad r.1 w rc .tableFull (r.2 % 256)
    | some k => completeWith (loadPrograms (setImage (applyFences v) k x) k x.kettle) w rc (loadRecord .ok 0 k x.blocks x.budget) .ok

theorem loadChecked_refuse (v : State) (w : Work) (rc : Nat) (st : Status) (n : Nat) :
    loadChecked v w rc (.refuse st n) = failLoad (if n ≥ 8 then applyFences v else v) w rc st n := rfl

theorem loadChecked_of_slot {v : State} {k : Nat} (w : Work) (rc : Nat) (x : Image) (hk : mfree (applyFences v).felt.images 16 = some k) :
    loadChecked v w rc (.accept x) =
      completeWith (loadPrograms (setImage (applyFences v) k x) k x.kettle) w rc (loadRecord .ok 0 k x.blocks x.budget) .ok := by
  simp only [loadChecked, hk]

/-- A LOAD whose operand is ready meets no crossing alignment after a Felt-only reset, and not sixteen images (R258, R468). -/
structure LoadReady (s : State) (id : Nat) (w : Work) (t : State) (op : List Byte) : Prop where
  operand : AdminReady s id 0x20 16 false w t op
  aligned : s.bow.align = none ∨ s.bow.alignFelt = false
  room : t.felt.images.length < 16

section
variable (h : LoadReady s id w t op)
include h

theorem LoadReady.past_alignment : (s.bow.align.isSome && s.bow.alignFelt) = false := by
  rcases h.aligned with ha | ha
  · rw [ha, Option.isSome_none, Bool.false_and]
  · rw [ha, Bool.and_false]

theorem load_of_outside (hi : inWindow t w.tenant (getLE op 0 8) 128 = false ∨ inWindow t w.tenant (getLE op 8 8) 16 = false) :
    load id s = failLoad t w (getLE op 8 8) .accessDenied 1 := by
  have hout : (!(inWindow t w.tenant (getLE op 0 8) 128) || !(inWindow t w.tenant (getLE op 8 8) 16)) = true := by
    rcases hi with hi | hi
    · rw [hi, Bool.not_false, Bool.true_or]
    · rw [hi, Bool.not_false, Bool.or_true]
  simp only [load, h.past_alignment, onAdminF_ready h.operand, ge_iff_le, Nat.not_le.2 h.room, hout, Bool.false_eq_true, if_false, if_true]

variable {u : State} {hd : RdRes} (ha : inWindow t w.tenant (getLE op 0 8) 128 = true) (hc : inWindow t w.tenant (getLE op 8 8) 16 = true)
  (hrd : rdW t (getLE op 0 8) 128 = (u, hd))
include ha hc hrd

theorem load_of_image_outside (hi : inWindow u w.tenant (getLE op 0 8) (imLength hd.bytes) = false) :
    load id s = failLoad u w (getLE op 8 8) .accessDenied 1 := by
  simp only [load, h.past_alignment, onAdminF_ready h.operand, ge_iff_le, Nat.not_le.2 h.room, ha, hc, hrd, hi, Bool.not_true, Bool.not_false,
    Bool.or_self, Bool.false_eq_true, if_false, if_true]

variable (hi : inWindow u w.tenant (getLE op 0 8) (imLength hd.bytes) = true)
include hi

/-- An image at an odd place, with its record at an odd place, or of a length that no image has. -/
theorem load_of_misplaced
    (hm : getLE op 0 8 % 16 ≠ 0 ∨ getLE op 8 8 % 16 ≠ 0 ∨ imLength hd.bytes < 256 ∨ 2 ^ 30 < imLength hd.bytes) :
    load id s = failLoad u w (getLE op 8 8) .malformed 2 := by
  have hbad : (getLE op 0 8 % 16 != 0 || getLE op 8 8 % 16 != 0 || decide (imLength hd.bytes < 256) || decide (imLength hd.bytes > 2 ^ 30))
      = true := by
    simp only [Bool.or_eq_true, bne_iff_ne, decide_eq_true_eq, gt_iff_lt, or_assoc]
    exact hm
  simp only [load, h.past_alignment, onAdminF_ready h.operand, ge_iff_le, Nat.not_le.2 h.room, ha, hc, hrd, hi, hbad, Bool.not_true,
    Bool.or_self, Bool.false_eq_true, if_false, if_true]

/-- An image that is read with no poison and in time is decided by the checks of its content. -/
theorem load_of_read {v : State} {b : RdRes} (ha16 : getLE op 0 8 % 16 = 0) (hc16 : getLE op 8 8 % 16 = 0) (hlo : 256 ≤ imLength hd.bytes)
    (hhi : imLength hd.bytes ≤ 2 ^ 30) (hrb : rdW u (getLE op 0 8) (imLength hd.bytes) = (v, b)) (hbad : b.bad = false)
    (hto : b.timeout = false) : load id s =
      loadChecked v w (getLE op 8 8) (checkImage (applyFences v) b.bytes w.tenant false) := by
  simp only [load, h.past_alignment, onAdminF_ready h.operand, ge_iff_le, Nat.not_le.2 h.room, ha, hc, hrd, hi, ha16, hc16,
    decide_eq_false (Nat.not_lt.2 hlo), decide_eq_false (Nat.not_lt.2 hhi), hrb, hbad, hto, bne_self_eq_false, Bool.not_true, Bool.or_self,
    Bool.false_eq_true, if_false]
  generalize checkImage (applyFences v) b.bytes w.tenant false = c
  cases c with
  | refuse st n => rfl
  | accept x => rfl

end

/-! ### UNLOAD and STOP_RUN -/

section
variable (h : AdminReady s id 0x21 1 false w t op)
include h

theorem unload_of_foreign (hx : ownImage t w (getLE op 0 1) = none) : unload id s = complete t w .malformed := by
  simp only [unload, onAdmin_ready h, hx]

variable {x : Image} (hx : ownImage t w (getLE op 0 1) = some x) (hu : x.unload = none)
include hx hu

theorem unload_of_idle (hr : x.run = none) : unload id s = complete (dropImage t (getLE op 0 1)) w .ok := by
  simp only [unload, onAdmin_ready h, hx, hu, hr, Option.isSome_none, Bool.false_eq_true, if_false]

theorem unload_of_running {r : Run} (hr : x.run = some r) : unload id s =
    beginWork (setImage t (getLE op 0 1) { x with unload := some w.id, run := some { r with stopReq := true } }) w.id := by
  simp only [unload, onAdmin_ready h, hx, hu, hr, Option.isSome_none, Bool.false_eq_true, if_false]

end

theorem stopRun_of_own (h : AdminReady s id 0x22 1 false w t op) {x : Image} (hx : ownImage t w (getLE op 0 1) = some x) : stopRun id s =
    complete (setImage t (getLE op 0 1) { x with run := x.run.map (fun r => { r with stopReq := true }) }) w .ok := by
  simp only [stopRun, onAdmin_ready h, hx]

/-! ### WITHDRAW -/

section
variable (h : AdminReady s id 0x23 8 false w t op) (hz : zeroAt op 2 2 = true) (hm : adminMay w (queueTenant (getLE op 0 2)) = true)
  {e : SchedEvt} (he : t.bow.sched.find? (fun e => e.queue = getLE op 0 2 && e.seq = getLE op 4 4) = some e)
include h hz hm he

/-- An event that is prepared, or whose preparation tick has come, stays (R262). -/
theorem withdraw_of_near (hn : e.prepared = true ∨ e.tick ≤ tickOf t + 4) : withdraw id s = complete t w .busy := by
  have hnear : (e.prepared || decide (tickOf t + 4 ≥ e.tick)) = true := by
    rw [Bool.or_eq_true, decide_eq_true_eq]
    exact hn
  simp only [withdraw, onAdmin_ready h, hz, hm, he, hnear, Bool.not_true, Bool.false_eq_true, if_false, if_true]

theorem withdraw_of_commit (hp : e.prepared = false) (ht : tickOf t + 4 < e.tick) {i sh : Nat} (hk : e.kind = .commit i sh) :
    withdraw id s = complete (completeId (schedFree t (fun f => f = e)) e.work .fenced) w .ok := by
  simp only [withdraw, onAdmin_ready h, hz, hm, he, hp, ge_iff_le, decide_eq_false (Nat.not_le.2 ht), hk, Bool.not_true, Bool.or_self,
    Bool.false_eq_true, if_false]

end

/-! ### ROLE -/

section
variable (h : AdminReady s id 0x24 16 false w t op) (hp : getLE op 0 1 ≤ 2) (hz : zeroAt op 1 7 = true)
  (hn : tickNear t (getLE op 8 8) = false) (hf : tickFar t (getLE op 8 8) = false)
include h hp hz hn hf

/-- A ROLE of good fields waits for its tick unless another ROLE waits already (R273). -/
theorem role_of_checked : role id s =
    if t.felt.role.isSome then complete t w .busy
    else beginWork (setF (setF (setF (modFelt t (fun f => { f with role := some (getLE op 0 1, getLE op 8 8, w.id) })) Reg.fltRolePending 1)
      Reg.fltRoleNext (getLE op 0 1)) Reg.fltRoleTickTick (getLE op 8 8)) w.id := by
  simp only [role, onAdmin_ready h, gt_iff_lt, decide_eq_false (Nat.not_lt.2 hp), hz, hn, hf, Bool.not_true, Bool.or_self,
    Bool.false_eq_true, if_false]

theorem role_of_pending (hr : t.felt.role ≠ none) : role id s = complete t w .busy := by
  rw [role_of_checked h hp hz hn hf, if_pos (Option.isSome_iff_ne_none.2 hr)]

theorem role_of_free (hr : t.felt.role = none) : role id s =
    beginWork (setF (setF (setF (modFelt t (fun f => { f with role := some (getLE op 0 1, getLE op 8 8, w.id) })) Reg.fltRolePending 1)
      Reg.fltRoleNext (getLE op 0 1)) Reg.fltRoleTickTick (getLE op 8 8)) w.id := by
  simp only [role_of_checked h hp hz hn hf, hr, Option.isSome_none, Bool.false_eq_true, if_false]

end

end

end Sys2Proof.Machine

/-! SETTLED. Images and role profiles. -/
namespace Sys2Proof.Machine
open Sys2Proof

/-- Settles O51: a LOAD by where it and its record lie, by its length and by its checks, then each other command by what it finds. -/
theorem imageCommands : Obligations.ImageCommands := by
  refine fun s id w t op => ⟨fun h hal hlen => ?load, fun h => ⟨fun hx => ?foreign, fun x hx hu => ⟨fun hr => ?idle, fun r hr => ?running⟩⟩,
    fun h x hx => ?stopRun, fun h hz hm e he => ⟨fun hn => ?near, fun i sh hp ht hk => ?commit⟩,
    fun h hp hz hn hf => ⟨fun hr => ?pending, fun hr => ?free⟩⟩
  case load =>
    have hl : LoadReady s id w t op := ⟨h, hal, hlen⟩
    refine ⟨fun hi => congrArg Host.Outcome.next (load_of_outside hl hi), fun u hd ha hc hrd =>
      ⟨fun hi => congrArg Host.Outcome.next (load_of_image_outside hl ha hc hrd hi),
        fun hi hm => congrArg Host.Outcome.next (load_of_misplaced hl ha hc hrd hi hm), fun v b hi ha16 hc16 hlo hhi hrb hbad hto => ?read⟩⟩
    have hread : load id s = loadChecked v w (getLE op 8 8) (checkImage (applyFences v) b.bytes w.tenant false) :=
      load_of_read hl ha hc hrd hi ha16 hc16 hlo hhi hrb hbad hto
    refine ⟨fun st n hk => congrArg Host.Outcome.next ?refused, fun x k hk hfree => congrArg Host.Outcome.next ?accepted⟩
    case refused => rw [hread, hk, loadChecked_refuse]
    case accepted => rw [hread, hk, loadChecked_of_slot w _ x hfree]
  case foreign => exact congrArg Host.Outcome.next (unload_of_foreign h hx)
  case idle => exact congrArg Host.Outcome.next (unload_of_idle h hx hu hr)
  case running => exact congrArg Host.Outcome.next (unload_of_running h hx hu hr)
  case stopRun => exact congrArg Host.Outcome.next (stopRun_of_own h hx)
  case near => exact congrArg Host.Outcome.next (withdraw_of_near h hz hm he hn)
  case commit => exact congrArg Host.Outcome.next (withdraw_of_commit h hz hm he hp ht hk)
  case pending => exact congrArg Host.Outcome.next (role_of_pending h hp hz hn hf hr)
  case free => exact congrArg Host.Outcome.next (role_of_free h hp hz hn hf hr)

end Sys2Proof.Machine

/-! SUPPORT. Accesses past a stack's end, refreshes and the visits of the scrubbers (R276, R280, R281, R318, R319). -/
namespace Sys2Proof.Machine
open Sys2Proof

/-- An access of a stack goes on, or it is of a stack that answers and past the stack's end. -/
theorem inStack_goesOn_or (s : State) (site addr len : Nat) (k : State) :
    goesOn (inStack s site addr len k) = true ∨
      inStack s site addr len k = .fault (.noSuchWord site (addr / 16)) ∧ siteUp s site = true ∧ siteBytes s site < addr + len := by
  cases hu : siteUp s site with
  | false => exact .inl (by rw [inStack_of_down hu]; rfl)
  | true =>
    rcases Nat.lt_or_ge (siteBytes s site) (addr + len) with h | h
    · exact .inr ⟨inStack_of_beyond hu h k, rfl, h⟩
    · exact .inl (by rw [inStack_of_inside h]; rfl)

theorem refresh_of_fenced {s : State} {site : Nat} (hf : siteFenced s site = true) (pc : Nat) : refresh site pc s = s := by
  simp only [refresh, hf, Bool.not_true, Bool.and_false, Bool.false_and, Bool.false_eq_true, if_false]

theorem refresh_of_trained {s : State} {site pc : Nat} (hs : site < 8) (hp : pc < 32) (hf : siteFenced s site = false)
    (hv : s.power.vddMgmt = true) (ht : s.power.tripped = false) (hr : 5 ≤ getF s Reg.rstStatusStep ∨ s.power.fromStep = 2) :
    refresh site pc s = emit s (.refresh site pc (siteHot s site)) := by
  have htrained : (decide (getF s Reg.rstStatusStep ≥ 5) || decide (s.power.fromStep = 2)) = true := by
    simpa only [Bool.or_eq_true, decide_eq_true_eq] using hr
  simp only [refresh, hs, hp, hf, hv, ht, htrained, decide_true, Bool.not_false, Bool.and_self, if_true]

theorem scrubLineVisit_of_idle {s : State} {n : Nat} (h : flagF s (Reg.intScrubEn.ix n) = false ∨ (mget s.integ.budget n).getD 0 = 0)
    (ups : List (Nat × Nat × Nat)) : scrubLineVisit n ups s = s := by
  rcases h with h | h
  · simp only [scrubLineVisit, h, Bool.not_false, Bool.or_true, if_true]
  · simp only [scrubLineVisit, h, decide_true, Bool.or_true, Bool.true_or, if_true]

theorem scrubLineVisit_of_budget {s : State} {n b : Nat} (hu : ringUp s = true) (hn : n ≤ 3) (he : flagF s (Reg.intScrubEn.ix n) = true)
    (hb : mget s.integ.budget n = some (b + 1)) (ups : List (Nat × Nat × Nat)) : scrubLineVisit n ups s =
      let t := modInteg s (fun i => { i with budget := mput i.budget n b })
      if n < 2 then scrubSite t n ups else scrubSram t n ups := by
  simp only [scrubLineVisit, hu, he, hb, gt_iff_lt, Nat.not_lt.2 hn, Option.getD_some, Nat.succ_ne_zero, Nat.add_sub_cancel, decide_false,
    Bool.not_true, Bool.or_self, Bool.false_eq_true, if_false]

end Sys2Proof.Machine

/-! SUPPORT. Codewords as bytes (R302–R306): what is stored for a word has 18 positions, each a byte. -/
namespace Sys2Proof.Machine
open Sys2Proof

theorem gfDouble_lt {b : Nat} (h : b < 256) : gfDouble b < 256 :=
  (by decide +kernel : ∀ b : Fin 256, gfDouble b < 256) ⟨b, h⟩

theorem gfMulAux_lt (k : Nat) {a r : Nat} (b : Nat) (ha : a < 256) (hr : r < 256) : gfMulAux k a b r < 256 := by
  induction k generalizing a b r with
  | zero => exact hr
  | succ k ih =>
    refine ih _ (gfDouble_lt ha) ?_
    split
    · exact Nat.xor_lt_two_pow (n := 8) hr ha
    · exact hr

theorem gfMul_lt {a : Nat} (b : Nat) (ha : a < 256) : gfMul a b < 256 := gfMulAux_lt 8 b ha (by decide)

theorem foldl_xor_lt {d : List Nat} (hd : ∀ b ∈ d, b < 256) : d.foldl (· ^^^ ·) 0 < 256 :=
  List.foldlRecOn (motive := (· < 256)) d _ (by decide) fun _ ha b hb => Nat.xor_lt_two_pow (n := 8) ha (hd b hb)

theorem synd1_lt {d : List Nat} (hd : ∀ b ∈ d, b < 256) : synd1 d < 256 := by
  induction d with
  | nil => decide
  | cons b d ih =>
    obtain ⟨hb, hd⟩ := List.forall_mem_cons.1 hd
    exact Nat.xor_lt_two_pow (n := 8) hb (gfDouble_lt (ih hd))

/-- The check bytes of a word are bytes (R303), and those of its poisoned form (R305). -/
theorem encodeWord_eq {d : List Nat} (hd : ∀ b ∈ d, b < 256) :
    ∃ c0 c1, c0 < 256 ∧ c1 < 256 ∧ encodeWord d = c0 :: c1 :: d ∧ poisonWord d = (c0 ^^^ 0x0A) :: (c1 ^^^ 0x0B) :: d := by
  have hp := foldl_xor_lt hd
  have hq := gfDouble_lt (gfDouble_lt (synd1_lt hd))
  have hc := gfMul_lt (gfPow 230) (Nat.xor_lt_two_pow (n := 8) hp hq)
  exact ⟨_, _, Nat.xor_lt_two_pow (n := 8) hp hc, hc, rfl, rfl⟩

theorem storedOf_length (bad : Bool) (d : List Byte) : (storedOf bad d).length = d.length + 2 := by
  cases bad
  · exact congrArg (· + 2) (List.length_map _)
  · exact congrArg (· + 2) (List.length_map _)

theorem storedOf_lt {bad : Bool} {d : List Byte} : ∀ b ∈ storedOf bad d, b < 256 := by
  have hd : ∀ b ∈ d.map (·.toNat), b < 256 := List.forall_mem_map.2 fun b _ => b.isLt
  obtain ⟨c0, c1, h0, h1, he, hp⟩ := encodeWord_eq hd
  cases bad with
  | false =>
    change ∀ b ∈ encodeWord _, b < 256
    rw [he]
    exact List.forall_mem_cons.2 ⟨h0, List.forall_mem_cons.2 ⟨h1, hd⟩⟩
  | true =>
    change ∀ b ∈ poisonWord _, b < 256
    rw [hp]
    exact List.forall_mem_cons.2 ⟨Nat.xor_lt_two_pow (n := 8) h0 (by decide),
      List.forall_mem_cons.2 ⟨Nat.xor_lt_two_pow (n := 8) h1 (by decide), hd⟩⟩

theorem correctWord_length (w : Codeword) : (correctWord w).length = w.length := by
  unfold correctWord
  split
  · exact List.length_modify ..
  · rfl

theorem wordData_length {w : Codeword} (h : w.length = 18) : (wordData w).length = 16 := by
  rw [wordData, List.length_map, List.length_drop, correctWord_length, h]

theorem putAt_length (bs : List Byte) (off : Nat) (v : List Byte) : (putAt bs off v).length = bs.length := by
  simp only [putAt, List.length_append, List.length_take, List.length_drop]
  omega

end Sys2Proof.Machine

/-! SUPPORT. The words of a stack (R276, R279, R310–R314): what a store, a line's mark and a line's first write leave of every word, and which
lines they leave written. -/
namespace Sys2Proof.Machine
open Sys2Proof

/-! ### Logs and counters -/

section
variable (s : State)

@[simp] theorem bump_dram (f : Fld) : (bump s f).dram = s.dram := rfl

@[simp] theorem msixRaise_dram (fn e : Nat) : (msixRaise s fn e).dram = s.dram := by
  unfold msixRaise
  simp only [apply_ite State.dram, emit_dram, setMsix, ite_self]

@[simp] theorem crownEvent_dram (code sev data : Nat) : (crownEvent s code sev data).dram = s.dram := by
  unfold crownEvent
  split
  · rfl
  · rfl

@[simp] theorem cxlEvent_dram (sev : Nat) (general : Bool) (code data : Nat) : (cxlEvent s sev general code data).dram = s.dram := by
  unfold cxlEvent
  simp only [apply_ite State.dram, msixRaise_dram, ite_self]

@[simp] theorem intLog_dram (kind place pos unit addr : Nat) : (intLog s kind place pos unit addr).dram = s.dram := by
  unfold intLog
  simp only [apply_ite State.dram, cxlEvent_dram, crownEvent_dram, bump_dram, ite_self]

@[simp] theorem logCorrected_dram (place pos unit addr : Nat) : (logCorrected s place pos unit addr).dram = s.dram := by
  simp only [logCorrected, apply_ite State.dram, intLog_dram, ite_self]

end

/-! ### Stored words -/

theorem mget_filter {α : Type} (p : Nat → Bool) (m : SMap α) (k : Nat) :
    mget (m.filter (fun e => p e.1)) k = if p k then mget m k else none := by
  induction m with
  | nil => exact (ite_self _).symm
  | cons e m ih =>
    obtain ⟨i, v⟩ := e
    by_cases hik : i = k
    · subst hik
      by_cases hp : p i
      · simp only [List.filter_cons, hp, mget, if_true]
      · simp only [List.filter_cons, hp, ih, Bool.false_eq_true, if_false]
    · by_cases hp : p i
      · simp only [List.filter_cons, hp, mget, hik, ih, if_true, if_false]
      · simp only [List.filter_cons, hp, mget, hik, ih, Bool.false_eq_true, if_false]

theorem memGet_filter (p : Nat → Bool) (m : List Host.Cell) (k : Nat) :
    memGet (m.filter (fun e => p e.1)) k = if p k then memGet m k else 0 := by
  rw [memGet, mget_filter]
  split
  · rfl
  · rfl

theorem rawWord_length (s : State) (i w : Nat) : (rawWord s i w).length = 18 := by
  rw [rawWord, List.length_map, List.length_range]

theorem rawWord_congr {s t : State} (h : t.dram.cells = s.dram.cells) (i w : Nat) : rawWord t i w = rawWord s i w := by
  rw [rawWord, rawWord, h]

theorem rawWord_of_memGet {s t : State} {i j w v : Nat}
    (h : ∀ p < 18, memGet t.dram.cells (cellKey i w p) = memGet s.dram.cells (cellKey j v p)) : rawWord t i w = rawWord s j v :=
  List.map_congr_left fun p hp => congrArg BitVec.toNat (h p (List.mem_range.1 hp))

theorem memGet_putRaw (s : State) (i w : Nat) (c : Codeword) (k : Nat) : memGet (putRaw s i w c).dram.cells k =
    if cellKey i w 0 ≤ k ∧ k < cellKey i w 0 + c.length then (c.map (BitVec.ofNat 8)).getD (k - cellKey i w 0) 0
    else memGet s.dram.cells k := by
  rw [putRaw, memGet_memPuts, List.length_map]

theorem rawWord_putRaw_same (s : State) (i w : Nat) {c : Codeword} (hl : c.length = 18) (hc : ∀ b ∈ c, b < 256) :
    rawWord (putRaw s i w c) i w = c := by
  refine List.ext_getElem (by rw [rawWord_length, hl]) fun p h1 h2 => ?_
  have hkey : cellKey i w p = cellKey i w 0 + p := by rw [cellKey, cellKey, Nat.add_zero]
  simp only [rawWord, List.getElem_map, List.getElem_range]
  rw [memGet_putRaw, hkey, if_pos ⟨Nat.le_add_right _ _, by omega⟩, Nat.add_sub_cancel_left,
    List.getD_eq_getElem?_getD, List.getElem?_map, List.getElem?_eq_getElem h2, Option.map_some, Option.getD_some, BitVec.toNat_ofNat]
  exact Nat.mod_eq_of_lt (hc _ (List.getElem_mem h2))

theorem rawWord_putRaw_other (s : State) {i j w v : Nat} {c : Codeword} (hl : c.length = 18) (hw : w < 2 ^ 33) (hv : v < 2 ^ 33)
    (h : j ≠ i ∨ v ≠ w) : rawWord (putRaw s i w c) j v = rawWord s j v := by
  refine rawWord_of_memGet fun p hp => ?_
  rw [memGet_putRaw, hl, if_neg]
  simp only [cellKey]
  omega

theorem lostWord_length : lostWord.length = 18 := by
  rw [lostWord, List.length_cons, List.length_cons, List.length_replicate]

/-! ### Lines -/

theorem mem_sinsert {m : List Nat} {k a : Nat} : a ∈ sinsert m k ↔ a = k ∨ a ∈ m := by
  induction m with
  | nil => simp only [sinsert, List.mem_singleton, List.not_mem_nil, or_false]
  | cons i m ih =>
    simp only [sinsert]
    split
    · simp only [List.mem_cons]
    · split
      next h => rw [h, List.mem_cons, or_self_left]
      next => simp only [List.mem_cons, ih, or_left_comm]

theorem isWritten_iff {s : State} {i l : Nat} : isWritten s i l = true ↔ lineKey i l ∈ s.dram.written := List.contains_iff_mem

/-- What words put into the lines `ls` of a site leave: every mark, and every word of another line. -/
structure OutsideKept (s t : State) (i : Nat) (ls : List Nat) : Prop where
  written : t.dram.written = s.dram.written
  badMap : t.dram.badMap = s.dram.badMap
  raw : ∀ j w, w < 2 ^ 33 → j ≠ i ∨ w / 16 ∉ ls → rawWord t j w = rawWord s j w

theorem OutsideKept.putRaw {s t : State} {i l k : Nat} {ls : List Nat} {c : Codeword} (h : OutsideKept s t i ls) (hc : c.length = 18)
    (hl : l ∈ ls) (hl29 : l < 2 ^ 29) (hk : k < 16) : OutsideKept s (putRaw t i (l * 16 + k) c) i ls where
  written := h.written
  badMap := h.badMap
  raw j w hw ho := by
    refine (rawWord_putRaw_other t hc (by omega) hw (ho.imp_right fun hnot he => hnot ?_)).trans (h.raw j w hw ho)
    rwa [show w / 16 = l by omega]

/-- Words put into every place of some lines. -/
theorem OutsideKept.foldl_putRaw (s : State) {i : Nat} {ls : List Nat} {c : Codeword} (hc : c.length = 18) (hls : ∀ l ∈ ls, l < 2 ^ 29) :
    OutsideKept s (ls.foldl (fun t l => (List.range 16).foldl (fun t k => Machine.putRaw t i (l * 16 + k) c) t) s) i ls :=
  List.foldlRecOn (motive := (OutsideKept s · i ls)) ls _ ⟨rfl, rfl, fun _ _ _ _ => rfl⟩ fun _ ht l hl =>
    List.foldlRecOn (motive := (OutsideKept s · i ls)) (List.range 16) _ ht fun _ ht _ hk =>
      ht.putRaw hc hl (hls l hl) (List.mem_range.1 hk)

/-- The lines that the map word of a line covers and that are not written: those that its loss spoils (R314). -/
def unwrittenBeside (s : State) (i l : Nat) : List Nat :=
  ((List.range 128).map (· + l / 128 * 128)).filter (fun m => !(isWritten s i m))

/-- Those lines with words that fail their check in every place. -/
def spoilBeside (s : State) (i l : Nat) : State :=
  (unwrittenBeside s i l).foldl (fun t l => (List.range 16).foldl (fun t k => putRaw t i (l * 16 + k) lostWord) t) s

theorem mem_unwrittenBeside {s : State} {i l m : Nat} : m ∈ unwrittenBeside s i l ↔ m / 128 = l / 128 ∧ isWritten s i m = false := by
  simp only [unwrittenBeside, List.mem_filter, List.mem_map, List.mem_range, Bool.not_eq_true', and_congr_left_iff]
  refine fun _ => ⟨?_, fun h => ⟨m - l / 128 * 128, ?_, ?_⟩⟩
  · rintro ⟨k, hk, rfl⟩
    omega
  · omega
  · omega

theorem markWritten_of_mapped {s : State} {i l : Nat} (h : mapBad s i l = false) :
    markWritten s i l = { s with dram := { s.dram with written := sinsert s.dram.written (lineKey i l) } } := by
  simp only [markWritten, h, Bool.false_eq_true, if_false]

theorem markWritten_of_lost {s : State} {i l : Nat} (h : mapBad s i l = true) : markWritten s i l =
    let t := spoilBeside s i l
    { t with dram := { t.dram with
        written := (unwrittenBeside s i l).foldl (fun w l => sinsert w (lineKey i l)) t.dram.written,
        badMap := t.dram.badMap.filter (· != mapKey i l) } } := by
  simp only [markWritten, h, if_true]
  rfl

theorem mem_foldl_sinsert {ls m : List Nat} {f : Nat → Nat} {a : Nat} :
    a ∈ ls.foldl (fun w l => sinsert w (f l)) m ↔ a ∈ m ∨ ∃ l ∈ ls, a = f l := by
  induction ls generalizing m with
  | nil => simp only [List.foldl_nil, List.not_mem_nil, false_and, exists_false, or_false]
  | cons l ls ih => simp only [List.foldl_cons, ih, mem_sinsert, List.mem_cons, or_and_right, exists_or, exists_eq_left, or_assoc, or_left_comm]

section
variable {s : State} {i l : Nat}

/-- A mark of a line whose map word is not lost changes no word. -/
theorem rawWord_markWritten_of_mapped (hb : mapBad s i l = false) (j w : Nat) : rawWord (markWritten s i l) j w = rawWord s j w := by
  rw [markWritten_of_mapped hb]
  rfl

theorem badMap_markWritten (h : s.dram.badMap = []) : (markWritten s i l).dram.badMap = [] := by
  rw [markWritten_of_mapped (by rw [mapBad, h]; rfl)]
  exact h

variable (hl : l < 2 ^ 29)
include hl

theorem spoilBeside_kept : OutsideKept s (spoilBeside s i l) i (unwrittenBeside s i l) :=
  OutsideKept.foldl_putRaw s lostWord_length fun m hm => by
    obtain ⟨hg, -⟩ := mem_unwrittenBeside.1 hm
    omega

/-- A mark changes no word but those that a lost map word spoils with it (R312, R314). -/
theorem rawWord_markWritten {j w : Nat} (hw : w < 2 ^ 33) (h : j ≠ i ∨ isWritten s i (w / 16) = true ∨ w / 16 / 128 ≠ l / 128) :
    rawWord (markWritten s i l) j w = rawWord s j w := by
  cases hb : mapBad s i l with
  | false => exact rawWord_markWritten_of_mapped hb j w
  | true =>
    rw [markWritten_of_lost hb]
    refine (spoilBeside_kept hl).raw j w hw (h.imp_right fun h hm => ?_)
    obtain ⟨hg, hn⟩ := mem_unwrittenBeside.1 hm
    rcases h with h | h
    · exact Bool.false_ne_true (hn.symm.trans h)
    · exact h hg

/-- A mark leaves its line written, and every line that was. -/
theorem isWritten_markWritten {m : Nat} (h : m = l ∨ isWritten s i m = true) : isWritten (markWritten s i l) i m = true := by
  rw [isWritten_iff]
  cases hb : mapBad s i l with
  | false =>
    rw [markWritten_of_mapped hb]
    exact mem_sinsert.2 (h.imp (congrArg (lineKey i)) isWritten_iff.1)
  | true =>
    rw [markWritten_of_lost hb]
    refine mem_foldl_sinsert.2 ?_
    rw [(spoilBeside_kept hl).written, ← isWritten_iff]
    cases hw : isWritten s i m with
    | true => exact .inl rfl
    | false =>
      obtain rfl : m = l := h.resolve_right (Bool.eq_false_iff.1 hw)
      exact .inr ⟨m, mem_unwrittenBeside.2 ⟨rfl, hw⟩, rfl⟩

end

theorem memGet_clearLine (s : State) (i l k : Nat) : memGet (clearLine s i l).dram.cells k =
    if cellKey i (l * 16) 0 ≤ k ∧ k < cellKey i (l * 16 + 16) 0 then 0 else memGet s.dram.cells k := by
  refine (memGet_filter (fun k => !(decide (cellKey i (l * 16) 0 ≤ k) && decide (k < cellKey i (l * 16 + 16) 0))) _ k).trans ?_
  simp only [Bool.not_eq_true', ← Bool.not_eq_true, Bool.and_eq_true, decide_eq_true_eq, ite_not]

theorem rawWord_clearLine_same (s : State) (i : Nat) {l w : Nat} (hw : w / 16 = l) : rawWord (clearLine s i l) i w = List.replicate 18 0 := by
  refine List.eq_replicate_iff.2 ⟨rawWord_length _ _ _, fun b hb => ?_⟩
  obtain ⟨p, hp, rfl⟩ := List.mem_map.1 hb
  have hp := List.mem_range.1 hp
  rw [memGet_clearLine, if_pos]
  · rfl
  · simp only [cellKey]
    omega

theorem rawWord_clearLine_other (s : State) {i j l w : Nat} (hl : l < 2 ^ 29) (hw : w < 2 ^ 33) (h : j ≠ i ∨ w / 16 ≠ l) :
    rawWord (clearLine s i l) j w = rawWord s j w := by
  refine rawWord_of_memGet fun p hp => ?_
  rw [memGet_clearLine, if_neg]
  simp only [cellKey]
  omega

/-! ### Pieces of a write -/

/-- One piece of a write, into a line whose first write it is or into one that reads as written (R279, R312, R315). -/
def putPiece (fresh : Bool) (s : State) (i w off : Nat) (bs : List Byte) (pois : Bool) : State :=
  (if fresh then writeFresh else writeWord) s i w off bs pois

theorem seenWord_length (s : State) (i w : Nat) : (seenWord s i w).length = 18 := by
  unfold seenWord
  split
  · exact rawWord_length s i w
  · split
    · exact lostWord_length
    · exact List.length_replicate

theorem putRaw_dram_congr {s t : State} (h : t.dram = s.dram) (i w : Nat) (c : Codeword) : (putRaw t i w c).dram = (putRaw s i w c).dram := by
  rw [putRaw, putRaw, h]

/-- A narrow write puts the word as the class read has it (R315). -/
theorem writeNarrow_dram (s : State) (i w off : Nat) (bs : List Byte) (pois : Bool) :
    ∃ bad, (writeNarrow s i w off bs pois).dram = (putRaw s i w (storedOf bad (putAt (wordData (seenWord s i w)) off bs))).dram := by
  cases hc : classify (seenWord s i w) with
  | clean =>
    simp only [writeNarrow, hc]
    exact ⟨pois, rfl⟩
  | corrected p =>
    simp only [writeNarrow, hc]
    exact ⟨pois, putRaw_dram_congr (by simp only [logCorrected_dram, bump_dram]) ..⟩
  | poison =>
    simp only [writeNarrow, hc, intLog_dram, bump_dram]
    exact ⟨true, rfl⟩
  | uncorrectable =>
    simp only [writeNarrow, hc, intLog_dram, bump_dram]
    exact ⟨true, rfl⟩

/-- A piece puts one word into its stack, whose line is marked with it where the write is not its first. -/
theorem putPiece_dram (fresh : Bool) (s : State) (i w off : Nat) (bs : List Byte) (pois : Bool) : ∃ c : Codeword, c.length = 18 ∧
    (putPiece fresh s i w off bs pois).dram = (putRaw (if fresh then s else markWritten s i (w / 16)) i w c).dram := by
  cases fresh with
  | true => exact ⟨_, by rw [storedOf_length, putAt_length]; rfl, rfl⟩
  | false =>
    by_cases hbs : bs.length = 16
    · refine ⟨storedOf pois bs, by rw [storedOf_length, hbs], ?_⟩
      simp only [putPiece, writeWord, writeInto, hbs, Bool.false_eq_true, if_false, if_true]
      rfl
    · obtain ⟨bad, hbad⟩ := writeNarrow_dram (markWritten s i (w / 16)) i w off bs pois
      refine ⟨_, by rw [storedOf_length, putAt_length, wordData_length (seenWord_length _ _ _)], Eq.trans ?_ hbad⟩
      simp only [putPiece, writeWord, writeInto, hbs, Bool.false_eq_true, if_false]

/-- A piece that covers its word stores it freshly encoded, or in the poisoned form (R305, R306). -/
theorem rawWord_putPiece_whole (fresh : Bool) (s : State) (i w : Nat) {bs : List Byte} (hbs : bs.length = 16) (pois : Bool) :
    rawWord (putPiece fresh s i w 0 bs pois) i w = storedOf pois bs := by
  have hl : (storedOf pois bs).length = 18 := by rw [storedOf_length, hbs]
  cases fresh with
  | true =>
    have hput : putAt (zeros 16) 0 bs = bs := by
      simp only [putAt, zeros, hbs, List.length_replicate, List.take_zero, List.nil_append, Nat.sub_zero, Nat.zero_add, List.drop_replicate,
        Nat.sub_self, List.replicate_zero, List.append_nil]
      exact List.take_of_length_le (Nat.le_of_eq hbs)
    simp only [putPiece, writeFresh, hput, if_true]
    exact rawWord_putRaw_same s i w hl storedOf_lt
  | false =>
    simp only [putPiece, writeWord, writeInto, writeWhole, hbs, Bool.false_eq_true, if_false, if_true]
    exact rawWord_putRaw_same _ i w hl storedOf_lt

section
variable {fresh : Bool} {s : State} {i w off : Nat} {bs : List Byte} {pois : Bool} (hw : w < 2 ^ 33)

theorem badMap_putPiece (h : s.dram.badMap = []) : (putPiece fresh s i w off bs pois).dram.badMap = [] := by
  obtain ⟨c, -, hc⟩ := putPiece_dram fresh s i w off bs pois
  rw [hc]
  cases fresh
  · exact badMap_markWritten h
  · exact h

include hw

/-- A piece leaves every written line written. -/
theorem isWritten_putPiece {m : Nat} (h : isWritten s i m = true) : isWritten (putPiece fresh s i w off bs pois) i m = true := by
  obtain ⟨c, -, hc⟩ := putPiece_dram fresh s i w off bs pois
  rw [isWritten, hc]
  cases fresh with
  | false => exact isWritten_markWritten (by omega) (.inr h)
  | true => exact h

/-- A piece leaves its own line written, where a first write of the line came before. -/
theorem isWritten_putPiece_same (hf : fresh = true → isWritten s i (w / 16) = true) :
    isWritten (putPiece fresh s i w off bs pois) i (w / 16) = true := by
  cases fresh with
  | true => exact isWritten_putPiece hw (hf rfl)
  | false =>
    obtain ⟨c, -, hc⟩ := putPiece_dram false s i w off bs pois
    rw [isWritten, hc]
    exact isWritten_markWritten (by omega) (.inl rfl)

/-- A piece changes no other word of a written line, and none that another map word covers. -/
theorem rawWord_putPiece {j v : Nat} (hv : v < 2 ^ 33) (hne : j ≠ i ∨ v ≠ w)
    (h : j ≠ i ∨ isWritten s i (v / 16) = true ∨ v / 16 / 128 ≠ w / 16 / 128) :
    rawWord (putPiece fresh s i w off bs pois) j v = rawWord s j v := by
  obtain ⟨c, hl, hc⟩ := putPiece_dram fresh s i w off bs pois
  rw [rawWord_congr (congrArg Dram.cells hc), rawWord_putRaw_other _ hl hw hv hne]
  cases fresh with
  | false => exact rawWord_markWritten (by omega) hv h
  | true => rfl

/-- Where no map word is lost a piece changes no other word. -/
theorem rawWord_putPiece_of_mapped (hb : s.dram.badMap = []) {j v : Nat} (hv : v < 2 ^ 33) (hne : j ≠ i ∨ v ≠ w) :
    rawWord (putPiece fresh s i w off bs pois) j v = rawWord s j v := by
  obtain ⟨c, hl, hc⟩ := putPiece_dram fresh s i w off bs pois
  rw [rawWord_congr (congrArg Dram.cells hc), rawWord_putRaw_other _ hl hw hv hne]
  cases fresh with
  | false => exact rawWord_markWritten_of_mapped (by rw [mapBad, hb]; rfl) j v
  | true => rfl

end

/-! ### First writes -/

section
variable {s : State} {i l : Nat}

theorem badMap_firstWrite (h : s.dram.badMap = []) : (firstWrite s i l).dram.badMap = [] := badMap_markWritten h

theorem rawWord_firstWrite_same {w : Nat} (hw : w / 16 = l) : rawWord (firstWrite s i l) i w = List.replicate 18 0 :=
  rawWord_clearLine_same _ i hw

variable (hl : l < 2 ^ 29)
include hl

theorem isWritten_firstWrite {m : Nat} (h : m = l ∨ isWritten s i m = true) : isWritten (firstWrite s i l) i m = true :=
  isWritten_markWritten hl h

/-- A line's first write changes no word that another map word covers. -/
theorem rawWord_firstWrite {j w : Nat} (hw : w < 2 ^ 33) (h : j ≠ i ∨ w / 16 / 128 ≠ l / 128) :
    rawWord (firstWrite s i l) j w = rawWord s j w :=
  (rawWord_clearLine_other _ hl hw (h.imp_right fun hg he => hg (congrArg (· / 128) he))).trans (rawWord_markWritten hl hw (h.imp_right .inr))

/-- Where no map word is lost a line's first write changes no word of another line. -/
theorem rawWord_firstWrite_of_mapped (hb : s.dram.badMap = []) {j w : Nat} (hw : w < 2 ^ 33) (h : j ≠ i ∨ w / 16 ≠ l) :
    rawWord (firstWrite s i l) j w = rawWord s j w :=
  (rawWord_clearLine_other _ hl hw h).trans (rawWord_markWritten_of_mapped (by rw [mapBad, hb]; rfl) j w)

end

/-! ### How a write is cut -/

theorem mem_wordPieces {f a : Nat} {bs : List Byte} {p : Nat × Nat × List Byte} (h : p ∈ wordPieces f a bs) :
    a / 16 ≤ p.1 ∧ 16 * p.1 < a + bs.length := by
  induction f generalizing a bs with
  | zero => exact absurd h List.not_mem_nil
  | succ f ih =>
    cases bs with
    | nil => exact absurd h List.not_mem_nil
    | cons b bs =>
      rw [List.length_cons]
      rcases List.mem_cons.1 h with rfl | h
      · exact ⟨Nat.le_refl _, by simp only; omega⟩
      · have := ih h
        rw [List.length_drop, List.length_cons] at this
        omega

/-- A word that a write covers whole is one of its pieces, and every later piece is of a higher word. -/
theorem wordPieces_split {f a w : Nat} {bs : List Byte} (hf : bs.length < f) (ha : a ≤ 16 * w) (hw : 16 * w + 16 ≤ a + bs.length) :
    ∃ l1 l2, wordPieces f a bs = l1 ++ (w, 0, (bs.drop (16 * w - a)).take 16) :: l2 ∧ ∀ p ∈ l2, w < p.1 := by
  induction f generalizing a bs with
  | zero => exact absurd hf (Nat.not_lt_zero _)
  | succ f ih =>
    cases bs with
    | nil =>
      rw [List.length_nil] at hw
      omega
    | cons b bs =>
      rw [List.length_cons] at hf hw
      have hcut : wordPieces (f + 1) a (b :: bs) =
        (a / 16, a % 16, (b :: bs).take (16 - a % 16)) :: wordPieces f (a + (16 - a % 16)) ((b :: bs).drop (16 - a % 16)) := rfl
      by_cases hfirst : w = a / 16
      · have h16 : a % 16 = 0 := by omega
        refine ⟨[], wordPieces f (a + 16) ((b :: bs).drop 16), ?cut, fun p hp => ?later⟩
        case cut =>
          rw [hcut, List.nil_append, h16, show 16 * w - a = 0 by omega, hfirst]
          rfl
        case later =>
          have := mem_wordPieces hp
          omega
      · have hlen : ((b :: bs).drop (16 - a % 16)).length = bs.length + 1 - (16 - a % 16) := by rw [List.length_drop, List.length_cons]
        obtain ⟨l1, l2, he, hl2⟩ := ih (a := a + (16 - a % 16)) (bs := (b :: bs).drop (16 - a % 16)) (by omega) (by omega) (by omega)
        refine ⟨(a / 16, a % 16, (b :: bs).take (16 - a % 16)) :: l1, l2, ?_, hl2⟩
        rw [hcut, he, List.drop_drop, show 16 - a % 16 + (16 * w - (a + (16 - a % 16))) = 16 * w - a by omega]
        rfl

/-- The lines of the words that bytes at an address touch. -/
theorem mem_linesOf_bytes {a n l : Nat} (hn : 0 < n) :
    l ∈ linesOf (a / 16) ((a % 16 + n + 15) / 16) ↔ a / 256 ≤ l ∧ l ≤ (a + n - 1) / 256 := by
  rw [linesOf, if_neg (by omega)]
  simp only [List.mem_map, List.mem_range]
  refine ⟨?_, fun h => ⟨l - a / 16 / 16, by omega, by omega⟩⟩
  rintro ⟨k, hk, rfl⟩
  omega

end Sys2Proof.Machine

/-! SUPPORT. A whole write of a stack (R279, R312, R314, R315): the first writes of its fresh lines, then its pieces. -/
namespace Sys2Proof.Machine
open Sys2Proof

/-- The lines that a write touches for the first time. -/
def freshLines (s : State) (i a : Nat) (bs : List Byte) : List Nat :=
  (linesOf (a / 16) ((a % 16 + bs.length + 15) / 16)).filter (lineFresh s i)

/-- A stack with the fresh lines of a write written, zero but for the bytes to come. -/
def openLines (s : State) (i a : Nat) (bs : List Byte) : State :=
  (freshLines s i a bs).foldl (fun t l => firstWrite t i l)
    ((linesOf (a / 16) ((a % 16 + bs.length + 15) / 16)).foldl (fun t _ => bump t (Reg.mcWritesLines.ix i)) s)

/-- One piece of a write whose fresh lines are written. -/
def writePiece (fresh : List Nat) (i a : Nat) (pois : List Nat) (t : State) (p : Nat × Nat × List Byte) : State :=
  putPiece (fresh.contains (p.1 / 16)) t i p.1 p.2.1 p.2.2 (pois.contains (p.1 - a / 16))

/-- What the write of some bytes touches: words below the end of a stack. -/
structure BytesInside (a : Nat) (bs : List Byte) : Prop where
  some : 0 < bs.length
  inside : a + bs.length ≤ 2 ^ 37

section
variable {s : State} {i a : Nat} {bs : List Byte} (hin : BytesInside a bs)
include hin

theorem mem_freshLines {l : Nat} : l ∈ freshLines s i a bs ↔ (a / 256 ≤ l ∧ l ≤ (a + bs.length - 1) / 256) ∧ lineFresh s i l = true := by
  rw [freshLines, List.mem_filter, mem_linesOf_bytes hin.some]

theorem piece_bounds {p : Nat × Nat × List Byte} {f : Nat} (hp : p ∈ wordPieces f a bs) :
    p.1 < 2 ^ 33 ∧ a / 256 ≤ p.1 / 16 ∧ p.1 / 16 ≤ (a + bs.length - 1) / 256 := by
  have := mem_wordPieces hp
  have := hin.inside
  omega

theorem freshLine_lt {l : Nat} (hl : l ∈ freshLines s i a bs) : l < 2 ^ 29 := by
  have := (mem_freshLines hin).1 hl
  have := hin.inside
  omega

end

theorem foldl_bump_dram {α : Type} (ls : List α) (s : State) (f : Fld) : (ls.foldl (fun t _ => bump t f) s).dram = s.dram :=
  List.foldlRecOn (motive := fun t : State => t.dram = s.dram) ls _ rfl fun t ht _ _ => (bump_dram t f).trans ht

/-! ### The fresh lines -/

section
variable {s : State} {i : Nat} {ls : List Nat}

theorem badMap_foldl_firstWrite (hb : s.dram.badMap = []) : (ls.foldl (fun t l => firstWrite t i l) s).dram.badMap = [] :=
  List.foldlRecOn (motive := fun t : State => t.dram.badMap = []) ls _ hb fun _ ht _ _ => badMap_firstWrite ht

variable (hls : ∀ l ∈ ls, l < 2 ^ 29)
include hls

theorem isWritten_foldl_firstWrite {m : Nat} (h : m ∈ ls ∨ isWritten s i m = true) :
    isWritten (ls.foldl (fun t l => firstWrite t i l) s) i m = true := by
  induction ls generalizing s with
  | nil => exact h.resolve_left List.not_mem_nil
  | cons l ls ih =>
    obtain ⟨hl, hls⟩ := List.forall_mem_cons.1 hls
    rw [List.mem_cons, or_assoc] at h
    refine ih hls ?_
    rcases h with h | h | h
    · exact .inr (isWritten_firstWrite hl (.inl h))
    · exact .inl h
    · exact .inr (isWritten_firstWrite hl (.inr h))

theorem rawWord_foldl_firstWrite {j w : Nat} (hw : w < 2 ^ 33) (h : j ≠ i ∨ ∀ l ∈ ls, w / 16 / 128 ≠ l / 128) :
    rawWord (ls.foldl (fun t l => firstWrite t i l) s) j w = rawWord s j w :=
  List.foldlRecOn (motive := fun t : State => rawWord t j w = rawWord s j w) ls _ rfl fun _ ht l hl =>
    (rawWord_firstWrite (hls l hl) hw (h.imp_right fun h => h l hl)).trans ht

/-- Where no map word is lost, first writes leave their lines zero and every other word. -/
theorem rawWord_foldl_firstWrite_of_mapped (hb : s.dram.badMap = []) {j w : Nat} (hw : w < 2 ^ 33) :
    rawWord (ls.foldl (fun t l => firstWrite t i l) s) j w = if j = i ∧ w / 16 ∈ ls then List.replicate 18 0 else rawWord s j w := by
  induction ls generalizing s with
  | nil => rw [if_neg fun h => List.not_mem_nil h.2]; rfl
  | cons l ls ih =>
    obtain ⟨hl, hls⟩ := List.forall_mem_cons.1 hls
    rw [List.foldl_cons, ih hls (badMap_firstWrite hb)]
    by_cases hm : j = i ∧ w / 16 ∈ ls
    · rw [if_pos hm, if_pos ⟨hm.1, List.mem_cons_of_mem _ hm.2⟩]
    · rw [if_neg hm]
      by_cases hsame : j = i ∧ w / 16 = l
      · obtain ⟨rfl, hwl⟩ := hsame
        rw [rawWord_firstWrite_same hwl, if_pos ⟨rfl, hwl ▸ List.mem_cons_self⟩]
      · have hout : j ≠ i ∨ w / 16 ≠ l := Classical.not_and_iff_not_or_not.1 hsame
        rw [rawWord_firstWrite_of_mapped hl hb hw hout, if_neg]
        exact fun ⟨hj, hw⟩ => (List.mem_cons.1 hw).elim (fun h => hsame ⟨hj, h⟩) fun h => hm ⟨hj, h⟩

end

/-! ### The whole write -/

section
variable {s : State} {i a : Nat} {bs : List Byte} (hin : BytesInside a bs) (pois : List Nat)
include hin

theorem dramWrite_eq : dramWrite s i a bs pois =
    (wordPieces (bs.length + 1) a bs).foldl (writePiece (freshLines s i a bs) i a pois) (openLines s i a bs) := by
  have hne : bs ≠ [] := List.ne_nil_of_length_pos hin.some
  simp only [dramWrite, List.isEmpty_eq_false_iff.2 hne, Bool.false_eq_true, if_false]
  rfl

/-- The line of a fresh piece is written before the piece is. -/
theorem isWritten_openLines {l : Nat} (h : l ∈ freshLines s i a bs) : isWritten (openLines s i a bs) i l = true :=
  isWritten_foldl_firstWrite (fun _ => freshLine_lt hin) (.inl h)

/-- A word that the write covers: what its piece stores stays, as its line is written from then on. -/
theorem rawWord_dramWrite_whole {w : Nat} (ha : a ≤ 16 * w) (hw : 16 * w + 16 ≤ a + bs.length) :
    rawWord (dramWrite s i a bs pois) i w = storedOf (pois.contains (w - a / 16)) ((bs.drop (16 * w - a)).take 16) := by
  have hw33 : w < 2 ^ 33 := by
    have := hin.inside
    omega
  have hlen : ((bs.drop (16 * w - a)).take 16).length = 16 := by
    rw [List.length_take, List.length_drop]
    omega
  obtain ⟨l1, l2, he, hl2⟩ := wordPieces_split (Nat.lt_succ_self _) ha hw
  have hpiece : ∀ p ∈ l1 ++ (w, 0, (bs.drop (16 * w - a)).take 16) :: l2, p.1 < 2 ^ 33 := by
    intro p hp
    rw [← he] at hp
    exact (piece_bounds hin hp).1
  have hfresh : ∀ l ∈ freshLines s i a bs, isWritten (l1.foldl (writePiece (freshLines s i a bs) i a pois) (openLines s i a bs)) i l = true :=
    fun l hl => List.foldlRecOn (motive := fun t : State => isWritten t i l = true) l1 _ (isWritten_openLines hin hl) fun _ ht p hp =>
      isWritten_putPiece (hpiece p (List.mem_append_left _ hp)) ht
  rw [dramWrite_eq hin, he, List.foldl_append, List.foldl_cons]
  refine (List.foldlRecOn (motive := fun t : State => isWritten t i (w / 16) = true ∧
    rawWord t i w = storedOf (pois.contains (w - a / 16)) ((bs.drop (16 * w - a)).take 16)) l2 _ ?here fun t ⟨hwr, hraw⟩ p hp => ?later).2
  case here =>
    exact ⟨isWritten_putPiece_same hw33 fun hf => hfresh _ (List.contains_iff_mem.1 hf), rawWord_putPiece_whole _ _ i w hlen _⟩
  case later =>
    have hp33 := hpiece p (List.mem_append_right _ (List.mem_cons_of_mem _ hp))
    exact ⟨isWritten_putPiece hp33 hwr,
      (rawWord_putPiece hp33 hw33 (.inr (Nat.ne_of_lt (hl2 p hp))) (.inr (.inl hwr))).trans hraw⟩

/-- A word that no map word of the touched lines covers. -/
theorem rawWord_dramWrite_far {j v : Nat} (hv : v < 2 ^ 33)
    (h : j ≠ i ∨ ∀ l, a / 256 ≤ l → l ≤ (a + bs.length - 1) / 256 → v / 16 / 128 ≠ l / 128) :
    rawWord (dramWrite s i a bs pois) j v = rawWord s j v := by
  have hopen : rawWord (openLines s i a bs) j v = rawWord s j v := by
    refine (rawWord_foldl_firstWrite (fun _ => freshLine_lt hin) hv (h.imp_right fun h l hl => ?_)).trans
      (rawWord_congr (congrArg Dram.cells (foldl_bump_dram _ s _)) j v)
    obtain ⟨⟨hlo, hhi⟩, -⟩ := (mem_freshLines hin).1 hl
    exact h l hlo hhi
  rw [dramWrite_eq hin]
  refine List.foldlRecOn (motive := fun t : State => rawWord t j v = rawWord s j v) _ _ hopen fun t ht p hp => ?_
  obtain ⟨hp33, hlo, hhi⟩ := piece_bounds hin hp
  have hg := h.imp_right fun h => h _ hlo hhi
  exact (rawWord_putPiece hp33 hv (hg.imp_right fun hg he => hg (by rw [he])) (hg.imp_right .inr)).trans ht

/-- Where no map word is lost, a word outside the touched ones becomes zero with its fresh line or stays. -/
theorem rawWord_dramWrite_of_mapped (hb : s.dram.badMap = []) {j v : Nat} (hv : v < 2 ^ 33)
    (h : j ≠ i ∨ v < a / 16 ∨ (a + bs.length - 1) / 16 < v) : rawWord (dramWrite s i a bs pois) j v =
      if j = i ∧ v / 16 ∈ freshLines s i a bs then List.replicate 18 0 else rawWord s j v := by
  have hdram := foldl_bump_dram (linesOf (a / 16) ((a % 16 + bs.length + 15) / 16)) s (Reg.mcWritesLines.ix i)
  have hb' := (congrArg Dram.badMap hdram).trans hb
  rw [dramWrite_eq hin, ← rawWord_congr (congrArg Dram.cells hdram) j v,
    ← rawWord_foldl_firstWrite_of_mapped (fun _ => freshLine_lt hin) hb' hv]
  refine (List.foldlRecOn (motive := fun t : State => t.dram.badMap = [] ∧ rawWord t j v = rawWord (openLines s i a bs) j v) _ _
    ⟨badMap_foldl_firstWrite hb', rfl⟩ fun t ⟨htb, ht⟩ p hp => ?_).2
  refine ⟨badMap_putPiece htb, (rawWord_putPiece_of_mapped (piece_bounds hin hp).1 htb hv (h.imp_right fun h => ?_)).trans ht⟩
  have := mem_wordPieces hp
  omega

end

/-! ### The map words on the way -/

section
variable (s : State)

/-- A map word found with an error is lost where the error is beyond correction; nothing else of the stacks changes (R310, R314). -/
theorem mapHit_dram (i l e : Nat) : (mapHit s i l e).dram = s.dram ∨
    beyond ≤ e ∧ (mapHit s i l e).dram = { s.dram with badMap := sinsert s.dram.badMap (mapKey i l) } := by
  unfold mapHit
  split
  · exact .inl rfl
  · by_cases he : e < beyond
    · simp only [he, if_true, logCorrected_dram, bump_dram, freeVal_dram, true_or]
    · simp only [he, if_false, intLog_dram, bump_dram, Nat.not_lt.1 he, freeVal_dram, true_and, or_true]

theorem mapHit_cells (i l e : Nat) : (mapHit s i l e).dram.cells = s.dram.cells := by
  rcases mapHit_dram s i l e with h | ⟨-, h⟩
  · rw [h]
  · rw [h]

theorem mapHit_written (i l e : Nat) : (mapHit s i l e).dram.written = s.dram.written := by
  rcases mapHit_dram s i l e with h | ⟨-, h⟩
  · rw [h]
  · rw [h]

variable {s} {i first last : Nat} {errs : List (Nat × Nat)}

/-- A property that each map word found with an error keeps holds once the map words of an access are read. -/
theorem readMap_induct {P : State → Prop} (h0 : P s) (hstep : ∀ t, P t → ∀ e ∈ errs, ∀ l, P (mapHit t i l e.2)) :
    P (readMap s i first last errs) :=
  List.foldlRecOn (motive := P) errs _ h0 fun t ht e he => iteInduction (motive := P) (fun _ => hstep t ht e he _) fun _ => ht

theorem readMap_cells : (readMap s i first last errs).dram.cells = s.dram.cells :=
  readMap_induct (P := fun t => t.dram.cells = s.dram.cells) rfl fun t ht e _ l => (mapHit_cells t i l e.2).trans ht

theorem readMap_written : (readMap s i first last errs).dram.written = s.dram.written :=
  readMap_induct (P := fun t => t.dram.written = s.dram.written) rfl fun t ht e _ l => (mapHit_written t i l e.2).trans ht

theorem readMap_badMap (h : ∀ e ∈ errs, e.2 < beyond) : (readMap s i first last errs).dram.badMap = s.dram.badMap := by
  refine readMap_induct (P := fun t => t.dram.badMap = s.dram.badMap) rfl fun t ht e he l => ?_
  rcases mapHit_dram t i l e.2 with hd | ⟨hge, -⟩
  · exact (congrArg Dram.badMap hd).trans ht
  · exact absurd (h e he) (Nat.not_lt.2 hge)

end

/-- A request's arrival changes nothing that is stored. -/
theorem arriveAt_stored (s : State) (i waiting : Nat) : (arriveAt s i waiting).dram.cells = s.dram.cells ∧
    (arriveAt s i waiting).dram.written = s.dram.written ∧ (arriveAt s i waiting).dram.badMap = s.dram.badMap := by
  simp only [arriveAt, apply_ite State.dram, bump_dram, ite_self, and_self]

/-- A DRAM_WRITE without upsets leaves the stack as its write does from a state that stores what was stored before, and that loses a map word only
where one reads beyond correction on the way. -/
theorem dram_of_exec_dramWrite {s t : State} {req site addr : Nat} {bytes : List Byte} {pois : List Nat} {mapErr : List (Nat × Nat)}
    {waiting : Nat} (hu : siteUp s site = true) (hin : addr + bytes.length ≤ siteBytes s site)
    (he : exec (.dramWrite req site addr bytes pois [] mapErr waiting) s = .next t) :
    ∃ u, t.dram = (dramWrite u site addr bytes pois).dram ∧ u.dram.cells = s.dram.cells ∧ u.dram.written = s.dram.written ∧
      ((∀ e ∈ mapErr, e.2 < beyond) → u.dram.badMap = s.dram.badMap) := by
  obtain ⟨hcells, hwritten, hbad⟩ := arriveAt_stored s site waiting
  rw [exec_dramWrite_of_inside req addr [] mapErr waiting hu pois hin] at he
  obtain rfl := Host.Outcome.next.inj he
  refine ⟨readMap (arriveAt s site waiting) site (addr / 256) ((addr + bytes.length - 1) / 256) mapErr, ?_, readMap_cells.trans hcells,
    readMap_written.trans hwritten, fun hm => (readMap_badMap hm).trans hbad⟩
  rw [emit_dram]
  split
  · rfl
  · rfl

theorem siteBytes_le (s : State) (i : Nat) : siteBytes s i ≤ 2 ^ 37 := by
  unfold siteBytes siteFrames
  split
  · decide
  · decide

/-- Where no map word is lost a line is fresh unless it is written. -/
theorem lineFresh_of_mapped {s : State} (hb : s.dram.badMap = []) (i l : Nat) : lineFresh s i l = !(isWritten s i l) := by
  simp only [lineFresh, mapLost, mapBad, hb, List.contains_nil, Bool.false_and, Bool.not_false, Bool.and_true]

end Sys2Proof.Machine

/-! SUPPORT. What a kettle's micro-op comes to (R285–R292): the operation that each opcode names, and what becomes of a micro-op that is
ready. -/
namespace Sys2Proof.Machine
open Sys2Proof

/-! ### Micro-ops that are ready -/

section
variable {s : State} {site kettle op : Nat} {j : KJob} {x : Kettle} {prog : List Nat} {w : Nat}

theorem OpReady.next_of_go {y : KRun} {n : Nat} {bad : List Nat} (h : OpReady s site kettle op j x prog w)
    (ha : kAct s (opEnv s site j prog) (opRun s site x) w = .go y n bad) :
    (.next (kettleOp op site kettle s) : Host.Outcome State Fault Refusal) =
      .next (opDone s site kettle j x (kNext (y.x.cws.drop 7) y.x w) y.sc n bad) :=
  congrArg Host.Outcome.next (kettleOp_go h ha)

theorem OpReady.next_of_fault (h : OpReady s site kettle op j x prog w)
    (ha : kAct s (opEnv s site j prog) (opRun s site x) w = .fault) :
    (.next (kettleOp op site kettle s) : Host.Outcome State Fault Refusal) =
      .next (opDone s site kettle j x (kFault x) (ksiteOf s site).scratch 0 []) :=
  congrArg Host.Outcome.next (kettleOp_fault h ha)

end

/-! ### Micro-ops on registers -/

/-- The micro-ops that act on their kettle's registers, address registers and masks alone (R289, R291). -/
inductive RegisterOp : Nat → (Kettle → Nat → Kettle) → Prop
  | knop : RegisterOp 0x00 (fun x _ => x)
  | ldi : RegisterOp 0x03 (fun x w => x.wk (kD w)
      ⟨kLanes (kW w) (fun _ => (if kMod w % 2 = 1 then ux 64 (sx 32 (kImm w)) else kImm w) % 2 ^ laneW (kW w)), false, false⟩)
  | ldc : RegisterOp 0x04 (fun x w => x.wk (kD w) ⟨kLanes (kW w) (fun _ => x.param (kImm w) % 2 ^ laneW (kW w)), false, false⟩)
  | ald : RegisterOp 0x05 (fun x w => { x with a := mput x.a (kD w) (x.param (kImm w) % 2 ^ 32) })
  | aadd : RegisterOp 0x06 (fun x w => { x with a := mput x.a (kD w) ((x.ar (kA w) + kImm w) % 2 ^ 32) })
  | cmp : RegisterOp 0x08 (fun x w => x.wm (kD w)
      (kMask (kW w) (x.kr (kA w)) (x.kr (kB w)) (kCond (kMod w % 8) (kMod w / 8 = 1) (laneW (kW w)))))
  | tst : RegisterOp 0x09 (fun x w => x.wm (kD w) (kMask (kW w) (x.kr (kA w)) (x.kr (kB w)) (kTest (kMod w))))
  | mand : RegisterOp 0x0A (fun x w => x.wm (kD w) (x.mr (kA w) &&& x.mr (kB w)))
  | mor : RegisterOp 0x0B (fun x w => x.wm (kD w) (x.mr (kA w) ||| x.mr (kB w)))
  | mnot : RegisterOp 0x0C (fun x w => x.wm (kD w) (2 ^ 32 - 1 - x.mr (kA w) % 2 ^ 32))
  | iadd : RegisterOp 0x10 (fun x w => x.wk (kD w) (kZip (kW w) (x.kr (kA w)) (x.kr (kB w)) (fun p q => (p + q) % 2 ^ laneW (kW w))))
  | iadds : RegisterOp 0x11 kAdds
  | widen : RegisterOp 0x12 kWiden
  | gsum : RegisterOp 0x19 kGsum

theorem kAct_of_registerOp {op : Nat} {f : Kettle → Nat → Kettle} {w : Nat} (ho : RegisterOp op f) (h : kOp w = op) (s : State) (e : KEnv)
    (r : KRun) : kAct s e r w = .go { r with x := f r.x w } 0 [] := by
  cases ho <;> simp only [kAct, h]

/-! ### Micro-ops on streams and tables -/

section
variable {s : State} {e : KEnv} {r : KRun} {w : Nat}

/-- An area lies in scratch where its base and its capacity add up to no more than scratch (R290). -/
theorem areaOk_eq_true {a : Nat} (h : bits a 0 14 + bits a 14 14 ≤ 16384) : areaOk a = true := decide_eq_true h
theorem areaOk_eq_false {a : Nat} (h : ¬ bits a 0 14 + bits a 14 14 ≤ 16384) : areaOk a = false := decide_eq_false h

theorem kAct_lds_of_word (h : kOp w = 0x01) {v : KReg} {bad : List Nat} (hs : kStream s e r (kA w) = some (v, bad)) :
    kAct s e r w = .go { r with x := (kTake r.x (kA w) v).wk (kD w) v } 1 bad := by
  simp only [kAct, h, hs]

theorem kAct_lds_of_none (h : kOp w = 0x01) (hs : kStream s e r (kA w) = none) : kAct s e r w = .fault := by
  simp only [kAct, h, hs]

theorem kAct_sto_of_fits (h : kOp w = 0x02) (ha : areaOk (r.x.cw 6) = true) : kAct s e r w =
    .go (kAppend e r 256 (r.x.kr (kD w)).val ((if (r.x.kr (kD w)).t0 then [0] else []) ++ (if (r.x.kr (kD w)).t1 then [1] else []))) 0 [] := by
  simp only [kAct, h, ha, Bool.not_true, Bool.false_eq_true, if_false]

theorem kAct_sto_of_beyond (h : kOp w = 0x02) (ha : areaOk (r.x.cw 6) = false) : kAct s e r w = .fault := by
  simp only [kAct, h, ha, Bool.not_false, if_true]

theorem kAct_tlu (h : kOp w = 0x18) : kAct s e r w = kTlu e r w := by simp only [kAct, h]

theorem kTlu_of_table (hl : e.lut ≠ 0) (hf : bits (r.x.cw 8) 0 14 + ceilDiv (2 * e.lut) 32 ≤ scratchUnits) : kTlu e r w =
    .go { r with x := r.x.wk (kD w) ⟨kLanes 1 (fun i => lutAt e r ((r.x.ar (kA w) + 16 * kMod w + i) % (bits (r.x.cw 8) 14 8 + 1))
        (kLane (r.x.kr (kA w)).val 0 (16 * kMod w + i))),
      if kMod w = 0 then (r.x.kr (kA w)).t0 else (r.x.kr (kA w)).t1, if kMod w = 0 then (r.x.kr (kA w)).t0 else (r.x.kr (kA w)).t1⟩ } 0 [] := by
  simp only [kTlu, hl, gt_iff_lt, Nat.not_lt.2 hf, decide_false, Bool.or_self, Bool.false_eq_true, if_false]

theorem kTlu_of_no_table (hl : e.lut = 0) : kTlu e r w = .fault := by
  simp only [kTlu, hl, decide_true, Bool.true_or, if_true]

theorem kBits_of_fits (n mask : Nat) (ho : areaOk (r.x.cw 6) = true) (hm : areaOk (r.x.cw 7) = true) :
    kBits e r n mask = some (kAppendMap e (kAppend e r (laneN n) (mask % 2 ^ laneN n) []) r.x.lastT) := by
  simp only [kBits, ho, hm, Bool.not_true, Bool.or_self, Bool.false_eq_true, if_false]

theorem kAct_bits_of_fits (h : kOp w = 0x1C) (ho : areaOk (r.x.cw 6) = true) (hm : areaOk (r.x.cw 7) = true) : kAct s e r w =
    .go (kAppendMap e (kAppend e r (laneN (kW w)) (r.x.mr (kA w) % 2 ^ laneN (kW w)) []) r.x.lastT) 0 [] := by
  simp only [kAct, h, kBits_of_fits _ _ ho hm]

theorem kAct_filt (h : kOp w = 0x1D) : kAct s e r w = kFilt s e r w := by simp only [kAct, h]

theorem kFilt_of_none (hs : kStream s e r (kA w) = none) : kFilt s e r w = .fault := by simp only [kFilt, hs]

theorem kFilt_of_word {v : KReg} {bad : List Nat} (hs : kStream s e r (kA w) = some (v, bad)) (ho : areaOk (r.x.cw 6) = true)
    (hm : areaOk (r.x.cw 7) = true) : kFilt s e r w =
      let m := if kMod w ≤ 5 then kMask (kW w) v (r.x.kr (kB w)) (kCond (kMod w) (kD w % 2 = 1) (laneW (kW w)))
        else kMask (kW w) v (r.x.kr (kB w)) (kTest (kMod w - 6))
      .go (kAppendMap e (kAppend e { r with x := kTake r.x (kA w) v } (laneN (kW w)) (m % 2 ^ laneN (kW w)) []) [v.t0, v.t1]) 1 bad := by
  have hb (m : Nat) := kBits_of_fits (e := e) (r := { r with x := kTake r.x (kA w) v }) (kW w) m ho hm
  simp only [kFilt, hs, hb]
  rfl

theorem kAct_emit (h : kOp w = 0x1E) : kAct s e r w = kEmit e r w := by simp only [kAct, h]

theorem kEmit_of_fits (ho : areaOk (r.x.cw 6) = true) : kEmit e r w =
    .go (((List.range 8).filter (fun i => (r.x.mr (kA w)).testBit i && !(kBadLane (r.x.kr (kD w)) 2 i))).foldl
      (fun y i => kAppend e y 64 (y.x.lastP % 2 ^ 24 + (kImm w + i) % 256 * 2 ^ 24 + kLane (r.x.kr (kD w)).val 2 i * 2 ^ 32) []) r) 0 [] := by
  simp only [kEmit, ho, Bool.not_true, Bool.false_eq_true, if_false]

theorem kAct_loop_of_count (h : kOp w = 0x20) (h0 : 0 < kCount w (r.x.cws.drop 7)) (hn : kCount w (r.x.cws.drop 7) ≤ 2 ^ 24) :
    kAct s e r w = .go r 0 [] := by
  simp only [kAct, h, gt_iff_lt, decide_eq_false (Nat.ne_of_gt h0), decide_eq_false (Nat.not_lt.2 hn), Bool.or_self, Bool.false_eq_true,
    if_false]

theorem kAct_loop_of_bad_count (h : kOp w = 0x20) (hn : kCount w (r.x.cws.drop 7) = 0 ∨ 2 ^ 24 < kCount w (r.x.cws.drop 7)) :
    kAct s e r w = .fault := by
  have hbad : (decide (kCount w (r.x.cws.drop 7) = 0) || decide (kCount w (r.x.cws.drop 7) > 2 ^ 24)) = true := by
    simpa only [Bool.or_eq_true, decide_eq_true_eq] using hn
  simp only [kAct, h, hbad, if_true]

theorem kAct_end (h : kOp w = 0x3F) : kAct s e r w = .go r 0 [] := by simp only [kAct, h]

/-- A kettle goes from LOOP to the first micro-op of its body (R289). -/
theorem kNext_loop (h : kOp w = 0x20) (params : List Nat) (x : Kettle) : kNext params x w =
    { x with pc := x.pc + 1, loops := ⟨x.pc + 1, x.pc + kLen w, kCount w params - 1⟩ :: x.loops } := by
  simp only [kNext, h, if_true]
  rfl

theorem kNext_end (h : kOp w = 0x3F) (params : List Nat) (x : Kettle) : kNext params x w =
    { x with cw1 := setBit x.cw1 0 true, running := false } := by
  simp only [kNext, h, if_true]

end

end Sys2Proof.Machine

/-! SUPPORT. Kettle jobs (R282–R284, R294–R298). -/
namespace Sys2Proof.Machine
open Sys2Proof

/-! ### Arrival -/

/-- A site may run kettle jobs: it has kettles, not all of them fenced, in a mode that runs jobs, and firmware neither keeps it out of service
nor drains it (R284, R294, R456). -/
structure KettleSiteOpen (s : State) (site : Nat) : Prop where
  kettles : isKettleSite s.part site = true
  unfenced : kAllFenced s site = false
  mode : kMode s site ≠ 0
  inService : s.fw.fencedSites.testBit site = false
  undrained : s.fw.draining ≠ some site

/-- A job as it is queued: its operands cut to what a job can have, every part to start (R282, R283). -/
def queuedJob (id : Nat) (req : Option (Nat × Nat)) (prog : Nat) (lists : List (List Nat)) (lut : List Nat) (lutM : Nat) (params : List Nat)
    (outUnits pmapUnits : Nat) : KJob :=
  ⟨id, req, prog, (lists.take 4).map (fun l => l.map (· % 2 ^ 20)), lut, lutM % 256, (params.take 23).map (· % 2 ^ 64), outUnits, pmapUnits,
    false, false, List.range 128, [], [], []⟩

section
variable {s : State} {site : Nat} {req : Option (Nat × Nat)} {prog : Nat} {lists : List (List Nat)} {lut : List Nat} {lutM : Nat}
  {params : List Nat} {outUnits pmapUnits : Nat} (hr : ringUp s = true)
include hr

theorem kettleJob_of_closed (h : isKettleSite s.part site = false ∨ kAllFenced s site = true ∨ kMode s site = 0 ∨
      s.fw.fencedSites.testBit site = true ∨ s.fw.draining = some site) :
    kettleJob site req prog lists lut lutM params outUnits pmapUnits s = kAnswer s site req (ksiteOf s site).nextJob .fenced none := by
  have hclosed : (!isKettleSite s.part site || kAllFenced s site || decide (kMode s site = 0) || s.fw.fencedSites.testBit site ||
      decide (s.fw.draining = some site)) = true := by
    simpa only [Bool.or_eq_true, Bool.not_eq_true', decide_eq_true_eq, or_assoc] using h
  simp only [kettleJob, hr, hclosed, Bool.not_true, Bool.false_eq_true, if_false, if_true]

variable (ho : KettleSiteOpen s site)
include ho

/-- Where a site may run jobs, a job is refused by the length of the queue and the program's number, or queued. -/
theorem kettleJob_of_open : kettleJob site req prog lists lut lutM params outUnits pmapUnits s =
    let x := ksiteOf s site
    if x.jobs.length ≥ 64 then kAnswer (bump s (Reg.ktlJobsRefused.ix (site - 4))) site req x.nextJob .tableFull none
    else if (kProgram s site prog).isNone then kAnswer s site req x.nextJob .malformed none
    else setKsite s site { x with
      jobs := x.jobs ++ [queuedJob x.nextJob req prog lists lut lutM params outUnits pmapUnits], nextJob := x.nextJob + 1 } := by
  obtain ⟨hk, hf, hm, hs, hd⟩ := ho
  simp only [kettleJob, queuedJob, hr, hk, hf, hm, hs, hd, Bool.not_true, decide_false, Bool.or_self, Bool.false_eq_true, if_false]

theorem kettleJob_of_full (hl : 64 ≤ (ksiteOf s site).jobs.length) : kettleJob site req prog lists lut lutM params outUnits pmapUnits s =
    kAnswer (bump s (Reg.ktlJobsRefused.ix (site - 4))) site req (ksiteOf s site).nextJob .tableFull none :=
  (kettleJob_of_open hr ho).trans (if_pos hl)

variable (hl : (ksiteOf s site).jobs.length < 64)
include hl

theorem kettleJob_of_no_program (hp : kProgram s site prog = none) : kettleJob site req prog lists lut lutM params outUnits pmapUnits s =
    kAnswer s site req (ksiteOf s site).nextJob .malformed none := by
  simp only [kettleJob_of_open hr ho, ge_iff_le, Nat.not_le.2 hl, hp, Option.isNone_none,
    if_false, if_true]

theorem kettleJob_of_room {p : List Nat} (hp : kProgram s site prog = some p) :
    kettleJob site req prog lists lut lutM params outUnits pmapUnits s =
      setKsite s site { ksiteOf s site with
        jobs := (ksiteOf s site).jobs ++ [queuedJob (ksiteOf s site).nextJob req prog lists lut lutM params outUnits pmapUnits],
        nextJob := (ksiteOf s site).nextJob + 1 } := by
  simp only [kettleJob_of_open hr ho, ge_iff_le, Nat.not_le.2 hl, hp, Option.isNone_some,
    Bool.false_eq_true, if_false]

end

/-! ### Start -/

/-- A job that starts, in full mode or not: the window opens in full mode, scratch is undefined from here on, and parts start (R277, R296). -/
def beginJob (s : State) (site id : Nat) (full : Bool) : State :=
  kStartParts (setKsite s site
    { modJob (ksiteOf s site) id (fun j => { j with started := true, full := full }) with window := full, scratch := [] }) site id

section
variable {s : State} {site : Nat} {j : KJob} {rest : List KJob} (hj : (ksiteOf s site).jobs = j :: rest) (hr : ringUp s = true)
  (hn : kJobOn (ksiteOf s site) = none) (hc : flagF s Reg.rstPowerCapped = false)
include hj hr hn hc

theorem kettleJobStart_of_off (hm : kMode s site = 0) : kettleJobStart site s =
    setKsite s site (modJob (ksiteOf s site) j.id (fun j => { j with started := true, todo := [], codes := [5] })) := by
  simp only [kettleJobStart, hj, hr, hn, hc, hm, Bool.not_true, Option.isSome_none, Bool.or_self, Bool.false_eq_true, if_false, if_true]

/-- In a mode that runs jobs the head job starts: in a window where the mode is full and some pseudo-channel is not in direct mode, unless the job
is too long for one, which is counted (R294, R296). -/
theorem kettleJobStart_of_on (hm : kMode s site ≠ 0) : kettleJobStart site s =
    let want : Bool := kMode s site = 2 && !(windowOwners s site).isEmpty
    beginJob (if want && !(want && kFits s site j) then bump s (Reg.ktlSharedDemoted.ix (site - 4)) else s) site j.id
      (want && kFits s site j) := by
  simp only [kettleJobStart, hj, hr, hn, hc, hm, Bool.not_true, Option.isSome_none, Bool.or_self, Bool.false_eq_true, if_false]
  split
  · rfl
  · rfl

theorem kettleJobStart_of_shared (hm : kMode s site = 1 ∨ kMode s site = 2 ∧ windowOwners s site = []) :
    kettleJobStart site s = beginJob s site j.id false := by
  rcases hm with hm | ⟨hm, hw⟩
  · simp only [kettleJobStart_of_on hj hr hn hc (by omega), hm, Nat.reduceEqDiff, decide_false, Bool.false_and, Bool.false_eq_true, if_false]
  · simp only [kettleJobStart_of_on hj hr hn hc (by omega), hw, List.isEmpty_nil, Bool.not_true, Bool.and_false, Bool.false_and,
      Bool.false_eq_true, if_false]

variable (hm : kMode s site = 2) (hw : windowOwners s site ≠ [])
include hm hw

theorem kettleJobStart_of_window (hf : kFits s site j = true) : kettleJobStart site s = beginJob s site j.id true := by
  simp only [kettleJobStart_of_on hj hr hn hc (by omega), hm, hf, List.isEmpty_eq_false_iff.2 hw, decide_true, Bool.not_false, Bool.and_self,
    Bool.not_true, Bool.and_false, Bool.false_eq_true, if_false]

theorem kettleJobStart_of_demoted (hf : kFits s site j = false) :
    kettleJobStart site s = beginJob (bump s (Reg.ktlSharedDemoted.ix (site - 4))) site j.id false := by
  simp only [kettleJobStart_of_on hj hr hn hc (by omega), hm, hf, List.isEmpty_eq_false_iff.2 hw, decide_true, Bool.not_false, Bool.and_self,
    Bool.and_false, if_true]

end

/-! ### The job that runs -/

/-- What of a job's window has not ended as the window does: its running parts are abandoned, those not begun are late where a kettle would have run
them, and the job holds a result for each (R296, R299). -/
def windowOverrun (s : State) (site id : Nat) (k : KJob) : State :=
  let t := (k.active.filter (fun a => (mget (ksiteOf s site).kettles a.1).any (fun y => !y.direct))).foldl (fun s a => kAbandon s site id a.1) s
  let left := k.todo.filter (kWindowed t site k)
  let t := left.foldl (fun s o => match kRunner s site o with | some r => kLate s site r | none => s) t
  modKsite t site (fun x => modJob { x with window := false } id (fun y =>
    { y with todo := y.todo.filter (fun o => !(left.contains o)),
             codes := y.codes ++ left.map (fun o => if (kRunner t site o).isSome then 4 else 5) }))

section
variable {s : State} {site : Nat} {j : KJob} (hj : kJobOn (ksiteOf s site) = some j)
include hj

theorem kettlePoll_of_running : kettlePoll site s = kStartParts (kReap s site j (fun y => !j.full || y.direct)) site j.id := by
  simp only [kettlePoll, hj]

theorem fullWindowEnd_of_no_window (h : j.full = false ∨ (ksiteOf s site).window = false) : fullWindowEnd site s = s := by
  rcases h with h | h
  · simp only [fullWindowEnd, hj, h, Bool.not_false, Bool.true_or, if_true]
  · simp only [fullWindowEnd, hj, h, Bool.not_false, Bool.or_true, if_true]

section
variable (hf : j.full = true) (hw : (ksiteOf s site).window = true)
include hf hw

theorem fullWindowEnd_of_reaped (hk : kJobOn (ksiteOf (kReap s site j (fun y => !y.direct)) site) = none) :
    fullWindowEnd site s = kReap s site j (fun y => !y.direct) := by
  simp only [fullWindowEnd, hj, hf, hw, hk, Bool.not_true, Bool.or_self, Bool.false_eq_true, if_false]

theorem fullWindowEnd_of_overrun {k : KJob} (hk : kJobOn (ksiteOf (kReap s site j (fun y => !y.direct)) site) = some k) :
    fullWindowEnd site s = windowOverrun (kReap s site j (fun y => !y.direct)) site j.id k := by
  simp only [fullWindowEnd, hj, hf, hw, hk, Bool.not_true, Bool.or_self, Bool.false_eq_true, if_false]
  rfl

end

theorem kettleJobComplete_of_ended (ht : j.todo = []) (ha : j.active = []) (hw : (ksiteOf s site).window = false) : kettleJobComplete site s =
    let t := bump (modKsite s site (fun x => { x with jobs := x.jobs.filter (fun k => k.id != j.id) })) (Reg.ktlJobsDone.ix (site - 4))
    kAnswer (if kStatus j.codes = .tableFull then bump t (Reg.ktlJobsRefused.ix (site - 4)) else t) site j.req j.id (kStatus j.codes) (some j) := by
  simp only [kettleJobComplete, hj, ht, ha, hw, List.isEmpty_nil, Bool.not_true, Bool.or_self, Bool.false_eq_true, if_false]

theorem kettleOpTimeout_of_running {r : Nat} {y : Kettle} (hy : mget (ksiteOf s site).kettles r = some y) (hd : j.full = false ∨ y.direct = true)
    (hr : y.running = true) : kettleOpTimeout site r s =
      if y.expiry ≤ tickOf s then kStartParts (kAbandon s site j.id r) site j.id else s := by
  have hout : (!j.full || y.direct) = true := by simpa only [Bool.or_eq_true, Bool.not_eq_true'] using hd
  simp only [kettleOpTimeout, hj, hy, hout, hr, ge_iff_le, Bool.true_and, decide_eq_true_eq]

end

theorem kettleParityError_of_kettles {s : State} {site pc : Nat} (hk : isKettleSite s.part site = true) (hp : pc < 32) :
    kettleParityError site pc s = modKsite s site (fun x => { x with pcdir := setBit x.pcdir pc true }) := by
  simp only [kettleParityError, hk, hp, decide_true, Bool.and_self, if_true]

end Sys2Proof.Machine

/-! SETTLED. The stacks, their kettles and the commands that stop. -/
namespace Sys2Proof.Machine
open Sys2Proof

/-- Settles O4: the two accesses of a DRAM stack are the only commands with a stop; every other meaning is a next state. -/
theorem onlyAbsentWordsStop : Obligations.OnlyAbsentWordsStop := by
  intro c s
  cases c with
  | dramRead req site addr len ups mapErr waiting =>
    refine (inStack_goesOn_or s site addr len _).imp_right fun ⟨hf, hu, hl⟩ => ⟨site, addr, hf, hu, .inl ?_⟩
    exact ⟨req, len, ups, mapErr, waiting, rfl, hl⟩
  | dramWrite req site addr bytes pois ups mapErr waiting =>
    refine (inStack_goesOn_or s site addr bytes.length _).imp_right fun ⟨hf, hu, hl⟩ => ⟨site, addr, hf, hu, .inr ?_⟩
    exact ⟨req, bytes, pois, ups, mapErr, waiting, rfl, hl⟩
  | _ => exact .inl rfl

/-- Settles O7: the map words read on the way store nothing, and each word is then as the whole write leaves it. -/
theorem stackMemory : Obligations.StackMemory := by
  intro s t req site addr bytes pois mapErr waiting hu hin hne he stored
  have hs : BytesInside addr bytes := ⟨List.length_pos_iff.2 hne, Nat.le_trans hin (siteBytes_le s site)⟩
  obtain ⟨u, hdram, hcells, hwritten, hbad⟩ := dram_of_exec_dramWrite hu hin he
  have hraw (i w : Nat) : rawWord t i w = rawWord (dramWrite u site addr bytes pois) i w := rawWord_congr (congrArg Dram.cells hdram) i w
  have hsame (i w : Nat) : rawWord u i w = rawWord s i w := rawWord_congr hcells i w
  refine ⟨fun w ha hw => ?whole, fun i w _ hw h => ?far, fun hb hm => ⟨fun i w _ hw h => ?line, fun w ⟨hlo, hhi⟩ h => ?rest⟩⟩
  case whole => exact (hraw site w).trans (rawWord_dramWrite_whole hs pois ha hw)
  case far => exact (hraw i w).trans ((rawWord_dramWrite_far hs pois hw (h.imp_right fun h l hlo hhi => h l ⟨hlo, hhi⟩)).trans (hsame i w))
  case line =>
    have hout : i ≠ site ∨ ¬(addr / 256 ≤ w / 16 ∧ w / 16 ≤ (addr + bytes.length - 1) / 256) := h
    have hword : i ≠ site ∨ w < addr / 16 ∨ (addr + bytes.length - 1) / 16 < w := hout.imp_right fun hout => by omega
    rw [hraw, rawWord_dramWrite_of_mapped hs pois ((hbad hm).trans hb) hw hword, if_neg, hsame]
    exact fun ⟨hi, hf⟩ => hout.elim (· hi) (· ((mem_freshLines hs).1 hf).1)
  case rest =>
    have hw : w < 2 ^ 33 := by
      have := hs.inside
      omega
    have hfresh : w / 16 ∈ freshLines u site addr bytes ↔ isWritten s site (w / 16) = false := by
      rw [mem_freshLines hs, lineFresh_of_mapped ((hbad hm).trans hb), isWritten, hwritten, Bool.not_eq_true']
      exact and_iff_right ⟨hlo, hhi⟩
    rw [hraw, rawWord_dramWrite_of_mapped hs pois ((hbad hm).trans hb) hw (.inr h), hsame]
    cases hwr : isWritten s site (w / 16) with
    | true => exact (if_neg fun h => Bool.false_ne_true ((hfresh.1 h.2).symm.trans hwr)).trans (if_pos rfl).symm
    | false => exact (if_pos ⟨rfl, hfresh.2 hwr⟩).trans (if_neg Bool.false_ne_true).symm

/-- Settles O9: a refresh by whether its stack is fenced or powered, a visit by whether its scrubber is enabled and has budget. -/
theorem refreshAndScrub : Obligations.RefreshAndScrub := by
  refine ⟨fun s site pc hs hp => ⟨fun hf hv ht hr => ?issued, fun hf => ?fenced⟩,
    fun s n ups hu hn => ⟨fun he b hb => ?visits, fun h => ?idle⟩⟩
  case issued => exact congrArg Host.Outcome.next (refresh_of_trained hs hp hf hv ht hr)
  case fenced => exact congrArg Host.Outcome.next (refresh_of_fenced hf pc)
  case visits =>
    have hvisit := congrArg (Host.Outcome.next (φ := Fault) (ρ := Refusal)) (scrubLineVisit_of_budget hu hn he hb ups)
    exact hvisit.trans (apply_ite Host.Outcome.next _ _ _)
  case idle =>
    have hspent : flagF s (Reg.intScrubEn.ix n) = false ∨ (mget s.integ.budget n).getD 0 = 0 := by
      rcases h with h | h | h
      · exact .inl h
      · exact .inr (by rw [h]; rfl)
      · exact .inr (by rw [h]; rfl)
    exact congrArg Host.Outcome.next (scrubLineVisit_of_idle hspent ups)

/-- Settles O40: each micro-op by its row of `RegisterOp`. -/
theorem kettleRegisterOps : Obligations.KettleRegisterOps := by
  intro s site kettle j x prog w a b n ready goes imm
  have acts {op : Nat} {f : Kettle → Nat → Kettle} (ho : RegisterOp op f) (h : ready op) :
      (.next (kettleOp op site kettle s) : Host.Outcome State Fault Refusal) = .next (goes (f x w)) :=
    (h.next_of_go (kAct_of_registerOp ho h.holds s _ _) :)
  -- What a micro-op computes comes from its row of `RegisterOp`, not from the goal.
  exact ⟨(acts .knop :), (acts .ldi :), (acts .ldc :), (acts .ald :), (acts .aadd :), (acts .cmp :), (acts .tst :), (acts .mand :),
    (acts .mor :), (acts .mnot :), (acts .iadd :), (acts .iadds :), (acts .widen :), (acts .gsum :)⟩

/-- Settles O41: each micro-op goes on where its stream, area, table or count is there, and faults where it is not; LOOP and END then leave the
kettle as the order of issue takes it. -/
theorem kettleStreamOps : Obligations.KettleStreamOps := by
  intro s site kettle j x prog w e r ready goes stops faults outFits mapFits d lane
  refine ⟨fun v bad h hs => ?lds, fun h hs => ?ldsNone, fun h ho => ?sto, fun h ho => ?stoBeyond, fun h hl hf => ?tlu, fun h hl => ?tluNone,
    fun h ho hm => ?bits, fun v bad h hs ho hm => ?filt, fun h hs => ?filtNone, fun h ho => ?emit,
    ⟨fun h h0 hn => ?loop, fun h hn => ?loopBad⟩, fun h => ?done⟩
  case lds => exact h.next_of_go (kAct_lds_of_word h.holds hs)
  case ldsNone => exact h.next_of_fault (kAct_lds_of_none h.holds hs)
  case sto => exact h.next_of_go (kAct_sto_of_fits h.holds (areaOk_eq_true ho))
  case stoBeyond => exact h.next_of_fault (kAct_sto_of_beyond h.holds (areaOk_eq_false ho))
  case tlu => exact h.next_of_go ((kAct_tlu h.holds).trans (kTlu_of_table hl hf))
  case tluNone => exact h.next_of_fault ((kAct_tlu h.holds).trans (kTlu_of_no_table hl))
  case bits => exact h.next_of_go (kAct_bits_of_fits h.holds (areaOk_eq_true ho) (areaOk_eq_true hm))
  case filt => exact h.next_of_go ((kAct_filt h.holds).trans (kFilt_of_word hs (areaOk_eq_true ho) (areaOk_eq_true hm)))
  case filtNone => exact h.next_of_fault ((kAct_filt h.holds).trans (kFilt_of_none hs))
  case emit => exact h.next_of_go ((kAct_emit h.holds).trans (kEmit_of_fits (areaOk_eq_true ho)))
  case loop =>
    have hgo := h.next_of_go (kAct_loop_of_count h.holds h0 hn)
    rwa [kNext_loop h.holds] at hgo
  case loopBad => exact h.next_of_fault (kAct_loop_of_bad_count h.holds hn)
  case done =>
    have hgo := h.next_of_go (kAct_end h.holds)
    rwa [kNext_end h.holds] at hgo

/-- Settles O42: a job as it arrives, as it starts, and as its parts and its window end. -/
theorem kettleJobs : Obligations.KettleJobs := by
  intro s site
  refine ⟨fun req prog lists lut lutM params outUnits pmapUnits hr => ⟨fun h => ?closed, fun hk hf hm hs hd => ?arrives⟩,
    fun j rest hj hr hn hc => ⟨fun hm => ?off, fun hm => ?shared, fun hm hw hf => ?window, fun hm hw hf => ?demoted⟩,
    fun j hj => ⟨?poll, fun hf hw => ⟨fun hk => ?reaped, fun k hk => ?overrun⟩, fun h => ?noWindow, fun ht ha hw => ?complete,
      fun r y hy hd hr => ?timeout⟩, fun pc hk hp => ?parity⟩
  case closed => exact congrArg Host.Outcome.next (kettleJob_of_closed hr h)
  case arrives =>
    have ho : KettleSiteOpen s site := ⟨hk, hf, hm, hs, hd⟩
    exact ⟨fun hl => congrArg Host.Outcome.next (kettleJob_of_full hr ho hl),
      fun hl hp => congrArg Host.Outcome.next (kettleJob_of_no_program hr ho hl hp),
      fun p hl hp => congrArg Host.Outcome.next (kettleJob_of_room hr ho hl hp)⟩
  case off => exact congrArg Host.Outcome.next (kettleJobStart_of_off hj hr hn hc hm)
  case shared => exact congrArg Host.Outcome.next (kettleJobStart_of_shared hj hr hn hc hm)
  case window => exact congrArg Host.Outcome.next (kettleJobStart_of_window hj hr hn hc hm hw hf)
  case demoted => exact congrArg Host.Outcome.next (kettleJobStart_of_demoted hj hr hn hc hm hw hf)
  case poll => exact congrArg Host.Outcome.next (kettlePoll_of_running hj)
  case reaped => exact congrArg Host.Outcome.next (fullWindowEnd_of_reaped hj hf hw hk)
  case overrun => exact congrArg Host.Outcome.next (fullWindowEnd_of_overrun hj hf hw hk)
  case noWindow => exact congrArg Host.Outcome.next (fullWindowEnd_of_no_window hj h)
  case complete => exact congrArg Host.Outcome.next (kettleJobComplete_of_ended hj ht ha hw)
  case timeout =>
    have hend := congrArg (Host.Outcome.next (φ := Fault) (ρ := Refusal)) (kettleOpTimeout_of_running hj hy hd hr)
    exact hend.trans (apply_ite Host.Outcome.next _ _ _)
  case parity => exact congrArg Host.Outcome.next (kettleParityError_of_kettles hk hp)

end Sys2Proof.Machine

/-! SUPPORT. Arithmetic of the guard code (R302): a product is linear in each factor over the sum of bytes, and one with α^k is the k-fold double. -/
namespace Sys2Proof.Machine
open Sys2Proof

theorem gfDouble_eq (b : Nat) : gfDouble b = 2 * b ^^^ if 128 ≤ b then 0x11D else 0 := by
  unfold gfDouble
  by_cases h : 128 ≤ b
  · rw [if_pos h, if_pos (by omega)]
  · rw [if_neg h, if_neg (by omega), Nat.xor_zero]

theorem gfDouble_zero : gfDouble 0 = 0 := by decide

theorem gfDouble_xor {a b : Nat} (ha : a < 256) (hb : b < 256) : gfDouble (a ^^^ b) = gfDouble a ^^^ gfDouble b := by
  have htop {x : Nat} (hx : x < 256) : 128 ≤ x ↔ x / 2 ^ 7 % 2 = 1 := by omega
  have hdouble : 2 * (a ^^^ b) = 2 * a ^^^ 2 * b := by
    simpa only [Nat.shiftLeft_eq, Nat.pow_one, Nat.mul_comm] using Nat.shiftLeft_xor_distrib (i := 1) (a := a) (b := b)
  have hbit : 128 ≤ a ^^^ b ↔ ¬(128 ≤ a ↔ 128 ≤ b) := by
    rw [htop (Nat.xor_lt_two_pow (n := 8) ha hb), htop ha, htop hb, Nat.xor_div_two_pow, Nat.xor_mod_two_eq_one]
  simp only [gfDouble_eq, hdouble, hbit]
  by_cases h : 128 ≤ a <;> by_cases h' : 128 ≤ b <;> simp [h, h', Nat.xor_assoc, Nat.xor_left_comm, Nat.xor_comm]

theorem gfMulAux_xor (k a x y r s : Nat) : gfMulAux k a (x ^^^ y) (r ^^^ s) = gfMulAux k a x r ^^^ gfMulAux k a y s := by
  induction k generalizing a x y r s with
  | zero => rfl
  | succ k ih =>
    simp only [gfMulAux, Nat.xor_div_two, Nat.xor_mod_two_eq_one, ← ih]
    by_cases hx : x % 2 = 1 <;> by_cases hy : y % 2 = 1 <;> simp [hx, hy, Nat.xor_left_comm, Nat.xor_comm]

theorem gfMul_xor (a x y : Nat) : gfMul a (x ^^^ y) = gfMul a x ^^^ gfMul a y := gfMulAux_xor 8 a x y 0 0

theorem gfMulAux_gfDouble (k : Nat) {a r : Nat} (b : Nat) (ha : a < 256) (hr : r < 256) :
    gfMulAux k (gfDouble a) b (gfDouble r) = gfDouble (gfMulAux k a b r) := by
  induction k generalizing a b r with
  | zero => rfl
  | succ k ih =>
    simp only [gfMulAux, ← gfDouble_xor hr ha, ← apply_ite gfDouble]
    refine ih _ (gfDouble_lt ha) ?_
    split
    · exact Nat.xor_lt_two_pow (n := 8) hr ha
    · exact hr

/-- The last bit of the second factor adds its own product. -/
theorem gfMulAux_succ_last (k a b r : Nat) :
    gfMulAux (k + 1) a b r = gfMulAux k a b r ^^^ if b / 2 ^ k % 2 = 1 then gfDouble^[k] a else 0 := by
  induction k generalizing a b r with
  | zero => by_cases h : b % 2 = 1 <;> simp [gfMulAux, h]
  | succ k ih =>
    rw [gfMulAux, ih, Nat.div_div_eq_div_mul, ← Nat.pow_succ', ← Function.iterate_succ_apply, ← gfMulAux]

theorem gfMul_gfDouble_left {a : Nat} (ha : a < 256) (b : Nat) : gfMul (gfDouble a) b = gfDouble (gfMul a b) := by
  have h := gfMulAux_gfDouble 8 b ha (r := 0) (by decide)
  rwa [gfDouble_zero] at h

/-- A product with a byte's double is the double of the product: the bit that leaves the byte comes back as 0x11D, the eighth power of α. -/
theorem gfMul_gfDouble {a b : Nat} (ha : a < 256) (hb : b < 256) : gfMul a (gfDouble b) = gfDouble (gfMul a b) := by
  have hfold : gfMul a 0x11D = gfDouble^[8] a := (by decide +kernel : ∀ a : Fin 256, gfMul a 0x11D = gfDouble^[8] a) ⟨a, ha⟩
  have hzero : gfMul a 0 = 0 := by simp [gfMul, gfMulAux]
  have hshift : gfMul a (2 * b) = gfMulAux 7 (gfDouble a) b 0 := by simp [gfMul, gfMulAux]
  have htop : 128 ≤ b ↔ b / 2 ^ 7 % 2 = 1 := by omega
  calc gfMul a (gfDouble b) = gfMulAux 7 (gfDouble a) b 0 ^^^ if b / 2 ^ 7 % 2 = 1 then gfDouble^[7] (gfDouble a) else 0 := by
        rw [gfDouble_eq, gfMul_xor, hshift, apply_ite (gfMul a), hfold, hzero, Function.iterate_succ_apply]
        simp only [htop]
    _ = gfMulAux 8 (gfDouble a) b 0 := (gfMulAux_succ_last 7 (gfDouble a) b 0).symm
    _ = gfDouble (gfMul a b) := gfMul_gfDouble_left ha b

theorem gfPow_lt (k : Nat) : gfPow k < 256 := by
  induction k with
  | zero => decide
  | succ k ih => exact gfDouble_lt ih

theorem gfMul_gfPow {a : Nat} (ha : a < 256) (k : Nat) : gfMul a (gfPow k) = gfDouble^[k] a := by
  induction k with
  | zero => simp [gfPow, gfMul, gfMulAux]
  | succ k ih => rw [gfPow, gfMul_gfDouble ha (gfPow_lt k), ih, Function.iterate_succ_apply']

theorem gfMul_three (a : Nat) : gfMul a 3 = a ^^^ gfDouble a := by simp [gfMul, gfMulAux]

/-- α^−25 is the inverse of 1 + α. -/
theorem gfMul_gfPow_mul_three {a : Nat} (ha : a < 256) : gfMul (gfMul a (gfPow 230)) 3 = a := by
  have hinv : gfPow 230 ^^^ gfDouble (gfPow 230) = gfPow 0 := by decide +kernel
  rw [gfMul_three, ← gfMul_gfDouble ha (gfPow_lt 230), ← gfMul_xor, hinv, gfMul_gfPow ha, Function.iterate_zero_apply]

theorem iterate_gfDouble_xor {a b : Nat} (ha : a < 256) (hb : b < 256) (k : Nat) :
    gfDouble^[k] (a ^^^ b) = gfDouble^[k] a ^^^ gfDouble^[k] b := by
  induction k generalizing a b with
  | zero => rfl
  | succ k ih => simp only [Function.iterate_succ_apply, gfDouble_xor ha hb, ih (gfDouble_lt ha) (gfDouble_lt hb)]

theorem gfDouble_mapsTo : Set.MapsTo gfDouble (Set.Iio 256) (Set.Iio 256) := fun _ => gfDouble_lt

theorem gfDouble_injOn : Set.InjOn gfDouble (Set.Iio 256) := by
  intro a ha b hb h
  have hzero : ∀ x : Fin 256, gfDouble x = 0 → x.1 = 0 := by decide +kernel
  refine Nat.xor_eq_zero_iff.1 (hzero ⟨a ^^^ b, Nat.xor_lt_two_pow (n := 8) ha hb⟩ ?_)
  rw [gfDouble_xor ha hb, h, Nat.xor_self]

theorem iterate_gfDouble_lt {a : Nat} (ha : a < 256) (k : Nat) : gfDouble^[k] a < 256 := gfDouble_mapsTo.iterate k ha

theorem iterate_gfDouble_injOn (k : Nat) : Set.InjOn gfDouble^[k] (Set.Iio 256) := gfDouble_injOn.iterate gfDouble_mapsTo k

/-- No power of α from the first to the seventeenth keeps a byte but 0. -/
theorem iterate_gfDouble_ne_self {e k : Nat} (he : e < 256) (h0 : e ≠ 0) (hk : k < 17) : gfDouble^[k + 1] e ≠ e := fun h =>
  h0 ((by decide +kernel : ∀ (k : Fin 17) (e : Fin 256), gfDouble^[k + 1] e = e → e.1 = 0) ⟨k, hk⟩ ⟨e, he⟩ h)

end Sys2Proof.Machine

/-! SUPPORT. Syndromes and classes of a word (R303–R305): the syndromes of what is stored, what an error in one byte adds to them, and which
class they give. -/
namespace Sys2Proof.Machine
open Sys2Proof

/-! ### Syndromes -/

@[simp] theorem synd0_cons (b : Nat) (w : Codeword) : synd0 (b :: w) = b ^^^ synd0 w := by
  rw [synd0, List.foldl_cons, Nat.xor_comm, List.foldl_assoc, synd0]

theorem modAt_cons_zero {α : Type} (b : α) (w : List α) (f : α → α) : modAt (b :: w) 0 f = f b :: w := rfl
theorem modAt_cons_succ {α : Type} (b : α) (w : List α) (i : Nat) (f : α → α) : modAt (b :: w) (i + 1) f = b :: modAt w i f := rfl

/-- S1 as the sum of R303: each byte by the power of α of its position. -/
theorem foldl_gfPow_range' (m k a : Nat) {w : Codeword} (hw : ∀ b ∈ w, b < 256) :
    (w.zip (List.range' k w.length)).foldl (fun r x => r ^^^ gfMul x.1 (gfPow (x.2 + m))) a = a ^^^ gfDouble^[k + m] (synd1 w) := by
  induction w generalizing k a with
  | nil =>
    rw [synd1, Function.iterate_fixed gfDouble_zero, Nat.xor_zero]
    rfl
  | cons b w ih =>
    obtain ⟨hb, hw⟩ := List.forall_mem_cons.1 hw
    rw [List.length_cons, List.range'_succ, List.zip_cons_cons, List.foldl_cons, ih _ _ hw, synd1,
      iterate_gfDouble_xor hb (gfDouble_lt (synd1_lt hw)), gfMul_gfPow hb, ← Function.iterate_succ_apply, Nat.add_right_comm, Nat.xor_assoc]

theorem foldl_gfPow_range (m : Nat) {w : Codeword} {n : Nat} (h : w.length = n) (hw : ∀ b ∈ w, b < 256) :
    (w.zip (List.range n)).foldl (fun r x => r ^^^ gfMul x.1 (gfPow (x.2 + m))) 0 = gfDouble^[m] (synd1 w) := by
  rw [← h, List.range_eq_range', foldl_gfPow_range' m 0 0 hw, Nat.zero_add, Nat.zero_xor]

theorem foldl_zip_fst_eq_synd0 {w : Codeword} {n : Nat} (h : w.length = n) :
    (w.zip (List.range n)).foldl (fun a x => a ^^^ x.1) 0 = synd0 w := by
  rw [← List.foldl_map (f := Prod.fst) (g := (· ^^^ ·)), List.map_fst_zip (by rw [h, List.length_range]), synd0]

theorem synd0_modAt {w : Codeword} {i : Nat} (hi : i < w.length) (e : Nat) : synd0 (modAt w i (· ^^^ e)) = synd0 w ^^^ e := by
  induction w generalizing i with
  | nil => exact absurd hi (Nat.not_lt_zero i)
  | cons b w ih =>
    cases i with
    | zero => rw [modAt_cons_zero, synd0_cons, synd0_cons, Nat.xor_right_comm]
    | succ i => rw [modAt_cons_succ, synd0_cons, synd0_cons, ih (Nat.lt_of_succ_lt_succ hi), Nat.xor_assoc]

theorem synd1_modAt {w : Codeword} (hw : ∀ b ∈ w, b < 256) {i e : Nat} (hi : i < w.length) (he : e < 256) :
    synd1 (modAt w i (· ^^^ e)) = synd1 w ^^^ gfDouble^[i] e := by
  induction w generalizing i with
  | nil => exact absurd hi (Nat.not_lt_zero i)
  | cons b w ih =>
    obtain ⟨-, hw⟩ := List.forall_mem_cons.1 hw
    cases i with
    | zero => exact Nat.xor_right_comm ..
    | succ i =>
      rw [modAt_cons_succ, synd1, ih hw (Nat.lt_of_succ_lt_succ hi), gfDouble_xor (synd1_lt hw) (iterate_gfDouble_lt he i), synd1,
        Function.iterate_succ_apply', Nat.xor_assoc]

/-! ### Stored words -/

/-- P + Q of R303. -/
def checkSum (d : List Nat) : Nat := synd0 d ^^^ gfDouble (gfDouble (synd1 d))

/-- The check byte c1 of R303. -/
def checkByte (d : List Nat) : Nat := gfMul (checkSum d) (gfPow 230)

theorem encodeWord_eq_checkByte (d : List Nat) : encodeWord d = (synd0 d ^^^ checkByte d) :: checkByte d :: d := rfl

theorem synd0_encodeWord (d : List Nat) : synd0 (encodeWord d) = 0 := by
  rw [encodeWord_eq_checkByte, synd0_cons, synd0_cons, Nat.xor_comm (checkByte d), Nat.xor_self]

section
variable {d : List Nat} (hd : ∀ b ∈ d, b < 256)
include hd

theorem checkSum_lt : checkSum d < 256 :=
  Nat.xor_lt_two_pow (n := 8) (foldl_xor_lt hd) (gfDouble_lt (gfDouble_lt (synd1_lt hd)))

theorem checkByte_lt : checkByte d < 256 := gfMul_lt _ (checkSum_lt hd)

theorem checkByte_mul_three : gfMul (checkByte d) 3 = checkSum d := gfMul_gfPow_mul_three (checkSum_lt hd)

theorem encodeWord_lt : ∀ b ∈ encodeWord d, b < 256 := by
  obtain ⟨c0, c1, h0, h1, he, -⟩ := encodeWord_eq hd
  rw [he]
  exact List.forall_mem_cons.2 ⟨h0, List.forall_mem_cons.2 ⟨h1, hd⟩⟩

theorem synd1_encodeWord : synd1 (encodeWord d) = 0 := by
  have hsum : checkByte d ^^^ gfDouble (checkByte d) = checkSum d := (gfMul_three _).symm.trans (checkByte_mul_three hd)
  calc synd1 (encodeWord d) = synd0 d ^^^ checkByte d ^^^ gfDouble (checkByte d ^^^ gfDouble (synd1 d)) := rfl
    _ = (checkByte d ^^^ gfDouble (checkByte d)) ^^^ checkSum d := by
      rw [gfDouble_xor (checkByte_lt hd) (gfDouble_lt (synd1_lt hd)), checkSum]
      simp only [Nat.xor_assoc, Nat.xor_left_comm (synd0 d)]
    _ = 0 := by rw [hsum, Nat.xor_self]

theorem synd0_poisonWord : synd0 (poisonWord d) = 0x01 := by
  obtain ⟨c0, c1, -, -, he, hp⟩ := encodeWord_eq hd
  calc synd0 (poisonWord d) = synd0 (encodeWord d) ^^^ (0x0A ^^^ 0x0B) := by
        rw [hp, he]
        simp only [synd0_cons]
        ac_rfl
    _ = 0x01 := by rw [synd0_encodeWord]; rfl

theorem synd1_poisonWord : synd1 (poisonWord d) = 0x1C := by
  obtain ⟨c0, c1, -, h1, he, hp⟩ := encodeWord_eq hd
  have hrest : c1 ^^^ gfDouble (synd1 d) < 256 := Nat.xor_lt_two_pow (n := 8) h1 (gfDouble_lt (synd1_lt hd))
  calc synd1 (poisonWord d) = synd1 (encodeWord d) ^^^ (0x0A ^^^ gfDouble 0x0B) := by
        rw [hp, he]
        simp only [synd1]
        rw [Nat.xor_right_comm c1, gfDouble_xor hrest (by decide)]
        ac_rfl
    _ = 0x1C := by rw [synd1_encodeWord hd]; rfl

end

/-! ### Classes -/

theorem classify_eq_clean_iff {w : Codeword} : classify w = .clean ↔ synd0 w = 0 ∧ synd1 w = 0 := by
  constructor
  · fun_cases classify w with
    | case1 s0 s1 h => exact fun _ => by simpa using h
    | case2 | case3 | case4 | case5 => exact nofun
  · rintro ⟨h0, h1⟩
    simp [classify, h0, h1]

theorem classify_of_poisoned {w : Codeword} (h0 : synd0 w = 0x01) (h1 : synd1 w = 0x1C) : classify w = .poison := by
  simp [classify, h0, h1]

theorem errPos_poisoned : errPos 0x01 0x1C = none := by decide +kernel

/-- An error in one byte leads to its position, as no two positions of a word share a syndrome pair (R304). -/
theorem errPos_iterate_gfDouble {e i : Nat} (he : e < 256) (h0 : e ≠ 0) (hi : i < 18) : errPos e (gfDouble^[i] e) = some i := by
  refine List.find?_range_eq_some.2 ⟨decide_eq_true (gfMul_gfPow he i), List.mem_range.2 hi, fun j hj => ?_⟩
  obtain ⟨k, rfl⟩ := Nat.exists_eq_add_of_lt hj
  rw [Bool.not_eq_true', decide_eq_false_iff_not, gfMul_gfPow he, Nat.add_assoc, Function.iterate_add_apply]
  exact fun h => iterate_gfDouble_ne_self he h0 (by omega) (iterate_gfDouble_injOn j (iterate_gfDouble_lt he _) he h.symm)

theorem classify_of_errPos {w : Codeword} {e i : Nat} (he : e < 256) (h0 : e ≠ 0) (hi : i < 18) (hs0 : synd0 w = e)
    (hs1 : synd1 w = gfDouble^[i] e) : classify w = .corrected i := by
  have hpos := errPos_iterate_gfDouble he h0 hi
  have hne : gfDouble^[i] e ≠ 0 := fun h =>
    h0 (iterate_gfDouble_injOn i he (by decide) (h.trans (Function.iterate_fixed gfDouble_zero i).symm))
  have hpoison : ¬(e = 0x01 ∧ gfDouble^[i] e = 0x1C) := by
    rintro ⟨rfl, h⟩
    exact Option.some_ne_none i (hpos.symm.trans (h ▸ errPos_poisoned))
  simp [classify, hs0, hs1, h0, hne, hpoison, hpos]

section
variable {w : Codeword} {i e : Nat} (hl : w.length = 18) (hw : ∀ b ∈ w, b < 256) (hc : classify w = .clean) (hi : i < 18) (h0 : 0 < e)
  (he : e < 256)
include hl hw hc hi h0 he

theorem classify_modAt_of_clean : classify (modAt w i (· ^^^ e)) = .corrected i := by
  obtain ⟨hs0, hs1⟩ := classify_eq_clean_iff.1 hc
  refine classify_of_errPos he (Nat.ne_of_gt h0) hi ?_ ?_
  · rw [synd0_modAt (hl ▸ hi), hs0, Nat.zero_xor]
  · rw [synd1_modAt hw (hl ▸ hi) he, hs1, Nat.zero_xor]

theorem correctWord_modAt_of_clean : correctWord (modAt w i (· ^^^ e)) = w := by
  obtain ⟨hs0, -⟩ := classify_eq_clean_iff.1 hc
  rw [correctWord, classify_modAt_of_clean hl hw hc hi h0 he]
  simp only [synd0_modAt (hl ▸ hi : i < w.length), hs0, Nat.zero_xor]
  rw [modAt, modAt, List.modify_modify_eq]
  have hid : (fun b => b ^^^ e) ∘ (fun b => b ^^^ e) = id := funext fun b => Nat.xor_xor_cancel_right b e
  rw [hid, List.modify_id]

end

end Sys2Proof.Machine

/-! SETTLED. The guard code and its poison pattern. -/
namespace Sys2Proof.Machine
open Sys2Proof

/-- Settles O5: the sums of R303 are the model's syndromes, and an error in one byte adds its own pair of syndromes to the two zeros. -/
theorem guardEncodes : Obligations.GuardEncodes := by
  refine ⟨fun d hl hd => ?_, by decide +kernel⟩
  intro p q c1
  have hq : q = gfDouble (gfDouble (synd1 d)) := foldl_gfPow_range 2 hl hd
  have hlen : (encodeWord d).length = 18 := congrArg (· + 2) hl
  have hlt := encodeWord_lt hd
  have hs0 := synd0_encodeWord d
  have hs1 := synd1_encodeWord hd
  have hclean := classify_eq_clean_iff.2 ⟨hs0, hs1⟩
  have hc1 : c1 = checkByte d := by rw [checkByte, checkSum, ← hq]; rfl
  refine ⟨?word, ?byte, by decide +kernel, ?sum0, ?sum1, hs0, hs1, hclean, fun i e hi h0 he => ?error⟩
  case word => rw [hc1]; rfl
  case byte => rw [hc1, checkByte_mul_three hd, checkSum, ← hq]; rfl
  case sum0 => exact (foldl_zip_fst_eq_synd0 hlen).trans hs0
  case sum1 => exact (foldl_gfPow_range 0 hlen hlt).trans hs1
  case error => exact ⟨classify_modAt_of_clean hlen hlt hclean hi h0 he, correctWord_modAt_of_clean hlen hlt hclean hi h0 he⟩

/-- Settles O6: the two check bytes add 0x01 and 0x1C to the syndromes, and an error in one byte of a clean word classes as corrected. -/
theorem guardPoisons : Obligations.GuardPoisons := by
  refine ⟨by decide +kernel, rfl, by decide, errPos_poisoned, fun d _ hd => ?_⟩
  obtain ⟨c0, c1, -, -, he, hp⟩ := encodeWord_eq hd
  have hs0 := synd0_poisonWord hd
  have hs1 := synd1_poisonWord hd
  have hclass := classify_of_poisoned hs0 hs1
  refine ⟨⟨c0, c1, he, hp⟩, hs0, hs1, hclass, ?kept, fun w hl hw hc i e hi h0 he => ?error⟩
  case kept => rw [correctWord, hclass]
  case error =>
    rw [classify_modAt_of_clean hl hw hc hi h0 he]
    exact WClass.noConfusion

end Sys2Proof.Machine

/-! SUPPORT. Accesses of the node range as they arrive (R330, R332): refused, answered or kept waiting. -/
namespace Sys2Proof.Machine
open Sys2Proof

/-- The state in which an access of the node range is served: the entries of its pages are read, the moves that a write asks for are started,
and a MOVING page is counted (R329, R330, R332). -/
def admitAcc (s : State) (a : WaitAcc) : State :=
  let u := startForWrite ((pagesOf a.addr a.len).foldl (fun t p => homeCheck (mayRetry t p) p) s) a
  if (pagesOf a.addr a.len).any (isMoving u) then bump u Reg.tirPromoteWaits else u

section
variable {s : State} {a : WaitAcc}

theorem arrive_of_beyond (h : rangePages s * 65536 < a.addr + a.len) :
    arrive s a = emit s (.failed a.req a.addr Status.accessDenied.code) := if_pos h

theorem arrive_of_inside (h : a.addr + a.len ≤ rangePages s * 65536) : arrive s a = serveOrWait (admitAcc s a) a := if_neg (Nat.not_lt.2 h)

theorem serveOrWait_of_ready (h : mustWait s a = false) : serveOrWait s a = answerAcc s a := if_neg (Bool.eq_false_iff.1 h)

theorem serveOrWait_of_waits (h : mustWait s a = true) : serveOrWait s a =
    modTiers (wantUnits s ((pagesOf a.addr a.len).flatMap (pageBlocked s))) (fun t => { t with waiting := t.waiting ++ [a] }) := if_pos h

end

end Sys2Proof.Machine

/-! SUPPORT. What the host does to its functions and its link (R410, R416, R430, R431, R511). -/
namespace Sys2Proof.Machine
open Sys2Proof

section
variable {s : State}

theorem hostMemRead_of_open (ho : portOpen s = true) (addr len : Nat) (bad : List (Nat × Nat)) (path : List PathUps) :
    hostMemRead addr len bad path s = access s 1 true addr len none bad path := if_pos ho

theorem hostMemRead_of_closed (ho : portOpen s = false) (addr len : Nat) (bad : List (Nat × Nat)) (path : List PathUps) :
    hostMemRead addr len bad path s = s := if_neg (Bool.eq_false_iff.1 ho)

theorem hostMemWrite_of_open (ho : portOpen s = true) (addr : Nat) (bs : List Byte) (ps : List Nat) (bad : List (Nat × Nat))
    (path : List PathUps) : hostMemWrite addr bs ps bad path s =
      access (bumpBy s Reg.intPoisonCarried ps.length) 1 true addr bs.length (some (bs, ps)) bad path := if_pos ho

theorem hostMemWrite_of_closed (ho : portOpen s = false) (addr : Nat) (bs : List Byte) (ps : List Nat) (bad : List (Nat × Nat))
    (path : List PathUps) : hostMemWrite addr bs ps bad path s = s := if_neg (Bool.eq_false_iff.1 ho)

theorem msixUnmask_entry {fn e : Nat} (hf : fnEnabled s fn = true) (hn : fn < 512) (he : e ≤ 8) : msixUnmask fn (some e) s =
    msixFlush (setMsix s fn { msixOf s fn with ents := mput (msixOf s fn).ents e { (msixOf s fn).ent e with masked := false } }) fn e := by
  have hle : fn ≤ 511 := Nat.le_of_lt_succ hn
  simp only [msixUnmask, hf, gt_iff_lt, Nat.not_lt.2 hle, Nat.not_lt.2 he, decide_false, Bool.not_true, Bool.or_self, Bool.false_eq_true,
    if_false]

theorem msixUnmask_function {fn : Nat} (hf : fnEnabled s fn = true) (hn : fn < 512) : msixUnmask fn none s =
    (List.range 9).foldl (fun t e => msixFlush t fn e) (setMsix s fn { msixOf s fn with enabled := true, fmask := false }) := by
  have hle : fn ≤ 511 := Nat.le_of_lt_succ hn
  simp only [msixUnmask, hf, gt_iff_lt, Nat.not_lt.2 hle, decide_false, Bool.not_true, Bool.or_self, Bool.false_eq_true, if_false]

theorem functionLevelReset_of_enabled {fn : Nat} (hf : fnEnabled s fn = true) (hn : fn < 512) : functionLevelReset fn s = flr s fn := by
  simp only [functionLevelReset, hf, hn, decide_true, Bool.and_self, if_true]

theorem vfEnable_of_raised {n : Nat} (h0 : 0 < n) (hn : n < 512) (hv : s.host.vfEnable = true → s.host.numVfs ≤ n) :
    vfEnable n s = modHost s (fun h => { h with vfEnable := true, numVfs := n }) := by
  have hle : n ≤ 511 := Nat.le_of_lt_succ hn
  have hraised : (s.host.vfEnable && decide (n < s.host.numVfs)) = false := by
    simpa only [Bool.and_eq_false_imp, decide_eq_false_iff_not, Nat.not_lt] using hv
  simp only [vfEnable, hraised, Nat.ne_of_gt h0, gt_iff_lt, Nat.not_lt.2 hle, decide_false, Bool.or_self, Bool.false_eq_true, if_false]

theorem vfDisable_of_lowered {n : Nat} (hv : s.host.vfEnable = true) (hn : n < s.host.numVfs) : vfDisable n s =
    modHost (((List.range (s.host.numVfs - n)).map (fun i => n + 1 + i)).foldl flr s) (fun h => { h with vfEnable := n != 0, numVfs := n }) := by
  simp only [vfDisable, hv, ge_iff_le, Nat.not_le.2 hn, decide_false, Bool.not_true, Bool.or_self, Bool.false_eq_true, if_false]

/-- The state in which CXL_PERST_N is high again: every function is reset (R511). -/
def perstHigh (s : State) : State :=
  modHost ((0 :: (List.range s.host.numVfs).map (· + 1)).foldl flr s) (fun h => { h with perstLow := false })

theorem perstRelease_of_low (hp : s.host.perstLow = true) :
    perstRelease s = if txOn (perstHigh s) then modHost (perstHigh s) (fun h => { h with linkUp := true }) else perstHigh s := by
  simp only [perstRelease, hp, Bool.not_true, Bool.false_eq_true, if_false]
  rfl

end
end Sys2Proof.Machine

/-! SETTLED. What the host does. -/
namespace Sys2Proof.Machine
open Sys2Proof

/-- Settles O14: an access of the host is one of the node range that has met its damaged words; the rest is one case of each meaning. -/
theorem hostAccess : Obligations.HostAccess := by
  refine ⟨fun s addr bad path => ?access, fun s => ⟨fun fn e hf hn he => ?entry, fun fn hf hn => ?function, fun fn hf hn => ?reset,
    fun n h0 hn hv => ?enable, fun n hv hn => ?disable, rfl, fun hp => ?release⟩⟩
  case access =>
    intro met ready ends
    have arrives {i : Instr} {t : State} {a : WaitAcc} (hi : exec i s = .next (arrive t a)) (hreq : a.req = 1) (haddr : a.addr = addr) :
        ends i t a := by
      refine ⟨fun h => ?_, fun h => ⟨fun hm => ?_, fun hm => ?_⟩⟩
      · rw [hi, arrive_of_beyond h, hreq, haddr]
      · rw [hi, arrive_of_inside h]
        exact congrArg Host.Outcome.next (serveOrWait_of_ready hm)
      · rw [hi, arrive_of_inside h]
        exact congrArg Host.Outcome.next (serveOrWait_of_waits hm)
    refine ⟨fun ho => ⟨fun len => arrives ?_ rfl rfl, fun bs ps => arrives ?_ rfl rfl⟩, fun ho len bs ps => ⟨?_, ?_⟩⟩
    · exact congrArg Host.Outcome.next (hostMemRead_of_open ho addr len bad path)
    · exact congrArg Host.Outcome.next (hostMemWrite_of_open ho addr bs ps bad path)
    · exact congrArg Host.Outcome.next (hostMemRead_of_closed ho addr len bad path)
    · exact congrArg Host.Outcome.next (hostMemWrite_of_closed ho addr bs ps bad path)
  case entry => exact congrArg Host.Outcome.next (msixUnmask_entry hf hn he)
  case function => exact congrArg Host.Outcome.next (msixUnmask_function hf hn)
  case reset => exact congrArg Host.Outcome.next (functionLevelReset_of_enabled hf hn)
  case enable => exact congrArg Host.Outcome.next (vfEnable_of_raised h0 hn hv)
  case disable => exact congrArg Host.Outcome.next (vfDisable_of_lowered hv hn)
  case release => exact congrArg Host.Outcome.next (perstRelease_of_low hp)

end Sys2Proof.Machine

/-! SETTLED. The step of the node and the canonical form of the DRAM's cells. -/
namespace Sys2Proof.Machine
open Sys2Proof

theorem memOk_of_next {t : State} (h : MemOk t) : ∀ u, (.next t : Host.Outcome State Fault Refusal) = .next u → MemOk u := by
  rintro _ ⟨⟩
  exact h

/-- Each command keeps the canonical form, by the law of its operation. -/
theorem exec_memOk {s : State} (h : MemOk s) (c : Instr) : ∀ t, exec c s = .next t → MemOk t := by
  cases c with
  | registerWrite => exact memOk_of_next (registerWrite_mem _ _ _ _ s h)
  | syncEnWrite => exact memOk_of_next (syncEnWrite_mem _ s h)
  | logPop => exact memOk_of_next (logPopWrite_mem s h)
  | queueCreate => exact memOk_of_next (queueCreate_mem _ s h)
  | queueDestroy => exact memOk_of_next (queueDestroy_mem _ _ s h)
  | queueDestroyDone => exact memOk_of_next (queueDestroyDone_mem _ s h)
  | warmResetRequest => exact memOk_of_next (warmResetRequest_mem s h)
  | feltResetRequest => exact memOk_of_next (feltResetRequest_mem s h)
  | drain => exact memOk_of_next (drain_mem _ s h)
  | cancel => exact memOk_of_next (cancel_mem s h)
  | unfence => exact memOk_of_next (unfence_mem _ s h)
  | testStart => exact memOk_of_next (testStart_mem _ _ s h)
  | testComplete => exact memOk_of_next (testComplete_mem _ s h)
  | attach => exact memOk_of_next (attach_mem _ _ s h)
  | detach => exact memOk_of_next (detach_mem s h)
  | clear => exact memOk_of_next (clear_mem s h)
  | jobRecordWritten => exact memOk_of_next (jobRecordWritten_mem s h)
  | capture => exact memOk_of_next (capture_mem s h)
  | failureRecordWritten => exact memOk_of_next (failureRecordWritten_mem s h)
  | fltFenceWrite => exact memOk_of_next (fltFenceWrite_mem _ _ s h)
  | kettleFenceWrite => exact memOk_of_next (kettleFenceWrite_mem _ _ _ s h)
  | kettleModeWrite => exact memOk_of_next (kettleModeWrite_mem _ _ s h)
  | flashFenceWrite => exact memOk_of_next (flashFenceWrite_mem _ _ _ s h)
  | dieReturnTestDone => exact memOk_of_next (dieReturnTestDone_mem _ _ _ s h)
  | portEnableWrite => exact memOk_of_next (portEnableWrite_mem _ _ s h)
  | portFenceWrite => exact memOk_of_next (portFenceWrite_mem _ _ s h)
  | rangePagesWrite => exact memOk_of_next (rangePagesWrite_mem _ s h)
  | floorWrite => exact memOk_of_next (floorWrite_mem _ _ s h)
  | lendWrite => exact memOk_of_next (lendWrite_mem _ _ s h)
  | twinEnWrite => exact memOk_of_next (twinEnWrite_mem _ s h)
  | meterWrite => exact memOk_of_next (meterWrite_mem _ _ _ s h)
  | msixUnmask => exact memOk_of_next (msixUnmask_mem _ _ s h)
  | hostMemRead => exact memOk_of_next (hostMemRead_mem _ _ _ _ s h)
  | hostMemWrite => exact memOk_of_next (hostMemWrite_mem _ _ _ _ _ s h)
  | watchWordWake => exact memOk_of_next (watchWordWake_mem _ s h)
  | queueVisit => exact memOk_of_next (queueVisit_mem s h)
  | cqHeadRead => exact memOk_of_next (cqHeadRead_mem _ s h)
  | irqCoalesceTimeout => exact memOk_of_next (irqCoalesceTimeout_mem _ s h)
  | functionLevelReset => exact memOk_of_next (functionLevelReset_mem _ s h)
  | vfDisable => exact memOk_of_next (vfDisable_mem _ s h)
  | perstAssert => exact memOk_of_next (perstAssert_mem s h)
  | perstRelease => exact memOk_of_next (perstRelease_mem s h)
  | identifyMemoryDevice => exact memOk_of_next (identifyMemoryDevice_mem _ s h)
  | getSupportedLogs => exact memOk_of_next (getSupportedLogs_mem _ s h)
  | getLog => exact memOk_of_next (getLog_mem _ _ _ _ s h)
  | getEventRecords => exact memOk_of_next (getEventRecords_mem _ _ s h)
  | clearEventRecords => exact memOk_of_next (clearEventRecords_mem _ _ _ _ s h)
  | getEventInterruptPolicy => exact memOk_of_next (getEventInterruptPolicy_mem _ s h)
  | setEventInterruptPolicy => exact memOk_of_next (setEventInterruptPolicy_mem _ _ s h)
  | getTimestamp => exact memOk_of_next (getTimestamp_mem _ s h)
  | setTimestamp => exact memOk_of_next (setTimestamp_mem _ _ s h)
  | getHealthInfo => exact memOk_of_next (getHealthInfo_mem _ s h)
  | getFwInfo => exact memOk_of_next (getFwInfo_mem _ s h)
  | transferFw => exact memOk_of_next (transferFw_mem _ _ _ _ _ s h)
  | activateFw => exact memOk_of_next (activateFw_mem _ _ _ s h)
  | unsupportedOpcode => exact memOk_of_next (unsupportedOpcode_mem _ s h)
  | getSensors => exact memOk_of_next (getSensors_mem _ s h)
  | getEventLog => exact memOk_of_next (getEventLog_mem _ _ _ s h)
  | getCert => exact memOk_of_next (getCert_mem _ s h)
  | getReport => exact memOk_of_next (getReport_mem _ _ s h)
  | commitSvn => exact memOk_of_next (commitSvn_mem _ s h)
  | frecList => exact memOk_of_next (frecList_mem _ s h)
  | frecRead => exact memOk_of_next (frecRead_mem _ _ _ _ s h)
  | frecHold => exact memOk_of_next (frecHold_mem _ _ _ s h)
  | getChallenge => exact memOk_of_next (getChallenge_mem _ s h)
  | ownerEnroll => exact memOk_of_next (ownerEnroll_mem _ _ s h)
  | ownerRevoke => exact memOk_of_next (ownerRevoke_mem _ _ _ _ s h)
  | debugReset => exact memOk_of_next (debugReset_mem _ _ _ s h)
  | setSetting => exact memOk_of_next (setSetting_mem _ _ _ _ s h)
  | vendorUnlock => exact memOk_of_next (vendorUnlock_mem _ _ _ s h)
  | spdmGetMeasurements => exact memOk_of_next (spdmGetMeasurements_mem _ s h)
  | search => exact memOk_of_next (search_mem _ s h)
  | insert => exact memOk_of_next (insert_mem _ s h)
  | delete => exact memOk_of_next (delete_mem _ s h)
  | updatePrepareComplete => exact memOk_of_next (updatePrepareComplete_mem _ s h)
  | commit => exact memOk_of_next (commit_mem _ s h)
  | gather => exact memOk_of_next (gather_mem _ s h)
  | gatherAdmit => exact memOk_of_next (gatherAdmit_mem s h)
  | scatter => exact memOk_of_next (scatter_mem _ s h)
  | scatterStart => exact memOk_of_next (scatterStart_mem _ s h)
  | scatterRowResume => exact memOk_of_next (scatterRowResume_mem _ s h)
  | run => exact memOk_of_next (run_mem _ s h)
  | move => exact memOk_of_next (moveDesc_mem _ _ s h)
  | rmaWrite => exact memOk_of_next (rmaWrite_mem _ s h)
  | rmaRead => exact memOk_of_next (rmaRead_mem _ s h)
  | rmaFetchAdd => exact memOk_of_next (rmaFetchAdd_mem _ s h)
  | rmaCompareSwap => exact memOk_of_next (rmaCompareSwap_mem _ s h)
  | rmaFlush => exact memOk_of_next (rmaFlush_mem _ s h)
  | rmaWait => exact memOk_of_next (rmaWait_mem _ s h)
  | waitRelease => exact memOk_of_next (waitRelease_mem _ s h)
  | tenantOpen => exact memOk_of_next (tenantOpen_mem _ s h)
  | tenantClose => exact memOk_of_next (tenantClose_mem _ s h)
  | indexRegister => exact memOk_of_next (indexRegister_mem _ s h)
  | indexDeregister => exact memOk_of_next (indexDeregister_mem _ s h)
  | shardAttach => exact memOk_of_next (shardAttach_mem _ s h)
  | shardDetach => exact memOk_of_next (shardDetach_mem _ s h)
  | shardDetachComplete => exact memOk_of_next (shardDetachComplete_mem _ _ s h)
  | tableRegister => exact memOk_of_next (tableRegister_mem _ s h)
  | tableDeregister => exact memOk_of_next (tableDeregister_mem _ s h)
  | pin => exact memOk_of_next (pin_mem _ s h)
  | unpin => exact memOk_of_next (unpin_mem _ s h)
  | load => exact memOk_of_next (load_mem _ s h)
  | unload => exact memOk_of_next (unload_mem _ s h)
  | stopRun => exact memOk_of_next (stopRun_mem _ s h)
  | withdraw => exact memOk_of_next (withdraw_mem _ s h)
  | role => exact memOk_of_next (role_mem _ s h)
  | areaCreate => exact memOk_of_next (areaCreate_mem _ s h)
  | areaDelete => exact memOk_of_next (areaDelete_mem _ s h)
  | areaWrite => exact memOk_of_next (areaWriteCmd_mem _ s h)
  | areaRead => exact memOk_of_next (areaReadCmd_mem _ s h)
  | regionRegister => exact memOk_of_next (regionRegister_mem _ s h)
  | regionDeregister => exact memOk_of_next (regionDeregister_mem _ s h)
  | regionDeregisterDone => exact memOk_of_next (regionDeregisterDone_mem _ s h)
  | gateList => exact memOk_of_next (gateList_mem _ s h)
  | loadFrame => exact memOk_of_next (loadFrame_mem _ _ _ s h)
  | checkFrame => exact memOk_of_next (checkFrame_mem _ _ _ s h)
  | tickRefLost => exact memOk_of_next (tickRefLost_mem s h)
  | phaseLost => exact memOk_of_next (phaseLost_mem _ s h)
  | checkMissing => exact memOk_of_next (checkMissing_mem s h)
  | crossingAlignment => exact memOk_of_next (crossingAlignment_mem s h)
  | eventPrepare => exact memOk_of_next (eventPrepare_mem s h)
  | comparisonPoint => exact memOk_of_next (edgeComparison_mem s h)
  | stepBoundary => exact memOk_of_next (stepBoundary_mem _ s h)
  | epochCommit => exact memOk_of_next (epochCommit_mem _ _ s h)
  | gateListTakeover => exact memOk_of_next (gateListTakeover_mem _ s h)
  | gateEntryChange => exact memOk_of_next (gateEntryChange_mem _ s h)
  | imageLaunch => exact memOk_of_next (imageLaunch_mem _ s h)
  | scrubPacing => exact memOk_of_next (scrubPacing_mem s h)
  | roleApply => exact memOk_of_next (roleApply_mem s h)
  | meterRefill => exact memOk_of_next (meterRefill_mem s h)
  | twinFrameSend => exact memOk_of_next (twinFrameSend_mem s h)
  | twinLinkLost => exact memOk_of_next (twinLinkLost_mem s h)
  | shardSearchAdmit => exact memOk_of_next (shardSearchAdmit_mem _ (edgeUpTo_mem s 3 h))
  | admitTimeout => exact memOk_of_next (admitTimeout_mem _ s h)
  | traversalRound => exact memOk_of_next (traversalRound_mem _ s h)
  | searchDeadline => exact memOk_of_next (searchDeadline_mem _ s h)
  | shardSearchExpiry => exact memOk_of_next (shardSearchExpiry_mem _ s h)
  | merge => exact memOk_of_next (merge_mem s h)
  | rowFold => exact memOk_of_next (rowFold_mem _ _ _ s h)
  | forcedRetirement => exact memOk_of_next (forcedRetirement_mem _ s h)
  | versionPressureRetire => exact memOk_of_next (versionPressureRetire_mem s h)
  | loadWindowEnd => exact memOk_of_next (loadWindowEnd_mem s h)
  | transferReady => exact memOk_of_next (transferReady_mem _ _ _ _ s h)
  | lateReleaseResume => exact memOk_of_next (lateReleaseResume_mem _ s h)
  | feltWatchdog => exact memOk_of_next (feltWatchdog_mem _ s h)
  | stop => exact memOk_of_next (cellStop_mem _ _ _ s h)
  | cnop => exact memOk_of_next (cellCnop_mem _ _ _ s h)
  | add => exact memOk_of_next (cellAdd_mem _ _ _ s h)
  | sub => exact memOk_of_next (cellSub_mem _ _ _ s h)
  | and => exact memOk_of_next (cellAnd_mem _ _ _ s h)
  | or => exact memOk_of_next (cellOr_mem _ _ _ s h)
  | xor => exact memOk_of_next (cellXor_mem _ _ _ s h)
  | shl => exact memOk_of_next (cellShl_mem _ _ _ s h)
  | shr => exact memOk_of_next (cellShr_mem _ _ _ s h)
  | sar => exact memOk_of_next (cellSar_mem _ _ _ s h)
  | mul => exact memOk_of_next (cellMul_mem _ _ _ s h)
  | mins => exact memOk_of_next (cellMins_mem _ _ _ s h)
  | maxs => exact memOk_of_next (cellMaxs_mem _ _ _ s h)
  | addi => exact memOk_of_next (cellAddi_mem _ _ _ s h)
  | andi => exact memOk_of_next (cellAndi_mem _ _ _ s h)
  | ori => exact memOk_of_next (cellOri_mem _ _ _ s h)
  | ldi0 => exact memOk_of_next (cellLdi0_mem _ _ _ s h)
  | ldi1 => exact memOk_of_next (cellLdi1_mem _ _ _ s h)
  | ldi2 => exact memOk_of_next (cellLdi2_mem _ _ _ s h)
  | ldi3 => exact memOk_of_next (cellLdi3_mem _ _ _ s h)
  | loop => exact memOk_of_next (cellLoop_mem _ _ _ s h)
  | jump => exact memOk_of_next (cellJump_mem _ _ _ s h)
  | stsel => exact memOk_of_next (cellStsel_mem _ _ _ s h)
  | mnop => exact memOk_of_next (cellMnop_mem _ _ _ s h)
  | mma => exact memOk_of_next (cellMma_mem _ _ _ s h)
  | mclr => exact memOk_of_next (cellMclr_mem _ _ _ s h)
  | mrd => exact memOk_of_next (cellMrd_mem _ _ _ s h)
  | mwr => exact memOk_of_next (cellMwr_mem _ _ _ s h)
  | vnop => exact memOk_of_next (cellVnop_mem _ _ _ s h)
  | vadd => exact memOk_of_next (cellVadd_mem _ _ _ s h)
  | vsub => exact memOk_of_next (cellVsub_mem _ _ _ s h)
  | vmul => exact memOk_of_next (cellVmul_mem _ _ _ s h)
  | vfma => exact memOk_of_next (cellVfma_mem _ _ _ s h)
  | vfnma => exact memOk_of_next (cellVfnma_mem _ _ _ s h)
  | vmin => exact memOk_of_next (cellVmin_mem _ _ _ s h)
  | vmax => exact memOk_of_next (cellVmax_mem _ _ _ s h)
  | vcmp => exact memOk_of_next (cellVcmp_mem _ _ _ s h)
  | viadd => exact memOk_of_next (cellViadd_mem _ _ _ s h)
  | visub => exact memOk_of_next (cellVisub_mem _ _ _ s h)
  | vimul => exact memOk_of_next (cellVimul_mem _ _ _ s h)
  | vand => exact memOk_of_next (cellVand_mem _ _ _ s h)
  | vor => exact memOk_of_next (cellVor_mem _ _ _ s h)
  | vxor => exact memOk_of_next (cellVxor_mem _ _ _ s h)
  | vshl => exact memOk_of_next (cellVshl_mem _ _ _ s h)
  | vshr => exact memOk_of_next (cellVshr_mem _ _ _ s h)
  | vsel => exact memOk_of_next (cellVsel_mem _ _ _ s h)
  | vbc => exact memOk_of_next (cellVbc_mem _ _ _ s h)
  | vget => exact memOk_of_next (cellVget_mem _ _ _ s h)
  | vput => exact memOk_of_next (cellVput_mem _ _ _ s h)
  | vrot => exact memOk_of_next (cellVrot_mem _ _ _ s h)
  | pset => exact memOk_of_next (cellPset_mem _ _ _ s h)
  | pget => exact memOk_of_next (cellPget_mem _ _ _ s h)
  | vcvt => exact memOk_of_next (cellVcvt_mem _ _ _ s h)
  | vrsc => exact memOk_of_next (cellVrsc_mem _ _ _ s h)
  | vamax => exact memOk_of_next (cellVamax_mem _ _ _ s h)
  | vqenc => exact memOk_of_next (cellVqenc_mem _ _ _ s h)
  | vqdec => exact memOk_of_next (cellVqdec_mem _ _ _ s h)
  | xclr => exact memOk_of_next (cellXclr_mem _ _ _ s h)
  | xdot => exact memOk_of_next (cellXdot_mem _ _ _ s h)
  | xsum => exact memOk_of_next (cellXsum_mem _ _ _ s h)
  | xsqd => exact memOk_of_next (cellXsqd_mem _ _ _ s h)
  | xdotqQi8 => exact memOk_of_next (cellXdotqQi8_mem _ _ _ s h)
  | xdotqQi4 => exact memOk_of_next (cellXdotqQi4_mem _ _ _ s h)
  | xrnd => exact memOk_of_next (cellXrnd_mem _ _ _ s h)
  | xget => exact memOk_of_next (cellXget_mem _ _ _ s h)
  | xadd => exact memOk_of_next (cellXadd_mem _ _ _ s h)
  | xnop => exact memOk_of_next (cellXnop_mem _ _ _ s h)
  | wrel => exact memOk_of_next (cellWrel_mem _ _ _ s h)
  | wgive => exact memOk_of_next (cellWgive_mem _ _ _ s h)
  | vlda => exact memOk_of_next (cellVlda_mem _ _ _ _ s h)
  | vsta => exact memOk_of_next (cellVsta_mem _ _ _ s h)
  | vld => exact memOk_of_next (cellVld_mem _ _ _ _ s h)
  | vst => exact memOk_of_next (cellVst_mem _ _ _ s h)
  | sld => exact memOk_of_next (cellSld_mem _ _ _ _ s h)
  | sst => exact memOk_of_next (cellSst_mem _ _ _ s h)
  | send => exact memOk_of_next (cellSend_mem _ _ _ s h)
  | recv => exact memOk_of_next (cellRecv_mem _ _ _ s h)
  | dramRead => exact dramReadAt_mem _ _ _ _ _ _ _ s h
  | dramWrite => exact dramWriteAt_mem _ _ _ _ _ _ _ _ s h
  | refresh => exact memOk_of_next (refresh_mem _ _ s h)
  | kettleJob => exact memOk_of_next (kettleJob_mem _ _ _ _ _ _ _ _ _ s h)
  | kettleJobStart => exact memOk_of_next (kettleJobStart_mem _ s h)
  | kettlePoll => exact memOk_of_next (kettlePoll_mem _ s h)
  | fullWindowEnd => exact memOk_of_next (fullWindowEnd_mem _ s h)
  | kettleJobComplete => exact memOk_of_next (kettleJobComplete_mem _ s h)
  | kettleParityError => exact memOk_of_next (kettleParityError_mem _ _ s h)
  | knop => exact memOk_of_next (knop_mem _ _ s h)
  | lds => exact memOk_of_next (lds_mem _ _ s h)
  | sto => exact memOk_of_next (sto_mem _ _ s h)
  | ldi => exact memOk_of_next (ldi_mem _ _ s h)
  | ldc => exact memOk_of_next (ldc_mem _ _ s h)
  | ald => exact memOk_of_next (ald_mem _ _ s h)
  | aadd => exact memOk_of_next (aadd_mem _ _ s h)
  | cmp => exact memOk_of_next (cmp_mem _ _ s h)
  | tst => exact memOk_of_next (tst_mem _ _ s h)
  | mand => exact memOk_of_next (mand_mem _ _ s h)
  | mor => exact memOk_of_next (mor_mem _ _ s h)
  | mnot => exact memOk_of_next (mnot_mem _ _ s h)
  | iadd => exact memOk_of_next (iadd_mem _ _ s h)
  | iadds => exact memOk_of_next (iadds_mem _ _ s h)
  | widen => exact memOk_of_next (widen_mem _ _ s h)
  | tlu => exact memOk_of_next (tlu_mem _ _ s h)
  | gsum => exact memOk_of_next (gsum_mem _ _ s h)
  | bits => exact memOk_of_next (kbits_mem _ _ s h)
  | filt => exact memOk_of_next (filt_mem _ _ s h)
  | emit => exact memOk_of_next (kemit_mem _ _ s h)
  | kettleLoop => exact memOk_of_next (kettleLoop_mem _ _ s h)
  | kettleEnd => exact memOk_of_next (kettleEnd_mem _ _ s h)
  | scrubLineVisit => exact memOk_of_next (scrubLineVisit_mem _ _ s h)
  | nodeRangeAccess => exact memOk_of_next (nodeRangeAccess_mem _ _ _ _ _ _ s h)
  | frameAllocate => exact memOk_of_next (frameAllocate_mem s h)
  | moveStart => exact memOk_of_next (moveStart_mem _ _ s h)
  | moveCommit => exact memOk_of_next (moveCommit_mem _ s h)
  | moveAbandon => exact memOk_of_next (moveAbandon_mem _ s h)
  | demotionRound => exact memOk_of_next (demotionRound_mem _ s h)
  | agerSweep => exact memOk_of_next (agerSweep_mem s h)
  | lentFrameRequest => exact memOk_of_next (lentFrameRequest_mem _ s h)
  | flashWrite => exact memOk_of_next (flashWrite_mem _ _ _ _ _ s h)
  | flashWriteResume => exact memOk_of_next (flashWriteResume_mem s h)
  | bandRowProgram => exact memOk_of_next (bandRowProgram_mem _ _ s h)
  | flashProgramComplete => exact memOk_of_next (flashProgramComplete_mem _ _ _ s h)
  | flashRead => exact memOk_of_next (flashRead_mem _ _ _ _ s h)
  | flashReadComplete => exact memOk_of_next (flashReadComplete_mem _ _ s h)
  | garbageCollection => exact memOk_of_next (garbageCollection_mem s h)
  | slcFold => exact memOk_of_next (slcFold_mem _ s h)
  | patrolRead => exact memOk_of_next (patrolRead_mem _ _ s h)
  | checkpointWrite => exact memOk_of_next (checkpointWrite_mem _ s h)
  | rowRebuild => exact memOk_of_next (rowRebuild_mem s h)
  | flashMount => exact memOk_of_next (flashMount_mem _ s h)
  | mountComplete => exact memOk_of_next (mountComplete_mem s h)
  | plossRecognised => exact memOk_of_next (plossRecognised_mem s h)
  | plossGlitch => exact memOk_of_next (plossGlitch_mem s h)
  | flushMarkerWritten => exact memOk_of_next (flushMarkerWritten_mem s h)
  | flashOpTimeout => exact memOk_of_next (flashOpTimeout_mem _ _ _ _ s h)
  | portTraining => exact memOk_of_next (portTraining_mem _ _ _ _ s h)
  | trainingRetry => exact memOk_of_next (trainingRetry_mem _ s h)
  | portDown => exact memOk_of_next (sysLost_mem _ (portDown_mem _ s h))
  | flitReceive => exact memOk_of_next (flitReceive_mem _ _ _ _ s h)
  | quarantineEnd => exact memOk_of_next (quarantineEnd_mem _ s h)
  | packetForward => exact memOk_of_next (sysLost_mem _ (packetForward_mem _ _ s h))
  | write => exact memOk_of_next (sysLost_mem _ (write_mem _ _ s h))
  | readReq => exact memOk_of_next (sysLost_mem _ (readReq_mem _ _ s h))
  | readData => exact memOk_of_next (sysLost_mem _ (readData_mem _ _ s h))
  | fetchAdd => exact memOk_of_next (sysLost_mem _ (fetchAdd_mem _ _ s h))
  | compareSwap => exact memOk_of_next (sysLost_mem _ (compareSwap_mem _ _ s h))
  | atomicResp => exact memOk_of_next (sysLost_mem _ (atomicResp_mem _ _ s h))
  | placed => exact memOk_of_next (sysLost_mem _ (placed_mem _ _ s h))
  | nak => exact memOk_of_next (sysLost_mem _ (nak_mem _ _ s h))
  | sys => exact memOk_of_next (sysLost_mem _ (sys_mem _ _ _ s h))
  | portmap => exact memOk_of_next (sysLost_mem _ (portmap_mem _ _ s h))
  | portmapSend => exact memOk_of_next (portmapSend_mem s h)
  | twin => exact memOk_of_next (twin_mem _ _ s h)
  | queueSample => exact memOk_of_next (queueSample_mem s h)
  | descriptorTimeout => exact memOk_of_next (descriptorTimeout_mem _ _ s h)
  | rmaTimeout => exact memOk_of_next (rmaTimeout_mem _ s h)
  | reassemblyTimeout => exact memOk_of_next (sysReassemblyTimeout_mem _ _ _ s h)
  | kettleOpTimeout => exact memOk_of_next (kettleOpTimeout_mem _ _ s h)
  | engineReset => exact memOk_of_next (engineReset_mem _ s h)
  | coreWatchdogExpiry => exact memOk_of_next (coreWatchdogExpiry_mem _ _ _ s h)
  | crownWatchdogExpiry => exact memOk_of_next (crownWatchdogExpiry_mem s h)
  | powerOn => exact memOk_of_next (powerOn_mem s h)
  | brownOut => exact memOk_of_next (brownOut_mem _ s h)
  | resetNAssert => exact memOk_of_next (resetNAssert_mem s h)
  | resetNRelease => exact memOk_of_next (resetNRelease_mem s h)
  | coreRefLost => exact memOk_of_next (coreRefLost_mem s h)
  | portRefLost => exact memOk_of_next (portRefLost_mem s h)
  | dramPllUnlock => exact memOk_of_next (dramPllUnlock_mem s h)
  | coreDoubleFault => exact memOk_of_next (coreDoubleFault_mem s h)
  | ringDeadlock => exact memOk_of_next (ringDeadlock_mem s h)
  | warmResetPreparation => exact memOk_of_next (warmResetPreparation_mem _ s h)
  | warmReset => exact memOk_of_next (warmReset_mem s h)
  | coldReset => exact memOk_of_next (coldReset_mem s h)
  | feltOnlyReset => exact memOk_of_next (feltOnlyReset_mem s h)
  | startupStepComplete => exact memOk_of_next (startupStepComplete_mem _ s h)
  | powerMeasure => exact memOk_of_next (powerMeasure_mem _ s h)
  | sensorRefresh => exact memOk_of_next (sensorRefresh_mem _ s h)
  | thermalTrip => exact memOk_of_next (thermalTrip_mem _ s h)
  | eventLogWrite => exact memOk_of_next (eventLogWrite_mem s h)
  | vfEnable => exact memOk_of_next (vfEnable_mem _ s h)
  | vddMgmtRemoved => exact memOk_of_next (vddMgmtRemoved_mem s h)
  | atomicReplayExpiry => exact memOk_of_next (atomicReplayExpiry_mem _ _ s h)
  | wholeKeyExpiry => exact memOk_of_next (wholeKeyExpiry_mem _ _ s h)
  | engineResetComplete => exact memOk_of_next (engineResetComplete_mem _ s h)
  | coreRestartComplete => exact memOk_of_next (coreRestartComplete_mem _ s h)
  | spdmKeyExchange => exact memOk_of_next (spdmKeyExchange_mem _ _ s h)

theorem step_of_idle {s : State} (hp : s.pending = []) : step s = .next (tickIdle s) := by rw [step, hp]

theorem step_of_waiting {s : State} {c : Instr} {rest : List Instr} (hp : s.pending = c :: rest) :
    step s = exec c { s with pending := rest } := by rw [step, hp]

/-- Settles O3: a tick stores nothing, and each command keeps the canonical form. -/
theorem memoryCanonical : Obligations.MemoryCanonical := by
  intro s t h ht
  cases hp : s.pending with
  | nil =>
    exact memOk_of_next (tickIdle_mem s h) t ((step_of_idle hp).symm.trans ht)
  | cons c rest =>
    exact exec_memOk (s := { s with pending := rest }) h c t ((step_of_waiting hp).symm.trans ht)

/-- Settles O1: a waiting command by the step's definition, and on an empty queue the tick by whether the clocks run. -/
theorem stepRunsFront : Obligations.StepRunsFront := by
  refine ⟨fun c rest s => step_of_waiting rfl, fun s hp => ?_⟩
  intro t
  exact ⟨fun hc => (step_of_idle hp).trans (congrArg Host.Outcome.next (if_pos hc)),
    fun hc => (step_of_idle hp).trans (congrArg Host.Outcome.next (if_neg (ne_true_of_eq_false hc)))⟩

end Sys2Proof.Machine

/-! SUPPORT. Demotion, ageing and lent frames, each operation by what decides it. -/
namespace Sys2Proof.Machine
open Sys2Proof

/-! ### Demotion -/

section
variable {s : State} (hr : ringUp s = true) (offers : List (Nat × Nat))
include hr

theorem demotionRound_of_low (h : poolFree s < getF s Reg.tirWaterLow) : demotionRound offers s =
    demoteLoop (s.tiers.home.length + 1) s offers (max (getF s Reg.tirWaterLow) (getF s Reg.tirWaterHigh)) := by
  simp only [demotionRound, hr, h, Bool.not_true, Bool.false_eq_true, if_false, if_true]

theorem demotionRound_of_starved (h : getF s Reg.tirWaterLow ≤ poolFree s) (hw : starved s = true) :
    demotionRound offers s = demoteLoop (s.tiers.home.length + 1) s offers 0 := by
  simp only [demotionRound, hr, Nat.not_lt.2 h, hw, Bool.not_true, Bool.false_eq_true, if_false, if_true]

theorem demotionRound_of_content (h : getF s Reg.tirWaterLow ≤ poolFree s) (hw : starved s = false) : demotionRound offers s = s := by
  simp only [demotionRound, hr, Nat.not_lt.2 h, hw, Bool.not_true, Bool.false_eq_true, if_false]

end

section
variable {s : State} {f goal : Nat} {offers : List (Nat × Nat)}

theorem demoteLoop_of_reached (hg : goal ≤ poolFree s) (hw : starved s = false) : demoteLoop (f + 1) s offers goal = s := by
  simp only [demoteLoop, ge_iff_le, hg, hw, decide_true, Bool.not_false, Bool.and_self, if_true]

theorem demoteLoop_of_none (hc : demoteCandidate s = none) : demoteLoop (f + 1) s offers goal = s := by
  simp only [demoteLoop, hc, ite_self]

theorem demoteLoop_of_demoted {p : Nat} {e : PageEnt} {t : State} {o : List (Nat × Nat)} (hg : poolFree s < goal ∨ starved s = true)
    (hc : demoteCandidate s = some (p, e)) (hd : demoteOne s offers p e = some (t, o)) :
    demoteLoop (f + 1) s offers goal = demoteLoop f t o goal := by
  have hon : (decide (poolFree s ≥ goal) && !(starved s)) = false := by
    rcases hg with h | h
    · rw [decide_eq_false (Nat.not_le.2 h), Bool.false_and]
    · rw [h, Bool.not_true, Bool.and_false]
  simp only [demoteLoop, hon, hc, hd, Bool.false_eq_true, if_false]

end

/-! ### Ageing -/

theorem agerSweep_of_off {s : State} (h : tickOf s % agePeriod s ≠ 0) : agerSweep s = s := by
  simp only [agerSweep, h, decide_false, Bool.and_false, Bool.false_eq_true, if_false]

/-- A page's entry after sweep `n`: only a page at home in DRAM or lent ages (R339). -/
def agedEnt (n : Nat) (e : PageEnt) : PageEnt :=
  match e.home with
  | .t2 .. => { e with age := agedBy n e.age }
  | .lent .. => { e with age := agedBy n e.age }
  | _ => e

theorem agerSweep_of_due {s : State} (hr : ringUp s = true) (h : tickOf s % agePeriod s = 0) : agerSweep s =
    modTiers s (fun t => { t with home := t.home.map (fun x => (x.1, agedEnt t.sweep x.2)), sweep := t.sweep + 1 }) :=
  if_pos (by rw [hr, decide_eq_true h, Bool.and_self])

/-! ### The lender -/

section
variable {s : State} (node : Nat)

theorem lendTo_of_none (h : (offerAll s).tiers.lentOut.find? (fun e => e.2.borrower.isNone) = none) :
    lendTo s node = emit (offerAll s) (.lentAnswer node none) := by
  simp only [lendTo, h]

theorem lendTo_of_free {h : Nat} {e : LentFrame} (hf : (offerAll s).tiers.lentOut.find? (fun e => e.2.borrower.isNone) = some (h, e)) :
    lendTo s node = emit (modTiers (offerAll s) (fun x => { x with lentOut := mput x.lentOut h { e with borrower := some node, gen := e.gen + 1 } }))
      (.lentAnswer node (some h)) := by
  simp only [lendTo, hf]

variable {node} {h : Nat} {e : LentFrame} (he : mget s.tiers.lentOut h = some e)
include he

theorem takeBack_of_other (hb : e.borrower ≠ some node) : takeBack s node h = s := by
  simp only [takeBack, he, bne_iff_ne.2 hb, if_true]

/-- Whether a frame that came back leaves the table (R341, R342). -/
def leavesTable (s : State) (e : LentFrame) : Bool :=
  e.recalled || decide ((releaseFrame s e.site e.frame).tiers.lentOut.length > getF (releaseFrame s e.site e.frame) Reg.tirLendFrames) ||
    !(mayOffer (releaseFrame s e.site e.frame) e)

theorem takeBack_of_borrower (hb : e.borrower = some node) : takeBack s node h =
    if leavesTable s e then
      offerAll (modTiers (releaseFrame s e.site e.frame) (fun x => { x with lentOut := mdel x.lentOut h }))
    else modTiers (releaseFrame s e.site e.frame) (fun x => { x with lentOut := mput x.lentOut h { e with borrower := none } }) := by
  rw [takeBack, he]
  exact if_neg (by rw [hb, bne_self_eq_false]; decide)

end
end Sys2Proof.Machine

/-! SETTLED. Demotion, ageing and lent frames. -/
namespace Sys2Proof.Machine
open Sys2Proof

/-- What a message about lent frames does while the Ring serves. -/
theorem exec_lentFrameRequest {s : State} (hr : ringUp s = true) (m : LentMsg) : exec (.lentFrameRequest m) s = .next (match m with
    | .ask node => lendTo s node
    | .back node handle => takeBack s node handle
    | .recall lender handle => (lentPages s lender handle).foldl recallPage s
    | .unknown lender handle => lentUnknown s lender handle
    | .spoiled lender handle words =>
      (lentPages s lender handle).foldl (fun t p => modTiers t (fun x => { x with lentHeld := mmod x.lentHeld p (fun us =>
        us.zipIdx.map (fun u => { u.1 with pois := u.1.pois ||| maskOf 256 (fun w => words.contains (256 * u.2 + w)) })) })) s) :=
  congrArg Host.Outcome.next (if_neg (by rw [hr]; decide))

/-- Settles O54: a round by the pool and the writes that wait, the ager by its tick, and each message about lent frames by what it finds. -/
theorem demotionAgingLending : Obligations.DemotionAgingLending := by
  intro s hr
  refine ⟨fun grants => ⟨fun h => ?low, fun h hw => ?starved, fun h hw => ?content⟩,
    fun f offers goal => ⟨demoteLoop_of_reached, demoteLoop_of_none, fun p e t o => demoteLoop_of_demoted⟩,
    fun h => ?due, fun h => ?early, fun node => ⟨fun h => ?none, fun h e hf => ?free⟩,
    fun node h e he => ⟨fun hb => ?other, fun hb hg => ?leaves, fun hb hg => ?stays⟩,
    fun l h => exec_lentFrameRequest hr _, fun l h => exec_lentFrameRequest hr _, fun l h words => exec_lentFrameRequest hr _⟩
  case low => exact congrArg Host.Outcome.next (demotionRound_of_low hr grants h)
  case starved => exact congrArg Host.Outcome.next (demotionRound_of_starved hr grants h hw)
  case content => exact congrArg Host.Outcome.next (demotionRound_of_content hr grants h hw)
  case due => exact ⟨_, congrArg Host.Outcome.next (agerSweep_of_due hr h), rfl, rfl, rfl⟩
  case early => exact congrArg Host.Outcome.next (agerSweep_of_off h)
  case none => exact (exec_lentFrameRequest hr _).trans (congrArg Host.Outcome.next (lendTo_of_none node h))
  case free => exact (exec_lentFrameRequest hr _).trans (congrArg Host.Outcome.next (lendTo_of_free node hf))
  case other => exact (exec_lentFrameRequest hr _).trans (congrArg Host.Outcome.next (takeBack_of_other he hb))
  case leaves => exact (exec_lentFrameRequest hr _).trans (congrArg Host.Outcome.next ((takeBack_of_borrower he hb).trans (if_pos hg)))
  case stays =>
    exact (exec_lentFrameRequest hr _).trans (congrArg Host.Outcome.next ((takeBack_of_borrower he hb).trans (if_neg (ne_true_of_eq_false hg))))

end Sys2Proof.Machine

/-! SUPPORT. What runs out in the fabric: messages, moves to a lender, reassemblies and what is kept of finished exchanges. -/
namespace Sys2Proof.Machine
open Sys2Proof

/-! ### Messages and moves -/

section
variable {s : State} {a : Nat}

section
variable {m : OutMsg} (ha : a < 2 ^ 32) (hm : mget s.brim.msgs a = some m)
include ha hm

theorem rmaTimeout_message : rmaTimeout a s = if decide (tickOf s ≥ m.expiry) && (m.sys.isNone || m.acked) then failMsg s a .timeout else s := by
  rw [rmaTimeout, if_neg (Nat.not_le.2 ha), hm]

theorem rmaTimeout_of_due (hx : m.expiry ≤ tickOf s) (hk : m.sys = none ∨ m.acked = true) : rmaTimeout a s = failMsg s a .timeout := by
  have hgive : (m.sys.isNone || m.acked) = true := by
    rcases hk with h | h
    · rw [h, Option.isNone_none, Bool.true_or]
    · rw [h, Bool.or_true]
  rw [rmaTimeout_message ha hm, hgive, decide_eq_true hx]
  rfl

theorem rmaTimeout_of_live (hx : tickOf s < m.expiry ∨ m.sys ≠ none ∧ m.acked = false) : rmaTimeout a s = s := by
  rw [rmaTimeout_message ha hm]
  rcases hx with h | ⟨hs, hk⟩
  · rw [decide_eq_false (Nat.not_le.2 h)]
    rfl
  · rw [hk, Option.isNone_eq_false_iff.2 (Option.isSome_iff_ne_none.2 hs), Bool.or_self, Bool.and_false]
    rfl

end

/-- A move to a lender is named by its place in the move table, from 2^32 on. -/
theorem rmaTimeout_move {m : MoveEnt} {i lender handle : Nat} (hm : mget s.tiers.moves a = some m) (hd : m.dst = .lent i lender handle) :
    rmaTimeout (2 ^ 32 + a) s = if m.start + atLeast1 s Reg.fwToDescRma ≤ tickOf s then resumeWaits (abandonMove s a) else s := by
  rw [rmaTimeout, if_pos (Nat.le_add_right _ _), Nat.add_sub_cancel_left, lenderTimeout, hm]
  dsimp only
  rw [hd]

end

/-! ### Reassemblies -/

/-- What giving up an unfinished reassembly leaves: the entry freed and counted, the bytes placed undefined, and an event of an open code. -/
def reasmGivenUp (s : State) (key : Nat) (e : Reasm) : State :=
  let t := bump (modBrim s (fun x => { x with reasm := mdel x.reasm key, failed := sinsert x.failed key })) Reg.rmaReasmFailed
  let at_ : Target := (e.site.map (fun i => Target.frame i e.addr)).getD (.node e.addr)
  let t := e.got.foldl (fun u i => undefBytes u at_ (4096 * i) (min 4096 (e.total - 4096 * i))) t
  crownEventOpen (freeVal t).1 ((freeVal t).2 % 2 ^ 16) ((freeVal t).2 / 2 ^ 16 % 4)

section
variable {s : State} {a b : Nat} (m : Option SysMsg)

theorem sysReassemblyTimeout_of_none (he : mget s.brim.reasm (a * 2 ^ 32 + b) = none) : sysReassemblyTimeout a b m s = s := by
  unfold sysReassemblyTimeout
  rw [he]

variable {e : Reasm} (he : mget s.brim.reasm (a * 2 ^ 32 + b) = some e)
include he

theorem reassemblyTimeout_of_early (hx : tickOf s < e.expiry) : reassemblyTimeout a b s = s := by
  rw [reassemblyTimeout, he]
  exact if_pos hx

theorem reassemblyTimeout_of_due (hx : e.expiry ≤ tickOf s) (hk : e.kind ≠ 9) : reassemblyTimeout a b s =
    if e.kind = 3 then endOp (reasmGivenUp s (a * 2 ^ 32 + b) e) e.reqid .reassemblyFailed else reasmGivenUp s (a * 2 ^ 32 + b) e := by
  obtain ⟨kind, site, addr, expiry, total, got, reqid⟩ := e
  unfold reassemblyTimeout
  simp only [he, Nat.not_lt.2 hx, hk, if_false]
  cases site <;> rfl

/-- Nothing but a SYS message of kind 9 says what it is, and any other is given up as it stands. -/
theorem sysReassemblyTimeout_of_plain (hk : e.kind ≠ 9 ∨ tickOf s < e.expiry) : sysReassemblyTimeout a b m s = reassemblyTimeout a b s := by
  have hplain : (decide (tickOf s ≥ e.expiry) && decide (e.kind = 9)) = false := by
    rcases hk with h | h
    · rw [decide_eq_false h, Bool.and_false]
    · rw [decide_eq_false (Nat.not_le.2 h), Bool.false_and]
  unfold sysReassemblyTimeout
  rw [he]
  exact if_neg (ne_true_of_eq_false hplain)

theorem sysReassemblyTimeout_of_partial (hk : e.kind = 9) (hx : e.expiry ≤ tickOf s) (ref : Nat) (l : List Byte) :
    sysReassemblyTimeout a b (some (.partialList ref l)) s =
      arrivePart (reassemblyTimeout a b s) ref (failedPartial (partialOf l).shard 0 0 .reassemblyFailed) := by
  unfold sysReassemblyTimeout
  rw [he]
  exact if_pos (by rw [decide_eq_true hx, decide_eq_true hk, Bool.and_self])

end

/-! ### What is kept of finished exchanges -/

/-- An entry stays unless it is the one named and its tick has come. -/
theorem mem_filter_expired {α : Type} {l : SMap α} {key now : Nat} {tick : α → Nat} (k : Nat) (v : α) :
    (k, v) ∈ l.filter (fun x => !(x.1 = key && decide (now ≥ tick x.2))) ↔ (k, v) ∈ l ∧ ¬ (k = key ∧ tick v ≤ now) := by
  simp only [List.mem_filter, Bool.not_eq_true', Bool.and_eq_false_iff, decide_eq_false_iff_not, ge_iff_le, not_and_or]

end Sys2Proof.Machine

/-! SETTLED. Expiries of the fabric. -/
namespace Sys2Proof.Machine
open Sys2Proof

/-- Settles O60: each expiry by whether its entry is there and its tick has come; what is kept loses the entry named and no other. -/
theorem packetExpiries : Obligations.PacketExpiries := by
  intro s a b
  refine ⟨fun m ha hm => ⟨fun hx hk => ?due, fun hx => ?live⟩, fun m i lender handle hm hd => ?move, fun he m => ?none, fun e m he hx => ?early,
    fun e m he hx hk => ⟨fun h3 => ?read, fun h3 => ?other⟩, fun e ref l he hk hx => ?part,
    ⟨_, rfl, rfl, mem_filter_expired (tick := Replay.expiry)⟩, ⟨_, rfl, rfl, mem_filter_expired (tick := id)⟩⟩
  case due => exact congrArg Host.Outcome.next (rmaTimeout_of_due ha hm hx hk)
  case live => exact congrArg Host.Outcome.next (rmaTimeout_of_live ha hm hx)
  case move => exact (congrArg Host.Outcome.next (rmaTimeout_move hm hd)).trans (apply_ite Host.Outcome.next _ _ _)
  case none => exact congrArg Host.Outcome.next (sysReassemblyTimeout_of_none m he)
  case early =>
    exact congrArg Host.Outcome.next ((sysReassemblyTimeout_of_plain m he (.inr hx)).trans (reassemblyTimeout_of_early he hx))
  case read =>
    exact congrArg Host.Outcome.next
      ((sysReassemblyTimeout_of_plain m he (.inl hk)).trans ((reassemblyTimeout_of_due he hx hk).trans (if_pos h3)))
  case other =>
    exact congrArg Host.Outcome.next
      ((sysReassemblyTimeout_of_plain m he (.inl hk)).trans ((reassemblyTimeout_of_due he hx hk).trans (if_neg h3)))
  case part => exact congrArg Host.Outcome.next (sysReassemblyTimeout_of_partial he hk hx ref l)

end Sys2Proof.Machine

/-! SUPPORT. Commands of the Crown: the path that hears them, and the signed ones. -/
namespace Sys2Proof.Machine
open Sys2Proof

@[simp] theorem length_toBytes (n v : Nat) : (toBytes n v).length = n := by
  induction n generalizing v with
  | zero => rfl
  | succ n ih => rw [toBytes, List.length_cons, ih]

section
variable {s : State} {path : Nat} (hp : crownHears s path = true) (k : State → State)
include hp

theorem onPath_of_heard : onPath s path k = k s := if_pos hp

theorem onOnly_of_own {only : Nat} (ho : path = only) : onOnly s path only k = k s := (onPath_of_heard hp _).trans (if_pos ho)

end

section
variable (s : State) (path : Nat) {nonce : List Byte} {ok : Bool} (k : State → State)

/-- A command over a nonce that is kept acts where its signature holds, and uses the nonce up either way. -/
theorem signed_of_kept (hn : nonceGood s nonce = true) : signed s path nonce ok k =
    if ok = true then answer (k (useNonce s nonce)) path okCode [] else answer (useNonce s nonce) path invalidSecurity [] := by
  rw [signed, hn, Bool.true_and]

theorem signed_of_lapsed (hn : nonceGood s nonce = false) : signed s path nonce ok k = answer (useNonce s nonce) path invalidSecurity [] := by
  rw [signed, hn, Bool.false_and]
  rfl

end

/-- The lowest of the first `n` numbers that has a property. -/
theorem range_find?_eq_some_of_lowest {p : Nat → Bool} {n i : Nat} (hi : i < n) (hp : p i = true) (hlow : ∀ j, j < i → p j = false) :
    (List.range n).find? p = some i := by
  rw [List.find?_range_eq_some]
  exact ⟨hp, List.mem_range.2 hi, fun j hj => by rw [hlow j hj]; rfl⟩

end Sys2Proof.Machine

/-! SETTLED. The signed commands of the Crown. -/
namespace Sys2Proof.Machine
open Sys2Proof

theorem ownerEnroll_of_free {s : State} {key : List Byte} {i : Nat} (hp : crownHears s 0 = true) (hk : key.length = 97) (hi : i < 4)
    (hlow : ∀ j, j < i → mhas s.crown.owners j = true) (hfree : mhas s.crown.owners i = false) :
    ownerEnroll 0 key s = answer (modCrown s (fun c => { c with owners := mput c.owners i key })) 0 okCode [] := by
  have hslot : (List.range 4).find? (fun i => !(mhas s.crown.owners i)) = some i :=
    range_find?_eq_some_of_lowest hi (by rw [hfree]; rfl) (fun j hj => by rw [hlow j hj]; rfl)
  rw [ownerEnroll, onOnly_of_own hp _ rfl]
  simp only [hk, hslot, bne_self_eq_false, Bool.false_eq_true, if_false]

theorem ownerRevoke_of_owner {s : State} {path i : Nat} {key nonce : List Byte} (sig : List Byte) (hp : crownHears s path = true) (hi : i ≤ 3)
    (hk : mget s.crown.owners i = some key) (hn : nonceGood s nonce = true) : ownerRevoke path i nonce sig s =
      if Config.verifies key nonce sig = true then
        answer (modCrown (useNonce s nonce) (fun c => { c with owners := mdel c.owners i })) path okCode []
      else answer (useNonce s nonce) path invalidSecurity [] := by
  rw [ownerRevoke, onPath_of_heard hp, if_neg (Nat.not_lt.2 hi), hk]
  exact signed_of_kept s path _ hn

/-- Settles O17: a challenge and an enrolment by what they keep, and each signed command by its nonce and its signature. -/
theorem crownSigned : Obligations.CrownSigned := by
  intro s path nonce sig hp
  refine ⟨⟨_, length_toBytes _ _, congrArg Host.Outcome.next (onPath_of_heard hp _)⟩, fun key i h0 hk hi hlow hfree => ?enroll,
    fun i key hi hk hn => ?revoke, fun h1 hn => ?reset, fun h1 hn => ?resetLapsed, fun pin hn => ?setting, fun hn => ?unlock,
    fun hn => ?unlockLapsed⟩
  case enroll =>
    subst h0
    exact congrArg Host.Outcome.next (ownerEnroll_of_free hp hk hi hlow hfree)
  case revoke => exact (congrArg Host.Outcome.next (ownerRevoke_of_owner sig hp hi hk hn)).trans (apply_ite Host.Outcome.next _ _ _)
  case reset =>
    exact (congrArg Host.Outcome.next ((onOnly_of_own hp _ h1).trans (signed_of_kept s path _ hn))).trans (apply_ite Host.Outcome.next _ _ _)
  case resetLapsed => exact congrArg Host.Outcome.next ((onOnly_of_own hp _ h1).trans (signed_of_lapsed s path _ hn))
  case setting =>
    exact (congrArg Host.Outcome.next ((onPath_of_heard hp _).trans (signed_of_kept s path _ hn))).trans (apply_ite Host.Outcome.next _ _ _)
  case unlock =>
    exact (congrArg Host.Outcome.next ((onPath_of_heard hp _).trans (signed_of_kept s path _ hn))).trans (apply_ite Host.Outcome.next _ _ _)
  case unlockLapsed => exact congrArg Host.Outcome.next ((onPath_of_heard hp _).trans (signed_of_lapsed s path _ hn))

end Sys2Proof.Machine

/-! SUPPORT. Accesses of the node range and the moves of pages, each operation by what decides it (R330–R335). -/
namespace Sys2Proof.Machine
open Sys2Proof

section
variable {s : State}

/-! ### Answers -/

section
variable {a : WaitAcc} (hw : a.write = true)
include hw

theorem answerAcc_of_placed (hr : (nrWriteNow s a.addr a.bytes a.pois false).2 = none) :
    answerAcc s a = emit (nrWriteNow s a.addr a.bytes a.pois false).1 (.placed a.req a.addr) := by
  rw [answerAcc, if_pos hw]
  simp only [hr]

theorem answerAcc_of_failed {st : Status} (hr : (nrWriteNow s a.addr a.bytes a.pois false).2 = some st)
    (hh : a.host = false ∨ st ≠ .tableFull) :
    answerAcc s a = emit (nrWriteNow s a.addr a.bytes a.pois false).1 (.failed a.req a.addr st.code) := by
  have hanswered : (a.host && decide (st = .tableFull)) = false := by
    rcases hh with h | h
    · rw [h, Bool.false_and]
    · rw [decide_eq_false h, Bool.and_false]
  rw [answerAcc, if_pos hw]
  simp only [hr, hanswered, Bool.false_eq_true, if_false]

theorem answerAcc_of_dropped (hr : (nrWriteNow s a.addr a.bytes a.pois false).2 = some .tableFull) (hh : a.host = true) :
    answerAcc s a = cxlEvent (bump (nrWriteNow s a.addr a.bytes a.pois false).1 Reg.tirRefuseNoSpace) 1 false 0 a.addr := by
  rw [answerAcc, if_pos hw]
  simp only [hr, hh, decide_true, Bool.and_self, if_true]

end

/-! ### Moves -/

theorem nodeRangeAccess_of_up (hr : ringUp s = true) (req addr len : Nat) (write : Option (List Byte × List Nat)) (bad : List (Nat × Nat))
    (path : List PathUps) : nodeRangeAccess req addr len write bad path s = access s req false addr len write bad path := if_pos hr

theorem moveStart_of_up (hr : ringUp s = true) (page : Nat) (dst : MoveDst) :
    moveStart page dst s = (startMove s page dst none).getD s := if_pos hr

variable {slot : Nat} {m : MoveEnt} (hm : mget s.tiers.moves slot = some m)
include hm

theorem moveCommit_of_up (hr : ringUp s = true) : moveCommit slot s =
    resumeWaits ((commitMove (endMove s slot m.page m.src) m.page m.src m.dst).getD (abandonMove s slot)) := by
  have hon : (ringUp s && mhas s.tiers.moves slot) = true := by rw [hr, mhas, hm]; rfl
  rw [moveCommit, if_pos hon, finishMove, hm]
  dsimp only
  cases commitMove (endMove s slot m.page m.src) m.page m.src m.dst <;> rfl

theorem moveAbandon_eq : moveAbandon slot s =
    if ringUp s && s.tiers.waiting.any (fun a => (pagesOf a.addr a.len).contains m.page && decide (a.expiry ≤ tickOf s)) then
      resumeWaits (abandonMove s slot)
    else s := by
  rw [moveAbandon, hm]
  rfl

/-- The frame that a lender gave for the move goes back to it (R333). -/
theorem abandonMove_of_lent {i lender handle : Nat} (hd : m.dst = .lent i lender handle) : abandonMove s slot =
    bump (endMove (modTiers (emit s (.lentBack lender handle)) (fun t => { t with noRetry := sinsert t.noRetry m.page })) slot m.page m.src)
      Reg.tirMovesAbandoned := by
  simp only [abandonMove, hm, hd]

theorem abandonMove_of_own (hd : ∀ i lender handle, m.dst ≠ .lent i lender handle) : abandonMove s slot =
    bump (endMove (modTiers s (fun t => { t with noRetry := sinsert t.noRetry m.page })) slot m.page m.src) Reg.tirMovesAbandoned := by
  unfold abandonMove
  rw [hm]
  dsimp only
  cases hdst : m.dst with
  | lent i lender handle => exact absurd hdst (hd i lender handle)
  | _ => rfl

end
end Sys2Proof.Machine

/-! SETTLED. The node range. -/
namespace Sys2Proof.Machine
open Sys2Proof

/-- Settles O53: an access by where it ends and whether it must wait, an answer by what its write came to, and a move by what it finds. -/
theorem nodeRangeAndMoves : Obligations.NodeRangeAndMoves := by
  intro s
  refine ⟨fun hr req addr len write bad path => ?access,
    fun a hw => ⟨answerAcc_of_placed hw, fun st => answerAcc_of_failed hw, answerAcc_of_dropped hw⟩,
    fun a hw => if_neg (ne_true_of_eq_false hw), rfl, fun hr page dst => ⟨fun t ht => ?starts, fun hn => ?stays⟩,
    fun slot m hm => ⟨fun t hr ht => ?commits, fun hr hn => ?fails, ⟨fun hr hl => ?late, fun h => ?waits⟩,
      fun i lender handle => abandonMove_of_lent hm, abandonMove_of_own hm⟩⟩
  case access =>
    intro u till a
    have harrive : exec (.nodeRangeAccess req addr len write ⟨bad, path⟩) s = .next (arrive u a) :=
      congrArg Host.Outcome.next ((nodeRangeAccess_of_up hr req addr len write bad path).trans (by cases write <;> rfl))
    refine ⟨fun h => ?_, fun h => ⟨fun hm => ?_, fun hm => ?_⟩⟩
    · rw [harrive, arrive_of_beyond h]
    · rw [harrive, arrive_of_inside h]
      exact congrArg Host.Outcome.next (serveOrWait_of_ready hm)
    · rw [harrive, arrive_of_inside h]
      exact congrArg Host.Outcome.next (serveOrWait_of_waits hm)
  case starts => exact congrArg Host.Outcome.next (by rw [moveStart_of_up hr, ht, Option.getD_some])
  case stays => exact congrArg Host.Outcome.next (by rw [moveStart_of_up hr, hn, Option.getD_none])
  case commits => exact congrArg Host.Outcome.next (by rw [moveCommit_of_up hm hr, ht, Option.getD_some])
  case fails => exact congrArg Host.Outcome.next (by rw [moveCommit_of_up hm hr, hn, Option.getD_none])
  case late => exact congrArg Host.Outcome.next ((moveAbandon_eq hm).trans (if_pos (by rw [hr, hl, Bool.and_self])))
  case waits =>
    refine congrArg Host.Outcome.next ((moveAbandon_eq hm).trans (if_neg ?_))
    rw [Bool.and_eq_true, not_and_or, Bool.not_eq_true, Bool.not_eq_true]
    exact h

end Sys2Proof.Machine

/-! SUPPORT. Measurements, the thermal trip and power loss (R373–R376, R476, R477, R480, R481). -/
namespace Sys2Proof.Machine
open Sys2Proof

/-! ### Logs leave the power state and the store -/

section
variable (s : State)

@[simp] theorem crownEvent_power (code sev data : Nat) : (crownEvent s code sev data).power = s.power := by
  unfold crownEvent
  split <;> rfl

@[simp] theorem crownEventOpen_power (code sev : Nat) : (crownEventOpen s code sev).power = s.power :=
  crownEvent_power _ code sev _

@[simp] theorem msixRaise_power (fn e : Nat) : (msixRaise s fn e).power = s.power := by
  unfold msixRaise
  simp only [apply_ite State.power, emit_power, setMsix, ite_self]

@[simp] theorem msixRaise_flash (fn e : Nat) : (msixRaise s fn e).flash = s.flash := by
  unfold msixRaise
  simp only [apply_ite State.flash, emit_flash, setMsix, ite_self]

@[simp] theorem cxlEvent_power (sev : Nat) (general : Bool) (code data : Nat) : (cxlEvent s sev general code data).power = s.power := by
  unfold cxlEvent
  simp only [apply_ite State.power, msixRaise_power, ite_self]

@[simp] theorem cxlEvent_flash (sev : Nat) (general : Bool) (code data : Nat) : (cxlEvent s sev general code data).flash = s.flash := by
  unfold cxlEvent
  simp only [apply_ite State.flash, msixRaise_flash, ite_self]

@[simp] theorem logAll_power : (logAll s).power = s.power := rfl

@[simp] theorem stopWork_power : (stopWork s).power = s.power := by
  simp only [stopWork, modTiers_power, modBow_power, modTwin_power, modFlash_power, modBrim_power, modFelt_power, modCard_power,
    modSrch_power, modHost_power]

end

theorem b2n_true : b2n true = 1 := rfl

theorem b2n_false : b2n false = 0 := rfl

section
variable {s : State}

/-! ### Measurements -/

def railsRead (rails : List (Nat × Nat)) : List (Nat × Nat) :=
  (List.range 16).map (fun m => ((rails.getD m (0, 0)).1 % 65536, (rails.getD m (0, 0)).2 % 65536))

/-- The averaging window with the newest power in front. -/
def railsWindow (s : State) (rails : List (Nat × Nat)) : List Nat :=
  windowOf (modCrown s (fun c => { c with rails := railsRead rails })) (railPower (railsRead rails))

/-- What a measurement of the rails shows, before the cap is judged (R476, R480). -/
def railsShown (s : State) (rails : List (Nat × Nat)) : State :=
  setF (setF (modPower (modCrown s (fun c => { c with rails := railsRead rails })) (fun p => { p with samples := railsWindow s rails }))
    Reg.rstRailOk (maskOf 16 (fun m => railOk m ((railsRead rails).getD m (0, 0)).1)))
    Reg.rstPowerAvg (min 65535 (showUnits (sumNat (railsWindow s rails)) (40000 * (railsWindow s rails).length)))

section
variable (hv : s.power.vddMgmt = true) (rails : List (Nat × Nat))
include hv

theorem powerMeasure_of_management : powerMeasure rails s =
    if overCap (railsShown s rails) (railsWindow s rails) then
      bump (setF (railsShown s rails) Reg.rstPowerCapped (b2n (overCap (railsShown s rails) (railsWindow s rails)))) Reg.rstPowerCapTicks
    else setF (railsShown s rails) Reg.rstPowerCapped (b2n (overCap (railsShown s rails) (railsWindow s rails))) :=
  if_neg (by rw [hv]; decide)

theorem powerMeasure_of_over (h : overCap (railsShown s rails) (railsWindow s rails) = true) : powerMeasure rails s =
    bump (setF (railsShown s rails) Reg.rstPowerCapped 1) Reg.rstPowerCapTicks := by
  rw [powerMeasure_of_management hv, if_pos h, h, b2n_true]

theorem powerMeasure_of_under (h : overCap (railsShown s rails) (railsWindow s rails) = false) : powerMeasure rails s =
    setF (railsShown s rails) Reg.rstPowerCapped 0 := by
  rw [powerMeasure_of_management hv, if_neg (ne_true_of_eq_false h), h, b2n_false]

end

variable (ts : List Int)

theorem sensorRefresh_of_management (hv : s.power.vddMgmt = true) : sensorRefresh ts s =
    if tripPoint (refreshTemps s ts) && !(refreshTemps s ts).power.tripped then tripNow (refreshTemps s ts) else refreshTemps s ts :=
  if_neg (by rw [hv]; decide)

theorem thermalTrip_of_reached (hl : live s = true) (ht : (ts.take 64).any (fun t => decide (t ≥ 0x730)) = true) :
    thermalTrip ts s = tripNow (refreshTemps s ts) :=
  if_neg (by rw [hl, ht]; decide)

theorem tripNow_power (s : State) : (tripNow s).power = { s.power with tripped := true, flushing := false } :=
  crownEventOpen_power _ _ _

/-! ### Power loss -/

theorem plossGlitch_of_live (hl : live s = true) : plossGlitch s = bump s Reg.fshStatusPlossGlitch := if_pos hl

/-- The state in which a power loss is written to the logs and the work has stopped (R374, R376). -/
def lossStopped (s : State) : State :=
  stopWork (logAll (cxlEvent (freeVal s).1 ((freeVal s).2 % 4) false ((freeVal s).2 / 4 % 2 ^ 16) ((freeVal s).2 / 2 ^ 18)))

theorem lossStopped_power (s : State) : (lossStopped s).power = s.power := by
  rw [lossStopped, stopWork_power, logAll_power, cxlEvent_power, freeVal_power]

variable (hl : live s = true)
include hl

theorem plossRecognised_of_running (hf : s.power.flushing = false) (hh : s.power.halted = false) : plossRecognised s =
    if s.flash.st = 2 then
      modFlash (modPower (lossStopped s) (fun p => { p with flushing := true }))
        (fun f => { f with st := 3, marker := none, flushStart := max 1 (tickOf (lossStopped s)) })
    else modPower (lossStopped s) (fun p => { p with halted := true }) := by
  have hst : (logAll (cxlEvent (freeVal s).1 ((freeVal s).2 % 4) false ((freeVal s).2 / 4 % 2 ^ 16) ((freeVal s).2 / 2 ^ 18))).flash.st =
      s.flash.st := congrArg Flash.st (cxlEvent_flash _ _ _ _ _)
  simp only [plossRecognised, hl, hf, hh, hst, lossStopped, Bool.not_true, Bool.or_self, Bool.false_eq_true, if_false, decide_eq_true_eq]

theorem flushMarkerWritten_of_flushing (hf : s.power.flushing = true) : flushMarkerWritten s =
    let t := putMarker (flushStore (flushMib s).1) 1 (tickOf s - (flushMib s).1.flash.flushStart) (flushMib s).2
    modPower (modFlash t (fun f => { f with st := 4 })) (fun p => { p with flushing := false, halted := true }) :=
  if_neg (by rw [hl, hf]; decide)

end
end Sys2Proof.Machine

/-! SETTLED. Power and heat. -/
namespace Sys2Proof.Machine
open Sys2Proof

/-- Settles O24: a measurement by the cap, a refresh by the trip point, and a power loss by whether the store is mounted. -/
theorem powerAndHeat : Obligations.PowerAndHeat := by
  intro s
  refine ⟨fun rails hv => ?rails, fun ts hv h => ?warm, fun ts hv ht hn => ?hot, fun ts hl ht => ?trip,
    fun hl => congrArg Host.Outcome.next (plossGlitch_of_live hl), fun hl hf hh => ?loss, fun hl hf => ?marker⟩
  case rails =>
    exact ⟨fun h => congrArg Host.Outcome.next (powerMeasure_of_over hv rails h),
      fun h => congrArg Host.Outcome.next (powerMeasure_of_under hv rails h)⟩
  case warm =>
    refine congrArg Host.Outcome.next ((sensorRefresh_of_management ts hv).trans (if_neg ?_))
    rw [Bool.and_eq_true, not_and_or, Bool.not_eq_true, Bool.not_eq_true, Bool.not_eq_false']
    exact h
  case hot => exact congrArg Host.Outcome.next ((sensorRefresh_of_management ts hv).trans (if_pos (by rw [ht, hn]; rfl)))
  case trip => exact ⟨_, congrArg Host.Outcome.next (thermalTrip_of_reached ts hl ht), rfl, congrArg Power.tripped (tripNow_power _),
    congrArg Power.flushing (tripNow_power _)⟩
  case loss =>
    refine ⟨_, congrArg Host.Outcome.next (plossRecognised_of_running hl hf hh), ?_⟩
    by_cases hst : s.flash.st = 2
    · rw [if_pos hst]
      exact ⟨rfl, rfl, rfl, fun _ => ⟨rfl, rfl, (congrArg Power.halted (lossStopped_power s)).trans hh⟩, fun hn => absurd hst hn⟩
    · rw [if_neg hst]
      exact ⟨rfl, rfl, rfl, fun h2 => absurd h2 hst, fun _ => ⟨rfl, (congrArg Power.flushing (lossStopped_power s)).trans hf⟩⟩
  case marker => exact ⟨_, congrArg Host.Outcome.next (flushMarkerWritten_of_flushing hl hf), rfl, rfl, rfl⟩

end Sys2Proof.Machine

/-! SUPPORT. The commands on named areas of the flash store (R356, R357). -/
namespace Sys2Proof.Machine
open Sys2Proof

section
variable {s : State} {id cmd len : Nat}

theorem onFlash_of_waiting (h : (flashWaits s || s.power.flushing) = true) (k : State → Work → List Byte → State) :
    onFlash s id cmd len k = s := if_pos h

/-- A command on the store whose operand is ready runs on it, once the mount is complete and while no flush runs. -/
theorem onFlash_ready {w : Work} {t : State} {op : List Byte} (h : (flashWaits s || s.power.flushing) = false)
    (hr : AdminReady s id cmd len false w t op) (k : State → Work → List Byte → State) : onFlash s id cmd len k = k t w op :=
  (if_neg (ne_true_of_eq_false h)).trans (onAdmin_ready hr k)

end

section
variable {s : State} {id : Nat} {w : Work} {t : State} {op : List Byte} (ho : (flashWaits s || s.power.flushing) = false)
  (hw : flashWritable t = true)
include ho hw

theorem areaCreate_of_free {k : Nat} (hr : AdminReady s id 0x30 16 false w t op) (hs : arShape op = true) (h1 : 1 ≤ getLE op 8 8)
    (h2 : getLE op 8 8 ≤ 2 ^ 32) (hn : mhas t.flash.areas (arName op) = false) (hl : t.flash.areas.length < 8192)
    (hk : freeExtent t (ceilDiv (getLE op 8 8) 4) = some k) : areaCreate id s =
      complete (modFlash (unmapRange t k (ceilDiv (getLE op 8 8) 4)) (fun f => { f with
        areas := mput f.areas (arName op) ⟨arName op, arKind op, w.tenant, k, getLE op 8 8⟩ })) w .ok := by
  have hok : (!(arShape op) || decide (getLE op 8 8 = 0) || decide (getLE op 8 8 > 2 ^ 32) || mhas t.flash.areas (arName op)) = false := by
    rw [hs, hn, decide_eq_false (Nat.ne_of_gt h1), decide_eq_false (Nat.not_lt.2 h2)]
    rfl
  rw [areaCreate, onFlash_ready ho hr]
  simp only [hok, ge_iff_le, Nat.not_le.2 hl, hk, hw, Bool.not_true, Bool.false_eq_true, if_false]

theorem areaDelete_of_known {a : Area} (hr : AdminReady s id 0x31 8 false w t op) (ha : arOf t op = some a) (hz : zeroAt op 5 3 = true)
    (hm : adminMay w a.tenant = true) : areaDelete id s =
      if arBusy t a then areaFail t w .busy
      else complete (modFlash (unmapRange t a.first (ceilDiv a.pages 4)) (fun f => { f with areas := mdel f.areas a.name, noSpace := false })) w
        .ok := by
  rw [areaDelete, onFlash_ready ho hr]
  simp only [ha, hz, hm, hw, Bool.not_true, Bool.false_eq_true, if_false]

theorem areaWriteCmd_of_room {a : Area} {u : State} (hr : AdminReady s id 0x32 32 false w t op) (ha : arOf t op = some a)
    (hm : arMove t w op = none) (hb : arBusy t a = false) (hl : mappedFlus t + arNew t a (arFirst op) (arCount op) ≤ t.flash.logical)
    (hu : (List.range (arCount op)).foldl (fun (t : Option State) i =>
      t.bind (fun t => arPage t w a (arFirst op + i) (arAddr op + 4096 * i))) (some t) = some u) :
    areaWriteCmd id s = if u.flash.waitw.any (fun x => x.req = 2 ^ 32 + w.id) then beginWork u w.id else complete u w .ok := by
  rw [areaWriteCmd, onFlash_ready ho hr]
  simp only [hm, ha, hb, gt_iff_lt, Nat.not_lt.2 hl, hw, hu, decide_false, Bool.not_true, Bool.false_eq_true, if_false]

/-- The store with the reads that an earlier visit of AREA_READ left taken back. -/
def areaReread (t : State) (w : Work) : State :=
  modFlash t (fun f => { f with reads := f.reads.filter (fun x => x.req != 2 ^ 32 + w.id) })

/-- The pages of an AREA_READ, by place, that lie on a lost die (R366). -/
def areaLate (t : State) (a : Area) (op : List Byte) : List Nat :=
  (List.range (arCount op)).filter (fun i => !(areaReady t a (arFirst op + i)))

section
variable {a : Area} (hr : AdminReady s id 0x33 32 false w t op) (ha : arOf t op = some a) (hm : arMove t w op = none)
include hr ha hm

theorem areaReadCmd_of_ready {u : State} (hl : areaLate (areaReread t w) a op = [])
    (hu : arPlace a (arFirst op) (arAddr op) (arCount op) 0 (areaReread t w) = (u, none)) : areaReadCmd id s = complete u w .ok := by
  rw [areaLate] at hl
  rw [areaReread] at hl hu
  rw [areaReadCmd, onFlash_ready ho hr]
  simp only [hm, ha, hw, hl, hu, List.isEmpty_nil, Bool.not_true, Bool.false_eq_true, if_false, if_true]

theorem areaReadCmd_of_late (hl : areaLate (areaReread t w) a op ≠ []) : areaReadCmd id s = modFlash (areaReread t w) (fun f => { f with
    reads := f.reads ++ (areaLate (areaReread t w) a op).map (fun i =>
      let x := areaFlu a (arFirst op + i)
      ⟨f.nextReq + i, 2 ^ 32 + w.id, x.1, x.2, ruZero, mget f.map x.1, expiryOf (areaReread t w) Reg.fwToMediaFlash, false⟩),
    nextReq := f.nextReq + arCount op }) := by
  have hne := List.isEmpty_eq_false_iff.2 hl
  rw [areaLate, areaReread] at hne
  rw [areaReadCmd, onFlash_ready ho hr]
  simp only [hm, ha, hw, hne, Bool.not_true, Bool.false_eq_true, if_false]
  rfl

end

end
end Sys2Proof.Machine

/-! SETTLED. Named areas. -/
namespace Sys2Proof.Machine
open Sys2Proof

/-- Settles O52: each command by whether the store is mounted, and then by what its operand names. -/
theorem areaCommands : Obligations.AreaCommands := by
  intro s id w t op
  refine ⟨fun h c hc => ?waits, fun ho hw => ⟨fun hr hs h1 h2 hn hl k hk => ?creates, fun hr a ha hz hm => ?deletes,
    fun hr a u ha hm hb hl hu => ?writes, fun hr a ha hm => ⟨fun hl u hu => ?places, fun hl => ?reads⟩⟩, fun first n => rfl⟩
  case waits =>
    simp only [List.mem_cons, List.not_mem_nil, or_false] at hc
    rcases hc with rfl | rfl | rfl | rfl
    all_goals exact congrArg Host.Outcome.next (onFlash_of_waiting h _)
  case creates => exact congrArg Host.Outcome.next (areaCreate_of_free ho hw hr hs h1 h2 hn hl hk)
  case deletes => exact (congrArg Host.Outcome.next (areaDelete_of_known ho hw hr ha hz hm)).trans (apply_ite Host.Outcome.next _ _ _)
  case writes => exact (congrArg Host.Outcome.next (areaWriteCmd_of_room ho hw hr ha hm hb hl hu)).trans (apply_ite Host.Outcome.next _ _ _)
  case places => exact congrArg Host.Outcome.next (areaReadCmd_of_ready ho hw hr ha hm hl hu)
  case reads => exact congrArg Host.Outcome.next (areaReadCmd_of_late ho hw hr ha hm hl)

end Sys2Proof.Machine

/-! SUPPORT. The traffic of the flash store, each operation by what decides it (R357, R359–R361, R365). -/
namespace Sys2Proof.Machine
open Sys2Proof

/-! ### Writes -/

section
variable {s : State} {req flu ru : Nat} {bytes : List Byte} {pois : Nat} (hr : ringUp s = true) (hf : s.power.flushing = false)
  (hu : ru ≤ 3) (hk : (fluKind s flu).isSome = true)
include hr hf hu hk

/-- A write of a read unit that the flash has is taken or refused by the unit's area and the store's state. -/
theorem flashWrite_eq : flashWrite req flu ru bytes pois s =
    if fluHeld s flu then s
    else if flashWaits s then waitWrite s req flu ru ⟨bytes.take 4096, pois % 2 ^ 256⟩
    else if !(flashWritable s) then emit s (.failed req (ruAddr flu ru) Status.timeout.code)
    else if noLogical s flu then emit s (.failed req (ruAddr flu ru) Status.tableFull.code)
    else ((tryWrite s flu ru ⟨bytes.take 4096, pois % 2 ^ 256⟩).map (fun t => emit t (.placed req (ruAddr flu ru)))).getD
      (waitWrite s req flu ru ⟨bytes.take 4096, pois % 2 ^ 256⟩) := by
  have hn : (fluKind s flu).isNone = false := by rw [← Option.not_isSome, hk]; rfl
  cases ht : tryWrite s flu ru ⟨bytes.take 4096, pois % 2 ^ 256⟩ <;>
    simp only [flashWrite, hr, hf, hn, ht, gt_iff_lt, Nat.not_lt.2 hu, decide_false, Bool.not_true, Bool.or_self, Bool.false_or,
      Option.map_none, Option.map_some, Option.getD_none, Option.getD_some]

theorem flashWrite_of_held (hh : fluHeld s flu = true) : flashWrite req flu ru bytes pois s = s :=
  (flashWrite_eq hr hf hu hk).trans (if_pos hh)

variable (hh : fluHeld s flu = false)
include hh

theorem flashWrite_of_unmounted (hw : flashWaits s = true) : flashWrite req flu ru bytes pois s =
    waitWrite s req flu ru ⟨bytes.take 4096, pois % 2 ^ 256⟩ := by
  simp only [flashWrite_eq hr hf hu hk, hh, hw, Bool.false_eq_true, if_false, if_true]

variable (hw : flashWaits s = false)
include hw

theorem flashWrite_of_closed (hm : flashWritable s = false) : flashWrite req flu ru bytes pois s =
    emit s (.failed req (ruAddr flu ru) Status.timeout.code) := by
  simp only [flashWrite_eq hr hf hu hk, hh, hw, hm, Bool.not_false, Bool.false_eq_true, if_false, if_true]

variable (hm : flashWritable s = true)
include hm

theorem flashWrite_of_beyond (hn : noLogical s flu = true) : flashWrite req flu ru bytes pois s =
    emit s (.failed req (ruAddr flu ru) Status.tableFull.code) := by
  simp only [flashWrite_eq hr hf hu hk, hh, hw, hm, hn, Bool.not_true, Bool.false_eq_true, if_false, if_true]

theorem flashWrite_of_logical (hn : noLogical s flu = false) : flashWrite req flu ru bytes pois s =
    ((tryWrite s flu ru ⟨bytes.take 4096, pois % 2 ^ 256⟩).map (fun t => emit t (.placed req (ruAddr flu ru)))).getD
      (waitWrite s req flu ru ⟨bytes.take 4096, pois % 2 ^ 256⟩) := by
  simp only [flashWrite_eq hr hf hu hk, hh, hw, hm, hn, Bool.not_true, Bool.false_eq_true, if_false]

end

section
variable {s : State} {x : FReq} {rest : List FReq} (hx : s.flash.waitw = x :: rest) (hf : s.power.flushing = false)
  (hw : flashWaits s = false) (hh : fluHeld s x.flu = false)
include hx hf hw hh

theorem flashWriteResume_of_expired (he : x.expiry ≤ tickOf s ∨ flashWritable s = false) : flashWriteResume s =
    serveReads (writeDone (modFlash s (fun f => { f with waitw := rest })) x .timeout) := by
  have hend : (decide (x.expiry ≤ tickOf s) || !(flashWritable s)) = true := by
    simpa only [Bool.or_eq_true, decide_eq_true_eq, Bool.not_eq_true'] using he
  simp only [flashWriteResume, hx, hf, hw, hh, hend, Bool.or_self, Bool.false_eq_true, if_false, if_true]

variable (he : tickOf s < x.expiry) (hm : flashWritable s = true)
include he hm

theorem flashWriteResume_of_beyond (hn : noLogical s x.flu = true) : flashWriteResume s =
    serveReads (writeDone (modFlash s (fun f => { f with waitw := rest })) x .tableFull) := by
  simp only [flashWriteResume, hx, hf, hw, hh, Nat.not_le.2 he, hm, hn, decide_false, Bool.not_true, Bool.or_self, Bool.false_eq_true, if_false,
    if_true]

theorem flashWriteResume_of_logical (hn : noLogical s x.flu = false) {k : Nat × Nat} (hk : fluKind s x.flu = some k) : flashWriteResume s =
    ((fluWriteRu (modFlash s (fun f => { f with waitw := rest })) x.flu k.1 k.2 x.ru x.data).map (fun t => serveReads (writeDone t x .ok))).getD
      s := by
  cases ht : fluWriteRu (modFlash s (fun f => { f with waitw := rest })) x.flu k.1 k.2 x.ru x.data <;>
    simp only [flashWriteResume, hx, hf, hw, hh, Nat.not_le.2 he, hm, hn, hk, ht, decide_false, Bool.not_true, Bool.or_self, Bool.false_eq_true,
      if_false, Option.bind_some, Option.isNone_some, Option.map_none, Option.map_some, Option.getD_none, Option.getD_some]

end

/-! ### Programs and erases -/

section
variable {s : State} {band : Nat} {b : Band} (hb : mget s.flash.bands band = some b) (hm : flashWritable s = true)
include hb hm

theorem bandRowProgram_of_open {row : Nat} (hp : row < bandPages s b) (hd : b.done.contains row = false) (hn : b.busy.contains row = false) :
    bandRowProgram band row s = if rowFull s band b row && b.members.all (fun m => dieServes s m.ch m.die) then
      modFlash s (fun f => { f with bands := mput f.bands band { b with busy := sinsert b.busy row } }) else s := by
  simp only [bandRowProgram, hb, hm, hp, hd, hn, decide_true, Bool.not_false, Bool.and_self, Bool.true_and]

theorem flashProgramComplete_of_row {r : Nat} (hr : b.busy.contains r = true) (failed : List Nat) :
    flashProgramComplete band (some r) failed s =
      let t := programRow s band r
      let gone := (List.range b.members.length).filter (fun m => b.members[m]?.any (fun x => !(dieServes t x.ch x.die)))
      let t := modFlash t (fun f => { f with rebuild := f.rebuild ++ (gone.map (fun m => (band, r, m))).filter (fun x => !(f.rebuild.contains x)) })
      clearRetired (if failed.isEmpty then t else retireBlocks t band failed) := by
  simp only [flashProgramComplete, hb, hm, hr, Bool.not_true, Bool.false_eq_true, if_false]

theorem flashProgramComplete_of_erase (he : b.erasing = true)
    (hn : s.flash.reads.any (fun x => x.pu.any (fun pu => (b.members.map blkKey).contains (puBlk pu))) = false) (failed : List Nat) :
    flashProgramComplete band none failed s =
      modFlash (dropBand (failed.foldl (fun s m => (b.members[m]?.map (retireBlk s)).getD s) s) band)
        (fun f => { f with noSpace := false, rebuild := f.rebuild.filter (fun r => r.1 != band) }) := by
  unfold flashProgramComplete
  rw [hb]
  refine (if_neg (by rw [hm]; decide)).trans ((if_neg (by rw [he, hn]; decide)).trans ?_)
  have hretire : (fun (s : State) (m : Nat) => (b.members[m]?.map (retireBlk s)).getD s) =
      fun s m => match b.members[m]? with | some x => retireBlk s x | none => s := by
    funext s m
    cases b.members[m]? <;> rfl
  exact hretire ▸ rfl

end

/-! ### Reads -/

/-- A read as it comes: of the next number, unmapped until it is issued. -/
def readAsked (s : State) (req flu ru : Nat) (weak : List (Nat × Nat × Nat)) : FReq :=
  ⟨s.flash.nextReq, req, flu, ru, ruZero, none, expiryOf (weaken s weak) Reg.fwToMediaFlash, false⟩

section
variable {s : State} {req flu ru : Nat} {weak : List (Nat × Nat × Nat)} (hr : ringUp s = true) (hf : s.power.flushing = false)
  (hu : ru ≤ 3)
include hr hf hu

theorem flashRead_eq : flashRead req flu ru weak s =
    let t := modFlash (weaken s weak) (fun f => { f with nextReq := f.nextReq + 1 })
    if readWaits t (readAsked s req flu ru weak) then modFlash t (fun f => { f with reads := f.reads ++ [readAsked s req flu ru weak] })
    else if !(flashReadable t) then t else serveRead t (readAsked s req flu ru weak) := by
  have hopen : (!(ringUp s) || s.power.flushing || decide (ru > 3)) = false := by
    rw [hr, hf, decide_eq_false (Nat.not_lt.2 hu)]
    rfl
  exact if_neg (ne_true_of_eq_false hopen)

end

section
variable {t : State} {x : FReq}

theorem serveRead_of_unmapped (hp : mget t.flash.map x.flu = none) : serveRead t x = answerRead t x.req x.flu x.ru ruZero := by
  simp only [serveRead, hp]

theorem serveRead_of_cached {pu : Nat} (hp : mget t.flash.map x.flu = some pu) (hc : mhas t.flash.cache pu = true) :
    serveRead t x = answerRead t x.req x.flu x.ru (fluRu t x.flu x.ru) := by
  simp only [serveRead, hp, hc, if_true]

theorem serveRead_of_media {pu : Nat} (hp : mget t.flash.map x.flu = some pu) (hc : mhas t.flash.cache pu = false) :
    serveRead t x = modFlash t (fun f => { f with
      reads := f.reads ++ [{ x with data := fluRu t x.flu x.ru, pu := some pu, issued := !(puBlocked t pu) }] }) := by
  simp only [serveRead, hp, hc, Bool.false_eq_true, if_false]

end

/-! ### Reads that end -/

/-- The store with a read of the media taken off its list. -/
def readEnded (s : State) (id : Nat) : State :=
  modFlash s (fun f => { f with reads := f.reads.filter (fun y => y.id != id), tries := mdel f.tries id })

theorem finishRead_eq (s : State) (x : FReq) (pu step : Nat) : finishRead s x pu step =
    if (readEnded s x.id).flash.lost.contains pu then answerRead (countStep (readEnded s x.id) pu 5) x.req x.flu x.ru ruLost
    else if step = 5 || (step = 4 && !(rowWhole (readEnded s x.id) pu)) then
      answerRead (endStep (readEnded s x.id) pu x.ru 5) x.req x.flu x.ru ruLost
    else answerRead (endStep (readEnded s x.id) pu x.ru step) x.req x.flu x.ru x.data := rfl

section
variable {s : State} {id step pu : Nat} {x : FReq} (hx : s.flash.reads.find? (fun x => x.id = id) = some x) (hp : x.pu = some pu)
  (hm : flashReadable s = true) (hf : s.power.flushing = false) (h1 : 1 ≤ step) (h5 : step ≤ 5) (hb : puBlocked s pu = false ∨ x.issued = true)
include hx hp hm hf h1 h5 hb

/-- A read of the media that was issued, or whose die serves, ends at its step. -/
theorem flashReadComplete_of_issued : flashReadComplete id step s = finishRead s x pu step := by
  have hserved : (puBlocked s pu && !x.issued) = false := by
    rcases hb with h | h
    · rw [h, Bool.false_and]
    · rw [h, Bool.not_true, Bool.and_false]
  simp only [flashReadComplete, hx, hp, hm, hf, hserved, Nat.ne_of_gt h1, gt_iff_lt, Nat.not_lt.2 h5, decide_false, Bool.not_true, Bool.or_self,
    Bool.false_eq_true, if_false]

theorem flashReadComplete_of_lost (hl : (readEnded s x.id).flash.lost.contains pu = true) :
    flashReadComplete id step s = answerRead (countStep (readEnded s x.id) pu 5) x.req x.flu x.ru ruLost :=
  (flashReadComplete_of_issued hx hp hm hf h1 h5 hb).trans (if_pos hl)

variable (hl : (readEnded s x.id).flash.lost.contains pu = false)
include hl

theorem flashReadComplete_of_spoiled (he : step = 5 ∨ step = 4 ∧ rowWhole (readEnded s x.id) pu = false) :
    flashReadComplete id step s = answerRead (endStep (readEnded s x.id) pu x.ru 5) x.req x.flu x.ru ruLost := by
  rw [flashReadComplete_of_issued hx hp hm hf h1 h5 hb, finishRead_eq, if_neg (ne_true_of_eq_false hl), if_pos ?_]
  simpa only [Bool.or_eq_true, Bool.and_eq_true, decide_eq_true_eq, Bool.not_eq_true'] using he

theorem flashReadComplete_of_decoded (hn : step ≠ 5) (hr : step = 4 → rowWhole (readEnded s x.id) pu = true) :
    flashReadComplete id step s = answerRead (endStep (readEnded s x.id) pu x.ru step) x.req x.flu x.ru x.data := by
  rw [flashReadComplete_of_issued hx hp hm hf h1 h5 hb, finishRead_eq, if_neg (ne_true_of_eq_false hl), if_neg ?_]
  simp only [Bool.or_eq_true, Bool.and_eq_true, decide_eq_true_eq, Bool.not_eq_true']
  rintro (h | ⟨h4, hw⟩)
  · exact hn h
  · exact Bool.false_ne_true (hw.symm.trans (hr h4))

end

/-- A read that was given up meanwhile is late (R444). -/
theorem flashReadComplete_of_none {s : State} {id : Nat} (step : Nat) (hx : s.flash.reads.find? (fun x => x.id = id) = none)
    (hm : flashReadable s = true) (hf : s.power.flushing = false) : flashReadComplete id step s = bump s Reg.fwRecoverLateDropped := by
  simp only [flashReadComplete, hx, hm, hf, Bool.not_false, Bool.and_self, if_true]

end Sys2Proof.Machine

/-! SETTLED. The traffic of the flash store. -/
namespace Sys2Proof.Machine
open Sys2Proof

/-- Settles O55: a write by what takes or refuses it, a program by its row, and a read by where its unit lies and how it ends. -/
theorem flashTraffic : Obligations.FlashTraffic := by
  intro s
  refine ⟨fun req flu ru bytes pois hr hf hu hk => ?write, fun x rest hx hf hw hh => ⟨fun he => ?expired, fun he hm => ⟨fun hn => ?beyond,
      fun hn k hk => ⟨fun t ht => ?taken, fun ht => ?still⟩⟩⟩,
    fun band row b hb hm hp hd hn => ?row, fun band b failed hb hm => ⟨fun r hr => ?programmed, fun he hn => ?erased⟩,
    fun req flu ru weak hr hf hu => ?read, fun id step x pu hx hp hm hf h1 h5 hb => ⟨?lost, ?spoiled, ?decoded⟩,
    fun id step hx hm hf => ?late⟩
  case write =>
    refine ⟨fun hh => ?_, fun hh hw => ?_, fun hh hw hm => ?_, fun hh hw hm => ⟨fun hn => ?_, fun hn t ht => ?_, fun hn ht => ?_⟩⟩
    · exact congrArg Host.Outcome.next (flashWrite_of_held hr hf hu hk hh)
    · exact congrArg Host.Outcome.next (flashWrite_of_unmounted hr hf hu hk hh hw)
    · exact congrArg Host.Outcome.next (flashWrite_of_closed hr hf hu hk hh hw hm)
    · exact congrArg Host.Outcome.next (flashWrite_of_beyond hr hf hu hk hh hw hm hn)
    · exact congrArg Host.Outcome.next ((flashWrite_of_logical hr hf hu hk hh hw hm hn).trans (by rw [ht]; rfl))
    · exact congrArg Host.Outcome.next ((flashWrite_of_logical hr hf hu hk hh hw hm hn).trans (by rw [ht]; rfl))
  case expired => exact congrArg Host.Outcome.next (flashWriteResume_of_expired hx hf hw hh he)
  case beyond => exact congrArg Host.Outcome.next (flashWriteResume_of_beyond hx hf hw hh he hm hn)
  case taken => exact congrArg Host.Outcome.next ((flashWriteResume_of_logical hx hf hw hh he hm hn hk).trans (by rw [ht]; rfl))
  case still => exact congrArg Host.Outcome.next ((flashWriteResume_of_logical hx hf hw hh he hm hn hk).trans (by rw [ht]; rfl))
  case row => exact (congrArg Host.Outcome.next (bandRowProgram_of_open hb hm hp hd hn)).trans (apply_ite Host.Outcome.next _ _ _)
  case programmed => exact congrArg Host.Outcome.next (flashProgramComplete_of_row hb hm hr failed)
  case erased => exact congrArg Host.Outcome.next (flashProgramComplete_of_erase hb hm he hn failed)
  case read =>
    intro x t
    have hread := flashRead_eq (flu := flu) (req := req) (weak := weak) hr hf hu
    have hserved (hw : readWaits t x = false) (hm : flashReadable t = true) : flashRead req flu ru weak s = serveRead t x :=
      hread.trans ((if_neg (ne_true_of_eq_false hw)).trans (if_neg (by rw [hm]; decide)))
    refine ⟨fun hw => ?_, fun hw hm => ⟨fun hp => ?_, fun pu hp => ⟨fun hc => ?_, fun hc => ?_⟩⟩⟩
    · exact congrArg Host.Outcome.next (hread.trans (if_pos hw))
    · exact congrArg Host.Outcome.next ((hserved hw hm).trans (serveRead_of_unmapped hp))
    · exact congrArg Host.Outcome.next ((hserved hw hm).trans (serveRead_of_cached hp hc))
    · exact congrArg Host.Outcome.next ((hserved hw hm).trans (serveRead_of_media hp hc))
  case lost => exact fun hl => congrArg Host.Outcome.next (flashReadComplete_of_lost hx hp hm hf h1 h5 hb hl)
  case spoiled => exact fun hl he => congrArg Host.Outcome.next (flashReadComplete_of_spoiled hx hp hm hf h1 h5 hb hl he)
  case decoded => exact fun hl hn hr => congrArg Host.Outcome.next (flashReadComplete_of_decoded hx hp hm hf h1 h5 hb hl hn hr)
  case late => exact congrArg Host.Outcome.next (flashReadComplete_of_none step hx hm hf)

end Sys2Proof.Machine

/-! SUPPORT. The upkeep of the flash store, its mount and what it loses, each operation by what decides it (R352–R372). -/
namespace Sys2Proof.Machine
open Sys2Proof

/-! ### Upkeep -/

theorem garbageCollection_of_room {s : State} (hg : gcNeeded s = false) : garbageCollection s = s := by
  simp only [garbageCollection, hg, Bool.not_false, Bool.or_true, if_true]

section
variable {s : State} (hm : flashWritable s = true)
include hm

theorem garbageCollection_of_none (hg : gcNeeded s = true) (hv : gcVictim s = none) : garbageCollection s = clearRetired s := by
  simp only [garbageCollection, hm, hg, hv, Bool.not_true, Bool.or_self, Bool.false_eq_true, if_false]

theorem garbageCollection_of_victim {id : Nat} {b : Band} (hg : gcNeeded s = true) (hv : gcVictim s = some (id, b)) :
    garbageCollection s = clearRetired (bumpBy (emptyBand s id b false).1 Reg.fshRelocGc (emptyBand s id b false).2) := by
  simp only [garbageCollection, hm, hg, hv, Bool.not_true, Bool.or_self, Bool.false_eq_true, if_false]

theorem slcFold_of_band {band : Nat} {b : Band} (hb : mget s.flash.bands band = some b) :
    slcFold band s = if b.slc && bandClosed s band b then (emptyBand s band b true).1 else s := by
  simp only [slcFold, hb, hm, Bool.true_and]

theorem checkpointWrite_of_ready (seg : Nat) : checkpointWrite seg s = ckptSegment s seg := if_pos hm

section
variable (hw : s.flash.patrolWin = tickOf s / 1000) (steps : List Nat) (pct : Nat)
include hw

theorem patrolRead_of_spent (hr : getF s Reg.fshCtrlPatrolRate ≤ s.flash.patrolCnt) : patrolRead steps pct s = s := by
  simp only [patrolRead, hw, hm, ge_iff_le, hr, decide_true, Bool.not_true, Bool.or_true, if_true]

variable (hr : s.flash.patrolCnt < getF s Reg.fshCtrlPatrolRate)
include hr

theorem patrolRead_of_end (hn : (patrolUnits s).find? (fun pu => decide (s.flash.patrolPos ≤ pu)) = none) :
    patrolRead steps pct s = if s.flash.patrolPos = 0 then s else patrolWrap s := by
  simp only [patrolRead, hw, hm, ge_iff_le, Nat.not_le.2 hr, hn, decide_false, Bool.not_true, Bool.or_self, Bool.false_eq_true, if_false, if_true]

theorem patrolRead_of_unit {pu : Nat} (hu : (patrolUnits s).find? (fun pu => decide (s.flash.patrolPos ≤ pu)) = some pu) :
    patrolRead steps pct s =
      if (patrolUnits s).any (fun x => decide (pu < x)) then patrolUnit s pu pct steps else patrolWrap (patrolUnit s pu pct steps) := by
  cases h : (patrolUnits s).any (fun x => decide (pu < x)) <;>
    simp only [patrolRead, hw, hm, ge_iff_le, gt_iff_lt, Nat.not_le.2 hr, hu, h, decide_false, Bool.not_true, Bool.not_false, Bool.or_self,
      Bool.false_eq_true, if_false, if_true]

end
end

/-- The store with its patrol gone on by unit `pu` (R367). -/
def patrolled (s : State) (pu : Nat) : State :=
  let t := modFlash s (fun f => { f with patrolPos := pu + 1, patrolCnt := f.patrolCnt + 1 })
  setF t Reg.fshPatrolPosition (getF t Reg.fshPatrolPosition + 1)

/-- A unit whose reads needed no step is relocated where its errors or its age ask for it. -/
theorem patrolUnit_of_clean (s : State) (pu pct : Nat) : patrolUnit s pu pct [] =
    if refreshes (patrolled s pu) pu pct [] then
      match relocate (patrolled s pu) pu false with
      | some t => bump t Reg.fshRelocRefreshed
      | none => patrolled s pu
    else patrolled s pu := rfl

theorem patrolUnit_of_kept {s : State} {pu pct : Nat} (h : refreshes (patrolled s pu) pu pct [] = false) :
    patrolUnit s pu pct [] = patrolled s pu :=
  (patrolUnit_of_clean s pu pct).trans (if_neg (ne_true_of_eq_false h))

theorem patrolUnit_of_refreshed {s u : State} {pu pct : Nat} (h : refreshes (patrolled s pu) pu pct [] = true)
    (hu : relocate (patrolled s pu) pu false = some u) : patrolUnit s pu pct [] = bump u Reg.fshRelocRefreshed := by
  rw [patrolUnit_of_clean, if_pos h, hu]

/-! ### The mount -/

section
variable {s : State}

theorem flashMount_of_begun (h : s.flash.st ≠ 0) (p : MountPar) : flashMount p s = s :=
  if_pos (by rw [bne_iff_ne.2 h, Bool.true_or, Bool.true_or, Bool.true_or, Bool.true_or])

variable (hst : s.flash.st = 1)
include hst

theorem mountComplete_of_good (hg : 31 ≤ goodChannels s) : mountComplete s = serveReads (modFlash s (fun f => { f with st := 2 })) := by
  simp only [mountComplete, hst, hg, bne_self_eq_false, Bool.false_eq_true, if_false, if_true, modFlash_flash]

theorem mountComplete_of_bad (hg : goodChannels s < 31) : mountComplete s =
    serveReads (s.flash.waitw.foldl (fun s x => writeDone s x .timeout) (modFlash s (fun f => { f with st := 5, waitw := [] }))) := by
  simp only [mountComplete, hst, ge_iff_le, Nat.not_le.2 hg, bne_self_eq_false, Bool.false_eq_true, if_false, modFlash_flash]
  rfl

end

/-! ### Lost units -/

section
variable {s : State}

theorem rowRebuild_of_unchanged (h : (rebuildRow s).flash.rebuild = s.flash.rebuild) : rowRebuild s = rebuildRow s := if_pos h

theorem rowRebuild_of_rebuilt (h : (rebuildRow s).flash.rebuild ≠ s.flash.rebuild) : rowRebuild s = resumeWaits (rebuildRow s) := if_neg h

theorem rebuildRow_of_none (hn : rebuildNext s = none) : rebuildRow s = s := by
  simp only [rebuildRow, hn, ite_self]

/-- A lost unit whose row is whole is written again where the store has room. -/
theorem rebuildRow_of_row (hd : flashReadable s = true) (hf : s.power.flushing = false) {id row m : Nat} {b : Band} {u : MUnit} {t : State}
    (hm : flashWritable s = true)
    (hn : rebuildNext s = some (id, row, m)) (hb : mget s.flash.bands id = some b) (hl : s.flash.lost.contains (bandPu b row m) = false)
    (hall : ((List.range b.members.length).filter (· != m)).all (fun k => mhas s.flash.units (bandPu b row k) &&
      !(s.flash.lost.contains (bandPu b row k)) && !(s.flash.rebuild.contains (id, row, k))) = true)
    (hv : puValid s (bandPu b row m) = true) (hu : mget s.flash.units (bandPu b row m) = some u)
    (ht : placeUnit s u.flu u.kind u.name (rowXor s b row ((List.range b.members.length).filter (· != m))) false = some t) :
    rebuildRow s = bump (modFlash t (fun f => { f with
      rebuild := f.rebuild.filter (fun r => r != (id, row, m)), noSpace := false,
      wanted := match mget f.bands id with | some b => f.wanted.filter (· != bandPu b row m) | none => f.wanted })) Reg.fshRebuildDone := by
  have hwhole : ((List.range b.members.length).filter (· != m)).filter (fun k => !(mhas s.flash.units (bandPu b row k)) ||
      s.flash.lost.contains (bandPu b row k) || s.flash.rebuild.contains (id, row, k)) = [] := by
    refine List.filter_eq_nil_iff.2 fun k hk => ?_
    have hkept := List.all_eq_true.1 hall k hk
    simp only [Bool.and_eq_true, Bool.not_eq_true'] at hkept
    obtain ⟨⟨h1, h2⟩, h3⟩ := hkept
    rw [h1, h2, h3]
    decide
  simp only [rebuildRow, hd, hf, hn, hb, hl, hwhole, hv, hu, hm, ht, Bool.not_true, Bool.or_self, List.isEmpty_nil, Bool.false_eq_true, if_false,
    if_true]
  rfl

end

/-! ### Operations and dies -/

/-- The store with operation `op` given up and its die suspect (R368). -/
def opGivenUp (s : State) (ch die op : Nat) : State := suspect (modFlash s (fun f => { f with tries := mdel f.tries op })) ch die

section
variable {s : State} {ch die op : Nat} (hd : flashReadable s = true) (hf : s.power.flushing = false)
  (hu : (usableDies s ch).contains die = true)
include hd hf hu

section
variable {x : FReq} {pu : Nat} (ho : op < 2 ^ 32) (hx : s.flash.reads.find? (fun x => x.id = op) = some x) (he : x.expiry ≤ tickOf s)
  (hp : x.pu = some pu)
include ho hx he hp

theorem flashOpTimeout_of_read : flashOpTimeout ch die op none s =
    if (mget s.flash.tries op).getD 0 < getF s Reg.fshCtrlRetries then
      modFlash s (fun f => { f with tries := mput f.tries op ((mget s.flash.tries op).getD 0 + 1) })
    else finishRead (opGivenUp s ch die op) x pu 4 := by
  simp only [flashOpTimeout, hx, hp, hd, hf, hu, ge_iff_le, Nat.not_le.2 ho, Nat.not_lt.2 he, decide_false, Bool.not_true, Bool.or_self,
    Bool.false_eq_true, if_false, opGivenUp]

end

section
variable {m : MoveEnt} (ho : 2 ^ 32 ≤ op) (hx : s.flash.reads.find? (fun x => x.id = op) = none)
  (hm : mget s.tiers.moves (op - 2 ^ 32) = some m) (he : m.start + atLeast1 s Reg.fwToMediaFlash ≤ tickOf s)
include ho hx hm he

theorem flashOpTimeout_of_move : flashOpTimeout ch die op none s =
    if (mget s.flash.tries op).getD 0 < getF s Reg.fshCtrlRetries then
      modFlash s (fun f => { f with tries := mput f.tries op ((mget s.flash.tries op).getD 0 + 1) })
    else failedMove (opGivenUp s ch die op) (op - 2 ^ 32) := by
  simp only [flashOpTimeout, hx, hm, hd, hf, hu, ge_iff_le, ho, Nat.not_lt.2 he, decide_false, Bool.and_false, Bool.not_true, Bool.or_self,
    Bool.false_eq_true, if_false, if_true, opGivenUp]

end

end

section
variable {s : State} {ch die : Nat} (ht : s.flash.testing.contains (ch, die) = true)
  (hr : (rowsOnDie s ch die).any (fun r => s.flash.rebuild.contains r) = false)
include ht hr

/-- A tested die is tested no longer, and is suspect or comes back empty (R369). -/
theorem dieReturnTestDone_of_tested (ok : Bool) : dieReturnTestDone ch die ok s =
    let t := modFlash s (fun f => { f with testing := f.testing.filter (· != (ch, die)) })
    let sus := getF t (Reg.fshDsuspSuspect.ix ch)
    if ok then
      modFlash (setF t (Reg.fshDsuspSuspect.ix ch) (sus - (if sus.testBit die then 2 ^ die else 0)))
        (fun f => { f with units := f.units.filter (fun u => puDie u.1 != dieKey ch die) })
    else setF t (Reg.fshDsuspSuspect.ix ch) (sus ||| 2 ^ die) :=
  if_neg (by rw [ht, hr]; decide)

end
end Sys2Proof.Machine

/-! SETTLED. Upkeep and loss of the flash store. -/
namespace Sys2Proof.Machine
open Sys2Proof

/-- Settles O56: upkeep by what it finds to do, the mount by what is fitted, a rebuild by its row, and an operation by the tries it has left. -/
theorem flashUpkeepAndLoss : Obligations.FlashUpkeepAndLoss := by
  refine ⟨fun s hm => ⟨fun hg => ?room, fun hg hv => ?noVictim, fun id b hg hv => ?victim, fun band b hb => ?fold,
      fun hw steps pct => ⟨fun hr => ?spent, fun hr => ⟨fun hn => ?passEnd, fun pu hu => ?unit⟩⟩,
      fun pu pct => ⟨patrolUnit_of_kept, fun u => patrolUnit_of_refreshed⟩, fun seg => ?checkpoint⟩,
    fun s => ⟨fun h p => ?begun, fun p h0 h5 hv ht hh => ?mount, fun hst => ⟨fun hg => ?ready, fun hg => ?failed⟩,
      ⟨fun h => ?sameRows, fun h => ?fewerRows⟩, fun _ _ => rebuildRow_of_none,
      fun id row m b u t hm hd hf hn hb => rebuildRow_of_row hd hf hm hn hb, fun ch die op hd hf hu => ⟨fun x pu ho hx he hp => ?read,
        fun m ho hx hm he => ?move⟩, fun ch die ht hr => ⟨?suspect, ?returns⟩⟩⟩
  case room => exact congrArg Host.Outcome.next (garbageCollection_of_room hg)
  case noVictim => exact congrArg Host.Outcome.next (garbageCollection_of_none hm hg hv)
  case victim => exact congrArg Host.Outcome.next (garbageCollection_of_victim hm hg hv)
  case fold => exact (congrArg Host.Outcome.next (slcFold_of_band hm hb)).trans (apply_ite Host.Outcome.next _ _ _)
  case spent => exact congrArg Host.Outcome.next (patrolRead_of_spent hm hw steps pct hr)
  case passEnd => exact (congrArg Host.Outcome.next (patrolRead_of_end hm hw steps pct hr hn)).trans (apply_ite Host.Outcome.next _ _ _)
  case unit => exact (congrArg Host.Outcome.next (patrolRead_of_unit hm hw steps pct hr hu)).trans (apply_ite Host.Outcome.next _ _ _)
  case checkpoint => exact congrArg Host.Outcome.next (checkpointWrite_of_ready hm seg)
  case begun => exact congrArg Host.Outcome.next (flashMount_of_begun h p)
  case mount =>
    have hopen : (s.flash.st != 0 || decide (getF s Reg.rstStatusStep < 5) || !s.power.vddMgmt || s.power.tripped || s.power.halted) = false := by
      rw [h0, decide_eq_false (Nat.not_lt.2 h5), hv, ht, hh]
      rfl
    exact congrArg Host.Outcome.next (if_neg (ne_true_of_eq_false hopen))
  case ready => exact congrArg Host.Outcome.next (mountComplete_of_good hst hg)
  case failed => exact congrArg Host.Outcome.next (mountComplete_of_bad hst hg)
  case sameRows => exact congrArg Host.Outcome.next (rowRebuild_of_unchanged h)
  case fewerRows => exact congrArg Host.Outcome.next (rowRebuild_of_rebuilt h)
  case read =>
    exact ⟨fun hn => congrArg Host.Outcome.next ((flashOpTimeout_of_read hd hf hu ho hx he hp).trans (if_pos hn)),
      fun hn => congrArg Host.Outcome.next ((flashOpTimeout_of_read hd hf hu ho hx he hp).trans (if_neg (Nat.not_lt.2 hn)))⟩
  case move =>
    exact ⟨fun hn => congrArg Host.Outcome.next ((flashOpTimeout_of_move hd hf hu ho hx hm he).trans (if_pos hn)),
      fun hn => congrArg Host.Outcome.next ((flashOpTimeout_of_move hd hf hu ho hx hm he).trans (if_neg (Nat.not_lt.2 hn)))⟩
  case suspect => exact congrArg Host.Outcome.next (dieReturnTestDone_of_tested ht hr false)
  case returns => exact congrArg Host.Outcome.next (dieReturnTestDone_of_tested ht hr true)

end Sys2Proof.Machine

/-! SUPPORT. RMA descriptors (R396–R400): the entry that each takes, and what it does in its own node. -/
namespace Sys2Proof.Machine
open Sys2Proof

section
variable {s : State} {w : Work} (k : State → State)

theorem takeEntry_of_full (hf : 16384 ≤ outstanding s) : takeEntry s w k = complete (bump s Reg.rmaRefuseTableFull) w .tableFull := if_pos hf

theorem takeEntry_of_room (hf : outstanding s < 16384) : takeEntry s w k = k s := if_neg (Nat.not_le.2 hf)

end

section
variable {s : State} {id cls : Nat} {w : Work} (hs : rmaShape w = true)
include hs

/-- A descriptor whose fields and local area pass their checks goes on with its entry. -/
theorem onRma_ready {len : Nat} (hw : WorkReady s id cls w) (hi : inWindow s w.tenant (w.f 24 8) (if len = 0 then w.f 32 4 else len) = true)
    (k : State → Work → State) : onRma s id cls len k = takeEntry s w (fun s => k s w) := by
  rw [onRma, onWork_ready hw, if_neg (by rw [hs]; decide), if_neg (by rw [hi]; decide)]

/-! ### WRITE and READ -/

section
variable (hw : WorkReady s id 0x10 w) (hi : inWindow s w.tenant (w.f 24 8) (w.f 32 4) = true)
include hw hi

theorem rmaWrite_of_full (hf : 16384 ≤ outstanding s) : rmaWrite id s = complete (bump s Reg.rmaRefuseTableFull) w .tableFull :=
  (onRma_ready (len := 0) hs hw hi _).trans (takeEntry_of_full _ hf)

variable (hf : outstanding s < 16384) {t : State} {b : RdRes} (hb : nrRead s (w.f 24 8) (w.f 32 4) = (t, b))
include hf hb

theorem rmaWrite_of_read : rmaWrite id s =
    let u := bumpBy t Reg.intPoisonCarried b.pois.length
    if b.timeout then complete u w .timeout
    else if w.f 8 1 = nodeNo s then
      if localReason s w (w.f 32 4) 1 = 0 then
        complete ((localTarget s w).put u 0 b.bytes (msgPois (w.f 24 8) (w.f 32 4) b.pois)) w .ok
      else complete u w (nakStatus (localReason s w (w.f 32 4) 1))
    else startOp u w 1 (w.f 32 4) b.bytes (msgPois (w.f 24 8) (w.f 32 4) b.pois) := by
  refine (onRma_ready (len := 0) hs hw hi _).trans ((takeEntry_of_room _ hf).trans ?_)
  simp only [hb]
  cases localReason s w (w.f 32 4) 1 <;> rfl

theorem rmaWrite_of_timeout (ht : b.timeout = true) : rmaWrite id s =
    complete (bumpBy t Reg.intPoisonCarried b.pois.length) w .timeout :=
  (rmaWrite_of_read hs hw hi hf hb).trans (if_pos ht)

variable (ht : b.timeout = false)
include ht

theorem rmaWrite_of_away (hn : w.f 8 1 ≠ nodeNo s) : rmaWrite id s =
    startOp (bumpBy t Reg.intPoisonCarried b.pois.length) w 1 (w.f 32 4) b.bytes (msgPois (w.f 24 8) (w.f 32 4) b.pois) :=
  (rmaWrite_of_read hs hw hi hf hb).trans ((if_neg (ne_true_of_eq_false ht)).trans (if_neg hn))

variable (hn : w.f 8 1 = nodeNo s)
include hn

theorem rmaWrite_of_own (hl : localReason s w (w.f 32 4) 1 = 0) : rmaWrite id s =
    complete ((localTarget s w).put (bumpBy t Reg.intPoisonCarried b.pois.length) 0 b.bytes (msgPois (w.f 24 8) (w.f 32 4) b.pois)) w .ok :=
  (rmaWrite_of_read hs hw hi hf hb).trans ((if_neg (ne_true_of_eq_false ht)).trans ((if_pos hn).trans (if_pos hl)))

theorem rmaWrite_of_own_refused (hl : localReason s w (w.f 32 4) 1 ≠ 0) : rmaWrite id s =
    complete (bumpBy t Reg.intPoisonCarried b.pois.length) w (nakStatus (localReason s w (w.f 32 4) 1)) :=
  (rmaWrite_of_read hs hw hi hf hb).trans ((if_neg (ne_true_of_eq_false ht)).trans ((if_pos hn).trans (if_neg hl)))

end

section
variable (hw : WorkReady s id 0x11 w) (hi : inWindow s w.tenant (w.f 24 8) (w.f 32 4) = true)
include hw hi

theorem rmaRead_of_full (hf : 16384 ≤ outstanding s) : rmaRead id s = complete (bump s Reg.rmaRefuseTableFull) w .tableFull :=
  (onRma_ready (len := 0) hs hw hi _).trans (takeEntry_of_full _ hf)

variable (hf : outstanding s < 16384)
include hf

theorem rmaRead_of_away (hn : w.f 8 1 ≠ nodeNo s) : rmaRead id s = startOp s w 2 (w.f 32 4) [] [] :=
  (onRma_ready (len := 0) hs hw hi _).trans ((takeEntry_of_room _ hf).trans (if_neg hn))

variable (hn : w.f 8 1 = nodeNo s)
include hn

theorem rmaRead_of_own (hl : localReason s w (w.f 32 4) 0 = 0) : rmaRead id s =
    let r := (localTarget s w).get s (w.f 32 4)
    complete (placeBytes (bumpBy r.1 Reg.intPoisonCarried r.2.2.length) (w.f 24 8) r.2.1 r.2.2) w .ok := by
  refine (onRma_ready (len := 0) hs hw hi _).trans ((takeEntry_of_room _ hf).trans ((if_pos hn).trans ?_))
  simp only [hl]

theorem rmaRead_of_own_refused (hl : localReason s w (w.f 32 4) 0 ≠ 0) : rmaRead id s =
    complete s w (nakStatus (localReason s w (w.f 32 4) 0)) := by
  refine (onRma_ready (len := 0) hs hw hi _).trans ((takeEntry_of_room _ hf).trans ((if_pos hn).trans ?_))
  obtain ⟨k, hk⟩ := Nat.exists_eq_succ_of_ne_zero hl
  simp only [hk]

end

/-! ### Atomics -/

section
variable (hw : WorkReady s id cls w) (hi : inWindow s w.tenant (w.f 24 8) 8 = true)
include hw hi

theorem rmaAtomic_of_full (hf : 16384 ≤ outstanding s) : rmaAtomic s id cls = complete (bump s Reg.rmaRefuseTableFull) w .tableFull :=
  (onRma_ready (len := 8) hs hw hi _).trans (takeEntry_of_full _ hf)

variable (hf : outstanding s < 16384)
include hf

theorem rmaAtomic_of_away (hn : w.f 8 1 ≠ nodeNo s) : rmaAtomic s id cls =
    startOp s w (if cls = 0x13 then 5 else 4) 16 (toBytes 8 (w.f 40 8) ++ toBytes 8 (w.f 48 8)) [] :=
  (onRma_ready (len := 8) hs hw hi _).trans ((takeEntry_of_room _ hf).trans (if_neg hn))

variable (hn : w.f 8 1 = nodeNo s)
include hn

theorem rmaAtomic_of_own (hl : localReason s w 8 2 = 0) : rmaAtomic s id cls =
    let r := applyAtomic s (localTarget s w) (cls = 0x13) (w.f 40 8) (w.f 48 8) false
    complete (placeBytes r.1 (w.f 24 8) (toBytes 8 r.2.1) []) w (if r.2.2 then .poisoned else .ok) := by
  refine (onRma_ready (len := 8) hs hw hi _).trans ((takeEntry_of_room _ hf).trans ((if_pos hn).trans ?_))
  simp only [hl]

theorem rmaAtomic_of_own_refused (hl : localReason s w 8 2 ≠ 0) : rmaAtomic s id cls = complete s w (nakStatus (localReason s w 8 2)) := by
  refine (onRma_ready (len := 8) hs hw hi _).trans ((takeEntry_of_room _ hf).trans ((if_pos hn).trans ?_))
  obtain ⟨k, hk⟩ := Nat.exists_eq_succ_of_ne_zero hl
  simp only [hk]

end

/-! ### FLUSH and WAIT -/

theorem rmaFlush_ready (hw : WorkReady s id 0x14 w) : rmaFlush id s = takeEntry s w (fun s => settleFlushes (beginWork s w.id)) :=
  (onWork_ready hw _).trans (if_neg (by rw [hs]; decide))

section
variable (hw : WorkReady s id 0x15 w)
include hw

theorem rmaWait_of_own (hq : queueTenant (w.f 10 2) = w.tenant) : rmaWait id s = takeEntry s w (fun s => beginWork s w.id) :=
  (onWork_ready hw _).trans ((if_neg (by rw [hs]; decide)).trans (if_neg (by rw [hq, bne_self_eq_false]; decide)))

theorem rmaWait_of_foreign (hq : queueTenant (w.f 10 2) ≠ w.tenant) : rmaWait id s = complete s w .accessDenied :=
  (onWork_ready hw _).trans ((if_neg (by rw [hs]; decide)).trans (if_pos (bne_iff_ne.2 hq)))

end

end

theorem waitRelease_of_wait {s : State} {id : Nat} {w : Work} {q : Queue} (hw : workOf s id = some w) (hc : w.cls = 0x15) (hb : w.begun = true)
    (hq : queueOf s (w.f 10 2) = some q) : waitRelease id s = if w.f 16 8 ≤ q.done then complete s w .ok else s := by
  simp only [waitRelease, waitDone, hw, hc, hb, hq, decide_true, Bool.and_self, Bool.true_and, decide_eq_true_eq, ge_iff_le]

end Sys2Proof.Machine

/-! SETTLED. RMA descriptors. -/
namespace Sys2Proof.Machine
open Sys2Proof

/-- Settles O48: each operation by the table of those outstanding, by its node and by its region's reason, and what waits by its queue. -/
theorem rmaDescriptors : Obligations.RmaDescriptors := by
  intro s id w hs
  refine ⟨fun t b hw hi _ => ⟨fun hf => ?writeFull, fun hf hb => ⟨fun ht => ?writeTimeout, fun ht hn => ?writeAway, fun ht hn hl => ?writeOwn,
      fun ht hn hl => ?writeRefused⟩⟩,
    fun hw hi _ => ⟨fun hf => ?readFull, fun hf hn => ?readAway, fun hf hn hl => ?readOwn, fun hf hn hl => ?readRefused⟩,
    fun swap hw hi => ?atomic, fun hw => ⟨fun hf => ?flushFull, fun hf => ?flush⟩,
    fun hw => ⟨fun hq hf => ?waitFull, fun hq hf => ?wait, fun hq => ?waitForeign⟩, fun hw hc hb q hq => ⟨fun hd => ?done, fun hd => ?early⟩⟩
  case writeFull => exact congrArg Host.Outcome.next (rmaWrite_of_full hs hw hi hf)
  case writeTimeout => exact congrArg Host.Outcome.next (rmaWrite_of_timeout hs hw hi hf hb ht)
  case writeAway => exact congrArg Host.Outcome.next (rmaWrite_of_away hs hw hi hf hb ht hn)
  case writeOwn => exact congrArg Host.Outcome.next (rmaWrite_of_own hs hw hi hf hb ht hn hl)
  case writeRefused => exact congrArg Host.Outcome.next (rmaWrite_of_own_refused hs hw hi hf hb ht hn hl)
  case readFull => exact congrArg Host.Outcome.next (rmaRead_of_full hs hw hi hf)
  case readAway => exact congrArg Host.Outcome.next (rmaRead_of_away hs hw hi hf hn)
  case readOwn => exact congrArg Host.Outcome.next (rmaRead_of_own hs hw hi hf hn hl)
  case readRefused => exact congrArg Host.Outcome.next (rmaRead_of_own_refused hs hw hi hf hn hl)
  case atomic =>
    cases swap
    case' false => have hatomic : exec (.rmaFetchAdd id) s = .next (rmaAtomic s id 0x12) := rfl
    case' true => have hatomic : exec (.rmaCompareSwap id) s = .next (rmaAtomic s id 0x13) := rfl
    all_goals
      refine ⟨fun hf => hatomic.trans (congrArg Host.Outcome.next ?_), fun hf hn => hatomic.trans (congrArg Host.Outcome.next ?_),
        fun hf hn hl => hatomic.trans (congrArg Host.Outcome.next ?_), fun hf hn hl => hatomic.trans (congrArg Host.Outcome.next ?_)⟩
      · exact rmaAtomic_of_full hs hw hi hf
      · exact rmaAtomic_of_away hs hw hi hf hn
      · exact rmaAtomic_of_own hs hw hi hf hn hl
      · exact rmaAtomic_of_own_refused hs hw hi hf hn hl
  case flushFull => exact congrArg Host.Outcome.next ((rmaFlush_ready hs hw).trans (takeEntry_of_full _ hf))
  case flush => exact congrArg Host.Outcome.next ((rmaFlush_ready hs hw).trans (takeEntry_of_room _ hf))
  case waitFull => exact congrArg Host.Outcome.next ((rmaWait_of_own hs hw hq).trans (takeEntry_of_full _ hf))
  case wait => exact congrArg Host.Outcome.next ((rmaWait_of_own hs hw hq).trans (takeEntry_of_room _ hf))
  case waitForeign => exact congrArg Host.Outcome.next (rmaWait_of_foreign hs hw hq)
  case done => exact congrArg Host.Outcome.next ((waitRelease_of_wait hw hc hb hq).trans (if_pos hd))
  case early => exact congrArg Host.Outcome.next ((waitRelease_of_wait hw hc hb hq).trans (if_neg (Nat.not_le.2 hd)))

end Sys2Proof.Machine

/-! SUPPORT. Tenants, regions and gate lists (R393–R395, R414, R415, R436), each command by the check that decides it. -/
namespace Sys2Proof.Machine
open Sys2Proof

section
variable {s : State} {id : Nat} {w : Work} {t : State} {op : List Byte}

/-! ### Tenants -/

section
variable (hr : AdminReady s id 1 16 true w t op)
include hr

/-- A context that is there already, a function that is off, or a window that is taken or beyond the range (R414). -/
theorem tenantOpen_of_bad (h : ctxOpen t (getLE op 0 2) = true ∨ fnEnabled t (getLE op 0 2) = false ∨
      windowTaken t (getLE op 8 4) (getLE op 12 4) = true ∨ rangePages t < getLE op 8 4 + getLE op 12 4) :
    tenantOpen id s = complete t w .malformed := by
  refine (onAdmin_ready hr _).trans (if_pos ?_)
  rcases h with h | h | h | h <;> simp only [h, gt_iff_lt, decide_true, Bool.not_false, Bool.or_true, Bool.true_or]

variable (hz : zeroAt op 2 6 = true) (h1 : 1 ≤ getLE op 0 2) (h2 : getLE op 0 2 ≤ 511) (he : fnEnabled t (getLE op 0 2) = true)
  (hc : ctxOpen t (getLE op 0 2) = false) (hp1 : 1 ≤ getLE op 12 4) (hp2 : getLE op 12 4 ≤ 2 ^ 28)
  (hin : getLE op 8 4 + getLE op 12 4 ≤ rangePages t) (hw : windowTaken t (getLE op 8 4) (getLE op 12 4) = false)
include hz h1 h2 he hc hp1 hp2 hin hw

theorem tenantOpen_of_good : tenantOpen id s =
    if t.host.ctxs.length ≥ 511 then complete t w .noContext
    else fstatChanged (complete (modHost t (fun h => { h with ctxs := mput h.ctxs (getLE op 0 2) ⟨getLE op 8 4, getLE op 12 4⟩ })) w .ok
      (getLE op 0 2)) (getLE op 0 2) := by
  refine (onAdmin_ready hr _).trans (if_neg ?_)
  simp only [hz, Nat.ne_of_gt h1, gt_iff_lt, Nat.not_lt.2 h2, he, hc, Nat.ne_of_gt hp1, Nat.not_lt.2 hp2, Nat.not_lt.2 hin, hw, decide_false,
    Bool.not_true, Bool.or_self, Bool.false_eq_true, not_false_eq_true]

end

section
variable (hr : AdminReady s id 2 8 true w t op) (hz : zeroAt op 2 6 = true) (h1 : 1 ≤ getLE op 0 2) (h2 : getLE op 0 2 ≤ 511)
include hr hz h1 h2

theorem tenantClose_of_fn : tenantClose id s =
    if !(ctxOpen t (getLE op 0 2)) then complete t w .malformed
    else if tenantBusy t (getLE op 0 2) then complete t w .busy
    else fstatChanged (complete (modHost (releasePages t (getLE op 0 2)) (fun h => { h with ctxs := mdel h.ctxs (getLE op 0 2) })) w .ok)
      (getLE op 0 2) := by
  refine (onAdmin_ready hr _).trans ?_
  simp only [hz, Nat.ne_of_gt h1, gt_iff_lt, Nat.not_lt.2 h2, decide_false, Bool.not_true, Bool.or_self, Bool.false_or]

end

/-! ### Regions -/

/-- A REGION_REGISTER whose operand has a good shape (R393). -/
structure RegionShape (op : List Byte) : Prop where
  aligned : getLE op 0 8 % 64 = 0
  long : 64 ≤ getLE op 8 8
  short : getLE op 8 8 ≤ 2 ^ 40
  whole : getLE op 8 8 % 64 = 0
  peer : getLE op 16 2 ≤ 511
  some : 1 ≤ getLE op 18 1
  known : getLE op 18 1 ≤ 7
  zero1 : zeroAt op 19 1 = true
  zero2 : zeroAt op 24 8 = true

theorem RegionShape.not_malformed {op : List Byte} (h : RegionShape op) :
    (getLE op 0 8 % 64 != 0 || decide (getLE op 8 8 < 64) || decide (getLE op 8 8 > 2 ^ 40) || getLE op 8 8 % 64 != 0 ||
      decide (getLE op 16 2 > 511) || decide (getLE op 18 1 = 0) || decide (getLE op 18 1 > 7) || !(zeroAt op 19 1) || !(zeroAt op 24 8)) =
        false := by
  obtain ⟨ha, hl, hm, hw, hp, h1, h7, hz1, hz2⟩ := h
  simp only [ha, Nat.not_lt.2 hl, gt_iff_lt, Nat.not_lt.2 hm, hw, Nat.not_lt.2 hp, Nat.ne_of_gt h1, Nat.not_lt.2 h7, hz1, hz2, decide_false,
    bne_self_eq_false, Bool.not_true, Bool.or_self]

section
variable (hr : AdminReady s id 0x40 32 false w t op) (hs : RegionShape op)
include hr hs

theorem regionRegister_of_outside (hi : inWindow t w.tenant (getLE op 0 8) (getLE op 8 8) = false) :
    regionRegister id s = complete t w .accessDenied := by
  rw [regionRegister, onAdmin_ready hr]
  simp only [hs.not_malformed, hi, Bool.not_false, Bool.false_eq_true, if_false, if_true]

variable (hi : inWindow t w.tenant (getLE op 0 8) (getLE op 8 8) = true)
include hi

theorem regionRegister_of_pinned
    (hp : (pagesOf (getLE op 0 8) (getLE op 8 8)).any (fun p => decide ((pageEnt t p).pins ≥ 255)) = true) :
    regionRegister id s = complete (bump t Reg.rmaRefuseTableFull) w .tableFull := by
  rw [regionRegister, onAdmin_ready hr]
  simp only [hs.not_malformed, hi, hp, Bool.not_true, Bool.false_eq_true, if_false, if_true]

theorem regionRegister_of_free {k : Nat} {u : State}
    (hp : (pagesOf (getLE op 0 8) (getLE op 8 8)).any (fun p => decide ((pageEnt t p).pins ≥ 255)) = false)
    (hk : mfree t.brim.regions 65536 = some k) (hu : homePages t (pagesOf (getLE op 0 8) (getLE op 8 8)) = some u) :
    regionRegister id s =
      let v := modBrim (pinPages u (pagesOf (getLE op 0 8) (getLE op 8 8)) true)
        (fun x => { x with regions := mput x.regions k ⟨w.tenant, getLE op 0 8, getLE op 8 8, getLE op 16 2, getLE op 18 1, none⟩ })
      completeWith v w (w.opAddr + 20) (toBytes 4 (slotGen v k * 65536 + k)) .ok (res := []) := by
  rw [regionRegister, onAdmin_ready hr]
  simp only [hs.not_malformed, hi, hp, hk, hu, Bool.not_true, Bool.false_eq_true, if_false]

end

section
variable (hr : AdminReady s id 0x41 32 false w t op) (hz : zeroAt op 4 28 = true)
include hr hz

theorem regionDeregister_of_unknown (hk : regionOf t (getLE op 0 4) = none) : regionDeregister id s = complete t w .keyInvalid := by
  rw [regionDeregister, onAdmin_ready hr]
  simp only [hz, hk, Bool.not_true, Bool.false_eq_true, if_false]

theorem regionDeregister_of_own {r : Region} (hk : regionOf t (getLE op 0 4) = some r) (hm : adminMay w r.tenant = true) :
    regionDeregister id s = beginWork (modBrim t (fun x => { x with
      regions := mput x.regions (getLE op 0 4 % 65536) { r with closing := some w.id } })) w.id := by
  rw [regionDeregister, onAdmin_ready hr]
  simp only [hz, hk, hm, Bool.not_true, Bool.false_eq_true, if_false, if_true]

end

theorem regionDeregisterDone_of_closing {slot : Nat} {r : Region} {d : Nat} (hk : mget s.brim.regions slot = some r)
    (hd : r.closing = some d) : regionDeregisterDone slot s =
      let u := pinPages s (pagesOf r.base r.length) false
      completeId (modBrim u (fun x => { x with
        regions := mdel x.regions slot, gens := mput x.gens slot (nextGen (slotGen u slot)) })) d .ok := by
  simp only [regionDeregisterDone, hk, hd]

/-! ### Gate lists -/

section
variable (hr : AdminReady s id 0x50 16 true w t op) (hp : getLE op 0 1 ≤ 15) (hn : getLE op 1 1 ≤ 64) (hz : zeroAt op 2 6 = true)
  (hl : 16 + 8 * getLE op 1 1 ≤ w.opLen) (hi : inWindow t w.tenant w.opAddr (16 + 8 * getLE op 1 1) = true) {u : State} {b : RdRes}
  (hb : rdW t (w.opAddr + 16) (8 * getLE op 1 1) = (u, b)) (ht : b.timeout = false) (hg : b.bad = false)
  (he : gateEntsOk b.bytes (getLE op 1 1) = true) (hf : tickFar u (getLE op 8 8) = false)
include hr hp hn hz hl hi hb ht hg he hf

/-- A gate list whose entries are read and good waits for its tick, if the schedule takes it. -/
theorem gateList_of_read : gateList id s =
    if tickNear u (getLE op 8 8) then complete u w .timeout
    else if schedFull u then schedRefuse u w
    else schedAdd u (.gate (getLE op 0 1) (gateEnts b.bytes (getLE op 1 1))) (getLE op 8 8) w := by
  rw [gateList, onAdmin_ready hr]
  simp only [gt_iff_lt, Nat.not_lt.2 hp, Nat.not_lt.2 hn, hz, Nat.not_lt.2 hl, hi, hb, ht, hg, he, hf, decide_false, Bool.not_true, Bool.or_self,
    Bool.false_eq_true, if_false]

end

end
end Sys2Proof.Machine

/-! SETTLED. Tenants, regions and gate lists. -/
namespace Sys2Proof.Machine
open Sys2Proof

/-- Settles O49: each command by what its operand says and by what it finds. -/
theorem tenantRegionGateCommands : Obligations.TenantRegionGateCommands := by
  refine ⟨fun s id w t op => ⟨fun hr => ⟨fun hz h1 h2 he hc hp1 hp2 hin hw => ⟨fun hl => ?opens, fun hl => ?noContext⟩, fun h => ?openBad⟩,
      fun hr hz h1 h2 => ⟨fun hc => ?unopened, fun hc hb => ?busy, fun hc hb => ?closes⟩⟩,
    fun s id w t op => ⟨fun hr ha hl hm hwh hpe h1 h7 hz1 hz2 => ⟨fun hi => ?outside, fun hi hp => ?pinned, fun hi hp k u hk hu => ?registers⟩,
      fun hr hz => ⟨fun hk => ?unknown, fun r hk hm => ?closing⟩, fun slot r d hk hd => ?done,
      fun hr hp hn hz hl hi u b hb ht hg he hf => ⟨fun hk => ?near, fun hk hs => ?full, fun hk hs => ?scheduled⟩⟩⟩
  case opens =>
    exact congrArg Host.Outcome.next ((tenantOpen_of_good hr hz h1 h2 he hc hp1 hp2 hin hw).trans (if_neg (Nat.not_le.2 hl)))
  case noContext => exact congrArg Host.Outcome.next ((tenantOpen_of_good hr hz h1 h2 he hc hp1 hp2 hin hw).trans (if_pos hl))
  case openBad => exact congrArg Host.Outcome.next (tenantOpen_of_bad hr h)
  case unopened => exact congrArg Host.Outcome.next ((tenantClose_of_fn hr hz h1 h2).trans (if_pos (by rw [hc]; rfl)))
  case busy =>
    exact congrArg Host.Outcome.next ((tenantClose_of_fn hr hz h1 h2).trans ((if_neg (by rw [hc]; decide)).trans (if_pos hb)))
  case closes =>
    exact congrArg Host.Outcome.next
      ((tenantClose_of_fn hr hz h1 h2).trans ((if_neg (by rw [hc]; decide)).trans (if_neg (ne_true_of_eq_false hb))))
  case outside => exact congrArg Host.Outcome.next (regionRegister_of_outside hr ⟨ha, hl, hm, hwh, hpe, h1, h7, hz1, hz2⟩ hi)
  case pinned => exact congrArg Host.Outcome.next (regionRegister_of_pinned hr ⟨ha, hl, hm, hwh, hpe, h1, h7, hz1, hz2⟩ hi hp)
  case registers => exact congrArg Host.Outcome.next (regionRegister_of_free hr ⟨ha, hl, hm, hwh, hpe, h1, h7, hz1, hz2⟩ hi hp hk hu)
  case unknown => exact congrArg Host.Outcome.next (regionDeregister_of_unknown hr hz hk)
  case closing => exact congrArg Host.Outcome.next (regionDeregister_of_own hr hz hk hm)
  case done => exact congrArg Host.Outcome.next (regionDeregisterDone_of_closing hk hd)
  case near => exact congrArg Host.Outcome.next ((gateList_of_read hr hp hn hz hl hi hb ht hg he hf).trans (if_pos hk))
  case full =>
    exact congrArg Host.Outcome.next
      ((gateList_of_read hr hp hn hz hl hi hb ht hg he hf).trans ((if_neg (ne_true_of_eq_false hk)).trans (if_pos hs)))
  case scheduled =>
    exact congrArg Host.Outcome.next
      ((gateList_of_read hr hp hn hz hl hi hb ht hg he hf).trans ((if_neg (ne_true_of_eq_false hk)).trans (if_neg (ne_true_of_eq_false hs))))

end Sys2Proof.Machine

/-! SUPPORT. The brim's ports (R379–R391): training, flits, quarantine and port maps, each event by the port's state. -/
namespace Sys2Proof.Machine
open Sys2Proof

section
variable {s : State} {p : Nat}

/-! ### Training -/

theorem portTraining_of_other (h1 : portSt s p ≠ 1) (h5 : portSt s p ≠ 5) (node role strap : Nat) : portTraining p node role strap s = s := by
  simp only [portTraining, h1, h5, decide_false, Bool.or_self, Bool.and_false, Bool.false_eq_true, if_false]

theorem portDown_of_other (h2 : portSt s p ≠ 2) (h3 : portSt s p ≠ 3) : portDown p s = s := by
  simp only [portDown, h2, h3, decide_false, Bool.or_self, Bool.and_false, Bool.false_eq_true, if_false]

theorem flitReceive_of_other (h2 : portSt s p ≠ 2) (h3 : portSt s p ≠ 3) (decoded corrected : Bool) (flit : Nat) :
    flitReceive p decoded corrected flit s = s := by
  simp only [flitReceive, h2, h3, decide_false, Bool.or_self, Bool.not_false, Bool.or_true, if_true]

variable (hp : p < 16)
include hp

section
variable (h : portSt s p = 1 ∨ portSt s p = 5)
include h

theorem portTraining_of_training (node role strap : Nat) : portTraining p node role strap s =
    if wiringOk s p node role strap then setF (setPortSt (modPort s p (fun _ => portFresh)) p 2) (Reg.brmPortPartner.ix p) node
    else portEvent (bump (setPortSt s p 5) (Reg.brmPortMismatch.ix p)) p :=
  if_pos (by simpa only [hp, decide_true, Bool.true_and, Bool.or_eq_true, decide_eq_true_eq] using h)

theorem trainingRetry_of_training : trainingRetry p s = if (portOf s p).since + 10000 ≤ tickOf s then startTraining s p else s := by
  have hon : (decide (portSt s p = 1) || decide (portSt s p = 5)) = true := by
    simpa only [Bool.or_eq_true, decide_eq_true_eq] using h
  simp only [trainingRetry, hp, hon, decide_true, Bool.true_and, decide_eq_true_eq, ge_iff_le]

end

/-! ### A port that is up, or in quarantine -/

/-- The port with its corrected codewords counted. -/
def flitSeen (s : State) (p : Nat) (decoded corrected : Bool) : State := if decoded && corrected then bump s (Reg.brmPerrFecCorr.ix p) else s

/-- The port with the next flit taken: its number, its credits and what it acknowledges (R380, R381). -/
def flitTaken (s : State) (p flit : Nat) : State :=
  takeAck ((List.range 8).foldl (fun t c => modPort t p (fun y => { y with credit := mput y.credit c (creditLeft t p c + flitCredit flit c) }))
    (modPort s p (fun y => { y with rxSeq := flitSeq flit, nak := false }))) p (flitAck flit)

/-- The port's unacknowledged flits sent again after a NAK. -/
def flitsReplayed (s : State) (p flit : Nat) : State :=
  emit (bumpBy s (Reg.brmPerrReplays.ix p) (portOf s p).replay.length) (.flit p 2 ((flitAck flit + 1) % 2 ^ 24))

section
variable (h : portSt s p = 2 ∨ portSt s p = 3)
include h

theorem portDown_of_up : portDown p s = startTraining (leaveUp (setPortSt s p 1) p) p :=
  if_pos (by simpa only [hp, decide_true, Bool.true_and, Bool.or_eq_true, decide_eq_true_eq] using h)

variable (decoded corrected : Bool) (flit : Nat)

theorem flitReceive_of_up : flitReceive p decoded corrected flit s =
    let t := flitSeen s p decoded corrected
    if decoded && flitOk flit && flitSeq flit = ((portOf t p).rxSeq + 1) % 2 ^ 24 then
      let u := if flitNak flit then flitsReplayed (flitTaken t p flit) p flit else flitTaken t p flit
      emit (drainPort u p) (.flit p 0 (flitSeq flit))
    else emit (modPort t p (fun x => { x with nak := true })) (.flit p 1 (portOf t p).rxSeq) := by
  have hup : (!(decide (p < 16)) || !(decide (portSt s p = 2) || decide (portSt s p = 3))) = false := by
    simpa only [hp, decide_true, Bool.not_true, Bool.false_or, Bool.not_eq_false', Bool.or_eq_true, decide_eq_true_eq] using h
  exact if_neg (ne_true_of_eq_false hup)

section
variable {decoded corrected flit} (hd : decoded = true) (hf : flitOk flit = true)
  (hq : flitSeq flit = ((portOf (flitSeen s p decoded corrected) p).rxSeq + 1) % 2 ^ 24)
include hd hf hq

theorem flitReceive_of_next : flitReceive p decoded corrected flit s =
    emit (drainPort (if flitNak flit then flitsReplayed (flitTaken (flitSeen s p decoded corrected) p flit) p flit
      else flitTaken (flitSeen s p decoded corrected) p flit) p) (.flit p 0 (flitSeq flit)) :=
  (flitReceive_of_up hp h decoded corrected flit).trans (if_pos (by rw [decide_eq_true hq, hf, hd]; rfl))

end

theorem flitReceive_of_bad (hb : decoded = false ∨ flitOk flit = false ∨
      flitSeq flit ≠ ((portOf (flitSeen s p decoded corrected) p).rxSeq + 1) % 2 ^ 24) :
    flitReceive p decoded corrected flit s =
      emit (modPort (flitSeen s p decoded corrected) p (fun x => { x with nak := true }))
        (.flit p 1 (portOf (flitSeen s p decoded corrected) p).rxSeq) := by
  refine (flitReceive_of_up hp h decoded corrected flit).trans (if_neg ?_)
  rw [Bool.and_eq_true, Bool.and_eq_true, decide_eq_true_eq]
  rintro ⟨⟨h1, h2⟩, h3⟩
  rcases hb with hb | hb | hb
  · exact Bool.false_ne_true (hb.symm.trans h1)
  · exact Bool.false_ne_true (hb.symm.trans h2)
  · exact hb h3

end

theorem quarantineEnd_of_quarantine (h : portSt s p = 3) : quarantineEnd p s =
    if (portOf s p).quarEnd ≤ tickOf s then
      cxlEvent (portEvent (setPortSt s p 2) p) 1 false 0x0601 (portWord (portEvent (setPortSt s p 2) p) p)
    else s := by
  simp only [quarantineEnd, hp, h, decide_true, Bool.true_and, decide_eq_true_eq, ge_iff_le]

end

/-! ### Port maps -/

theorem portmapSend_of_quiet {s : State} (hm : upMask s = s.brim.mapSent) (ht : tickOf s < s.brim.mapTick + 1000) : portmapSend s = s :=
  if_neg (by simp only [hm, bne_self_eq_false, ge_iff_le, Nat.not_le.2 ht, decide_false, Bool.or_self, Bool.false_eq_true, not_false_eq_true])

theorem portmapSend_of_due {s : State} (h : upMask s ≠ s.brim.mapSent ∨ s.brim.mapTick + 1000 ≤ tickOf s) : portmapSend s =
    (setBitsOf 14 (upMask s)).foldl (fun t p =>
      emit (sendOn t p { packet0 10 7 (nodeNo t) (neighbour (nodeNo t) p) with plen := 8, total := 8, payload := toBytes 8 (upMask t) } none)
        (.portmap p (upMask t))) (modBrim s (fun b => { b with mapSent := upMask s, mapTick := tickOf s })) :=
  if_pos (by simpa only [Bool.or_eq_true, bne_iff_ne, decide_eq_true_eq] using h)

end Sys2Proof.Machine

/-! SETTLED. The brim's ports. -/
namespace Sys2Proof.Machine
open Sys2Proof

/-- Settles O57: each event by the state of its port, a flit by whether it is the next, and the port maps by their change and their age. -/
theorem portEvents : Obligations.PortEvents := by
  intro s p hp
  refine ⟨fun node role strap h => ?training, fun h => ?retry,
    fun h => ⟨next_sysLost (portDown_of_up hp h), fun decoded corrected words head ctl rest crc => ?flit⟩, fun h => ?quarantine,
    fun h1 h2 h3 h5 node role strap d c words head ctl rest crc => ⟨?noTraining, next_sysLost (portDown_of_other h2 h3), ?noFlit⟩,
    fun hm ht => ?quiet, fun h => ?due⟩
  case training => exact (congrArg Host.Outcome.next (portTraining_of_training hp h node role strap)).trans (apply_ite Host.Outcome.next _ _ _)
  case retry => exact (congrArg Host.Outcome.next (trainingRetry_of_training hp h)).trans (apply_ite Host.Outcome.next _ _ _)
  case flit =>
    intro flit t next
    refine ⟨fun hd hf hq => ⟨fun hn => ?_, fun hn => ?_⟩, fun hb => ?_⟩
    · exact congrArg Host.Outcome.next ((flitReceive_of_next hp h hd hf hq).trans (by rw [if_neg (ne_true_of_eq_false hn)]; rfl))
    · exact congrArg Host.Outcome.next ((flitReceive_of_next hp h hd hf hq).trans (by rw [if_pos hn]; rfl))
    · exact congrArg Host.Outcome.next (flitReceive_of_bad hp h decoded corrected _ hb)
  case quarantine => exact (congrArg Host.Outcome.next (quarantineEnd_of_quarantine hp h)).trans (apply_ite Host.Outcome.next _ _ _)
  case noTraining => exact congrArg Host.Outcome.next (portTraining_of_other h1 h5 node role strap)
  case noFlit => exact congrArg Host.Outcome.next (flitReceive_of_other h2 h3 d c _)
  case quiet => exact congrArg Host.Outcome.next (portmapSend_of_quiet hm ht)
  case due => exact congrArg Host.Outcome.next (portmapSend_of_due h)

end Sys2Proof.Machine

/-! SUPPORT. RMA packets that a node takes (R390, R398–R403): what each does once it stands in its buffer. -/
namespace Sys2Proof.Machine
open Sys2Proof

section
variable {s t : State} {port : Nat} {p0 p : Packet}

/-! ### WRITE -/

/-- A whole WRITE message is answered PLACED (R398), where a packet can be sent. -/
def sendPlaced (p : Packet) (s : State) : State :=
  match sendMsg s p.src { packet0 7 7 (nodeNo s) p.src with msgid := p.msgid, reqid := p.reqid } [] [] none none with
  | some x => x.1
  | none => s

section
variable (h : PacketReady s port 1 p0 t p)
include h

theorem write_of_key (hk : keyReason t p 1 = 0) : write port p0 s = reassemble t port p (some (targetOf t p)) (sendPlaced p) := by
  rw [write, receive_ready h, hk]
  rfl

theorem write_of_refused (hk : keyReason t p 1 ≠ 0) : write port p0 s = dropPacket t port p (keyReason t p 1) true := by
  obtain ⟨k, hk⟩ := Nat.exists_eq_succ_of_ne_zero hk
  rw [write, receive_ready h]
  simp only [hk]

end

/-! ### READ_REQ and READ_DATA -/

section
variable (h : PacketReady s port 2 p0 t p)
include h

theorem readReq_of_refused (hk : keyReason t p 0 ≠ 0) : readReq port p0 s = dropPacket t port p (keyReason t p 0) true := by
  obtain ⟨k, hk⟩ := Nat.exists_eq_succ_of_ne_zero hk
  rw [readReq, receive_ready h]
  simp only [hk]

variable (hk : keyReason t p 0 = 0) {u : State} {bytes : List Byte} {pois : List Nat} (hg : (targetOf t p).get t p.total = (u, bytes, pois))
include hk hg

/-- The bytes of the region are sent where a message can be. -/
theorem readReq_of_key : readReq port p0 s =
    ((sendMsg (bumpBy u Reg.intPoisonCarried pois.length) p.src
      { packet0 3 p.cls (nodeNo t) p.src with total := p.total, reqid := p.reqid, tenant := p.tenant, queue := p.queue }
      bytes pois none none).map (·.1)).getD (bumpBy u Reg.intPoisonCarried pois.length) := by
  rw [readReq, receive_ready h, hk]
  simp only [hg]
  split
  · next x hx => rw [hx]; rfl
  · next hx => rw [hx]; rfl

end

section
variable (h : PacketReady s port 3 p0 t p)
include h

theorem readData_of_unasked (ho : mget t.brim.ops p.reqid = none) (hw : t.brim.whole.any (fun x => x.1 = msgKey p) = false) :
    readData port p0 s = bump t Reg.fwRecoverLateDropped := by
  rw [readData, receive_ready h, ho]
  exact if_neg (ne_true_of_eq_false hw)

variable {o : RmaOp} (ho : mget t.brim.ops p.reqid = some o) (hc : o.cls = 0x11) (hd : o.dest = p.src)
include ho hc hd

theorem readData_of_op : readData port p0 s =
    if o.bound.getD p.msgid != p.msgid then bump t Reg.rmaReasmDups
    else reassemble (modBrim t (fun b => { b with ops := mput b.ops p.reqid { o with bound := some p.msgid } })) port p (some (.node o.laddr))
      (fun s => endOp s p.reqid .ok) := by
  rw [readData, receive_ready h, ho]
  exact if_neg (by rw [hc, hd, bne_self_eq_false, bne_self_eq_false]; decide)

theorem readData_of_bound (hb : o.bound = none ∨ o.bound = some p.msgid) : readData port p0 s =
    reassemble (modBrim t (fun b => { b with ops := mput b.ops p.reqid { o with bound := some p.msgid } })) port p (some (.node o.laddr))
      (fun s => endOp s p.reqid .ok) := by
  refine (readData_of_op h ho hc hd).trans (if_neg ?_)
  rcases hb with hb | hb <;> rw [hb, bne_iff_ne, not_not] <;> rfl

theorem readData_of_other {m : Nat} (hb : o.bound = some m) (hm : m ≠ p.msgid) : readData port p0 s = bump t Reg.rmaReasmDups :=
  (readData_of_op h ho hc hd).trans (if_pos (by rw [hb]; exact bne_iff_ne.2 hm))

end

/-! ### Atomics -/

/-- What is kept of an atomic that has acted: the old value, its status and the tick at which it is forgotten (R399). -/
def atomicKept (t : State) (a : State × Nat × Bool) : Replay :=
  ⟨a.2.1, if a.2.2 then Status.poisoned.code else 0, expiryOf t Reg.fwToDescRma⟩

section
variable {kind : Nat} (h : PacketReady s port kind p0 t p)
include h

theorem atomicIn_of_refused (hk : keyReason t { p with total := 8 } 2 ≠ 0) : atomicIn s port kind p0 =
    dropPacket t port p (keyReason t { p with total := 8 } 2) true := by
  obtain ⟨k, hk⟩ := Nat.exists_eq_succ_of_ne_zero hk
  rw [atomicIn, receive_ready h]
  simp only [hk]

variable (hk : keyReason t { p with total := 8 } 2 = 0)
include hk

theorem atomicIn_of_repeat {r : Replay} (ha : mget t.brim.atomics (p.src * 2 ^ 32 + p.reqid) = some r) : atomicIn s port kind p0 =
    sendAtomicResp (bump t Reg.rmaAtomicReplayed) p r := by
  rw [atomicIn, receive_ready h]
  simp only [hk, ha]

variable (ha : mget t.brim.atomics (p.src * 2 ^ 32 + p.reqid) = none)
include ha

theorem atomicIn_of_full (hl : 4096 ≤ t.brim.atomics.length) : atomicIn s port kind p0 = dropPacket t port p 6 false := by
  rw [atomicIn, receive_ready h]
  simp only [hk, ha, ge_iff_le, hl, if_true]

theorem atomicIn_of_first (hl : t.brim.atomics.length < 4096) : atomicIn s port kind p0 =
    let a := applyAtomic t (targetOf t p) (kind = 5) (getLE p.payload 0 8) (getLE p.payload 8 8) (!p.pois.isEmpty)
    sendAtomicResp (modBrim a.1 (fun b => { b with atomics := mput b.atomics (p.src * 2 ^ 32 + p.reqid) (atomicKept t a) })) p
      (atomicKept t a) := by
  rw [atomicIn, receive_ready h]
  simp only [hk, ha, ge_iff_le, Nat.not_le.2 hl, if_false, atomicKept]

end

section
variable (h : PacketReady s port 6 p0 t p)
include h

theorem atomicResp_of_late (ho : mget t.brim.ops p.reqid = none) : atomicResp port p0 s = bump t Reg.fwRecoverLateDropped := by
  rw [atomicResp, receive_ready h, ho]

theorem atomicResp_of_op {o : RmaOp} (ho : mget t.brim.ops p.reqid = some o) (hc : o.cls = 0x12 ∨ o.cls = 0x13) (hd : o.dest = p.src) :
    atomicResp port p0 s = endOp (placeBytes t o.laddr (p.payload.take 8) (if p.pois.contains 0 then [0] else [])) p.reqid
      (if p.reason = Status.poisoned.code then .poisoned else .ok) := by
  rw [atomicResp, receive_ready h, ho]
  refine if_neg ?_
  rw [hd, bne_self_eq_false, Bool.or_false]
  rcases hc with hc | hc <;> rw [hc] <;> decide

end

/-! ### PLACED -/

section
variable (h : PacketReady s port 7 p0 t p)
include h

theorem placed_of_write {x : WriteRec}
    (hw : t.brim.writes.find? (fun w => w.msgid = p.msgid && w.dest = p.src && w.failed.isNone) = some x) :
    placed port p0 s = settleFlushes (modBrim t (fun b => { b with writes := b.writes.erase x })) := by
  rw [placed, receive_ready h, hw]

theorem placed_of_late (hw : t.brim.writes.find? (fun w => w.msgid = p.msgid && w.dest = p.src && w.failed.isNone) = none) :
    placed port p0 s = bump t Reg.fwRecoverLateDropped := by
  rw [placed, receive_ready h, hw]

end

end
end Sys2Proof.Machine

/-! SETTLED. RMA packets. -/
namespace Sys2Proof.Machine
open Sys2Proof

/-- Settles O59: a request by its key, an atomic by what is kept of its number, and an answer by what awaits it. -/
theorem packetsTaken : Obligations.PacketsTaken := by
  intro s port p0 t p
  refine ⟨fun h => ⟨fun hk => ?writeRefused, fun hk => ?write⟩, fun h => ⟨fun hk => ?readRefused, fun hk u bytes pois hg => ?read⟩,
    fun h => ⟨fun o ho hc hd => ⟨fun hb => ?data, fun m hb hm => ?dataOther⟩, fun ho hw => ?dataLate⟩,
    fun swap h => ?atomic, fun h => ⟨fun o ho hc hd => ?resp, fun ho => ?respLate⟩, fun h => ⟨fun x hw => ?placed, fun hw => ?placedLate⟩⟩
  case writeRefused => exact next_sysLost (write_of_refused h hk)
  case write => exact next_sysLost (write_of_key h hk)
  case readRefused => exact next_sysLost (readReq_of_refused h hk)
  case read =>
    intro u' m
    have hread := readReq_of_key h hk hg
    refine ⟨fun v hv => next_sysLost (hread.trans ?_), fun hn => next_sysLost (hread.trans ?_)⟩
    · exact congrArg (fun o => (Option.map Prod.fst o).getD u') hv
    · exact congrArg (fun o => (Option.map Prod.fst o).getD u') hn
  case data => exact next_sysLost (readData_of_bound h ho hc hd hb)
  case dataOther => exact next_sysLost (readData_of_other h ho hc hd hb hm)
  case dataLate => exact next_sysLost (readData_of_unasked h ho hw)
  case atomic =>
    cases swap
    case' false => have hatomic : exec (.fetchAdd port p0) s = .next (sysLost (atomicIn s port 4 p0)) := rfl
    case' true => have hatomic : exec (.compareSwap port p0) s = .next (sysLost (atomicIn s port 5 p0)) := rfl
    all_goals
      refine ⟨fun hk => ⟨fun r ha => hatomic.trans (next_sysLost ?_), fun ha hl => hatomic.trans (next_sysLost ?_),
        fun ha hl => hatomic.trans (next_sysLost ?_)⟩, fun hk => hatomic.trans (next_sysLost ?_)⟩
      · exact atomicIn_of_repeat h hk ha
      · exact atomicIn_of_full h hk ha hl
      · exact atomicIn_of_first h hk ha hl
      · exact atomicIn_of_refused h hk
  case resp => exact next_sysLost (atomicResp_of_op h ho hc hd)
  case respLate => exact next_sysLost (atomicResp_of_late h ho)
  case placed => exact next_sysLost (placed_of_write h hw)
  case placedLate => exact next_sysLost (placed_of_late h hw)

end Sys2Proof.Machine

/-! SETTLED. The creation and the destroyal of a host's queues. -/
namespace Sys2Proof.Machine
open Sys2Proof

section
variable {s : State} {fn : Nat} (hfn : fn < 512) (hp : portOpen s = true) (he : fnEnabled s fn = true) (hb : qcmdBusy s fn = false)
include hfn hp he hb

theorem queueCreate_of_noContext (hc : ctxOpen s fn = false) :
    queueCreate fn s = qcmdStatus (bump s Reg.qeRefuseNoContext) fn .noContext := by
  have hle : ¬ fn > 511 := by omega
  simp only [queueCreate, hp, he, hb, hc, hle, Bool.not_true, Bool.not_false, Bool.or_self, decide_false,
    Bool.false_eq_true, if_true, if_false]

theorem queueCreate_of_lowest {i : Nat} {t : State} (hc : ctxOpen s fn = true) (hi : i < 8)
    (hlow : ∀ k, k < i → (queueOf s (8 * fn + k)).isSome = true) (hfree : queueOf s (8 * fn + i) = none) (hok : qnewOk s fn = true)
    (hin : qnewIn s fn = true) (hpin : (pageEnt s (pageNo (qnew s fn Reg.qeQnewWatchAddr))).pins < 255)
    (hw : watchHome s (qnew s fn Reg.qeQnewWatchAddr) = some t) :
    queueCreate fn s =
      let t := modHost t (fun h => { h with queues := mput h.queues (8 * fn + i) (queueNew s fn) })
      let t := qcmdStatus (slotIrq (watchPin t (qnew s fn Reg.qeQnewWatchAddr) true) fn (8 * fn + i)) fn .ok
      fstatChanged (setF t (Reg.qeQcmdRslot.pg fn) i) fn := by
  have hle : ¬ fn > 511 := by omega
  have hpins : ¬ (pageEnt s (pageNo (qnew s fn Reg.qeQnewWatchAddr))).pins ≥ 255 := by omega
  have hslot : (List.range 8).find? (fun i => (queueOf s (8 * fn + i)).isNone) = some i :=
    range_find?_eq_some_of_lowest hi (by rw [hfree]; rfl)
      (fun k hk => by rw [← Option.not_isSome, hlow k hk]; rfl)
  simp only [queueCreate, hp, he, hb, hc, hle, hslot, hok, hin, hpins, hw, Bool.not_true, Bool.or_self, decide_false,
    Bool.false_eq_true, if_false]

theorem queueDestroy_of_queue {i : Nat} {x : Queue} (hx : queueOf s (8 * fn + i % 8) = some x) :
    queueDestroy fn i s =
      let t := modQueue (setF s (Reg.qeQcmdSlot.pg fn) i) (8 * fn + i % 8) (fun x => { x with destroying := true })
      setF (modHost t (fun h => { h with qcmdBusy := mput h.qcmdBusy fn (i % 8) })) (Reg.qeQcmdBusy.pg fn) 1 := by
  have hle : ¬ fn > 511 := by omega
  have hx' : queueOf (setF s (Reg.qeQcmdSlot.pg fn) i) (8 * fn + i % 8) = some x := hx
  simp only [queueDestroy, hp, he, hb, hle, hx', Bool.not_true, Bool.or_self, decide_false, Bool.false_eq_true, if_false]

theorem queueDestroy_of_none {i : Nat} (hx : queueOf s (8 * fn + i % 8) = none) :
    queueDestroy fn i s = qcmdStatus (setF s (Reg.qeQcmdSlot.pg fn) i) fn .malformed := by
  have hle : ¬ fn > 511 := by omega
  have hx' : queueOf (setF s (Reg.qeQcmdSlot.pg fn) i) (8 * fn + i % 8) = none := hx
  simp only [queueDestroy, hp, he, hb, hle, hx', Bool.not_true, Bool.or_self, decide_false, Bool.false_eq_true, if_false]

end

section
variable {s : State} {fn i : Nat} (hb : mget s.host.qcmdBusy fn = some i)
include hb

theorem queueDestroyDone_of_work (hw : queueOpenWork s (8 * fn + i) = true) : queueDestroyDone fn s = s := by
  rw [queueDestroyDone, hb]
  exact if_pos hw

theorem queueDestroyDone_of_idle (hw : queueOpenWork s (8 * fn + i) = false) :
    queueDestroyDone fn s =
      let t := freeQueue (drainCq true 4096 s (8 * fn + i)) (8 * fn + i)
      let t := setF (modHost t (fun h => { h with qcmdBusy := mdel h.qcmdBusy fn })) (Reg.qeQcmdBusy.pg fn) 0
      fstatChanged (qcmdStatus t fn .ok) fn := by
  rw [queueDestroyDone, hb]
  exact if_neg (by rw [hw]; decide)

end

/-- Settles O12: a creation by its context and its lowest free slot, a destroyal by its slot, and its end by the work that is left. -/
theorem queueCommands : Obligations.QueueCommands := by
  intro s fn hfn
  refine ⟨fun hp he hb => ⟨fun hc => ?context, fun i t hc hi hlow hfree hok hin hpin hw => ?create, fun i x hx => ?destroy,
    fun i hx => ?noQueue⟩, fun i hb hw => ?done, fun i hb hw => ?work⟩
  case context => exact congrArg Host.Outcome.next (queueCreate_of_noContext hfn hp he hb hc)
  case create => exact congrArg Host.Outcome.next (queueCreate_of_lowest hfn hp he hb hc hi hlow hfree hok hin hpin hw)
  case destroy => exact congrArg Host.Outcome.next (queueDestroy_of_queue hfn hp he hb hx)
  case noQueue => exact congrArg Host.Outcome.next (queueDestroy_of_none hfn hp he hb hx)
  case done => exact congrArg Host.Outcome.next (queueDestroyDone_of_idle hb hw)
  case work => exact congrArg Host.Outcome.next (queueDestroyDone_of_work hb hw)

end Sys2Proof.Machine

/-! SETTLED. The service of the queues: wakes, visits, full completion queues, coalescing and samples. -/
namespace Sys2Proof.Machine
open Sys2Proof

section
variable {s : State} {q : Nat} {x : Queue}

/-- A queue whose watch word was touched is no longer among those to be looked at. -/
def unwake (s : State) (q : Nat) : State := modHost s (fun h => { h with wakes := h.wakes.filter (· != q) })

theorem watchWordWake_of_queue (hr : ringUp s = true) (hw : s.host.wakes.contains q = true) (hx : queueOf s q = some x) :
    watchWordWake q s =
      let r := nrRead (unwake s q) x.watch 8
      let tail := getLE r.2.bytes 0 4
      if r.2.timeout then unwake s q
      else if r.2.bad then consumeNr r.1 (r.2.first x.watch)
      else if decide ((tail + 2 ^ 32 - x.tail) % 2 ^ 32 ≤ (tail + 2 ^ 32 - x.head) % 2 ^ 32) &&
        decide ((tail + 2 ^ 32 - x.head) % 2 ^ 32 ≤ 2 ^ x.sqLog2)
      then acceptTail r.1 q tail else bump r.1 Reg.qeHosterrTail := by
  have hx' : queueOf (unwake s q) q = some x := hx
  unfold watchWordWake
  rw [if_neg (by rw [hr, hw]; decide), ← unwake]
  simp only [hx']

theorem atLeast1_modHost (g : HostIf → HostIf) (f : Fld) : atLeast1 (modHost s g) f = atLeast1 s f := rfl

theorem queueVisit_of_next (hr : ringUp s = true) (hw : s.power.warmPend = false) (hf : s.power.flushing = false)
    (hn : visitNext s = some q) (hx : queueOf s q = some x) {y : Queue}
    (hy : queueOf (visitLoop (atLeast1 s Reg.qeCtrlBurst) (modHost s (fun h => { h with lastVisit := q })) q) q = some y) :
    queueVisit s =
      let t := visitLoop (atLeast1 s Reg.qeCtrlBurst) (modHost s (fun h => { h with lastVisit := q })) q
      if y.head = x.head then t else nrPut t y.headw (toBytes 8 y.head) := by
  simp only [queueVisit, hr, hw, hf, hn, hx, hy, atLeast1_modHost, Bool.not_true, Bool.or_self, Bool.false_eq_true, if_false,
    Option.map_some]
  exact if_congr Option.some_inj rfl rfl

theorem cqHeadRead_of_waiting (hx : queueOf s q = some x) (hr : ringUp s = true) (hf : s.power.flushing = false) (hc : x.waitc ≠ []) :
    cqHeadRead q s = drainCq false (x.waitc.length + 1) (readCqHead s q) q := by
  rw [cqHeadRead, hx]
  exact if_neg (by rw [hr, hf, List.isEmpty_eq_false_iff.2 hc]; decide)

theorem irqCoalesceTimeout_of_due (hx : queueOf s q = some x) (he : flagF s (slotF Reg.qeQirqIrqEn q) = true)
    (ht : getF s (slotF Reg.qeQirqTicks q) ≠ 0) (hn : x.irqN ≠ 0) (hd : x.irqFirst + getF s (slotF Reg.qeQirqTicks q) ≤ tickOf s) :
    irqCoalesceTimeout q s = fireIrq s q := by
  rw [irqCoalesceTimeout, hx]
  exact if_pos (by rw [he, bne_iff_ne.2 ht, bne_iff_ne.2 hn, decide_eq_true hd]; rfl)

theorem queueSample_of_due (hr : ringUp s = true) (hf : s.power.flushing = false) (he : flagF s Reg.tsCtrlSampleEn = true)
    (hd : tickOf s % atLeast1 s Reg.tsCtrlPeriod = 0) : queueSample s =
      s.host.queues.foldl (fun t q => if flagF t (slotF Reg.qeQirqSample q.1) then sampleOne t q.1 q.2 else t) s :=
  if_neg (by rw [hr, hf, he, hd]; decide)

end

/-- Settles O13: a touched watch word by what is read, a visit by whether the head moved, and the rest by their conditions. -/
theorem queueService : Obligations.QueueService := by
  intro s
  refine ⟨fun q x hr hw hx => fun ht => ⟨fun hb => ?bad, fun hb h1 h2 => ?tail, fun hb hn => ?refused⟩,
    fun q x hr hw hf hn hx => ⟨fun y hy hne => ?moved, fun y hy heq => ?still⟩, fun q x hx hr hf hc => ?full,
    fun q x hx => fun he ht hn hd => ?irq, fun hr hf he hd => ?sample⟩
  case bad => exact congrArg Host.Outcome.next ((watchWordWake_of_queue hr hw hx).trans ((if_neg (Bool.eq_false_iff.1 ht)).trans (if_pos hb)))
  case tail =>
    refine congrArg Host.Outcome.next ((watchWordWake_of_queue hr hw hx).trans ((if_neg (Bool.eq_false_iff.1 ht)).trans
      ((if_neg (Bool.eq_false_iff.1 hb)).trans (if_pos ?_))))
    rw [Bool.and_eq_true, decide_eq_true_eq, decide_eq_true_eq]
    exact ⟨h1, h2⟩
  case refused =>
    refine congrArg Host.Outcome.next ((watchWordWake_of_queue hr hw hx).trans ((if_neg (Bool.eq_false_iff.1 ht)).trans
      ((if_neg (Bool.eq_false_iff.1 hb)).trans (if_neg ?_))))
    rw [Bool.and_eq_true, decide_eq_true_eq, decide_eq_true_eq]
    exact hn
  case moved => exact congrArg Host.Outcome.next ((queueVisit_of_next hr hw hf hn hx hy).trans (if_neg hne))
  case still => exact congrArg Host.Outcome.next ((queueVisit_of_next hr hw hf hn hx hy).trans (if_pos heq))
  case full => exact congrArg Host.Outcome.next (cqHeadRead_of_waiting hx hr hf hc)
  case irq => exact congrArg Host.Outcome.next (irqCoalesceTimeout_of_due hx he ht hn hd)
  case sample => exact congrArg Host.Outcome.next (queueSample_of_due hr hf he hd)

end Sys2Proof.Machine

/-! SETTLED. The Crown's commands that only read. -/
namespace Sys2Proof.Machine
open Sys2Proof

section
variable {s : State} {path : Nat} (hp : crownHears s path = true)
include hp

theorem getEventRecords_of_log {sev : Nat} (h : sev ≤ 3) :
    getEventRecords path sev s =
      let l := cxlLogOf s sev
      tell s path 0x0100 (toBytes 2 l.overflow ++ toBytes 8 l.firstOv ++ toBytes 8 l.lastOv ++ l.recs.flatMap CxlRec.bytes) :=
  (onPath_of_heard hp _).trans (if_neg (Nat.not_lt.2 h))

theorem getTimestamp_of_unset (h : s.crown.timeSet = none) : getTimestamp path s = answer s path okCode (toBytes 8 0) := by
  rw [getTimestamp, onPath_of_heard hp, h]

theorem getTimestamp_of_set (h : s.crown.timeSet.isSome = true) :
    getTimestamp path s = answer s path okCode (toBytes 8 (crownTime s)) := by
  obtain ⟨t, ht⟩ := Option.isSome_iff_exists.1 h
  rw [getTimestamp, onPath_of_heard hp, ht]

theorem getFwInfo_of_heard : getFwInfo path s =
    tell s path 0x0200 (toBytes 1 (s.crown.running + 1) ++ toBytes 1 ((s.crown.pend.map (· + 1)).getD 0)
      ++ toBytes 4 (slotVersion s 0) ++ toBytes 4 (slotVersion s 1)) := by
  rw [getFwInfo, onPath_of_heard hp]
  cases s.crown.pend <;> rfl

theorem getEventLog_of_count {first n : Nat} (h0 : 0 < n) (hn : n ≤ 64) :
    getEventLog path first n s =
      let es := s.crown.log.filter (fun e => decide ((e.seq + 2 ^ 32 - first % 2 ^ 32) % 2 ^ 32 < 2 ^ 31))
      answer s path okCode ((es.take n).flatMap CrownEvt.bytes) :=
  (onPath_of_heard hp _).trans (if_neg (by rw [Bool.or_eq_true, decide_eq_true_eq, decide_eq_true_eq]; omega))

theorem getReport_of_nonce {nonce : List Byte} (h : nonce.length = 32) :
    getReport path nonce s =
      answer s path okCode (reportBody s nonce ++ fitBytes 96 (Config.ecdsaSign s.crown.aliasKey (reportBody s nonce))) :=
  (onPath_of_heard hp _).trans (if_neg (by rw [h]; decide))

theorem frecRead_of_record {r off n : Nat} {x : Frec} (hr : r ≤ 7) (hn : n ≤ 4096) (hl : off + n ≤ 131072)
    (hx : mget s.crown.frecs r = some x) :
    frecRead path r off n s = answer s path okCode ((x.bytes.drop off).take n) := by
  rw [frecRead, onPath_of_heard hp, if_neg (by simp only [Bool.or_eq_true, decide_eq_true_eq]; omega), hx]

end

/-- Settles O15: each read is answered on the path that heard it, and adds its answer alone to what was sent. -/
theorem crownReads : Obligations.CrownReads := by
  intro s path hp
  have heard (k : State → State) : (.next (onPath s path k) : Host.Outcome State Fault Refusal) = .next (k s) :=
    congrArg Host.Outcome.next (onPath_of_heard hp k)
  refine ⟨heard _, heard _, fun sev h => ?records, heard _, fun h => ?unset, fun h => ?set, heard _, ?info, heard _, heard _,
    fun first n h0 hn => ?log, heard _, fun nonce h => ?report, heard _, fun r off n x hr hn hl hx => ?record, heard _,
    fun _ => heard _, fun uuid off n => ⟨(freeVal s).2 % 2 ^ 16, Nat.mod_lt _ (by decide), heard _⟩⟩
  case records => exact congrArg Host.Outcome.next (getEventRecords_of_log hp h)
  case unset => exact congrArg Host.Outcome.next (getTimestamp_of_unset hp h)
  case set => exact congrArg Host.Outcome.next (getTimestamp_of_set hp h)
  case info => exact congrArg Host.Outcome.next (getFwInfo_of_heard hp)
  case log => exact congrArg Host.Outcome.next (getEventLog_of_count hp h0 hn)
  case report => exact congrArg Host.Outcome.next (getReport_of_nonce hp h)
  case record => exact congrArg Host.Outcome.next (frecRead_of_record hp hr hn hl hx)

end Sys2Proof.Machine

/-! SETTLED. The Crown's commands that set its own state. -/
namespace Sys2Proof.Machine
open Sys2Proof

section
variable {s : State} {path : Nat} (hp : crownHears s path = true)
include hp

theorem setEventInterruptPolicy_of_modes {modes : List Nat} (hl : modes.length = 4)
    (hm : modes.any (fun m => decide (m % 4 = 3)) = false) :
    setEventInterruptPolicy path modes s = answer (modHost s (fun h => { h with evtPolicy := modes.map (· % 256) })) path okCode [] :=
  (onPath_of_heard hp _).trans (if_neg (by rw [hl, hm]; decide))

theorem clearEventRecords_of_oldest {sev : Nat} {hs : List Nat} (hsev : sev ≤ 3)
    (hh : ((cxlLogOf s sev).recs.take hs.length).map (·.handle) = hs) :
    clearEventRecords path sev false hs s =
      let l := cxlLogOf s sev
      let l' : CxlLog := { l with recs := l.recs.drop hs.length, overflow := 0, firstOv := 0, lastOv := 0 }
      answer (modHost s (fun h => { h with cxlLogs := mput h.cxlLogs sev l' })) path okCode [] :=
  (onPath_of_heard hp _).trans ((if_neg (by rw [Bool.false_and, Bool.or_false, decide_eq_true_eq]; omega)).trans
    ((if_neg (by decide)).trans (if_neg (by rw [hh, bne_self_eq_false]; decide))))

theorem transferFw_of_running {slot off : Nat} {bs : List Byte} {last : Bool} (hr : slotRuns s (slot - 1) = true) :
    transferFw path slot off bs last s = answer s path invalidSlot [] :=
  (onPath_of_heard hp _).trans (if_pos (by rw [hr, Bool.or_true]))

/-- A transfer goes on where the last part of it ended, and begins at 0. -/
def transferAt (s : State) (k off : Nat) : Prop :=
  (s.crown.transfer = none ∧ off = 0) ∨ ∃ t, s.crown.transfer = some t ∧ t.slot = k ∧ t.next = off

theorem transferFw_of_next {slot off : Nat} {bs : List Byte} {last : Bool} (h1 : 1 ≤ slot) (h2 : slot ≤ 2)
    (hr : slotRuns s (slot - 1) = false) (hall : s.crown.transfer.all (fun t => t.path = path) = true)
    (hat : transferAt s (slot - 1) off) (hlen : off + bs.length ≤ 2 ^ 24) :
    transferFw path slot off bs last s =
      let t := storePart s (slot - 1) off bs path
      if last then endTransfer t (slot - 1) path else answer t path okCode [] := by
  have hslot : ¬ ((decide (slot = 0) || decide (slot > 2) || slotRuns s (slot - 1)) = true) := by
    simp only [hr, Bool.or_false, Bool.or_eq_true, decide_eq_true_eq]
    omega
  obtain ⟨hnone, h0⟩ | ⟨t, ht, hk, hn⟩ := hat
  · rw [transferFw, onPath_of_heard hp]
    simp only [hslot, hnone, h0, Option.any_none, bne_self_eq_false, Bool.false_eq_true, if_false]
    exact if_neg (by omega)
  · have hpath : t.path = path := by simpa [ht] using hall
    rw [transferFw, onPath_of_heard hp]
    simp only [hslot, ht, hk, hn, hpath, Option.any_some, bne_self_eq_false, Bool.false_eq_true, if_false, if_true]
    exact if_neg (by omega)

theorem activateFw_of_package {slot : Nat} (h1 : 1 ≤ slot) (h2 : slot ≤ 2) (hpkg : (slotPkg s (slot - 1)).isSome = true) :
    activateFw path slot false s = answer (modCrown s (fun c => { c with pend := some (slot - 1) })) path okCode [] := by
  refine (onPath_of_heard hp _).trans ((if_neg (by decide)).trans (if_neg ?_))
  rw [← Option.not_isSome, hpkg]
  simp only [Bool.not_true, Bool.or_false, Bool.or_eq_true, decide_eq_true_eq]
  omega

theorem frecHold_of_record {r : Nat} {hold : Bool} (hr : r ≤ 7) :
    frecHold path r hold s =
      answer (modCrown s (fun c => { c with frecs := mmod c.frecs r (fun x => { x with held := hold }) })) path okCode [] :=
  (onPath_of_heard hp _).trans (if_neg (Nat.not_lt.2 hr))

end

section
variable {s : State} {path : Nat} (hp : crownHears s path = true)
include hp

theorem commitSvn_of_active (h0 : path = 0) (hf : flagF s Reg.crnStatusFallback = false) :
    commitSvn path s =
      let up (m : SMap Nat) (i : Nat) := if pkgSvn (runPkg s) i > (mget m i).getD 0 then mput m i (pkgSvn (runPkg s) i) else m
      answer (crownEventOpen (modCrown s (fun c => { c with fuses := (List.range 64).foldl up c.fuses })) 0x0804 0) path okCode [] :=
  (onOnly_of_own hp _ h0).trans (if_neg (by rw [hf]; decide))

theorem onOnly_of_foreign {only : Nat} (k : State → State) (ho : path ≠ only) : onOnly s path only k = answer s path unsupported [] :=
  (onPath_of_heard hp _).trans (if_neg ho)

end

/-- Settles O16: each write by what it stores, and the transfer of a package by the slot and the place of its part. -/
theorem crownWrites : Obligations.CrownWrites := by
  intro s path hp
  refine ⟨fun v => ?time, fun modes hl hm => ?policy, fun sev hs hsev hh => ?clear, fun slot off bs h1 h2 hr hall hat hlen => ?transfer,
    fun slot h1 h2 hr off bs last => ?running, fun slot h1 h2 hpkg => ?activate, fun r hold hr => ?hold, fun h0 hf => ?commit,
    fun h0 => ?foreign⟩
  case time => exact congrArg Host.Outcome.next (onPath_of_heard hp _)
  case policy => exact congrArg Host.Outcome.next (setEventInterruptPolicy_of_modes hp hl hm)
  case clear => exact congrArg Host.Outcome.next (clearEventRecords_of_oldest hp hsev hh)
  case transfer =>
    have hnext : transferAt s (slot - 1) off := by
      revert hat
      rw [transferAt]
      cases s.crown.transfer with
      | none => exact fun h0 => .inl ⟨rfl, h0⟩
      | some t => exact fun ht => .inr ⟨t, rfl, ht⟩
    exact ⟨congrArg Host.Outcome.next ((transferFw_of_next hp h1 h2 hr hall hnext hlen).trans (if_neg (by decide))),
      congrArg Host.Outcome.next ((transferFw_of_next hp h1 h2 hr hall hnext hlen).trans (if_pos rfl))⟩
  case running => exact congrArg Host.Outcome.next (transferFw_of_running hp hr)
  case activate => exact congrArg Host.Outcome.next (activateFw_of_package hp h1 h2 hpkg)
  case hold => exact congrArg Host.Outcome.next (frecHold_of_record hp hr)
  case commit => exact congrArg Host.Outcome.next (commitSvn_of_active hp h0 hf)
  case foreign => exact congrArg Host.Outcome.next (onOnly_of_foreign hp _ h0)

end Sys2Proof.Machine

/-! SETTLED. The firmware's commands on sites, and its tests of units. -/
namespace Sys2Proof.Machine
open Sys2Proof

section
variable {s : State} (hr : fwRuns s = true)
include hr

theorem drain_of_refused {i : Nat} (hi : i < 8) (hd : s.fw.draining = none) (h : drainRefused (setF s Reg.fwStackSite i) i = true) :
    drain i s = setF (setF s Reg.fwStackSite i) Reg.fwStackState 4 :=
  (if_neg (by rw [hr]; simp only [Bool.not_true, Bool.false_or, decide_eq_true_eq]; omega)).trans
    ((if_neg (by change ¬ s.fw.draining.isSome = true; rw [hd]; decide)).trans (if_pos h))

theorem drain_of_begun {i : Nat} (hi : i < 8) (hd : s.fw.draining = none) (h : drainRefused (setF s Reg.fwStackSite i) i = false) :
    drain i s = recallSite (modFw (setF (setF s Reg.fwStackSite i) Reg.fwStackState 0) (fun f => { f with draining := some i })) i :=
  (if_neg (by rw [hr]; simp only [Bool.not_true, Bool.false_or, decide_eq_true_eq]; omega)).trans
    ((if_neg (by change ¬ s.fw.draining.isSome = true; rw [hd]; decide)).trans (if_neg (by rw [h]; decide)))

theorem unfence_of_fenced {i : Nat} (hi : i < 8) (h : siteFenced s i = true) :
    unfence i s = modFw (setF s Reg.fwStackSite i) (fun f => { f with unfencePend := f.unfencePend ||| 2 ^ i }) :=
  (if_neg (by rw [hr]; simp only [Bool.not_true, Bool.false_or, decide_eq_true_eq]; omega)).trans (if_pos h)

end

/-- The state in which the test of a unit is started: KIND and UNIT are written. -/
def testAsked (s : State) (k u : Nat) : State := setF (setF s Reg.fwTestKind k) Reg.fwTestUnit u

theorem getF_testAsked_kind (s : State) (k u : Nat) : getF (testAsked s k u) Reg.fwTestKind = k % 8 :=
  (getF_setF_other _ _ _ _ (by decide)).trans (getF_setF_same _ _ _)

theorem getF_testAsked_unit (s : State) (k u : Nat) : getF (testAsked s k u) Reg.fwTestUnit = u % 2048 := getF_setF_same _ _ _

theorem getF_testAsked_result (s : State) (k u : Nat) : getF (testAsked s k u) Reg.fwTestResult = getF s Reg.fwTestResult :=
  (getF_setF_other _ _ _ _ (by decide)).trans (getF_setF_other _ _ _ _ (by decide))

/-- A test that starts while none runs is refused where the part has no such unit or the unit is not fenced, and else runs. -/
theorem testStart_of_idle {s : State} (hr : fwRuns s = true) (hi : getF s Reg.fwTestResult ≠ 1) (k u : Nat) :
    testStart k u s =
      if testUnitOk (testAsked s k u) (k % 8) (u % 2048) = true then
        if testFenced (testAsked s k u) (k % 8) (u % 2048) = true then testResult (testAsked s k u) 1 0
        else testResult (testAsked s k u) 3 1
      else testResult (testAsked s k u) 3 2 := by
  rw [testStart, if_pos hr, ← testAsked, testGo, getF_testAsked_kind, getF_testAsked_unit, getF_testAsked_result]
  simp only [hi, if_false, Bool.not_eq_true', ← Bool.not_eq_true, ite_not]

theorem testComplete_of_running {s : State} {n : Nat} (h : getF s Reg.fwTestResult = 1) :
    testComplete n s = setF (setF s Reg.fwTestResult (if n = 0 then 2 else 3)) Reg.fwTestDetail (satTo 16 n) := if_pos h

/-- Settles O18: a drain by whether it is refused, a test by the unit that it names, and the other commands by what they mark. -/
theorem firmwareSites : Obligations.FirmwareSites := by
  intro s hr
  refine ⟨fun i hi hd h => ?drain, fun i hi hd h => ?refused, ?cancel, fun i hi h => ?unfence,
    fun k u => fun hi => ⟨fun hu => ?noUnit, fun hu hf => ?serving, fun hu hf => ?test⟩, fun n h => ?complete⟩
  case drain => exact congrArg Host.Outcome.next (drain_of_begun hr hi hd h)
  case refused => exact congrArg Host.Outcome.next (drain_of_refused hr hi hd h)
  case cancel => exact congrArg Host.Outcome.next (if_pos hr)
  case unfence => exact congrArg Host.Outcome.next (unfence_of_fenced hr hi h)
  case noUnit => exact congrArg Host.Outcome.next ((testStart_of_idle hr hi k u).trans (if_neg (Bool.eq_false_iff.1 hu)))
  case serving =>
    exact congrArg Host.Outcome.next ((testStart_of_idle hr hi k u).trans ((if_pos hu).trans (if_neg (Bool.eq_false_iff.1 hf))))
  case test => exact congrArg Host.Outcome.next ((testStart_of_idle hr hi k u).trans ((if_pos hu).trans (if_pos hf)))
  case complete => exact congrArg Host.Outcome.next (testComplete_of_running h)

end Sys2Proof.Machine

/-! SETTLED. The job commands, and the records of failures and events. -/
namespace Sys2Proof.Machine
open Sys2Proof

theorem jobCmd_of_idle {s : State} {op : Nat} (hj : s.fw.jobCmd = none) (h0 : 0 < op) (h3 : op ≤ 3) (id gen : Nat) :
    jobCmd s op id gen = modFw s (fun f => { f with jobCmd := some (op, id % 2 ^ 32, gen % 2 ^ 16) }) :=
  if_neg (by rw [hj]; simp only [Option.isSome_none, Bool.false_or, Bool.or_eq_true, decide_eq_true_eq]; omega)

section
variable {s : State}

/-- No job command is in progress any more. -/
def jobIdle (s : State) : State := modFw s (fun f => { f with jobCmd := none })

theorem jobRecordWritten_of_attach {id gen : Nat} (h : s.fw.jobCmd = some (1, id, gen)) :
    jobRecordWritten s =
      let t := jobStatus (jobIdle s) (attachStatus (jobIdle s) id gen).code
      if attachStatus (jobIdle s) id gen = .ok then
        modCrown t (fun c => { c with attach := some (id, gen), closed := if closedIs t id then none else c.closed })
      else t := by
  rw [jobRecordWritten, h]
  rfl

theorem jobRecordWritten_of_detach {a b : Nat} (h : s.fw.jobCmd = some (2, a, b)) :
    jobRecordWritten s = jobStatus (modCrown (jobIdle s) (fun c => { c with attach := none })) 0 := by
  rw [jobRecordWritten, h]
  rfl

theorem jobRecordWritten_of_clear {a b : Nat} (h : s.fw.jobCmd = some (3, a, b)) (ha : s.crown.attach = none) :
    jobRecordWritten s = jobStatus (modCrown (jobIdle s) (fun c => { c with closed := none })) 0 := by
  rw [jobRecordWritten, h]
  exact if_neg (by change ¬ s.crown.attach.isSome = true; rw [ha]; decide)

theorem failureRecordWritten_of_target {trig r : Nat} (hc : s.crown.capture = some trig) (hv : s.power.vddMgmt = true)
    (ht : frecTarget s = some r) :
    failureRecordWritten s =
      let b := frecBytes s
      let t := modCrown b.1 (fun c => { c with
        capture := none, snapshot := [], frecSeq := c.frecSeq + 1, frecs := mput c.frecs r ⟨c.frecSeq, trig, tickOf s, false, b.2⟩ })
      crownEvent t 0x0901 1 (frecWord t) := by
  simp only [failureRecordWritten, hc, hv, ht, Bool.not_true, Bool.false_eq_true, if_false]

theorem failureRecordWritten_of_full {trig : Nat} (hc : s.crown.capture = some trig) (hv : s.power.vddMgmt = true)
    (ht : frecTarget s = none) :
    failureRecordWritten s =
      let t := bump (modCrown s (fun c => { c with capture := none, snapshot := [] })) Reg.crnFrecMissed
      crownEvent t 0x0901 1 (frecWord t) := by
  simp only [failureRecordWritten, hc, hv, ht, Bool.not_true, Bool.false_eq_true, if_false]

theorem eventLogWrite_of_buffered {e : CrownEvt} {r : List CrownEvt} (hb : s.crown.buffer = e :: r) (hv : s.power.vddMgmt = true) :
    eventLogWrite s = modCrown s (fun c => { c with buffer := r, log := logPut c.log e }) := by
  rw [eventLogWrite, hb]
  exact if_pos hv

end

/-- Settles O19: a job command as it is asked for and as its record is written, and a failure record by the slot it gets. -/
theorem jobsAndRecords : Obligations.JobsAndRecords := by
  intro s
  refine ⟨fun hr hj => ⟨fun id gen => ?ask, ?askDetach, ?askClear⟩, fun id gen h ho => ?attached, fun id gen h ho => ?notAttached,
    fun a b h => ?detached, fun a b h ha => ?cleared, fun hl hp => ?capture, fun trig r hc hv ht => ?record, fun trig hc hv ht => ?missed,
    fun e r hb hv => ?event⟩
  case ask => exact congrArg Host.Outcome.next ((if_pos hr).trans (jobCmd_of_idle hj (by decide) (by decide) id gen))
  case askDetach => exact congrArg Host.Outcome.next ((if_pos hr).trans (jobCmd_of_idle hj (by decide) (by decide) 0 0))
  case askClear => exact congrArg Host.Outcome.next ((if_pos hr).trans (jobCmd_of_idle hj (by decide) (by decide) 0 0))
  case attached =>
    refine congrArg Host.Outcome.next ((jobRecordWritten_of_attach h).trans ((if_pos ho).trans ?_))
    rw [show attachStatus (jobIdle s) id gen = .ok from ho]
    rfl
  case notAttached => exact congrArg Host.Outcome.next ((jobRecordWritten_of_attach h).trans (if_neg ho))
  case detached => exact congrArg Host.Outcome.next (jobRecordWritten_of_detach h)
  case cleared => exact congrArg Host.Outcome.next (jobRecordWritten_of_clear h ha)
  case capture => exact congrArg Host.Outcome.next (if_pos (by rw [hl, hp]; rfl))
  case record => exact congrArg Host.Outcome.next (failureRecordWritten_of_target hc hv ht)
  case missed => exact congrArg Host.Outcome.next (failureRecordWritten_of_full hc hv ht)
  case event => exact congrArg Host.Outcome.next (eventLogWrite_of_buffered hb hv)

end Sys2Proof.Machine

/-! SETTLED. Timeouts of work, resets of engines and watchdogs of the control cores. -/
namespace Sys2Proof.Machine
open Sys2Proof

/-- A work number whose work completes TIMEOUT, where it is still at work. -/
def giveUp (s : State) (i : Nat) : State := match workOf s i with | some w => timeoutWork s w | none => s

section
variable {s : State} (hr : fwRuns s = true)
include hr

theorem descriptorTimeout_of_expired {i : Nat} {w : Work} (hw : workOf s i = some w) (he : descExpired s w = true)
    (ha : s.fw.aborting.any (fun a => a.2.2 = i) = false) (wedged : Option Engine) :
    descriptorTimeout i wedged s =
      (wedged.map (fun e => modFw s (fun f => { f with aborting := f.aborting ++ [(e, tickOf s, i)] }))).getD (timeoutWork s w) := by
  unfold descriptorTimeout
  rw [hw]
  refine (if_neg (by rw [hr, he, ha]; decide)).trans ?_
  cases wedged <;> rfl

theorem engineReset_of_overdue {e : Engine} (hok : engineOk e = true)
    (hd : s.fw.aborting.any (fun a => a.1 = e && decide (tickOf s ≥ a.2.1 + 1000)) = true)
    (hi : s.fw.inReset.any (fun x => x.1 = e) = false) :
    engineReset e s =
      let t := modFw (bump s Reg.fwRecoverEngineResets) (fun f => { f with
        aborting := f.aborting.filter (fun a => a.1 != e), inReset := f.inReset ++ [(e, tickOf s)] })
      (s.fw.aborting.filter (fun a => a.1 = e)).foldl (fun t a => giveUp t a.2.2) (engineClear (crownEventOpen t 0x0701 1) e) :=
  if_neg (by rw [hr, hok, List.any_filter, hd, hi]; decide)

/-- What an expiry of a core's watchdog gives up: the core, its work and its moves. -/
def coreGivenUp (s : State) (core : Nat) (ws ms : List Nat) : State :=
  ms.foldl abandonMove (ws.foldl giveUp (setF s Reg.fwStatusCores (setBit (getF s Reg.fwStatusCores) core false)))

/-- The expiries of a core within the window, the new one first. -/
def coreExpiries (s : State) (core : Nat) (ws ms : List Nat) : List Nat :=
  tickOf (coreGivenUp s core ws ms) ::
    ((mget s.fw.expiries core).getD []).filter (fun t => decide (t + atLeast1 s Reg.fwAutoWindow ≥ tickOf s))

theorem coreWatchdogExpiry_of_core {core : Nat} (hc : core ≤ 15) (hb : (getF s Reg.fwStatusCores).testBit core = true) (ws ms : List Nat) :
    coreWatchdogExpiry core ws ms s =
      let now := coreExpiries s core ws ms
      let t := modFw (coreGivenUp s core ws ms) (fun f => { f with
        expiries := mput f.expiries core now, stopped := if now.length ≥ 3 then sinsert f.stopped core else f.stopped })
      if now.length ≥ 3 then t else crownEventOpen (bump t Reg.fwRecoverCoreRestarts) 0x0701 1 :=
  if_neg (by rw [hr, hb]; simp only [Bool.not_true, Bool.false_or, Bool.or_false, decide_eq_true_eq]; omega)

theorem coreWatchdogExpiry_of_restart {core : Nat} (hc : core ≤ 15) (hb : (getF s Reg.fwStatusCores).testBit core = true) {ws ms : List Nat}
    (h : (coreExpiries s core ws ms).length < 3) :
    coreWatchdogExpiry core ws ms s =
      crownEventOpen (bump (modFw (coreGivenUp s core ws ms) (fun f => { f with
        expiries := mput f.expiries core (coreExpiries s core ws ms), stopped := f.stopped })) Reg.fwRecoverCoreRestarts) 0x0701 1 := by
  have hn : ¬ (coreExpiries s core ws ms).length ≥ 3 := Nat.not_le.2 h
  rw [coreWatchdogExpiry_of_core hr hc hb]
  simp only [hn, if_false]

theorem coreWatchdogExpiry_of_third {core : Nat} (hc : core ≤ 15) (hb : (getF s Reg.fwStatusCores).testBit core = true) {ws ms : List Nat}
    (h : 3 ≤ (coreExpiries s core ws ms).length) :
    coreWatchdogExpiry core ws ms s =
      modFw (coreGivenUp s core ws ms) (fun f => { f with
        expiries := mput f.expiries core (coreExpiries s core ws ms), stopped := sinsert f.stopped core }) := by
  have hn : (coreExpiries s core ws ms).length ≥ 3 := h
  rw [coreWatchdogExpiry_of_core hr hc hb]
  simp only [hn, if_true]

theorem coreRestartComplete_of_started {core : Nat} (hc : core ≤ 15) (h : s.fw.stopped.contains core = false) :
    coreRestartComplete core s = setF s Reg.fwStatusCores (setBit (getF s Reg.fwStatusCores) core true) :=
  if_neg (by rw [hr, h]; simp only [Bool.not_true, Bool.false_or, Bool.or_false, decide_eq_true_eq]; omega)

end

theorem coreRestartComplete_of_stopped {s : State} {core : Nat} (h : s.fw.stopped.contains core = true) : coreRestartComplete core s = s :=
  if_pos (by rw [h, Bool.or_true])

/-- Settles O20: a timeout by the engine that is wedged, an expiry by the number of them in the window. -/
theorem firmwareRecovery : Obligations.FirmwareRecovery := by
  intro s hr
  refine ⟨fun i w hw he ha => ⟨?released, fun e => ?wedged⟩, fun e hok hd hi => ?reset, fun e => rfl,
    fun core ws ms hc hb => ⟨fun h => ?restart, fun h => ?third⟩, fun core hc h => ?started, fun core h => ?stopped⟩
  case released => exact congrArg Host.Outcome.next (descriptorTimeout_of_expired hr hw he ha none)
  case wedged => exact congrArg Host.Outcome.next (descriptorTimeout_of_expired hr hw he ha (some e))
  case reset => exact congrArg Host.Outcome.next (engineReset_of_overdue hr hok hd hi)
  case restart => exact congrArg Host.Outcome.next (coreWatchdogExpiry_of_restart hr hc hb h)
  case third => exact congrArg Host.Outcome.next (coreWatchdogExpiry_of_third hr hc hb h)
  case started => exact congrArg Host.Outcome.next (coreRestartComplete_of_started hr hc h)
  case stopped => exact congrArg Host.Outcome.next (coreRestartComplete_of_stopped h)

end Sys2Proof.Machine

/-! SETTLED. Power-on, the resets as they take effect, and the removal of VDD_MGMT. -/
namespace Sys2Proof.Machine
open Sys2Proof

section
variable {s : State}

theorem powerOn_of_unpowered (h : s.power.vddMgmt = false) :
    powerOn s =
      let t := { s with now := 0, power := { powerReset with causes := 1, resetNLow := s.power.resetNLow } }
      modPower (crownEventOpen (closeJob t) 0x0201 1) (fun p => { p with causes := 0 }) :=
  if_neg (Bool.eq_false_iff.1 h)

theorem warmResetPreparation_of_prepares {n : Nat} (hl : live s = true) (hw : s.power.warmPend = true) (hd : s.power.prepDone = false)
    (hf : s.power.flushing = false) (hp : prepares s = true) (ho : prepOver s = false) :
    warmResetPreparation n s =
      modPower (mapFlush (abandonMoves (foldCommitted (stopWork s))) n) (fun p => { p with prepDone := true }) :=
  if_neg (by rw [hl, hw, hd, hf, hp, ho]; decide)

/-- A warm reset is applied where its preparation is done, is none of this node's, or took longer than it may. -/
theorem warmReset_of_prepared (hl : live s = true) (hw : s.power.warmPend = true) (hf : s.power.flushing = false)
    (h : s.power.prepDone = true ∨ prepares s = false ∨ prepOver s = true) : warmReset s = doWarm s := by
  have hready : (s.power.prepDone || !(prepares s) || prepOver s) = true := by
    simpa only [Bool.or_eq_true, Bool.not_eq_true', or_assoc] using h
  exact if_neg (by rw [hl, hw, hf, hready]; decide)

theorem warmReset_of_preparing (hd : s.power.prepDone = false) (hp : prepares s = true) (ho : prepOver s = false) : warmReset s = s :=
  if_pos (by rw [hd, hp, ho]; exact Bool.or_true _)

theorem coldReset_of_pending (hl : live s = true) (hc : s.power.coldPend = true) (hf : s.power.flushing = false) : coldReset s = doCold s :=
  if_neg (by rw [hl, hc, hf]; decide)

theorem feltOnlyReset_of_pending (hl : live s = true) (hp : s.power.feltPend = true) (hw : s.power.warmPend = false)
    (hc : s.power.coldPend = false) (hf : s.power.flushing = false) (h9 : getF s Reg.rstStatusStep = 9) :
    feltOnlyReset s =
      let t := (s.felt.images.map (·.1)).foldl feltDrop s
      let t := modFelt { t with flds := t.flds.filter (fun f => !(feltClears f.1)) } (fun f => { f with faultImg := 0, faultCyc := 0 })
      modPower (recordReset (alignAsk (setStage (applyFences (dropResident t))) true) 3) (fun p => { p with feltPend := false, causes := 0 }) :=
  if_neg (by rw [hl, hp, hw, hc, hf, h9]; decide)

theorem vddMgmtRemoved_of_powered (h : s.power.vddMgmt = true) :
    vddMgmtRemoved s =
      let t := clearBlocks (if s.power.tripped then emit s (.pin "THERMTRIP_N" true) else s) true
      { t with
        flds := fldsReset, crown := crownCold s, host := { hostReset with perstLow := s.host.perstLow },
        power := { powerReset with vddMgmt := false, resetNLow := s.power.resetNLow } } :=
  if_neg (by rw [h]; decide)

end

/-- Settles O22: each reset by what pends it, and the warm one by how far its preparation is. -/
theorem resetsApplied : Obligations.ResetsApplied := by
  intro s
  refine ⟨fun h => ?on, fun n hl hw hd hf hp ho => ?preparation, fun hl hw hf h => ?warm, fun _ _ hd hp ho => ?preparing,
    fun hl hc hf => ?cold, fun hl hp hw hc hf h9 => ?felt, fun h => ?removed⟩
  case on => exact congrArg Host.Outcome.next (powerOn_of_unpowered h)
  case preparation => exact congrArg Host.Outcome.next (warmResetPreparation_of_prepares hl hw hd hf hp ho)
  case warm => exact congrArg Host.Outcome.next (warmReset_of_prepared hl hw hf h)
  case preparing => exact congrArg Host.Outcome.next (warmReset_of_preparing hd hp ho)
  case cold => exact congrArg Host.Outcome.next (coldReset_of_pending hl hc hf)
  case felt => exact congrArg Host.Outcome.next (feltOnlyReset_of_pending hl hp hw hc hf h9)
  case removed => exact ⟨_, congrArg Host.Outcome.next (vddMgmtRemoved_of_powered h), rfl, rfl, rfl, rfl, rfl, rfl⟩

end Sys2Proof.Machine

/-! SETTLED. The steps of start-up. -/
namespace Sys2Proof.Machine
open Sys2Proof

/-- What start-up does in a step that nothing holds back. -/
def startupStep (s : State) (p : StartPar) (n : Nat) : State :=
  match n with
  | 1 => step1 s p
  | 2 => step2 s p
  | 3 => step3 s p
  | 4 => step4 s p
  | 5 => step5 s p
  | 6 => step6 s
  | 7 => step7 s p
  | 8 => step8 s p
  | 9 => linkUp s p
  | _ => s

/-- RESET_N low holds start-up up to step 2, and a step that has failed, step 2 apart, stays. -/
theorem startupStepComplete_of_free {s : State} {p : StartPar} (hl : live s = true) (hc : s.power.coldPend = false)
    (hw : s.power.warmPend = false) (hh : s.power.halted = false) (hf : s.power.flushing = false)
    (hr : s.power.resetNLow = true → 2 < getF s Reg.rstStatusStep)
    (hfail : getF s Reg.rstStatusFail = getF s Reg.rstStatusStep → getF s Reg.rstStatusStep = 2) {n : Nat}
    (hn : getF s Reg.rstStatusStep = n) :
    startupStepComplete p s = startupStep s p n := by
  subst hn
  refine if_neg ?_
  simp only [hl, hc, hw, hh, hf, Bool.not_true, Bool.false_or, Bool.or_eq_true, Bool.and_eq_true, decide_eq_true_eq, bne_iff_ne]
  rintro (⟨hlow, hle⟩ | ⟨heq, hne⟩)
  · exact Nat.not_le.2 (hr hlow) hle
  · exact hne (hfail heq)

section
variable {s : State} {p : StartPar}

theorem step2_of_regulated (h : getF s Reg.rstRailOk = 2 ^ 16 - 1) : step2 s p = toStep s 3 := if_pos h

theorem step2_of_late (h : getF s Reg.rstRailOk ≠ 2 ^ 16 - 1) (hl : p.late = true) : step2 s p = stepFail s 2 :=
  (if_neg h).trans (if_pos hl)

theorem step3_of_locked (h : p.pll = true) : step3 s p =
    toStep (modPower { s with bow := { bowReset with refPresent := s.bow.refPresent } } (fun q => { q with pllTries := 0 })) 4 := if_pos h

theorem step5_of_cores (h : p.cores = true) : step5 s p =
    let t := modTiers s (fun t => { t with home := t.home.map (fun e => (e.1, { e.2 with pins := 0 })) })
    alignAsk (toStep (slotBooted t) 6) false := if_pos h

theorem step6_of_aligned (h : s.bow.align = none) : step6 s = toStep s 7 := if_pos (by rw [h]; rfl)

theorem step8_of_over (h : p.link = true ∨ p.late = true) : step8 s p =
    linkUp (setF (toStep s 9) Reg.rstStatusStartMs (min 65535 (showUnits (s.now - s.power.startTick) 1000))) p :=
  if_pos (by rwa [Bool.or_eq_true])

theorem linkUp_of_link (h : p.link = true) (hp : s.host.perstLow = false) : linkUp s p = modHost s (fun h => { h with linkUp := true }) :=
  if_pos (by rw [h, hp]; rfl)

end

/-- Settles O23: one step at a time, by what the step waits for. -/
theorem startupSteps : Obligations.StartupSteps := by
  intro s p hl hc hw hh hf n hr hfail
  have run {k : Nat} (hn : n = k) {t : State} (ht : startupStep s p k = t) : exec (.startupStepComplete p) s = .next t :=
    congrArg Host.Outcome.next ((startupStepComplete_of_free hl hc hw hh hf hr hfail hn).trans ht)
  exact ⟨fun hn => run hn rfl, fun hn h => run hn (step2_of_regulated h), fun hn h hlate => run hn (step2_of_late h hlate),
    fun hn h => run hn (step3_of_locked h), fun hn => run hn rfl, fun hn h => run hn (step5_of_cores h),
    fun hn h => run hn (step6_of_aligned h), fun hn => run hn rfl, fun hn h => run hn (step8_of_over h),
    fun hn h hp => run hn (linkUp_of_link h hp)⟩

end Sys2Proof.Machine
